-- ==== Sys2Proof/Word.lean ====
section
/-! DEFINITION. The word types of the model: a register of BAR0 is 32 bits (R37), memory is bytes. -/

namespace Sys2Proof

/-- A 32-bit register word (R37). -/
abbrev Word := BitVec 32

/-- One byte. -/
abbrev Byte := BitVec 8

end Sys2Proof
end

