-- ==== Sys2Proof/Syntax.lean ====
section
/-! DEFINITION. The commands of the block: one constructor per row of spec/opcode_table.json, in its order.  Operands are what the outside
supplies: the numbers a row names, the words and bytes an access carries, and what the analogue and physical parts have found. -/

namespace Sys2Proof

/-- The commands (spec/95). -/
inductive Instr where
  /-- NOP (R396): Command that does nothing and completes OK. -/
  | nop (sq : Nat)
  /-- FENCE (R401): Command that completes after every earlier command of its ring and holds back later ones. -/
  | fence (sq : Nat)
  /-- FRAME_OPEN (R181): Command that arms the open condition chosen by FRAME_CFG.OPEN_SRC, or opens the frame at once. -/
  | frameOpen (sq : Nat)
  /-- FRAME_CLOSE (R182): Command that closes the open frame, or cancels an armed open, and completes when the pod is delivered. -/
  | frameClose (sq : Nat)
  /-- STREAM_SET (R396): Command that writes masked ST configuration words and may request a commit. -/
  | streamSet (sq : Nat)
  /-- STREAM_BIND (R543): Command that binds a stream to a ring or context, or unbinds it, with an admission check. -/
  | streamBind (sq : Nat)
  /-- TRIG_SET (R396): Command that writes masked TU, definition or term words and may request a commit. -/
  | trigSet (sq : Nat)
  /-- CAL_RUN (R123): Command that runs a DELTA, FULL or RECOVERY calibration on the masked channels. -/
  | calRun (sq : Nat)
  /-- CAL_SAVE (R124): Command that writes the effective calibration values of the named dies as a set half in flash. -/
  | calSave (sq : Nat)
  /-- CAL_LOAD (R125): Command that reloads all sets, zeroes the deltas and runs FULL runs on every enabled channel. -/
  | calLoad (sq : Nat)
  /-- HBM_FILL (R397): Command that fills a range in the shell's HBM windows with a repeated pattern. -/
  | hbmFill (sq : Nat)
  /-- HBM_COPY (R397): Command that copies data within HBM, or between host memory and HBM. -/
  | hbmCopy (sq : Nat) (data : List Byte)
  /-- FLASH_WRITE (R417): Command that verifies an image or key and writes it to a flash region. -/
  | flashWrite (sq : Nat) (data : List Byte)
  /-- QP_CREATE (R399): Command that reads a parameter block and creates a queue pair or UDP flow. -/
  | qpCreate (sq : Nat) (data : List Byte)
  /-- QP_DESTROY (R396): Command that unbinds a context's streams, releases their charges and frees the context. -/
  | qpDestroy (sq : Nat)
  /-- LINK_REMOTE (R324): Command that sends an RREQ to a device of the Filmund domain and completes on its response. -/
  | linkRemote (sq : Nat)
  /-- POWER_STATE (R456): Command that requests a move to DORMANT, STANDBY or READY. -/
  | powerState (sq : Nat)
  /-- TIME_SET (R253): Command that sets Q-time, or the seconds that the next PPS_IN edge takes. -/
  | timeSet (sq : Nat)
  /-- MON_READ (R470): Command that requests a monitor conversion, possibly URGENT, and returns its code. -/
  | monRead (sq : Nat)
  /-- SHELL_OPEN (R391): Command that opens a shell, negotiates its Sarlas version and publishes a generation. -/
  | shellOpen (sq : Nat)
  /-- SHELL_CLOSE (R446): Command that closes a shell, returns its resources to the supervisor and revokes its work. -/
  | shellClose (sq : Nat)
  /-- SHELL_EDIT (R449): Command that writes words of a shell entry and publishes a new generation. -/
  | shellEdit (sq : Nat)
  /-- CUSTOMER_OPCODE (R420): Command with opcode 0x0080 to 0x00BF that runs an entry point of a customer image. -/
  | customerOpcode (sq : Nat)
  /-- RESERVED_OPCODE_COMMAND (R393): Command whose opcode is reserved or not defined at the shell's version, which completes VERSION. -/
  | reservedOpcodeCommand (sq : Nat)
  /-- COMMAND_TAKE (R400): The device takes a posted command from a shell's command ring into the dispatch queue, when the in-flight and queue limits allow. -/
  | commandTake
  /-- COMMAND_DISPATCH (R402): The dispatcher gives a queued command to the enabled sequencer that holds the fewest commands. -/
  | commandDispatch
  /-- SEQUENCER_STEP (R402): A sequencer starts the next step of one of its held commands at a step boundary. -/
  | sequencerStep (sq : Nat)
  /-- ADD (R410): Microword that adds two registers, wrapping, and sets V on signed overflow. -/
  | add (sq rd rs rt : Nat)
  /-- SUB (R410): Microword that subtracts two registers, wrapping, and sets V on signed overflow. -/
  | sub (sq rd rs rt : Nat)
  /-- AND (R410): Microword that takes the bitwise AND of two registers. -/
  | and (sq rd rs rt : Nat)
  /-- OR (R410): Microword that takes the bitwise OR of two registers. -/
  | or (sq rd rs rt : Nat)
  /-- XOR (R410): Microword that takes the bitwise XOR of two registers. -/
  | xor (sq rd rs rt : Nat)
  /-- SLL (R411): Microword that shifts left logically by a register amount. -/
  | sll (sq rd rs rt : Nat)
  /-- SRL (R411): Microword that shifts right logically by a register amount. -/
  | srl (sq rd rs rt : Nat)
  /-- SRA (R411): Microword that shifts right arithmetically by a register amount. -/
  | sra (sq rd rs rt : Nat)
  /-- ROR (R411): Microword that rotates right by a register amount modulo 32. -/
  | ror (sq rd rs rt : Nat)
  /-- MUL (R410): Microword that returns the low 32 bits of a product. -/
  | mul (sq rd rs rt : Nat)
  /-- MULH (R410): Microword that returns the signed high 32 bits of a product. -/
  | mulh (sq rd rs rt : Nat)
  /-- MULHU (R410): Microword that returns the unsigned high 32 bits of a product. -/
  | mulhu (sq rd rs rt : Nat)
  /-- DIV (R411): Microword for signed division truncating toward zero, with the edge results of divide by zero and overflow. -/
  | div (sq rd rs rt : Nat)
  /-- REM (R411): Microword for the signed remainder, with its edge results. -/
  | rem (sq rd rs rt : Nat)
  /-- DIVU (R411): Microword for unsigned division, giving 0xFFFF_FFFF and DZ on a zero divisor. -/
  | divu (sq rd rs rt : Nat)
  /-- REMU (R411): Microword for the unsigned remainder, giving the dividend and DZ on a zero divisor. -/
  | remu (sq rd rs rt : Nat)
  /-- SLT (R410): Microword for a signed less-than comparison. -/
  | slt (sq rd rs rt : Nat)
  /-- SLTU (R410): Microword for an unsigned less-than comparison. -/
  | sltu (sq rd rs rt : Nat)
  /-- NEG (R411): Microword that negates a register, setting V for 0x8000_0000. -/
  | neg (sq rd rs rt : Nat)
  /-- ADDI (R410): Microword that adds a sign-extended immediate and sets V on overflow. -/
  | addi (sq rd rs imm : Nat)
  /-- ANDI (R410): Microword that takes the AND with a zero-extended immediate. -/
  | andi (sq rd rs imm : Nat)
  /-- ORI (R410): Microword that takes the OR with a zero-extended immediate. -/
  | ori (sq rd rs imm : Nat)
  /-- XORI (R410): Microword that takes the XOR with a zero-extended immediate. -/
  | xori (sq rd rs imm : Nat)
  /-- SLLI (R411): Microword that shifts left logically by an immediate. -/
  | slli (sq rd rs imm : Nat)
  /-- SRLI (R411): Microword that shifts right logically by an immediate. -/
  | srli (sq rd rs imm : Nat)
  /-- SRAI (R411): Microword that shifts right arithmetically by an immediate. -/
  | srai (sq rd rs imm : Nat)
  /-- RORI (R411): Microword that rotates right by an immediate modulo 32. -/
  | rori (sq rd rs imm : Nat)
  /-- LUI (R410): Microword that loads an immediate into the upper 16 bits. -/
  | lui (sq rd imm : Nat)
  /-- SLTI (R410): Microword for a signed compare with an immediate. -/
  | slti (sq rd rs imm : Nat)
  /-- SLTIU (R410): Microword for an unsigned compare with a sign-extended immediate. -/
  | sltiu (sq rd rs imm : Nat)
  /-- LW (R408): Microword that loads a word from local memory, forwarding from or stalling on the store buffer. -/
  | lw (sq rd rs imm ret : Nat)
  /-- LH (R408): Microword that loads a sign-extended halfword from local memory. -/
  | lh (sq rd rs imm ret : Nat)
  /-- LHU (R408): Microword that loads a zero-extended halfword from local memory. -/
  | lhu (sq rd rs imm ret : Nat)
  /-- LB (R408): Microword that loads a sign-extended byte from local memory. -/
  | lb (sq rd rs imm ret : Nat)
  /-- LBU (R408): Microword that loads a zero-extended byte from local memory. -/
  | lbu (sq rd rs imm ret : Nat)
  /-- SW (R408): Microword that stores a word into the store buffer. -/
  | sw (sq rd rs imm ret : Nat)
  /-- SH (R408): Microword that stores a halfword into the store buffer. -/
  | sh (sq rd rs imm ret : Nat)
  /-- SB (R408): Microword that stores a byte into the store buffer. -/
  | sb (sq rd rs imm ret : Nat)
  /-- LDC (R409): Microword that reads a BAR0 word with the shell's rights. -/
  | ldc (sq rd rs imm cyc : Nat) (tmo : Bool)
  /-- STC (R409): Microword that writes a BAR0 word with the shell's rights. -/
  | stc (sq rd rs imm : Nat) (tmo : Bool)
  /-- DMA (R410): Microword that starts a fabric transfer and returns its handle. -/
  | dma (sq rd rs imm : Nat)
  /-- SBDRAIN (R410): Microword that waits until the store buffer is empty. -/
  | sbdrain (sq : Nat)
  /-- BEQ (R410): Microword that branches if two registers are equal. -/
  | beq (sq rd rs imm : Nat)
  /-- BNE (R410): Microword that branches if two registers differ. -/
  | bne (sq rd rs imm : Nat)
  /-- BLT (R410): Microword that branches on signed less-than. -/
  | blt (sq rd rs imm : Nat)
  /-- BGE (R410): Microword that branches on signed greater-or-equal. -/
  | bge (sq rd rs imm : Nat)
  /-- BLTU (R410): Microword that branches on unsigned less-than. -/
  | bltu (sq rd rs imm : Nat)
  /-- BGEU (R410): Microword that branches on unsigned greater-or-equal. -/
  | bgeu (sq rd rs imm : Nat)
  /-- JAL (R410): Microword that jumps relative to pc and links. -/
  | jal (sq rd imm : Nat)
  /-- JALR (R410): Microword that jumps to a register plus displacement and links. -/
  | jalr (sq rd rs imm : Nat)
  /-- YIELD (R402): Microword that drains the store buffer and ends the step, resuming at pc + 1. -/
  | yield (sq : Nat)
  /-- WAIT (R403): Microword that ends the step until a DMA handle, a delay or an event condition holds. -/
  | wait (sq rs cond : Nat)
  /-- DONE (R402): Microword that completes the command with a status and a result. -/
  | done (sq rd rs : Nat)
  /-- CSRR (R410): Microword that reads a CSR. -/
  | csrr (sq rd csr : Nat)
  /-- CSRW (R410): Microword that writes a CSR. -/
  | csrw (sq rs csr : Nat)
  /-- CLRF (R410): Microword that clears the DZ and V flags. -/
  | clrf (sq : Nat)
  /-- ILLEGAL (R412): A reserved opcode, malformed register form or reserved CSR faults and ends the step. -/
  | illegal (sq word : Nat)
  /-- STEP_OVERRUN (R412): A customer step that reaches the 2 µs step limit faults. -/
  | stepOverrun (sq : Nat)
  /-- DMA_DONE (R403): A sequencer DMA transfer completes and releases the command waiting on its handle. -/
  | dmaDone (sq handle dst addr : Nat) (data : List Byte)
  /-- BLK_CTRL_EN (R44): A write of BLK_CTRL.EN enables a block or stops it at its next safe point. -/
  | blkCtrlEn (fn page : Nat) (en : Bool)
  /-- SRST (R45): A write of 1 to BLK_CTRL.SRST starts a soft reset of the block page. -/
  | srst (fn page : Nat)
  /-- SOFT_RESET_DONE (R45): A block soft reset completes and SRST and RESET_BUSY clear. -/
  | softResetDone (off : Nat)
  /-- COMMIT (R53): A write of 1 to BLK_CTRL.COMMIT requests that the page's shadows apply at its commit point. -/
  | commit (fn page : Nat)
  /-- FREEZE (R50): A write of BLK_CTRL.FREEZE holds or releases the readable snapshot of counters and RC fields. -/
  | freeze (fn page : Nat) (v : Bool)
  /-- EVT_RAW_CLEAR (R64): A W1C write clears event bits of EVT_RAW, a same-cycle occurrence winning. -/
  | evtRawClear (fn page : Nat) (v : Word)
  /-- EVT_EN_WRITE (R56): A write of EVT_EN enables event sources, delivering any whose raw bit is set. -/
  | evtEnWrite (fn page : Nat) (v : Word)
  /-- EVT_FORCE (R56): A write of EVT_FORCE sets EVT_RAW bits as occurrences would. -/
  | evtForce (fn page : Nat) (v : Word)
  /-- ERR_INFO_CLEAR (R46): A write of 1 to ERR_INFO.VALID clears the captured error. -/
  | errInfoClear (fn page : Nat)
  /-- COMMIT_CTRL_HOLD (R55): A write of TOP.COMMIT_CTRL.HOLD holds frame-committed commits, or applies them all in one cycle on release. -/
  | commitCtrlHold (fn : Nat) (v : Bool)
  /-- REGISTER_WRITE (R49): A write to any register field without a row of its own acts under its access code. -/
  | registerWrite (fn off width : Nat) (v : BitVec 64)
  /-- RC_FIELD_READ (R50): A read of a read-clear field returns its value and clears it, unless the page is frozen. -/
  | rcFieldRead (fn off width : Nat)
  /-- DENY_LOG_READ (R454): A read of SEC.DENY_LOG removes and returns the oldest denial entry. -/
  | denyLogRead (fn : Nat) (whole : Bool)
  /-- REMOTE_EVT_READ (R331): A read of FLINK EVT_NUM removes the oldest remote event entry. -/
  | remoteEvtRead (fn : Nat)
  /-- LOW_WORD_READ (R51): A read of the low word of a 64-bit register latches its high word for that function. -/
  | lowWordRead (fn off : Nat)
  /-- TIME_NOW_READ (R274): A read of TIME 0x070 latches NOW for the following word reads. -/
  | timeNowRead (fn : Nat)
  /-- LOW_WORD_WRITE (R51): A 32-bit write of the low word of a 64-bit register is held for that function. -/
  | lowWordWrite (fn off : Nat) (v : Word)
  /-- HIGH_WORD_WRITE (R51): A 32-bit write of the high word applies the whole 64-bit value. -/
  | highWordWrite (fn off : Nat) (v : Word)
  /-- SW_TRIG (R134): A write of TEXT.SW_TRIG raises events of software trigger sources. -/
  | swTrig (fn : Nat) (v : Word)
  /-- ACC_EPOCH_GO (R204): A write of ACC.EPOCH_GO closes the named stream's accumulation, envelope and map epochs. -/
  | accEpochGo (fn stream : Nat)
  /-- DIFF_EPOCH_GO (R271): A write of DIFF.EPOCH_GO closes the named pair's histogram epoch. -/
  | diffEpochGo (fn pair : Nat)
  /-- CODE_DENSITY_START (R264): A write of TDC START begins a code-density test on EV0 or EV1. -/
  | codeDensityStart (fn input log2Edges : Nat)
  /-- CD_DONE (R264): A code-density test ends and its table is accepted or rejected. -/
  | cdDone (input : Nat) (codes phases : List Nat)
  /-- SELFCAL (R469): A write of MON.SELFCAL starts a monitor converter self-calibration. -/
  | selfcal (fn : Nat)
  /-- SELFCAL_DONE (R469): A monitor self-calibration ends and its factors are kept or rejected. -/
  | selfcalDone (gain : Nat) (offs : Int)
  /-- RELOCK (R288): A write of CLK.RELOCK starts an SCS lock from RUN. -/
  | relock (fn : Nat)
  /-- SYNC_ARM (R289): A write of CLK.SYNC_ARM arms SYNC_IN in ONCE mode. -/
  | syncArm (fn : Nat)
  /-- RETRAIN (R327): A write of a port's RETRAIN returns the Filmund port to DETECT. -/
  | retrain (fn port : Nat)
  /-- DEV_ID_WRITE (R305): A write of FLINK.DEV_ID changes the identifier and announces it. -/
  | devIdWrite (fn id : Nat)
  /-- UP_PORT_WRITE (R303): A write of FLINK.UP_PORT changes port roles, retraining the ports whose role changes. -/
  | upPortWrite (fn port : Nat)
  /-- RQ_ID_LOOKUP (R331): A write of FLINK.RQ_ID looks up the port recorded for an identifier. -/
  | rqIdLookup (fn id : Nat)
  /-- DB64 (R348): A 64-bit doorbell write posts a new HOST_PTR for a ring. -/
  | db64 (fn shell off width v : Nat)
  /-- DB32 (R348): A 32-bit doorbell write wakes a parked chain. -/
  | db32 (fn shell off width v : Nat)
  /-- RING_ENABLE (R341): A write of a ring slot's EN from 0 to 1 resets its pointers and starts it. -/
  | ringEnable (fn ring : Nat)
  /-- RING_DISABLE (R341): A write of EN to 0 stops the ring, completing its held entries PARTIAL or FLUSHED. -/
  | ringDisable (fn ring : Nat)
  /-- RING_NOTIFY_WRITE (R340): A write of a ring slot's VECTOR or NRING fields, checked against the shell's reach. -/
  | ringNotifyWrite (fn ring : Nat) (v : Word)
  /-- LIMIT_WRITE (R372): A write of a queue-pair context's LIMIT advances the LOG write limit. -/
  | limitWrite (fn ctx : Nat) (v : BitVec 64)
  /-- ROUTING_ENTRY_WRITE (R357): A write of an event routing entry, checked against the writer's reach. -/
  | routingEntryWrite (fn event : Nat) (v : BitVec 64)
  /-- VEC_MAP_WRITE (R337): A write of VEC_BASE or VEC_COUNT assigns a function's MSI-X vector range. -/
  | vecMapWrite (fn : Nat) (v : Word)
  /-- COAL_WRITE (R359): A write of a vector's coalescing count or time, taking effect at its next message. -/
  | coalWrite (fn : Nat) (v : Word)
  /-- MSIX_UNMASK (R359): Unmasking an MSI-X vector sends the message its pending bit holds. -/
  | msixUnmask (fn entry : Nat)
  /-- PWR_WAKE (R462): A write of PWR.WAKE is a host wake to the named state. -/
  | pwrWake (fn target : Nat)
  /-- PUBLISH (R449): A write of SEC.PUBLISH publishes pending shell, window and ownership writes as a new generation. -/
  | publish (fn : Nat)
  /-- DBG_LOCK (R453): A write of SEC.DBG_LOCK locks the debug port until POR_N. -/
  | dbgLock (fn : Nat)
  /-- CORE_RST (R510): A write of TOP.CORE_RST starts a core reset. -/
  | coreRst (fn : Nat)
  /-- FE_RST (R512): A write of TOP.FE_RST starts a front-end-die reset. -/
  | feRst (fn dies : Nat)
  /-- SHELL_RST (R514): A write of TOP.SHELL_RST GO resets the named shell's work. -/
  | shellRst (fn shell : Nat)
  /-- SHELL_RESET_DONE (R514): The work of a reset shell has stopped and BUSY clears. -/
  | shellResetDone (shell : Nat)
  /-- DISP_READY (R489): A write of DISP.READY declares new content ready for the next frame. -/
  | dispReady (fn : Nat)
  /-- REN_START (R495): A write of DISP.REN_START starts a density render into L0. -/
  | renStart (fn : Nat)
  /-- AUX_GO (R487): A write of AUX_GO starts a DisplayPort AUX transaction. -/
  | auxGo (fn cmd addr len : Nat)
  /-- LEG_RELEASE (R130): A write of LEG_RELEASE releases one or all legacy window overrides. -/
  | legRelease (fn : Nat) (v : Word)
  /-- LEGACY_WINDOW_WRITE (R130): A write of a legacy calibration window word overrides every parameter in it. -/
  | legacyWindowWrite (fn word : Nat) (v : Word)
  /-- RCV_GO (R507): A write of FLASH.RCV_GO starts a recovery-mode image write. -/
  | rcvGo (fn region : Nat)
  /-- RCV_DONE (R507): A recovery write ends and RCV_STAT shows its outcome. -/
  | rcvDone (data : List Byte) (worn : Bool)
  /-- ARB_PRIO_WRITE (R430): A write of a requester's ARB.PRIO changes its priority from the next arbitration. -/
  | arbPrioWrite (fn req prio : Nat)
  /-- TIMER_EXP_WRITE (R475): A write of a timer's EXP high word sets its expiry Q-time. -/
  | timerExpWrite (fn timer : Nat) (v : Word)
  /-- TIMER_ARM (R476): A write of a timer's ARM arms it, expiring at once if EXP has passed. -/
  | timerArm (fn timer : Nat) (periodic : Bool)
  /-- XO_AGE_WRITE (R248): A write of TIME.XO_AGE changes the crystal ageing correction as a ramp. -/
  | xoAgeWrite (fn : Nat) (v : Word)
  /-- BAR4_ACCESS (R448): A host access to BAR4 reaches HBM through a valid HOST window or is denied. -/
  | bar4Access (write : Bool) (addr len : Nat) (data : List Byte)
  /-- HISTORY_WRITE (R164): Each CCLK, the corrected samples of every enabled channel are written to its history buffer. -/
  | historyWrite (words : List (List Nat))
  /-- DIE_LINK_LOST (R79): A front-end die link loses training; its channels output NO-DATA and retraining starts. -/
  | dieLinkLost (die : Nat)
  /-- DIE_LINK_RETRAINED (R79): A front-end die link trains again. -/
  | dieLinkRetrained (die attempts : Nat)
  /-- DIE_LINK_TIMEOUT (R79): A die link not retrained within 1 ms starts a front-end-die reset. -/
  | dieLinkTimeout (die : Nat)
  /-- SETTLED (R84): A bank's settling interval after a change ends and SETTLING falls. -/
  | settled (bank : Nat) (vals : List (Nat × Int))
  /-- T_DIE_UPDATE (R99): Every 1 ms the die temperature is updated and the interpolated values and run-due checks follow. -/
  | tDieUpdate (die : Nat)
  /-- CAL_STEP_BOUNDARY (R109): A calibration step ends and pending CAL shadows, window writes and deltas apply. -/
  | calStepBoundary (r : Nat) (vals : List (Nat × Int)) (last : Bool)
  /-- IDLE_BOUNDARY (R109): While no calibration step runs, an idle boundary occurs every 10 µs. -/
  | idleBoundary
  /-- RUN_START (R115): A due calibration run starts at a step boundary or at the end of the drain. -/
  | runStart (die : Nat)
  /-- RUN_DONE (R126): A calibration run ends, updating LAST_RUN and clearing DUE and HARD if all channels succeeded. -/
  | runDone (r : Nat)
  /-- STEP_TMO (R110): A calibration step not ended within CAL_STEP_TMO times out. -/
  | stepTmo (r : Nat)
  /-- RUN_TMO (R110): A channel's measurement not ended within CAL_RUN_TMO times out. -/
  | runTmo (r : Nat)
  /-- STARTUP_CAL_TIMEOUT (R110): Start-up calibration of a die not ended within 700 ms times out. -/
  | startupCalTimeout (die : Nat)
  /-- START_DONE (R107): Start-up calibration of a die completes and its banks stop settling. -/
  | startDone (die : Nat) (vals : List (Nat × Int))
  /-- HANDOVER (R111): Every 500 µs a bank exchanges the waiting slice into the next position and takes another out of service. -/
  | handover (bank : Nat) (vals : List (Nat × Int)) (slope : Bool)
  /-- HOLD_END (R117): A held span ends after the switch back, and CAL_HOLD LOG records are queued. -/
  | holdEnd (chan : Nat)
  /-- TRIGGER_UNIT_SAMPLE (R138): A trigger unit takes a corrected sample, updates its comparators and begins, confirms or cancels decisions. -/
  | triggerUnitSample (tu : Nat)
  /-- TRIG_IN_EDGE (R134): An active edge at a TRIG_IN ball is stamped and raised as a trigger source event. -/
  | trigInEdge (pin c j m : Nat)
  /-- GATE_EDGE (R134): An edge at a GATE ball acts as a trigger source, frame open or close, TDC arming or wake. -/
  | gateEdge (g : Nat) (level : Bool)
  /-- STUCK (R141): A source level active longer than STUCK_TIME is marked stuck. -/
  | stuck (src : Nat)
  /-- SEQ_WAIT_EXPIRY (R145): A sequence definition's wait ends without B at a_A + SEQ_T. -/
  | seqWaitExpiry (d : Nat)
  /-- DEADLINE (R151): A remote provisional trigger unresolved at its anchor plus CONF_DEADLINE counts as cancelled, or kept UNCONF. -/
  | deadline (src line anchor : Nat)
  /-- TRIG_OUT_PULSE_END (R154): A TRIG_OUT or TRIG_CXL pulse ends after WIDTH CCLK periods. -/
  | trigOutPulseEnd (n : Nat) (cxl : Bool)
  /-- REQUEST_ELIGIBLE (R171): A confirmed request becomes eligible once the last sample of its window is readable. -/
  | requestEligible (stream seq : Nat)
  /-- EXTRACTION_START (R22): A free extractor takes the oldest eligible request and starts reading its window. -/
  | extractionStart (extr : Nat)
  /-- CONTINUOUS_SEGMENT (R170): A CONTINUOUS stream reaches a segment boundary and creates the next segment request. -/
  | continuousSegment (stream : Nat)
  /-- EXTRACTION_DONE (R172): An extractor finishes a window, passing its samples through scaler, decimation, density and accumulation. -/
  | extractionDone (extr : Nat)
  /-- BIN_PASS_DONE (R205): An epoch's read-and-clear pass ends and its ACC or DEN record is built. -/
  | binPassDone (den : Bool) (n : Nat)
  /-- RECORD_BUILT (R172): A record builder finishes a record and places it in the stream's egress queue under its buffer policy. -/
  | recordBuilt (stream : Nat)
  /-- PENDING_PIP_QUEUED (R178): A pending pip held outside the queue enters it when room opens. -/
  | pendingPipQueued (stream : Nat)
  /-- STAMP_FLUSH (R266): A STAMP or DIFF entry record closes when DIFF.FLUSH µs have passed since its first entry. -/
  | stampFlush (stream : Nat)
  /-- MON_FLUSH (R474): A MON record closes when MON.FLUSH µs have passed since its first conversion. -/
  | monFlush (stream : Nat)
  /-- TIME_OPEN (R181): An armed TIME open opens the frame when Q-time reaches OPEN_AT. -/
  | timeOpen
  /-- FRAME_DUR_EXPIRY (R182): An open frame closes at t_open + FRAME_DUR. -/
  | frameDurExpiry
  /-- DRAIN_PROVISIONAL_RESOLVED (R184): Every provisional trigger anchored before t_close has resolved and the drain moves on. -/
  | drainProvisionalResolved
  /-- DRAIN_REQUESTS_DONE (R184): Every request of the frame is extracted or reported, and accumulators, maps and partial records are flushed. -/
  | drainRequestsDone
  /-- DRAIN_RECORDS_WRITTEN (R184): Every record of the frame is written on every destination and pods are queued. -/
  | drainRecordsWritten
  /-- POD_DONE (R184): Every pod of the frame is written, per-frame state clears and the controller returns to IDLE. -/
  | podDone
  /-- DRAIN_ABANDONED (R186): A drain not finished within DRAIN_TMO is abandoned for blocked destinations. -/
  | drainAbandoned
  /-- STEER_UPDATE (R247): Every 1 ms the crystal steering word is recomputed. -/
  | steerUpdate (comp servo phase freq : Int)
  /-- SOURCE_QUALIFY (R250): A discipline source becomes qualified, possibly selected. -/
  | sourceQualify (src : Nat) (phase : Int)
  /-- SOURCE_LOST (R250): The selected discipline source is disqualified and the next qualified one is taken, or HOLDOVER entered. -/
  | sourceLost (src : Nat) (phase : Int)
  /-- REVERT_TIMER (R250): A higher-priority source qualified for 10 s with REVERT set is selected. -/
  | revertTimer (phase : Int)
  /-- STEP_DONE (R251): A pending Q-time step is made at the first XCLK period with the frame controller IDLE. -/
  | stepDone
  /-- PPS_IN_EDGE (R249): An active PPS_IN edge is stamped and used for qualification, discipline or TIME_SET. -/
  | ppsInEdge (rising : Bool) (q : Nat) (phase : Int)
  /-- PPS_MISS (R249): No PPS_IN edge arrives within 1.000001 s of the previous one. -/
  | ppsMiss (phase : Int)
  /-- SECOND (R275): Q-time reaches a whole second and PPS_OUT pulses if enabled. -/
  | second
  /-- TIE_MEASURE (R255): Every 1,024 CCLK periods a CCLK edge is measured against Q-time and the tie is refitted. -/
  | tieMeasure (q : Nat)
  /-- EV_EDGE (R261): An edge at an event input is detected, counted if armed and placed in the TDC FIFO. -/
  | evEdge (input : Nat) (falling : Bool) (j m : Nat)
  /-- STAMP_CONVERT (R262): A stamp is taken from a TDC FIFO and converted to Q-time for streams, differences and triggers. -/
  | stampConvert (input : Nat)
  /-- DIFF_EVALUATE (R269): Once local Q-time passes a + WIN_HI the differences engine emits the pair's differences for A stamp a. -/
  | diffEvaluate (pair : Nat)
  /-- TDC_LOCKED (R263): An event input's delay-line loop locks after an SCS lock. -/
  | tdcLocked (input : Nat)
  /-- SCS_SEARCH_DONE (R281): The SCS band search ends and LOCKING begins. -/
  | scsSearchDone (band t : Nat)
  /-- SCS_LOCKING_DONE (R281): The SCS pulls in and SETTLE begins. -/
  | scsLockingDone (t : Nat) (err : Int)
  /-- LOCKING_TIMEOUT (R281): LOCKING not ended within 40 µs returns the loop to SEARCH. -/
  | lockingTimeout (loop : Nat)
  /-- LOCK_FAIL (R281): Three failed lock attempts are captured and the loop retries every 1 ms. -/
  | lockFail (loop : Nat)
  /-- SCS_LOCKED (R282): The SCS ends SETTLE, enters RUN with the grid restored, and ungates its outputs. -/
  | scsLocked (qref per : Nat)
  /-- CPLL_LOCKED (R281): The CPLL ends LOCKING and enters RUN. -/
  | cpllLocked (band : Nat)
  /-- SCS_LOST_REF (R284): REF_IN is lost; the SCS gates its outputs and the device runs as R285 states. -/
  | scsLostRef
  /-- SCS_LOST_LOCK (R284): The SCS loses lock; outputs are gated and SEARCH starts. -/
  | scsLostLock
  /-- REF_RETURN (R286): REF_IN stays in band for 10 ms and REF_OK sets, re-locking if AUTO_RELOCK. -/
  | refReturn (offset : Int)
  /-- CPLL_LOST (R287): The CPLL loses lock and the core die is reset. -/
  | cpllLost
  /-- SYNC_IN_EDGE (R289): An active SYNC_IN edge restarts the output dividers if it acts. -/
  | syncInEdge (rising inPhase : Bool)
  /-- PORT_SIGNAL_DETECT (R299): A Filmund port in DETECT sees signal on both lanes and enters TRAIN. -/
  | portSignalDetect (n : Nat)
  /-- TRAIN_DONE (R299): A Filmund port achieves block lock and deskew and enters NEGOTIATE. -/
  | trainDone (n txDly rxDly : Nat)
  /-- ADVERT (R300): An ADVERT block is received during NEGOTIATE. -/
  | advert (n content : Nat)
  /-- RATE (R298): A RATE block is received and both ends change rate and retrain. -/
  | rate (n ver : Nat)
  /-- IDENTIFY_DONE (R299): A port finishes exchanging TOPO messages and gate levels and enters CALIBRATE. -/
  | identifyDone (n : Nat)
  /-- CALIBRATE_DONE (R299): A port completes its 256 time exchanges and enters ACTIVE. -/
  | calibrateDone (n : Nat)
  /-- PORT_STATE_TIMEOUT (R299): A port state not completed within its limit returns the port to DETECT. -/
  | portStateTimeout (n : Nat)
  /-- PORT_RETRY (R299): A failed or incompatible port retries training after 1 ms or 100 ms. -/
  | portRetry (n : Nat)
  /-- PORT_LOST (R327): A port loses block lock or receives no valid message in time, and returns to DETECT. -/
  | portLost (n : Nat)
  /-- KA_ENTER (R322): A KA_ENTER block moves the port to keep-alive mode. -/
  | kaEnter (n : Nat)
  /-- TRIG_PROV (R318): A TRIG_PROV message is received, forwarded and delivered as an FL source provisional event. -/
  | trigProv (n line src hops anchor : Nat) (crc : Bool)
  /-- TRIG_CONF (R319): A TRIG_CONF message is received, forwarded and delivered as a confirmation or confirmed trigger. -/
  | trigConf (n line src hops anchor : Nat) (crc : Bool)
  /-- TRIG_CXL (R319): A TRIG_CXL message is received, forwarded and cancels its provisional trigger. -/
  | trigCxl (n line src hops anchor : Nat) (crc : Bool)
  /-- GATE (R321): A GATE message is received and forwarded, scheduling the gate line's new level. -/
  | gate (n g : Nat) (level : Bool) (src hops anchor : Nat) (crc : Bool)
  /-- GATE_LEVEL_APPLY (R321): A received gate level takes effect at anchor + GATE_LAT. -/
  | gateLevelApply
  /-- WAKE (R323): A WAKE message wakes a dormant device and is forwarded if flooded. -/
  | wake (n target src dst route hops : Nat) (crc : Bool)
  /-- TIME_REQ (R314): A TIME_REQ from a child is answered with TIME_RESP. -/
  | timeReq (n t2 t3 : Nat) (crc : Bool)
  /-- TIME_RESP (R315): A TIME_RESP gives the child delay and theta for its discipline. -/
  | timeResp (n t2 t3 t4 utc st : Nat) (tai crc : Bool)
  /-- TT_PERIOD (R314): The upstream port's exchange period expires and a TIME_REQ is sent. -/
  | ttPeriod (t1 : Nat)
  /-- RREQ (R324): A remote register request is executed here or forwarded, answered by RRESP. -/
  | rreq (port src dst hops tag op off data : Nat) (crc : Bool)
  /-- RRESP (R325): A remote response completes its LINK_REMOTE or is discarded as late. -/
  | rresp (n src dst hops tag status data : Nat) (crc : Bool)
  /-- REMOTE_TMO (R325): A remote request without response within REMOTE_TMO completes TIMEOUT. -/
  | remoteTmo (tag : Nat)
  /-- KEEPALIVE (R327): A KEEPALIVE message is received, refreshing the port's liveness. -/
  | keepalive (n : Nat) (crc : Bool)
  /-- KEEPALIVE_SEND (R327): An idle port sends a KEEPALIVE every 10 µs in ACTIVE or every 1 ms in keep-alive. -/
  | keepaliveSend (n : Nat)
  /-- TOPO_ANNOUNCE (R305): A TOPO ANNOUNCE records an identifier against its arrival port and is forwarded up. -/
  | topoAnnounce (n src hops : Nat) (crc : Bool)
  /-- TOPO_WITHDRAW (R305): A TOPO WITHDRAW deletes a recorded identifier and is forwarded up. -/
  | topoWithdraw (n src id hops : Nat) (crc : Bool)
  /-- TOPO_ROOT (R306): A TOPO ROOT sets the root identifier and depth, or puts the port in TOPO_ERR. -/
  | topoRoot (n root depth : Nat) (crc : Bool)
  /-- EVENT (R326): An EVENT message is placed in the remote event FIFO or forwarded. -/
  | event (n src dst route hops num : Nat) (crc : Bool)
  /-- ENTRY_TAKE (R345): The device issues the read of the next ring entry or chain descriptor, consuming a credit if paced. -/
  | entryTake (ring : Nat)
  /-- ENTRY_READ_COMPLETE (R345): A ring entry read returns and the device uses, halts on or parks at its content. -/
  | entryReadComplete (ring : Nat) (resp : Option (List Byte))
  /-- READ_FAULT (R343): An entry read without completion within 10 ms halts the ring. -/
  | readFault (ring : Nat)
  /-- CHAIN_REPOLL (R352): A parked chain re-reads its END descriptor after CHAIN_REPOLL. -/
  | chainRepoll (ring : Nat)
  /-- BUFFER_OPEN_READ_DONE (R353): The zero-length read that opens a data buffer completes, and writing starts or ADDR_FAULT follows. -/
  | bufferOpenReadDone (ring : Nat) (ok : Bool)
  /-- RECORD_PLACE (R353): The device writes a queued record into the open data buffer and completes full buffers. -/
  | recordPlace (ring stream : Nat)
  /-- LANDING_CHECK_DONE (R346): An entry's writes have landed and its OWN word is written, followed by any notification. -/
  | landingCheckDone (ring : Nat) (ok : Bool)
  /-- FLUSH_TMO (R354): An open data buffer idle for FLUSH_TMO completes PARTIAL. -/
  | flushTmo (ring stream : Nat)
  /-- COAL_TIMER (R359): A vector's coalescing time passes and it sends one MSI-X message. -/
  | coalTimer (v : Nat)
  /-- FLR (R338): A PCIe function-level reset stops every ring and all work of the function's shells. -/
  | flr (fn : Nat)
  /-- EVENT_OUT_PULSE_END (R360): An EVENT_OUT pulse ends after WIDTH × 8 ns. -/
  | eventOutPulseEnd (pin : Nat)
  /-- SUBPORT_DOWN (R365): An Ethernet sub-port loses alignment or reports faults for 5 µs and goes down. -/
  | subportDown (sub corr uncorr : Nat) (anFail : Bool)
  /-- SUBPORT_UP (R365): A sub-port free of faults for 10 ms comes up. -/
  | subportUp (sub : Nat)
  /-- FAILBACK (R383): A switched context returns to its primary path after it has been up for 1 s. -/
  | failback (ctx : Nat)
  /-- LINK_HOLD (R384): A context in WAIT_LINK beyond LINK_HOLD enters ERROR. -/
  | linkHold (ctx : Nat)
  /-- EGRESS_SCHEDULE (R379): A free sub-port or PCIe engine picks the next record by class and sends it. -/
  | egressSchedule (engine : Nat)
  /-- ROCE_ACK (R369): A RoCEv2 acknowledgement advances ACK_PSN and marks records written. -/
  | roceAck (ctx psn : Nat)
  /-- ROCE_NAK (R371): A NAK causes go-back-N, an RNR retry, or entry into ERROR. -/
  | roceNak (ctx psn kind delay : Nat)
  /-- RETRY_TMO (R369): A retransmission timeout resends from ACK_PSN or exhausts retries. -/
  | retryTmo (ctx : Nat)
  /-- RNR_DELAY (R369): The receiver-not-ready delay expires and the message is retried. -/
  | rnrDelay (ctx : Nat)
  /-- CNP (R382): A congestion notification packet lowers the queue pair's RATE. -/
  | cnp (ctx : Nat)
  /-- RP_PERIOD (R382): An RP_PERIOD without notification raises RATE by RP_AI. -/
  | rpPeriod (ctx : Nat)
  /-- SHED (R380): An OPPORTUNISTIC record older than SHED_AGE is discarded for an EGRESS_SHED pip. -/
  | shed (stream : Nat)
  /-- PFC_FRAME (R366): A received PFC frame pauses the named priorities for its quanta. -/
  | pfcFrame (sub : Nat) (prios : List (Nat × Nat))
  /-- RX_DISCARD (R367): A received frame not accepted by the device is discarded and counted. -/
  | rxDiscard (sub : Nat) (pause : Bool) (corr uncorr : Nat)
  /-- PTP_MESSAGE (R385): A PTP message for the port's clock is stamped and processed. -/
  | ptpMessage (port kind stamp origin : Nat) (utc : Int) (st : Nat)
  /-- PTP_SYNC_SEND (R385): As master, the PTP clock sends Sync every 2^LOG_SYNC s. -/
  | ptpSyncSend (port stamp : Nat)
  /-- ARBITRATION (R428): An arbitration point grants its data wires to one requester and sends turn hints to the losers. -/
  | arbitration (point cyc : Nat) (full : Bool) (reqs : List (Nat × Nat × Bool))
  /-- WITHDRAWAL (R432): A granted requester asserts WDR and the point re-arbitrates in the same cycle. -/
  | withdrawal (point cyc : Nat) (full : Bool) (reqs : List (Nat × Nat × Bool))
  /-- FABRIC_TIMEOUT (R435): A request left unanswered for 10 µs is aborted with FABRIC_TIMEOUT.  With it: whether the part asked is under reset, and
  for a BAR0 read of the host its function and offset. -/
  | fabricTimeout (req : Nat) (how : Bool × Option (Nat × Nat))
  /-- REVOKE_DONE (R450): All work revoked by a publication has stopped and REVOKING clears. -/
  | revokeDone
  /-- STANDBY_REACHED (R456): A transition to STANDBY completes and events pending in DORMANT are delivered. -/
  | standbyReached
  /-- READY_REACHED (R460): The way to READY ends after calibration and PWR.STATE reads READY. -/
  | readyReached (u : Unit)
  /-- HOUSEKEEPING_SCAN (R470): At each Q-time millisecond, housekeeping conversions of inputs 0 to 15 are requested. -/
  | housekeepingScan
  /-- CONVERSION_START (R470): The free monitor converter starts the highest-class due request. -/
  | conversionStart
  /-- CONVERSION_DONE (R469): A monitor conversion ends, giving a code that feeds windows, thermal levels, streams and MON_READ. -/
  | conversionDone (raw : Nat)
  /-- TIMER_EXPIRY (R475): A timer expires when Q-time reaches EXP and serves triggers, pacing, MADC and wake. -/
  | timerExpiry (k : Nat)
  /-- PWM_MATCH (R477): A PWM counter reaches MATCH and makes a PWM event. -/
  | pwmMatch (n : Nat)
  /-- PWM_PERIOD_END (R477): A PWM counter wraps to count 0, applying pending writes. -/
  | pwmPeriodEnd (n : Nat)
  /-- HBM_SELF_REFRESH (R461): In STANDBY a stack idle for 100 µs returns to self-refresh. -/
  | hbmSelfRefresh (stack : Nat)
  /-- SMBUS_STATUS (R467): SMBus command 0x01 returns state, transit and thermal status. -/
  | smbusStatus
  /-- SMBUS_TCORE (R467): SMBus command 0x02 returns TCORE. -/
  | smbusTcore
  /-- SMBUS_TFE0 (R467): SMBus command 0x03 returns the hottest FE0 sensor. -/
  | smbusTfe0
  /-- SMBUS_TFE1 (R467): SMBus command 0x04 returns the hottest FE1 sensor. -/
  | smbusTfe1
  /-- SMBUS_IDENTITY (R467): SMBus command 0x05 returns the identity block. -/
  | smbusIdentity
  /-- SMBUS_ALERT_RESPONSE (R464): An Alert Response Address read is answered and ALERT_N may release. -/
  | smbusAlertResponse
  /-- FRONT_PORCH_END (R489): The front porch ends at a line boundary with READY pending and VTOTAL at least VMIN. -/
  | frontPorchEnd (porch : Nat)
  /-- VMAX_REPEAT (R489): Without READY the front porch ends at VMAX and the picture repeats. -/
  | vmaxRepeat
  /-- FRAME_DONE (R490): At the first sync line the pending DISP shadows apply and the previous buffers are released. -/
  | frameDone
  /-- VBLANK_START (R498): The last active line ends. -/
  | vblankStart
  /-- LINE_MATCH (R498): The active line LINE_MATCH begins. -/
  | lineMatch
  /-- ACTIVE_START (R495): A frame's first active line begins, starting an automatic render if enabled. -/
  | activeStart
  /-- UNDERRUN (R494): A layer's pixel is due with its fetch buffer empty and the layer goes transparent for the frame. -/
  | underrun (layer x y : Nat)
  /-- RENDER_DONE (R495): A density render completes and READY is set if REN_READY. -/
  | renderDone
  /-- HPD_RISE (R486): HPD rises while EN is 1 and the link trains. -/
  | hpdRise
  /-- HPD_UNPLUG (R486): HPD low for more than 2 ms stops the stream and clears LINK_UP. -/
  | hpdUnplug
  /-- HPD_IRQ (R486): An HPD low pulse of 0.5 to 1 ms is taken as IRQ_HPD. -/
  | hpdIrq
  /-- DP_TRAINING_DONE (R486): DisplayPort link training ends, succeeding or failing with TRAIN_FAIL. -/
  | dpTrainingDone (ok : Bool) (lanes phase : Nat)
  /-- AUX_REPLY (R487): An AUX reply arrives, completing the transaction or retrying on DEFER. -/
  | auxReply (kind n : Nat) (data : List Byte)
  /-- AUX_TIMEOUT (R487): No AUX reply within 400 µs completes the transaction with TIMEOUT. -/
  | auxTimeout
  /-- POR_N (R500): POR_N rises and the start-up sequence runs from stage 0. -/
  | porN (straps : Nat)
  /-- PERST_N (R510): PERST_N resets everything but the acorn domain and restarts from stage 2. -/
  | perstN
  /-- CORE_RESET (R510): A core reset from CPLL loss, remote RESET, CORE_RST or HBM_FAIL restarts from stage 2. -/
  | coreReset (cause : Nat)
  /-- STAGE_DONE (R500): A start-up stage ends and the next begins. -/
  | stageDone (img ver : Nat) (ident : Option (Nat × Nat × List Nat)) (badSets : List (Nat × Nat)) (badSlots : List Nat)
  /-- SUPPLY_MONITOR_TRIP (R530): A rail below 90 % for 2 µs starts a reset equal to POR_N. -/
  | supplyMonitorTrip
  /-- FLASH_PAGE_PROGRAM (R504): A flash page program completes and is read back, retried or failed. -/
  | flashPageProgram (ok : Bool)
  /-- FLASH_ERASE_DONE (R505): A sector erase completes, possibly raising wear warnings. -/
  | flashEraseDone (ms : Nat) (ok : Bool)
  /-- WRITE_DONE (R503): A verified region is committed by a directory write. -/
  | writeDone (dirFails : Nat)
  /-- SCRUB (R516): A memory controller scrubs in a refresh slot, or SRAM scrubs an idle port-B cycle. -/
  | scrub (memory err pc addr item : Nat) (both : Bool)
  /-- PC_DOWN (R517): A pseudo-channel leaves training and is retrained. -/
  | pcDown (pc : Nat)
  /-- PC_RETRAIN_DONE (R517): A pseudo-channel retrain ends, restoring service or, after three failures, causing HBM_FAIL. -/
  | pcRetrainDone (pc : Nat) (ok : Bool)
  /-- PCIE_LINK_DOWN (R363): The PCIe link goes down; SPEED and WIDTH read 0 and LINK_DOWN is raised. -/
  | pcieLinkDown
  /-- PCIE_LINK_UP (R363): The PCIe link completes training; SPEED and WIDTH show the negotiated values and LINK_UP is raised. -/
  | pcieLinkUp (speed width : Nat)
  /-- CONFIG_REQUEST (R501): A PCIe configuration request is answered with Retry Status before stage 4 ends, or acts on configuration space (MSI-X enable, SR-IOV, Device Control). -/
  | configRequest (fn kind v : Nat) (write : Bool)
  /-- PERST_N_HIGH (R501): PERST_N rises, PCIe link training begins and configuration space becomes ready within 120 ms. -/
  | perstNHigh
  /-- POR_N_LOW (R510): POR_N is held low for at least 10 µs and resets everything. -/
  | porNLow
  /-- SUPPLY_RESTORED (R530): After a supply-monitor trip the rails are back within range and the reset equal to POR_N ends. -/
  | supplyRestored
  /-- FLR_DONE (R338): A function-level reset completes, within 100 ms, and FLR_DONE is raised. -/
  | flrDone (fn : Nat)
  /-- WAIT_ELAPSED (R403): The delay of a sequencer WAIT with condition 1 elapses, and the waiting command becomes ready for its next step. -/
  | waitElapsed (sq slot : Nat)
  /-- TEMP_HIGH (R438): An HBM stack's temperature reaches 95 °C and the MC page raises TEMP_HIGH. -/
  | tempHigh (mc : Nat) (temp : Int)
  /-- DEBUG_ATTACH (R453): A JTAG debug session attaches or accesses the device; DBG_ACTIVE sets and CNT_DEBUG counts. -/
  | debugAttach (attach access : Bool)
  /-- UCODE_RELOAD_DONE (R517): A reload of 4 KiB of the microcode store from verified flash, made after an uncorrectable error, completes and the waiting sequencers resume. -/
  | ucodeReloadDone (part : Nat)
  /-- PFC_PAUSE_END (R366): The pause quanta of a received PFC frame run out and the paused priority may send again. -/
  | pfcPauseEnd (sub prio : Nat)
  /-- TRIG_IN_INACTIVE_EDGE (R141): A TRIG_IN input returns to its inactive level, changing its combiner level and clearing STUCK. -/
  | trigInInactiveEdge (pin c j m : Nat)
  /-- ABORT (R298): An ABORT block, or a block or message of reserved type, ends the message in progress, which is discarded and counted.  With a
  block: the header of the message, where it has come, and its data blocks so far. -/
  | abort (n : Nat) (block : Option (Option Nat × List Nat))
  deriving DecidableEq, Repr

end Sys2Proof
end

