-- ==== Sys2Proof/WellFormed.lean ====
section
/-! DEFINITION. Well-formed commands: every operand that numbers a part of the block lies in the range the spec gives that part.  The meanings
are total; a command that is not well formed acts on no part that exists. -/

namespace Sys2Proof

/-- Whether a command's operands lie in their ranges. -/
def wellFormedInstr (i : Instr) : Bool :=
  match i with
  | .nop sq => decide (sq < 32)
  | .fence sq => decide (sq < 32)
  | .frameOpen sq => decide (sq < 32)
  | .frameClose sq => decide (sq < 32)
  | .streamSet sq => decide (sq < 32)
  | .streamBind sq => decide (sq < 32)
  | .trigSet sq => decide (sq < 32)
  | .calRun sq => decide (sq < 32)
  | .calSave sq => decide (sq < 32)
  | .calLoad sq => decide (sq < 32)
  | .hbmFill sq => decide (sq < 32)
  | .hbmCopy sq _ => decide (sq < 32)
  | .flashWrite sq _ => decide (sq < 32)
  | .qpCreate sq _ => decide (sq < 32)
  | .qpDestroy sq => decide (sq < 32)
  | .linkRemote sq => decide (sq < 32)
  | .powerState sq => decide (sq < 32)
  | .timeSet sq => decide (sq < 32)
  | .monRead sq => decide (sq < 32)
  | .shellOpen sq => decide (sq < 32)
  | .shellClose sq => decide (sq < 32)
  | .shellEdit sq => decide (sq < 32)
  | .customerOpcode sq => decide (sq < 32)
  | .reservedOpcodeCommand sq => decide (sq < 32)
  | .commandTake => true
  | .commandDispatch => true
  | .sequencerStep sq => decide (sq < 32)
  | .add sq rd rs rt => decide (sq < 32) && decide (rd < 32) && decide (rs < 32) && decide (rt < 32)
  | .sub sq rd rs rt => decide (sq < 32) && decide (rd < 32) && decide (rs < 32) && decide (rt < 32)
  | .and sq rd rs rt => decide (sq < 32) && decide (rd < 32) && decide (rs < 32) && decide (rt < 32)
  | .or sq rd rs rt => decide (sq < 32) && decide (rd < 32) && decide (rs < 32) && decide (rt < 32)
  | .xor sq rd rs rt => decide (sq < 32) && decide (rd < 32) && decide (rs < 32) && decide (rt < 32)
  | .sll sq rd rs rt => decide (sq < 32) && decide (rd < 32) && decide (rs < 32) && decide (rt < 32)
  | .srl sq rd rs rt => decide (sq < 32) && decide (rd < 32) && decide (rs < 32) && decide (rt < 32)
  | .sra sq rd rs rt => decide (sq < 32) && decide (rd < 32) && decide (rs < 32) && decide (rt < 32)
  | .ror sq rd rs rt => decide (sq < 32) && decide (rd < 32) && decide (rs < 32) && decide (rt < 32)
  | .mul sq rd rs rt => decide (sq < 32) && decide (rd < 32) && decide (rs < 32) && decide (rt < 32)
  | .mulh sq rd rs rt => decide (sq < 32) && decide (rd < 32) && decide (rs < 32) && decide (rt < 32)
  | .mulhu sq rd rs rt => decide (sq < 32) && decide (rd < 32) && decide (rs < 32) && decide (rt < 32)
  | .div sq rd rs rt => decide (sq < 32) && decide (rd < 32) && decide (rs < 32) && decide (rt < 32)
  | .rem sq rd rs rt => decide (sq < 32) && decide (rd < 32) && decide (rs < 32) && decide (rt < 32)
  | .divu sq rd rs rt => decide (sq < 32) && decide (rd < 32) && decide (rs < 32) && decide (rt < 32)
  | .remu sq rd rs rt => decide (sq < 32) && decide (rd < 32) && decide (rs < 32) && decide (rt < 32)
  | .slt sq rd rs rt => decide (sq < 32) && decide (rd < 32) && decide (rs < 32) && decide (rt < 32)
  | .sltu sq rd rs rt => decide (sq < 32) && decide (rd < 32) && decide (rs < 32) && decide (rt < 32)
  | .neg sq rd rs rt => decide (sq < 32) && decide (rd < 32) && decide (rs < 32) && decide (rt < 32)
  | .addi sq rd rs imm => decide (sq < 32) && decide (rd < 32) && decide (rs < 32) && decide (imm < 65536)
  | .andi sq rd rs imm => decide (sq < 32) && decide (rd < 32) && decide (rs < 32) && decide (imm < 65536)
  | .ori sq rd rs imm => decide (sq < 32) && decide (rd < 32) && decide (rs < 32) && decide (imm < 65536)
  | .xori sq rd rs imm => decide (sq < 32) && decide (rd < 32) && decide (rs < 32) && decide (imm < 65536)
  | .slli sq rd rs imm => decide (sq < 32) && decide (rd < 32) && decide (rs < 32) && decide (imm < 65536)
  | .srli sq rd rs imm => decide (sq < 32) && decide (rd < 32) && decide (rs < 32) && decide (imm < 65536)
  | .srai sq rd rs imm => decide (sq < 32) && decide (rd < 32) && decide (rs < 32) && decide (imm < 65536)
  | .rori sq rd rs imm => decide (sq < 32) && decide (rd < 32) && decide (rs < 32) && decide (imm < 65536)
  | .lui sq rd imm => decide (sq < 32) && decide (rd < 32) && decide (imm < 65536)
  | .slti sq rd rs imm => decide (sq < 32) && decide (rd < 32) && decide (rs < 32) && decide (imm < 65536)
  | .sltiu sq rd rs imm => decide (sq < 32) && decide (rd < 32) && decide (rs < 32) && decide (imm < 65536)
  | .lw sq rd rs imm ret => decide (sq < 32) && decide (rd < 32) && decide (rs < 32) && decide (imm < 65536) && decide (ret < 9)
  | .lh sq rd rs imm ret => decide (sq < 32) && decide (rd < 32) && decide (rs < 32) && decide (imm < 65536) && decide (ret < 9)
  | .lhu sq rd rs imm ret => decide (sq < 32) && decide (rd < 32) && decide (rs < 32) && decide (imm < 65536) && decide (ret < 9)
  | .lb sq rd rs imm ret => decide (sq < 32) && decide (rd < 32) && decide (rs < 32) && decide (imm < 65536) && decide (ret < 9)
  | .lbu sq rd rs imm ret => decide (sq < 32) && decide (rd < 32) && decide (rs < 32) && decide (imm < 65536) && decide (ret < 9)
  | .sw sq rd rs imm ret => decide (sq < 32) && decide (rd < 32) && decide (rs < 32) && decide (imm < 65536) && decide (ret < 9)
  | .sh sq rd rs imm ret => decide (sq < 32) && decide (rd < 32) && decide (rs < 32) && decide (imm < 65536) && decide (ret < 9)
  | .sb sq rd rs imm ret => decide (sq < 32) && decide (rd < 32) && decide (rs < 32) && decide (imm < 65536) && decide (ret < 9)
  | .ldc sq rd rs imm _ _ => decide (sq < 32) && decide (rd < 32) && decide (rs < 32) && decide (imm < 65536)
  | .stc sq rd rs imm _ => decide (sq < 32) && decide (rd < 32) && decide (rs < 32) && decide (imm < 65536)
  | .dma sq rd rs imm => decide (sq < 32) && decide (rd < 32) && decide (rs < 32) && decide (imm < 65536)
  | .sbdrain sq => decide (sq < 32)
  | .beq sq rd rs imm => decide (sq < 32) && decide (rd < 32) && decide (rs < 32) && decide (imm < 65536)
  | .bne sq rd rs imm => decide (sq < 32) && decide (rd < 32) && decide (rs < 32) && decide (imm < 65536)
  | .blt sq rd rs imm => decide (sq < 32) && decide (rd < 32) && decide (rs < 32) && decide (imm < 65536)
  | .bge sq rd rs imm => decide (sq < 32) && decide (rd < 32) && decide (rs < 32) && decide (imm < 65536)
  | .bltu sq rd rs imm => decide (sq < 32) && decide (rd < 32) && decide (rs < 32) && decide (imm < 65536)
  | .bgeu sq rd rs imm => decide (sq < 32) && decide (rd < 32) && decide (rs < 32) && decide (imm < 65536)
  | .jal sq rd imm => decide (sq < 32) && decide (rd < 32) && decide (imm < 65536)
  | .jalr sq rd rs imm => decide (sq < 32) && decide (rd < 32) && decide (rs < 32) && decide (imm < 65536)
  | .yield sq => decide (sq < 32)
  | .wait sq rs cond => decide (sq < 32) && decide (rs < 32) && decide (cond < 3)
  | .done sq rd rs => decide (sq < 32) && decide (rd < 32) && decide (rs < 32)
  | .csrr sq rd csr => decide (sq < 32) && decide (rd < 32) && decide (csr < 16)
  | .csrw sq rs csr => decide (sq < 32) && decide (rs < 32) && decide (csr < 16)
  | .clrf sq => decide (sq < 32)
  | .illegal sq word => decide (sq < 32) && decide (word < 2 ^ 32)
  | .stepOverrun sq => decide (sq < 32)
  | .dmaDone sq handle dst _ _ => decide (sq < 32) && decide (handle < 2 ^ 32) && decide (dst < 3)
  | .blkCtrlEn fn page _ => decide (fn < 64) && decide (page < 2 ^ 14)
  | .srst fn page => decide (fn < 64) && decide (page < 2 ^ 14)
  | .softResetDone off => decide (off < 2 ^ 26)
  | .commit fn page => decide (fn < 64) && decide (page < 2 ^ 14)
  | .freeze fn page _ => decide (fn < 64) && decide (page < 2 ^ 14)
  | .evtRawClear fn page _ => decide (fn < 64) && decide (page < 2 ^ 14)
  | .evtEnWrite fn page _ => decide (fn < 64) && decide (page < 2 ^ 14)
  | .evtForce fn page _ => decide (fn < 64) && decide (page < 2 ^ 14)
  | .errInfoClear fn page => decide (fn < 64) && decide (page < 2 ^ 14)
  | .commitCtrlHold fn _ => decide (fn < 64)
  | .registerWrite fn off width _ => decide (fn < 64) && decide (off < 2 ^ 26) && decide (width < 9)
  | .rcFieldRead fn off width => decide (fn < 64) && decide (off < 2 ^ 26) && decide (width < 9)
  | .denyLogRead fn _ => decide (fn < 64)
  | .remoteEvtRead fn => decide (fn < 64)
  | .lowWordRead fn off => decide (fn < 64) && decide (off < 2 ^ 26)
  | .timeNowRead fn => decide (fn < 64)
  | .lowWordWrite fn off _ => decide (fn < 64) && decide (off < 2 ^ 26)
  | .highWordWrite fn off _ => decide (fn < 64) && decide (off < 2 ^ 26)
  | .swTrig fn _ => decide (fn < 64)
  | .accEpochGo fn stream => decide (fn < 64) && decide (stream < 256)
  | .diffEpochGo fn pair => decide (fn < 64) && decide (pair < 64)
  | .codeDensityStart fn input _ => decide (fn < 64) && decide (input < 2)
  | .cdDone input _ _ => decide (input < 2)
  | .selfcal fn => decide (fn < 64)
  | .selfcalDone _ _ => true
  | .relock fn => decide (fn < 64)
  | .syncArm fn => decide (fn < 64)
  | .retrain fn port => decide (fn < 64) && decide (port < 4)
  | .devIdWrite fn id => decide (fn < 64) && decide (id < 2 ^ 14)
  | .upPortWrite fn port => decide (fn < 64) && decide (port < 8)
  | .rqIdLookup fn id => decide (fn < 64) && decide (id < 2 ^ 14)
  | .db64 fn shell off _ _ => decide (fn < 64) && decide (shell < 4096) && decide (off < 4096)
  | .db32 fn shell off _ _ => decide (fn < 64) && decide (shell < 4096) && decide (off < 4096)
  | .ringEnable fn ring => decide (fn < 64) && decide (ring < 8192)
  | .ringDisable fn ring => decide (fn < 64) && decide (ring < 8192)
  | .ringNotifyWrite fn ring _ => decide (fn < 64) && decide (ring < 8192)
  | .limitWrite fn ctx _ => decide (fn < 64) && decide (ctx < 4096)
  | .routingEntryWrite fn num _ => decide (fn < 64) && decide (num < 2048)
  | .vecMapWrite fn _ => decide (fn < 64)
  | .coalWrite fn _ => decide (fn < 64)
  | .msixUnmask fn entry => decide (fn < 64) && decide (entry < 2048)
  | .pwrWake fn target => decide (fn < 64) && decide (target < 4)
  | .publish fn => decide (fn < 64)
  | .dbgLock fn => decide (fn < 64)
  | .coreRst fn => decide (fn < 64)
  | .feRst fn dies => decide (fn < 64) && decide (dies < 4)
  | .shellRst fn shell => decide (fn < 64) && decide (shell < 4096)
  | .shellResetDone shell => decide (shell < 4096)
  | .dispReady fn => decide (fn < 64)
  | .renStart fn => decide (fn < 64)
  | .auxGo fn _ _ _ => decide (fn < 64)
  | .legRelease fn _ => decide (fn < 64)
  | .legacyWindowWrite fn word _ => decide (fn < 64) && decide (word < 4096)
  | .rcvGo fn region => decide (fn < 64) && decide (region < 16)
  | .rcvDone _ _ => true
  | .arbPrioWrite fn req prio => decide (fn < 64) && decide (req < 79) && decide (prio < 8)
  | .timerExpWrite fn timer _ => decide (fn < 64) && decide (timer < 8)
  | .timerArm fn timer _ => decide (fn < 64) && decide (timer < 8)
  | .xoAgeWrite fn _ => decide (fn < 64)
  | .bar4Access _ _ _ _ => true
  | .historyWrite _ => true
  | .dieLinkLost die => decide (die < 2)
  | .dieLinkRetrained die _ => decide (die < 2)
  | .dieLinkTimeout die => decide (die < 2)
  | .settled bank _ => decide (bank < 8)
  | .tDieUpdate die => decide (die < 2)
  | .calStepBoundary r _ _ => decide (r < 18)
  | .idleBoundary => true
  | .runStart die => decide (die < 2)
  | .runDone r => decide (r < 18)
  | .stepTmo r => decide (r < 18)
  | .runTmo r => decide (r < 18)
  | .startupCalTimeout die => decide (die < 2)
  | .startDone die _ => decide (die < 2)
  | .handover bank _ _ => decide (bank < 8)
  | .holdEnd chan => decide (chan < 8)
  | .triggerUnitSample tu => decide (tu < 8)
  | .trigInEdge pin _ _ _ => decide (pin < 4)
  | .gateEdge g _ => decide (g < 4)
  | .stuck src => decide (src < 64)
  | .seqWaitExpiry d => decide (d < 16)
  | .deadline src line _ => decide (src < 64) && decide (line < 16)
  | .trigOutPulseEnd n _ => decide (n < 4)
  | .requestEligible stream seq => decide (stream < 256) && decide (seq < 2 ^ 64)
  | .extractionStart extr => decide (extr < 16)
  | .continuousSegment stream => decide (stream < 256)
  | .extractionDone extr => decide (extr < 16)
  | .binPassDone _ n => decide (n < 256)
  | .recordBuilt stream => decide (stream < 256)
  | .pendingPipQueued stream => decide (stream < 256)
  | .stampFlush stream => decide (stream < 256)
  | .monFlush stream => decide (stream < 256)
  | .timeOpen => true
  | .frameDurExpiry => true
  | .drainProvisionalResolved => true
  | .drainRequestsDone => true
  | .drainRecordsWritten => true
  | .podDone => true
  | .drainAbandoned => true
  | .steerUpdate _ _ _ _ => true
  | .sourceQualify src _ => decide (src < 5)
  | .sourceLost src _ => decide (src < 5)
  | .revertTimer _ => true
  | .stepDone => true
  | .ppsInEdge _ q _ => decide (q < 2 ^ 128)
  | .ppsMiss _ => true
  | .second => true
  | .tieMeasure q => decide (q < 2 ^ 128)
  | .evEdge input _ _ _ => decide (input < 16)
  | .stampConvert input => decide (input < 16)
  | .diffEvaluate pair => decide (pair < 64)
  | .tdcLocked input => decide (input < 16)
  | .scsSearchDone _ _ => true
  | .scsLockingDone _ _ => true
  | .lockingTimeout loop => decide (loop < 2)
  | .lockFail loop => decide (loop < 2)
  | .scsLocked _ _ => true
  | .cpllLocked _ => true
  | .scsLostRef => true
  | .scsLostLock => true
  | .refReturn _ => true
  | .cpllLost => true
  | .syncInEdge _ _ => true
  | .portSignalDetect n => decide (n < 4)
  | .trainDone n _ _ => decide (n < 4)
  | .advert n _ => decide (n < 4)
  | .rate n _ => decide (n < 4)
  | .identifyDone n => decide (n < 4)
  | .calibrateDone n => decide (n < 4)
  | .portStateTimeout n => decide (n < 4)
  | .portRetry n => decide (n < 4)
  | .portLost n => decide (n < 4)
  | .kaEnter n => decide (n < 4)
  | .trigProv n line src hops _ _ => decide (n < 4) && decide (line < 16) && decide (src < 2 ^ 14) && decide (hops < 64)
  | .trigConf n line src hops _ _ => decide (n < 4) && decide (line < 16) && decide (src < 2 ^ 14) && decide (hops < 64)
  | .trigCxl n line src hops _ _ => decide (n < 4) && decide (line < 16) && decide (src < 2 ^ 14) && decide (hops < 64)
  | .gate n g _ src hops _ _ => decide (n < 4) && decide (g < 4) && decide (src < 2 ^ 14) && decide (hops < 64)
  | .gateLevelApply => true
  | .wake n target src dst route hops _ => decide (n < 4) && decide (target < 4) && decide (src < 2 ^ 14) && decide (dst < 2 ^ 14) && decide (route < 4) && decide (hops < 64)
  | .timeReq n _ _ _ => decide (n < 4)
  | .timeResp n _ _ _ _ _ _ _ => decide (n < 4)
  | .ttPeriod _ => true
  | .rreq port src dst hops tag op off _ _ => decide (port < 4) && decide (src < 2 ^ 14) && decide (dst < 2 ^ 14) && decide (hops < 64) && decide (tag < 16) && decide (op < 4) && decide (off < 2 ^ 26)
  | .rresp n src dst hops tag status _ _ => decide (n < 4) && decide (src < 2 ^ 14) && decide (dst < 2 ^ 14) && decide (hops < 64) && decide (tag < 16) && decide (status < 8)
  | .remoteTmo tag => decide (tag < 16)
  | .keepalive n _ => decide (n < 4)
  | .keepaliveSend n => decide (n < 4)
  | .topoAnnounce n src hops _ => decide (n < 4) && decide (src < 2 ^ 14) && decide (hops < 64)
  | .topoWithdraw n src id hops _ => decide (n < 4) && decide (src < 2 ^ 14) && decide (id < 2 ^ 14) && decide (hops < 64)
  | .topoRoot n _ _ _ => decide (n < 4)
  | .event n src dst route hops num _ => decide (n < 4) && decide (src < 2 ^ 14) && decide (dst < 2 ^ 14) && decide (route < 4) && decide (hops < 64) && decide (num < 2048)
  | .entryTake ring => decide (ring < 8192)
  | .entryReadComplete ring _ => decide (ring < 8192)
  | .readFault ring => decide (ring < 8192)
  | .chainRepoll ring => decide (ring < 8192)
  | .bufferOpenReadDone ring _ => decide (ring < 8192)
  | .recordPlace ring stream => decide (ring < 8192) && decide (stream < 256)
  | .landingCheckDone ring _ => decide (ring < 8192)
  | .flushTmo ring stream => decide (ring < 8192) && decide (stream < 256)
  | .coalTimer v => decide (v < 2048)
  | .flr fn => decide (fn < 64)
  | .eventOutPulseEnd pin => decide (pin < 4)
  | .subportDown sub _ _ _ => decide (sub < 8)
  | .subportUp sub => decide (sub < 8)
  | .failback ctx => decide (ctx < 4096)
  | .linkHold ctx => decide (ctx < 4096)
  | .egressSchedule engine => decide (engine < 9)
  | .roceAck ctx psn => decide (ctx < 4096) && decide (psn < 2 ^ 24)
  | .roceNak ctx psn kind _ => decide (ctx < 4096) && decide (psn < 2 ^ 24) && decide (kind < 4)
  | .retryTmo ctx => decide (ctx < 4096)
  | .rnrDelay ctx => decide (ctx < 4096)
  | .cnp ctx => decide (ctx < 4096)
  | .rpPeriod ctx => decide (ctx < 4096)
  | .shed stream => decide (stream < 256)
  | .pfcFrame sub _ => decide (sub < 8)
  | .rxDiscard sub _ _ _ => decide (sub < 8)
  | .ptpMessage port _ _ _ _ _ => decide (port < 2)
  | .ptpSyncSend port _ => decide (port < 2)
  | .arbitration point _ _ _ => decide (point < 321)
  | .withdrawal point _ _ _ => decide (point < 321)
  | .fabricTimeout req how => decide (req < 79) && how.2.all fun e => decide (e.1 < 64) && decide (e.2 < 2 ^ 24)
  | .revokeDone => true
  | .standbyReached => true
  | .readyReached _ => true
  | .housekeepingScan => true
  | .conversionStart => true
  | .conversionDone raw => decide (raw < 4096)
  | .timerExpiry k => decide (k < 8)
  | .pwmMatch n => decide (n < 8)
  | .pwmPeriodEnd n => decide (n < 8)
  | .hbmSelfRefresh stack => decide (stack < 2)
  | .smbusStatus => true
  | .smbusTcore => true
  | .smbusTfe0 => true
  | .smbusTfe1 => true
  | .smbusIdentity => true
  | .smbusAlertResponse => true
  | .frontPorchEnd _ => true
  | .vmaxRepeat => true
  | .frameDone => true
  | .vblankStart => true
  | .lineMatch => true
  | .activeStart => true
  | .underrun layer _ _ => decide (layer < 4)
  | .renderDone => true
  | .hpdRise => true
  | .hpdUnplug => true
  | .hpdIrq => true
  | .dpTrainingDone _ lanes _ => decide (lanes < 5)
  | .auxReply _ _ _ => true
  | .auxTimeout => true
  | .porN straps => decide (straps < 8)
  | .perstN => true
  | .coreReset cause => decide (cause < 8)
  | .stageDone img _ _ _ _ => decide (img < 3)
  | .supplyMonitorTrip => true
  | .flashPageProgram _ => true
  | .flashEraseDone _ _ => true
  | .writeDone dirFails => decide (dirFails < 3)
  | .scrub memory err pc _ _ _ => decide (memory < 4) && decide (err < 3) && decide (pc < 64)
  | .pcDown pc => decide (pc < 64)
  | .pcRetrainDone pc _ => decide (pc < 64)
  | .pcieLinkDown => true
  | .pcieLinkUp _ _ => true
  | .configRequest fn _ _ _ => decide (fn < 64)
  | .perstNHigh => true
  | .porNLow => true
  | .supplyRestored => true
  | .flrDone fn => decide (fn < 64)
  | .waitElapsed sq slot => decide (sq < 32) && decide (slot < 8)
  | .tempHigh mc _ => decide (mc < 4)
  | .debugAttach _ _ => true
  | .ucodeReloadDone part => decide (part < 256)
  | .pfcPauseEnd sub prio => decide (sub < 8) && decide (prio < 8)
  | .trigInInactiveEdge pin _ _ _ => decide (pin < 4)
  | .abort n block => decide (n < 4) && block.all fun b =>
    (b.1.all fun h => decide (h < 2 ^ 56)) && decide (b.2.length ≤ 7) && b.2.all fun w => decide (w < 2 ^ 64)

/-- A well-formed command. -/
abbrev Instr.WellFormed (i : Instr) : Prop := wellFormedInstr i = true

end Sys2Proof
end

