-- ==== Sys2Proof/Decode.lean ====
section
/-! DEFINITION. The decoder over table words.  spec/opcode_table.json gives no row any bits: a command arrives as an access, a message or an
event, and not as a word, so no word spells one. -/

namespace Sys2Proof

/-- The command that a table word of so many bits spells: none, since no row has bits. -/
def decodeTableWord (_nbits _w : Nat) : Option Instr := none

end Sys2Proof
end

