-- ==== Sys2Proof/Machine/RegMap.lean ====
section
/-! DEFINITION. The register map of BAR0: every field of the block-specific register tables of spec/02 to spec/19, and of the
table pages (ring slots, queue-pair contexts, shell entries, windows, event routing, MSI-X), as one `Row` each, with the
place, access code, reset value and reserved encodings the spec's table gives it.  The common header (R44) is not listed here:
it is the same on every block page and Machine/Ops.lean computes it. -/

namespace Sys2Proof.Machine

/-- The access codes of Table 2-13 (R49). -/
inductive Acc where
  | ro | rw | rws | w1c | w1s | wo | rc | sc
  deriving DecidableEq, Repr

/-- The kinds of page of Table 2-2 (R41): block pages, then table pages, the legacy window, and unassigned space (R43). -/
inductive Kind where
  | top | clk | time | mon | tmr | pwr | flash | sec | bank | cal | tu | tcomb | text | tdc | hist | acc | den | diff
  | st | sq | mc | arb | pcie | enet | rdma | flink | fport | disp
  | ring | qpc | shell | win | route | msix | pba | legacy | none
  deriving DecidableEq, Repr

/-- One field of a register table: byte offset in its page or entry, bit range, access code, reset value, the reserved
encodings (as closed ranges of the field's value, R59), and for an array of registers its stride and count. -/
structure Row where
  off : Nat
  hi : Nat
  lo : Nat
  acc : Acc
  rst : Nat
  bad : List (Nat × Nat)
  stride : Nat
  count : Nat
  deriving DecidableEq, Repr

namespace R


/-! TOP (R55). -/
def TOP_HOLD : Row := ⟨0x040, 0, 0, .rw, 0, [], 4, 1⟩
def TOP_HELD : Row := ⟨0x040, 1, 1, .ro, 0, [], 4, 1⟩
def TOP_OPEN_SRC : Row := ⟨0x060, 1, 0, .rw, 0, [(3, 3)], 4, 1⟩
def TOP_OPEN_GATE : Row := ⟨0x060, 5, 4, .rw, 0, [], 4, 1⟩
def TOP_CLOSE_COUNT_EN : Row := ⟨0x060, 8, 8, .rw, 0, [], 4, 1⟩
def TOP_CLOSE_TIME_EN : Row := ⟨0x060, 9, 9, .rw, 0, [], 4, 1⟩
def TOP_CLOSE_GATE_EN : Row := ⟨0x060, 10, 10, .rw, 0, [], 4, 1⟩
def TOP_CLOSE_GATE : Row := ⟨0x060, 13, 12, .rw, 0, [], 4, 1⟩
def TOP_CLOSE_DEF : Row := ⟨0x060, 19, 16, .rw, 0, [], 4, 1⟩
def TOP_FRAME_REPEAT : Row := ⟨0x064, 31, 0, .rw, 0, [], 4, 1⟩
def TOP_CLOSE_COUNT : Row := ⟨0x068, 31, 0, .rw, 1, [(0, 0)], 4, 1⟩
def TOP_FRAME_DUR_LO : Row := ⟨0x06C, 31, 0, .rw, 0, [], 4, 1⟩
def TOP_FRAME_DUR_HI : Row := ⟨0x070, 15, 0, .rw, 0, [], 4, 1⟩
def TOP_OPEN_AT0 : Row := ⟨0x074, 31, 0, .rw, 0, [], 4, 1⟩
def TOP_OPEN_AT1 : Row := ⟨0x078, 31, 0, .rw, 0, [], 4, 1⟩
def TOP_OPEN_AT2 : Row := ⟨0x07C, 31, 0, .rw, 0, [], 4, 1⟩
def TOP_DRAIN_TMO : Row := ⟨0x080, 15, 0, .rw, 1000, [(0, 0)], 4, 1⟩
def TOP_FRAME_NUM : Row := ⟨0x084, 31, 0, .ro, 0, [], 4, 1⟩
def TOP_STATE : Row := ⟨0x088, 2, 0, .ro, 0, [], 4, 1⟩
def TOP_ABANDONED : Row := ⟨0x088, 4, 4, .ro, 0, [], 4, 1⟩
def TOP_LATE_OPEN : Row := ⟨0x088, 5, 5, .ro, 0, [], 4, 1⟩
def TOP_CLOSE_CAUSE : Row := ⟨0x088, 10, 8, .ro, 0, [], 4, 1⟩
def TOP_TRIG_COUNT : Row := ⟨0x08C, 31, 0, .ro, 0, [], 4, 1⟩
def TOP_OPEN_TIME : Row := ⟨0x090, 31, 0, .ro, 0, [], 4, 3⟩
def TOP_CLOSE_TIME : Row := ⟨0x09C, 31, 0, .ro, 0, [], 4, 3⟩
def TOP_CNT_GATE_MISSED : Row := ⟨0x0A8, 31, 0, .rw, 0, [], 4, 1⟩
def TOP_CNT_ABANDONED : Row := ⟨0x0AC, 31, 0, .rw, 0, [], 4, 1⟩
def TOP_STRAPS : Row := ⟨0x0C0, 2, 0, .ro, 0, [], 4, 1⟩
def TOP_STAGE : Row := ⟨0x0C0, 6, 4, .ro, 0, [], 4, 1⟩
def TOP_NO_IMAGE : Row := ⟨0x0C0, 8, 8, .ro, 0, [], 4, 1⟩
def TOP_RST_CAUSE : Row := ⟨0x0C4, 6, 0, .ro, 1, [], 4, 1⟩
def TOP_CORE_RST : Row := ⟨0x0C8, 0, 0, .wo, 0, [], 4, 1⟩
def TOP_FE_RST : Row := ⟨0x0CC, 1, 0, .sc, 0, [], 4, 1⟩
def TOP_SHELL : Row := ⟨0x0D0, 11, 0, .rw, 0, [], 4, 1⟩
def TOP_BUSY : Row := ⟨0x0D0, 30, 30, .ro, 0, [], 4, 1⟩
def TOP_GO : Row := ⟨0x0D0, 31, 31, .sc, 0, [], 4, 1⟩
def TOP_CNT_SRAM_CORR : Row := ⟨0x0D4, 31, 0, .rw, 0, [], 4, 1⟩
def TOP_CNT_SRAM_UNCORR : Row := ⟨0x0D8, 31, 0, .rw, 0, [], 4, 1⟩
def TOP_CNT_UCODE_CORR : Row := ⟨0x0DC, 31, 0, .rw, 0, [], 4, 1⟩
def TOP_CNT_UCODE_UNCORR : Row := ⟨0x0E0, 31, 0, .rw, 0, [], 4, 1⟩
def TOP_FLOG_COUNT : Row := ⟨0x0E4, 15, 0, .ro, 0, [], 4, 1⟩
def TOP_FLOG_SEL : Row := ⟨0x0E8, 5, 0, .rw, 0, [], 4, 1⟩
def TOP_FLOG_ENTRY : Row := ⟨0x0EC, 31, 0, .ro, 0, [], 4, 4⟩

/-! CLK (R294). -/
def CLK_SCS_REF : Row := ⟨0x040, 1, 0, .rws, 0, [(2, 3)], 4, 1⟩
def CLK_N : Row := ⟨0x040, 13, 4, .rws, 200, [], 4, 1⟩
def CLK_LBW : Row := ⟨0x040, 18, 16, .rws, 1, [(4, 7)], 4, 1⟩
def CLK_REF_NOM : Row := ⟨0x044, 1, 0, .rws, 0, [(3, 3)], 4, 1⟩
def CLK_REF_TERM : Row := ⟨0x044, 4, 4, .rws, 1, [], 4, 1⟩
def CLK_AUTO_RELOCK : Row := ⟨0x044, 8, 8, .rws, 1, [], 4, 1⟩
def CLK_SYNC_MODE : Row := ⟨0x048, 1, 0, .rws, 0, [(3, 3)], 4, 1⟩
def CLK_SYNC_POL : Row := ⟨0x048, 4, 4, .rws, 0, [], 4, 1⟩
def CLK_SYNC_OUT_MODE : Row := ⟨0x048, 9, 8, .rws, 0, [(3, 3)], 4, 1⟩
def CLK_SYNC_OUT_POL : Row := ⟨0x048, 12, 12, .rws, 0, [], 4, 1⟩
def CLK_RELOCK : Row := ⟨0x04C, 0, 0, .sc, 0, [], 4, 1⟩
def CLK_SYNC_ARM : Row := ⟨0x04C, 1, 1, .sc, 0, [], 4, 1⟩
def CLK_STATE : Row := ⟨0x050, 2, 0, .ro, 0, [], 4, 1⟩
def CLK_GATED : Row := ⟨0x050, 4, 4, .ro, 1, [], 4, 1⟩
def CLK_BAND : Row := ⟨0x050, 13, 8, .ro, 0, [], 4, 1⟩
def CLK_REF_OK : Row := ⟨0x050, 16, 16, .ro, 0, [], 4, 1⟩
def CLK_SYNCED : Row := ⟨0x050, 17, 17, .ro, 0, [], 4, 1⟩
def CLK_CPLL_STATE : Row := ⟨0x054, 2, 0, .ro, 0, [], 4, 1⟩
def CLK_CPLL_BAND : Row := ⟨0x054, 13, 8, .ro, 0, [], 4, 1⟩
def CLK_SQ_HALF : Row := ⟨0x054, 16, 16, .ro, 0, [], 4, 1⟩
def CLK_REF_OFFSET : Row := ⟨0x058, 31, 0, .ro, 0, [], 4, 1⟩
def CLK_PHASE_ERR : Row := ⟨0x05C, 31, 0, .ro, 0, [], 4, 1⟩
def CLK_SEARCH_T : Row := ⟨0x060, 15, 0, .ro, 0, [], 4, 1⟩
def CLK_LOCK_T : Row := ⟨0x060, 31, 16, .ro, 0, [], 4, 1⟩
def CLK_CNT_LOSS_LOCK : Row := ⟨0x070, 31, 0, .rw, 0, [], 4, 1⟩
def CLK_CNT_LOSS_REF : Row := ⟨0x074, 31, 0, .rw, 0, [], 4, 1⟩
def CLK_CNT_SYNC_ACT : Row := ⟨0x078, 31, 0, .rw, 0, [], 4, 1⟩
def CLK_CNT_SYNC_MOVED : Row := ⟨0x07C, 31, 0, .rw, 0, [], 4, 1⟩
def CLK_CNT_SYNC_IGNORED : Row := ⟨0x080, 31, 0, .rw, 0, [], 4, 1⟩
def CLK_CNT_GATED_US : Row := ⟨0x084, 31, 0, .rw, 0, [], 4, 1⟩

/-! TIME (R274). -/
def TIME_PRIO0 : Row := ⟨0x040, 2, 0, .rw, 1, [(6, 7)], 4, 1⟩
def TIME_PRIO1 : Row := ⟨0x040, 6, 4, .rw, 2, [(6, 7)], 4, 1⟩
def TIME_PRIO2 : Row := ⟨0x040, 10, 8, .rw, 4, [(6, 7)], 4, 1⟩
def TIME_PRIO3 : Row := ⟨0x040, 14, 12, .rw, 5, [(6, 7)], 4, 1⟩
def TIME_REVERT : Row := ⟨0x040, 16, 16, .rw, 1, [], 4, 1⟩
def TIME_XO_AGE : Row := ⟨0x044, 23, 0, .rw, 0, [], 4, 1⟩
def TIME_STEP_THRESH : Row := ⟨0x048, 23, 0, .rw, 1000, [(0, 0)], 4, 1⟩
def TIME_SLEW_MAX : Row := ⟨0x04C, 13, 0, .rw, 1000, [(0, 0), (10001, 16383)], 4, 1⟩
def TIME_PPS_OUT_EN : Row := ⟨0x050, 0, 0, .rw, 0, [], 4, 1⟩
def TIME_PPS_OUT_POL : Row := ⟨0x050, 1, 1, .rw, 0, [], 4, 1⟩
def TIME_PPS_OUT_WIDTH : Row := ⟨0x050, 31, 16, .rw, 100, [(0, 0)], 4, 1⟩
def TIME_PPS_IN_POL : Row := ⟨0x054, 0, 0, .rw, 0, [], 4, 1⟩
def TIME_SEL : Row := ⟨0x058, 2, 0, .ro, 0, [], 4, 1⟩
def TIME_STATE : Row := ⟨0x058, 5, 4, .ro, 0, [], 4, 1⟩
def TIME_QUAL : Row := ⟨0x058, 12, 8, .ro, 0, [], 4, 1⟩
def TIME_STEP_PEND : Row := ⟨0x058, 16, 16, .ro, 0, [], 4, 1⟩
def TIME_TAI_VALID : Row := ⟨0x058, 17, 17, .ro, 0, [], 4, 1⟩
def TIME_PHASE_ERR : Row := ⟨0x05C, 31, 0, .ro, 0, [], 4, 1⟩
def TIME_STEER : Row := ⟨0x060, 31, 0, .ro, 0, [], 4, 1⟩
def TIME_SCLK_OFFSET : Row := ⟨0x064, 31, 0, .ro, 0, [], 4, 1⟩
def TIME_UTC_OFFSET : Row := ⟨0x068, 15, 0, .rw, 0, [], 4, 1⟩
def TIME_NOW : Row := ⟨0x070, 31, 0, .ro, 0, [], 4, 3⟩
def TIME_TIE_P_LO : Row := ⟨0x080, 31, 0, .ro, 0, [], 4, 1⟩
def TIME_TIE_P_HI : Row := ⟨0x084, 15, 0, .ro, 0, [], 4, 1⟩
def TIME_CNT_SWITCH : Row := ⟨0x090, 31, 0, .rw, 0, [], 4, 1⟩
def TIME_CNT_STEP : Row := ⟨0x094, 31, 0, .rw, 0, [], 4, 1⟩
def TIME_CNT_HOLDOVER : Row := ⟨0x098, 31, 0, .rw, 0, [], 4, 1⟩
def TIME_CNT_PPS_MISS : Row := ⟨0x09C, 31, 0, .rw, 0, [], 4, 1⟩

/-! MON (R481). -/
def MON_LOW_POWER : Row := ⟨0x040, 0, 0, .rw, 0, [], 4, 1⟩
def MON_SELFCAL : Row := ⟨0x040, 1, 1, .sc, 0, [], 4, 1⟩
def MON_CAL_VALID : Row := ⟨0x040, 2, 2, .ro, 0, [], 4, 1⟩
def MON_GAIN_CORR : Row := ⟨0x044, 15, 0, .rw, 32768, [], 4, 1⟩
def MON_OFFS_CORR : Row := ⟨0x048, 11, 0, .rw, 0, [], 4, 1⟩
def MON_BUSY : Row := ⟨0x04C, 0, 0, .ro, 0, [], 4, 1⟩
def MON_CUR_INPUT : Row := ⟨0x04C, 12, 8, .ro, 0, [], 4, 1⟩
def MON_FLUSH : Row := ⟨0x050, 15, 0, .rw, 1000, [(0, 0)], 4, 1⟩
def MON_WIN_EXIT : Row := ⟨0x054, 31, 0, .w1c, 0, [], 4, 1⟩
def MON_WIN_WAKE : Row := ⟨0x058, 31, 0, .rw, 0, [], 4, 1⟩
def MON_CNT_CONV : Row := ⟨0x060, 31, 0, .rw, 0, [], 4, 1⟩
def MON_CNT_ABORT : Row := ⟨0x064, 31, 0, .rw, 0, [], 4, 1⟩
def MON_CNT_TRIG_LOST : Row := ⟨0x068, 31, 0, .rw, 0, [], 4, 1⟩
def MON_CNT_LATE : Row := ⟨0x06C, 31, 0, .rw, 0, [], 4, 1⟩
def MON_LO : Row := ⟨0x100, 11, 0, .rw, 0, [], 16, 32⟩
def MON_HI : Row := ⟨0x100, 27, 16, .rw, 4095, [], 16, 32⟩
def MON_HYST : Row := ⟨0x104, 11, 0, .rw, 16, [], 16, 32⟩
def MON_WIN_EN : Row := ⟨0x104, 16, 16, .rw, 0, [], 16, 32⟩
def MON_TRIG : Row := ⟨0x108, 4, 0, .rw, 0, [(17, 31)], 16, 32⟩
def MON_DELAY : Row := ⟨0x108, 31, 16, .rw, 0, [], 16, 32⟩
def MON_CODE : Row := ⟨0x10C, 11, 0, .ro, 0, [], 16, 32⟩
def MON_WIN : Row := ⟨0x10C, 17, 16, .ro, 0, [], 16, 32⟩
def MON_LATE : Row := ⟨0x10C, 20, 20, .ro, 0, [], 16, 32⟩
def MON_VALID : Row := ⟨0x10C, 31, 31, .ro, 0, [], 16, 32⟩

/-! TMR (R483). -/
def TMR_EXP0 : Row := ⟨0x100, 31, 0, .rw, 0, [], 32, 8⟩
def TMR_EXP1 : Row := ⟨0x104, 31, 0, .rw, 0, [], 32, 8⟩
def TMR_EXP2 : Row := ⟨0x108, 31, 0, .rw, 0, [], 32, 8⟩
def TMR_PERIOD_LO : Row := ⟨0x10C, 31, 0, .rw, 0, [], 32, 8⟩
def TMR_PERIOD_HI : Row := ⟨0x110, 31, 0, .rw, 0, [], 32, 8⟩
def TMR_ARM : Row := ⟨0x114, 0, 0, .rw, 0, [], 32, 8⟩
def TMR_PERIODIC : Row := ⟨0x114, 1, 1, .rw, 0, [], 32, 8⟩
def TMR_CNT_EXP : Row := ⟨0x118, 31, 0, .rw, 0, [], 32, 8⟩
def TMR_CNT_LATE : Row := ⟨0x11C, 15, 0, .rw, 0, [], 32, 8⟩
def TMR_CNT_SKIP : Row := ⟨0x11C, 31, 16, .rw, 0, [], 32, 8⟩
def TMR_PWM_PERIOD : Row := ⟨0x200, 23, 0, .rw, 50000, [(0, 1)], 16, 8⟩
def TMR_PWM_HIGH : Row := ⟨0x204, 23, 0, .rw, 0, [], 16, 8⟩
def TMR_PWM_MATCH : Row := ⟨0x208, 23, 0, .rw, 0, [], 16, 8⟩
def TMR_PWM_EN : Row := ⟨0x20C, 0, 0, .rw, 0, [], 16, 8⟩
def TMR_PWM_POL : Row := ⟨0x20C, 1, 1, .rw, 0, [], 16, 8⟩
def TMR_ALIGN_TMR : Row := ⟨0x20C, 6, 4, .rw, 0, [], 16, 8⟩
def TMR_ALIGN_EN : Row := ⟨0x20C, 7, 7, .rw, 0, [], 16, 8⟩

/-! PWR (R479). -/
def PWR_STATE : Row := ⟨0x040, 1, 0, .ro, 1, [], 4, 1⟩
def PWR_TRANSIT : Row := ⟨0x040, 2, 2, .ro, 0, [], 4, 1⟩
def PWR_TARGET : Row := ⟨0x040, 5, 4, .ro, 0, [], 4, 1⟩
def PWR_RETAIN_OK : Row := ⟨0x040, 8, 8, .ro, 0, [], 4, 1⟩
def PWR_WAKE : Row := ⟨0x044, 1, 0, .wo, 0, [(0, 0), (3, 3)], 4, 1⟩
def PWR_WAKE_EN_TMR : Row := ⟨0x048, 0, 0, .rw, 0, [], 4, 1⟩
def PWR_WAKE_EN_GATE : Row := ⟨0x048, 1, 1, .rw, 0, [], 4, 1⟩
def PWR_WAKE_EN_MON : Row := ⟨0x048, 2, 2, .rw, 0, [], 4, 1⟩
def PWR_TGT_TMR : Row := ⟨0x048, 9, 8, .rw, 1, [(0, 0), (3, 3)], 4, 1⟩
def PWR_TGT_GATE : Row := ⟨0x048, 11, 10, .rw, 1, [(0, 0), (3, 3)], 4, 1⟩
def PWR_TGT_MON : Row := ⟨0x048, 13, 12, .rw, 1, [(0, 0), (3, 3)], 4, 1⟩
def PWR_WAKE_TMR : Row := ⟨0x048, 18, 16, .rw, 0, [], 4, 1⟩
def PWR_WAKE_GATE : Row := ⟨0x048, 21, 20, .rw, 0, [], 4, 1⟩
def PWR_WAKE_CAUSE : Row := ⟨0x04C, 4, 0, .ro, 0, [], 4, 1⟩
def PWR_THERM_WARN_CORE : Row := ⟨0x050, 7, 0, .rw, 95, [(0, 49), (101, 255)], 4, 1⟩
def PWR_THERM_WARN_FE : Row := ⟨0x050, 15, 8, .rw, 90, [(0, 49), (96, 255)], 4, 1⟩
def PWR_THERM_ACT : Row := ⟨0x050, 16, 16, .rw, 1, [], 4, 1⟩
def PWR_THERM_STAT : Row := ⟨0x054, 3, 0, .ro, 0, [], 4, 1⟩
def PWR_HOTTEST : Row := ⟨0x054, 12, 8, .ro, 0, [], 4, 1⟩
def PWR_SMB_ADDR : Row := ⟨0x058, 6, 0, .rw, 92, [], 4, 1⟩
def PWR_CNT_DORMANT_ACC : Row := ⟨0x060, 31, 0, .rw, 0, [], 4, 1⟩
def PWR_CNT_WAKE : Row := ⟨0x064, 31, 0, .rw, 0, [], 4, 1⟩
def PWR_CNT_REFUSED : Row := ⟨0x068, 31, 0, .rw, 0, [], 4, 1⟩
def PWR_CNT_SHUT : Row := ⟨0x06C, 31, 0, .rw, 0, [], 4, 1⟩
def PWR_CNT_TRIP : Row := ⟨0x070, 31, 0, .rw, 0, [], 4, 1⟩

/-! FLASH (R508). -/
def FLASH_BUSY : Row := ⟨0x040, 0, 0, .ro, 0, [], 4, 1⟩
def FLASH_WARN : Row := ⟨0x040, 1, 1, .ro, 0, [], 4, 1⟩
def FLASH_GOOD : Row := ⟨0x044, 9, 0, .ro, 1022, [], 4, 1⟩
def FLASH_SPARE_LEFT : Row := ⟨0x044, 22, 16, .ro, 64, [], 4, 1⟩
def FLASH_MAX_ERASES : Row := ⟨0x048, 16, 0, .ro, 0, [], 4, 1⟩
def FLASH_WORST_SECTOR : Row := ⟨0x04C, 9, 0, .ro, 0, [], 4, 1⟩
def FLASH_ERASE_T_MAX : Row := ⟨0x04C, 31, 16, .ro, 0, [], 4, 1⟩
def FLASH_CNT_ERASE : Row := ⟨0x050, 31, 0, .rw, 0, [], 4, 1⟩
def FLASH_CNT_RETRY : Row := ⟨0x054, 31, 0, .rw, 0, [], 4, 1⟩
def FLASH_CNT_RETIRED : Row := ⟨0x058, 31, 0, .rw, 0, [], 4, 1⟩
def FLASH_CNT_SLOW_ERASE : Row := ⟨0x05C, 31, 0, .rw, 0, [], 4, 1⟩
def FLASH_CNT_CHECK_FAIL : Row := ⟨0x060, 31, 0, .rw, 0, [], 4, 1⟩
def FLASH_RCV_SRC_LO : Row := ⟨0x070, 31, 0, .rw, 0, [], 4, 1⟩
def FLASH_RCV_SRC_HI : Row := ⟨0x074, 31, 0, .rw, 0, [], 4, 1⟩
def FLASH_RCV_LEN : Row := ⟨0x078, 21, 0, .rw, 0, [], 4, 1⟩
def FLASH_RCV_REGION : Row := ⟨0x07C, 0, 0, .rw, 0, [], 4, 1⟩
def FLASH_RCV_GO : Row := ⟨0x07C, 31, 31, .sc, 0, [], 4, 1⟩
def FLASH_RCV_STAT : Row := ⟨0x080, 2, 0, .ro, 0, [], 4, 1⟩

/-! SEC (R454). -/
def SEC_GEN : Row := ⟨0x040, 31, 0, .ro, 0, [], 4, 1⟩
def SEC_PUBLISH : Row := ⟨0x044, 0, 0, .sc, 0, [], 4, 1⟩
def SEC_PEND : Row := ⟨0x044, 1, 1, .ro, 0, [], 4, 1⟩
def SEC_REVOKING : Row := ⟨0x044, 2, 2, .ro, 0, [], 4, 1⟩
def SEC_DBG_LOCK : Row := ⟨0x048, 0, 0, .w1s, 0, [], 4, 1⟩
def SEC_DBG_FUSE : Row := ⟨0x048, 1, 1, .ro, 0, [], 4, 1⟩
def SEC_DBG_ACTIVE : Row := ⟨0x048, 2, 2, .ro, 0, [], 4, 1⟩
def SEC_FALLBACK : Row := ⟨0x04C, 0, 0, .ro, 0, [], 4, 1⟩
def SEC_CUST_VALID : Row := ⟨0x04C, 19, 16, .ro, 0, [], 4, 1⟩
def SEC_KEY_VALID : Row := ⟨0x04C, 27, 24, .ro, 0, [], 4, 1⟩
def SEC_BOOT_VER : Row := ⟨0x050, 31, 0, .ro, 0, [], 4, 1⟩
def SEC_UCODE_VER : Row := ⟨0x054, 31, 0, .ro, 0, [], 4, 1⟩
def SEC_DENY_SHELL : Row := ⟨0x060, 11, 0, .rc, 0, [], 4, 1⟩
def SEC_DENY_FUNC : Row := ⟨0x060, 21, 16, .rc, 0, [], 4, 1⟩
def SEC_DENY_KIND : Row := ⟨0x060, 26, 24, .rc, 0, [], 4, 1⟩
def SEC_DENY_VALID : Row := ⟨0x060, 31, 31, .rc, 0, [], 4, 1⟩
def SEC_DENY_ADDR : Row := ⟨0x064, 31, 0, .rc, 0, [], 4, 1⟩
def SEC_CNT_DENIED : Row := ⟨0x070, 31, 0, .rw, 0, [], 4, 1⟩
def SEC_CNT_LOG_LOST : Row := ⟨0x074, 31, 0, .rw, 0, [], 4, 1⟩
def SEC_CNT_PUBLISH : Row := ⟨0x078, 31, 0, .rw, 0, [], 4, 1⟩
def SEC_CNT_PUB_REFUSED : Row := ⟨0x07C, 31, 0, .rw, 0, [], 4, 1⟩
def SEC_CNT_DEBUG : Row := ⟨0x080, 31, 0, .rw, 0, [], 4, 1⟩

/-! BANK (R93). -/
def BANK_MODE : Row := ⟨0x040, 1, 0, .rws, 0, [(3, 3)], 4, 1⟩
def BANK_RANGE : Row := ⟨0x040, 5, 4, .rws, 0, [(3, 3)], 4, 1⟩
def BANK_BW : Row := ⟨0x040, 10, 8, .rws, 0, [(7, 7)], 4, 1⟩
def BANK_EQ_PASS : Row := ⟨0x040, 12, 12, .rws, 0, [], 4, 1⟩
def BANK_SETTLING : Row := ⟨0x044, 0, 0, .ro, 1, [], 4, 1⟩
def BANK_POWERED : Row := ⟨0x044, 1, 1, .ro, 0, [], 4, 1⟩
def BANK_LEAD : Row := ⟨0x044, 2, 2, .ro, 1, [], 4, 1⟩
def BANK_LINK_OK : Row := ⟨0x044, 3, 3, .ro, 0, [], 4, 1⟩
def BANK_CHANNEL : Row := ⟨0x044, 6, 4, .ro, 0, [], 4, 1⟩
def BANK_EFF_MODE : Row := ⟨0x044, 9, 8, .ro, 0, [], 4, 1⟩
def BANK_EFF_RANGE : Row := ⟨0x044, 13, 12, .ro, 0, [], 4, 1⟩
def BANK_EFF_BW : Row := ⟨0x044, 18, 16, .ro, 0, [], 4, 1⟩
def BANK_EFF_EQ_PASS : Row := ⟨0x044, 20, 20, .ro, 0, [], 4, 1⟩
def BANK_OUT_SLICE : Row := ⟨0x048, 6, 0, .ro, 127, [], 4, 1⟩
def BANK_OUT_POS : Row := ⟨0x048, 13, 8, .ro, 0, [], 4, 1⟩
def BANK_WAIT_SLICE : Row := ⟨0x048, 22, 16, .ro, 65, [], 4, 1⟩
def BANK_ROT_STATE : Row := ⟨0x048, 25, 24, .ro, 0, [], 4, 1⟩
def BANK_ROT_COUNT : Row := ⟨0x04C, 31, 0, .ro, 0, [], 4, 1⟩
def BANK_FSB : Row := ⟨0x050, 13, 0, .ro, 0, [], 4, 1⟩
def BANK_CNT_OVR : Row := ⟨0x054, 31, 0, .rw, 0, [], 4, 1⟩
def BANK_CNT_NODATA : Row := ⟨0x058, 31, 0, .rw, 0, [], 4, 1⟩
def BANK_CNT_LINK_ERR : Row := ⟨0x05C, 31, 0, .rw, 0, [], 4, 1⟩
def BANK_CNT_HANDOVER : Row := ⟨0x060, 31, 0, .rw, 0, [], 4, 1⟩
def BANK_PEAK_MAX : Row := ⟨0x064, 15, 0, .rc, 32769, [], 4, 1⟩
def BANK_PEAK_MIN : Row := ⟨0x064, 31, 16, .rc, 32767, [], 4, 1⟩
def BANK_SLICE_0 : Row := ⟨0x100, 6, 0, .ro, 0, [], 4, 16⟩
def BANK_SLICE_1 : Row := ⟨0x100, 14, 8, .ro, 0, [], 4, 16⟩
def BANK_SLICE_2 : Row := ⟨0x100, 22, 16, .ro, 0, [], 4, 16⟩
def BANK_SLICE_3 : Row := ⟨0x100, 30, 24, .ro, 0, [], 4, 16⟩

/-! CAL (R132). -/
def CAL_ROT_EN : Row := ⟨0x040, 0, 0, .rws, 1, [], 4, 1⟩
def CAL_AUTO_EN : Row := ⟨0x040, 1, 1, .rws, 1, [], 4, 1⟩
def CAL_HARD_EN : Row := ⟨0x040, 2, 2, .rws, 1, [], 4, 1⟩
def CAL_BOUNDARY_YIELD : Row := ⟨0x040, 3, 3, .rws, 0, [], 4, 1⟩
def CAL_DTEMP : Row := ⟨0x044, 7, 0, .rws, 16, [(0, 0)], 4, 1⟩
def CAL_DTEMP_HARD : Row := ⟨0x044, 23, 16, .rws, 48, [], 4, 1⟩
def CAL_CAL_STEP_TMO : Row := ⟨0x048, 15, 0, .rws, 200, [], 4, 1⟩
def CAL_CAL_RUN_TMO : Row := ⟨0x04C, 23, 0, .rws, 80000, [], 4, 1⟩
def CAL_RUN_ACTIVE : Row := ⟨0x050, 0, 0, .ro, 0, [], 4, 1⟩
def CAL_RUN_KIND : Row := ⟨0x050, 2, 1, .ro, 0, [], 4, 1⟩
def CAL_RUN_IN_FRAME : Row := ⟨0x050, 3, 3, .ro, 0, [], 4, 1⟩
def CAL_DUE : Row := ⟨0x050, 5, 4, .ro, 0, [], 4, 1⟩
def CAL_HARD : Row := ⟨0x050, 7, 6, .ro, 0, [], 4, 1⟩
def CAL_RUN_CHAN : Row := ⟨0x050, 10, 8, .ro, 0, [], 4, 1⟩
def CAL_START_DONE : Row := ⟨0x050, 12, 11, .ro, 0, [], 4, 1⟩
def CAL_NO_SET : Row := ⟨0x050, 14, 13, .ro, 0, [], 4, 1⟩
def CAL_CAL_BAD : Row := ⟨0x054, 7, 0, .ro, 0, [], 4, 1⟩
def CAL_CHOLD : Row := ⟨0x054, 15, 8, .ro, 0, [], 4, 1⟩
def CAL_OVERRIDE : Row := ⟨0x054, 23, 16, .ro, 0, [], 4, 1⟩
def CAL_TEMP_NOW : Row := ⟨0x058, 11, 0, .ro, 0, [], 4, 2⟩
def CAL_LAST_RUN : Row := ⟨0x058, 27, 16, .ro, 0, [], 4, 2⟩
def CAL_VALID_FE0 : Row := ⟨0x060, 7, 0, .ro, 0, [], 4, 1⟩
def CAL_VALID_FE1 : Row := ⟨0x060, 15, 8, .ro, 0, [], 4, 1⟩
def CAL_LOWER_FE0 : Row := ⟨0x060, 18, 16, .ro, 0, [], 4, 1⟩
def CAL_UPPER_FE0 : Row := ⟨0x060, 22, 20, .ro, 0, [], 4, 1⟩
def CAL_LOWER_FE1 : Row := ⟨0x060, 26, 24, .ro, 0, [], 4, 1⟩
def CAL_UPPER_FE1 : Row := ⟨0x060, 30, 28, .ro, 0, [], 4, 1⟩
def CAL_SET_POINT_FE0 : Row := ⟨0x080, 15, 0, .ro, 0, [], 4, 8⟩
def CAL_SET_POINT_FE1 : Row := ⟨0x080, 31, 16, .ro, 0, [], 4, 8⟩
def CAL_CNT_RUNS : Row := ⟨0x0A0, 31, 0, .rw, 0, [], 4, 1⟩
def CAL_CNT_STEP_TMO : Row := ⟨0x0A4, 31, 0, .rw, 0, [], 4, 1⟩
def CAL_CNT_RUN_TMO : Row := ⟨0x0A8, 31, 0, .rw, 0, [], 4, 1⟩
def CAL_CNT_SKEW_SKIP : Row := ⟨0x0AC, 31, 0, .rw, 0, [], 4, 1⟩
def CAL_CNT_HOLDS : Row := ⟨0x0B0, 31, 0, .rw, 0, [], 4, 1⟩

/-! TU (R158). -/
def TU_COND : Row := ⟨0x040, 2, 0, .rws, 0, [(5, 7)], 4, 1⟩
def TU_DIR : Row := ⟨0x040, 5, 4, .rws, 0, [(3, 3)], 4, 1⟩
def TU_QUAL : Row := ⟨0x040, 9, 8, .rws, 0, [(3, 3)], 4, 1⟩
def TU_INTERP : Row := ⟨0x040, 12, 12, .rws, 1, [], 4, 1⟩
def TU_LEVEL_A : Row := ⟨0x044, 15, 0, .rws, 0, [], 4, 1⟩
def TU_LEVEL_B : Row := ⟨0x048, 15, 0, .rws, 0, [], 4, 1⟩
def TU_HYST : Row := ⟨0x04C, 14, 0, .rws, 64, [], 4, 1⟩
def TU_T1 : Row := ⟨0x050, 23, 0, .rws, 1, [], 4, 1⟩
def TU_T2 : Row := ⟨0x054, 23, 0, .rws, 1, [], 4, 1⟩
def TU_STUCK_TIME : Row := ⟨0x058, 31, 0, .rws, 0, [], 4, 1⟩
def TU_STUCK : Row := ⟨0x05C, 0, 0, .ro, 0, [], 4, 1⟩
def TU_QA : Row := ⟨0x05C, 1, 1, .ro, 0, [], 4, 1⟩
def TU_QB : Row := ⟨0x05C, 2, 2, .ro, 0, [], 4, 1⟩
def TU_KNOWN : Row := ⟨0x05C, 3, 3, .ro, 0, [], 4, 1⟩
def TU_CANDIDATE : Row := ⟨0x05C, 4, 4, .ro, 0, [], 4, 1⟩
def TU_CHANNEL : Row := ⟨0x05C, 10, 8, .ro, 0, [], 4, 1⟩
def TU_CNT_DECISIONS : Row := ⟨0x060, 31, 0, .rw, 0, [], 4, 1⟩
def TU_CNT_CONFIRMED : Row := ⟨0x064, 31, 0, .rw, 0, [], 4, 1⟩
def TU_CNT_CANCELLED : Row := ⟨0x068, 31, 0, .rw, 0, [], 4, 1⟩
def TU_CNT_MISSED : Row := ⟨0x06C, 31, 0, .rw, 0, [], 4, 1⟩
def TU_CNT_INTERP_LIN : Row := ⟨0x070, 31, 0, .rw, 0, [], 4, 1⟩

/-! TCOMB (R160). -/
def TCOMB_MODE : Row := ⟨0x040, 1, 0, .rws, 0, [(3, 3)], 80, 16⟩
def TCOMB_SEQ_ANCHOR : Row := ⟨0x040, 2, 2, .rws, 0, [], 80, 16⟩
def TCOMB_HOLD_MODE : Row := ⟨0x040, 6, 4, .rws, 0, [(5, 7)], 80, 16⟩
def TCOMB_ARM_SRC : Row := ⟨0x040, 13, 8, .rws, 0, [], 80, 16⟩
def TCOMB_ARM_EN : Row := ⟨0x040, 14, 14, .rws, 0, [], 80, 16⟩
def TCOMB_ARM_POL : Row := ⟨0x040, 15, 15, .rws, 0, [], 80, 16⟩
def TCOMB_LINK_EXPORT : Row := ⟨0x040, 16, 16, .rws, 0, [], 80, 16⟩
def TCOMB_LINK_LINE : Row := ⟨0x040, 23, 20, .rws, 0, [], 80, 16⟩
def TCOMB_HOLD_TIME_LO : Row := ⟨0x044, 31, 0, .rws, 0, [], 80, 16⟩
def TCOMB_HOLD_TIME_HI : Row := ⟨0x048, 7, 0, .rws, 0, [], 80, 16⟩
def TCOMB_HOLD_COUNT : Row := ⟨0x048, 31, 8, .rws, 0, [], 80, 16⟩
def TCOMB_SEQ_T : Row := ⟨0x04C, 31, 0, .rws, 0, [], 80, 16⟩
def TCOMB_TERM0_W : Row := ⟨0x050, 31, 0, .rws, 0, [], 80, 16⟩
def TCOMB_TERM0_W1 : Row := ⟨0x054, 31, 0, .rws, 0, [], 80, 16⟩
def TCOMB_TERM0_W2 : Row := ⟨0x058, 31, 0, .rws, 0, [(16777216, 4294967295)], 80, 16⟩
def TCOMB_TERM0_W3 : Row := ⟨0x05C, 31, 0, .rws, 0, [], 80, 16⟩
def TCOMB_TERM1_W : Row := ⟨0x060, 31, 0, .rws, 0, [], 80, 16⟩
def TCOMB_TERM1_W1 : Row := ⟨0x064, 31, 0, .rws, 0, [], 80, 16⟩
def TCOMB_TERM1_W2 : Row := ⟨0x068, 31, 0, .rws, 0, [(16777216, 4294967295)], 80, 16⟩
def TCOMB_TERM1_W3 : Row := ⟨0x06C, 31, 0, .rws, 0, [], 80, 16⟩
def TCOMB_TERM2_W : Row := ⟨0x070, 31, 0, .rws, 0, [], 80, 16⟩
def TCOMB_TERM2_W1 : Row := ⟨0x074, 31, 0, .rws, 0, [], 80, 16⟩
def TCOMB_TERM2_W2 : Row := ⟨0x078, 31, 0, .rws, 0, [(16777216, 4294967295)], 80, 16⟩
def TCOMB_TERM2_W3 : Row := ⟨0x07C, 31, 0, .rws, 0, [], 80, 16⟩
def TCOMB_TERM3_W : Row := ⟨0x080, 31, 0, .rws, 0, [], 80, 16⟩
def TCOMB_TERM3_W1 : Row := ⟨0x084, 31, 0, .rws, 0, [], 80, 16⟩
def TCOMB_TERM3_W2 : Row := ⟨0x088, 31, 0, .rws, 0, [(16777216, 4294967295)], 80, 16⟩
def TCOMB_TERM3_W3 : Row := ⟨0x08C, 31, 0, .rws, 0, [], 80, 16⟩
def TCOMB_PROV : Row := ⟨0x540, 15, 0, .ro, 0, [], 4, 1⟩
def TCOMB_SUSPENDED : Row := ⟨0x540, 31, 16, .ro, 0, [], 4, 1⟩
def TCOMB_HOLDING : Row := ⟨0x544, 15, 0, .ro, 0, [], 4, 1⟩
def TCOMB_CNT_FIRED : Row := ⟨0x580, 31, 0, .rw, 0, [], 32, 16⟩
def TCOMB_CNT_CANCELLED : Row := ⟨0x584, 31, 0, .rw, 0, [], 32, 16⟩
def TCOMB_CNT_HOLDOFF_DISCARD : Row := ⟨0x588, 31, 0, .rw, 0, [], 32, 16⟩
def TCOMB_CNT_MISSED : Row := ⟨0x58C, 31, 0, .rw, 0, [], 32, 16⟩
def TCOMB_CNT_ARM_DISCARD : Row := ⟨0x590, 31, 0, .rw, 0, [], 32, 16⟩
def TCOMB_CNT_SUSPENDED : Row := ⟨0x594, 31, 0, .rw, 0, [], 32, 16⟩
def TCOMB_CNT_UNCONF : Row := ⟨0x598, 31, 0, .rw, 0, [], 32, 16⟩
def TCOMB_CNT_LATE : Row := ⟨0x59C, 31, 0, .rw, 0, [], 32, 16⟩

/-! TEXT (R162). -/
def TEXT_POL : Row := ⟨0x040, 0, 0, .rws, 0, [], 16, 4⟩
def TEXT_TERM : Row := ⟨0x040, 1, 1, .rws, 1, [], 16, 4⟩
def TEXT_HYST : Row := ⟨0x040, 10, 8, .rws, 2, [], 16, 4⟩
def TEXT_TH : Row := ⟨0x040, 27, 16, .rws, 0, [], 16, 4⟩
def TEXT_STUCK_TIME : Row := ⟨0x044, 31, 0, .rws, 0, [], 16, 4⟩
def TEXT_LEVEL : Row := ⟨0x048, 0, 0, .ro, 0, [], 16, 4⟩
def TEXT_STUCK : Row := ⟨0x048, 1, 1, .ro, 0, [], 16, 4⟩
def TEXT_CNT_MISSED : Row := ⟨0x04C, 31, 0, .rw, 0, [], 16, 4⟩
def TEXT_MODE : Row := ⟨0x080, 1, 0, .rws, 0, [(3, 3)], 4, 4⟩
def TEXT_OPOL : Row := ⟨0x080, 2, 2, .rws, 0, [], 4, 4⟩
def TEXT_DEF : Row := ⟨0x080, 7, 4, .rws, 0, [], 4, 4⟩
def TEXT_WIDTH : Row := ⟨0x080, 15, 8, .rws, 16, [(0, 0)], 4, 4⟩
def TEXT_CONF_DEADLINE : Row := ⟨0x090, 23, 0, .rws, 100000, [(0, 0)], 4, 1⟩
def TEXT_SW_TRIG : Row := ⟨0x094, 3, 0, .wo, 0, [], 4, 1⟩
def TEXT_TOUT_OPEN : Row := ⟨0x098, 3, 0, .ro, 0, [], 4, 1⟩
def TEXT_FL_EN : Row := ⟨0x09C, 15, 0, .rws, 65535, [], 4, 1⟩
def TEXT_CNT_TOUT_DROP : Row := ⟨0x0A0, 31, 0, .rw, 0, [], 4, 4⟩
def TEXT_CNT_REMOTE_PROV : Row := ⟨0x0B0, 31, 0, .rw, 0, [], 4, 1⟩
def TEXT_CNT_REMOTE_CONF : Row := ⟨0x0B4, 31, 0, .rw, 0, [], 4, 1⟩
def TEXT_CNT_REMOTE_CXL : Row := ⟨0x0B8, 31, 0, .rw, 0, [], 4, 1⟩
def TEXT_CNT_DEADLINE : Row := ⟨0x0BC, 31, 0, .rw, 0, [], 4, 1⟩
def TEXT_CNT_LATE : Row := ⟨0x0C0, 31, 0, .rw, 0, [], 4, 1⟩

/-! TDC (R276). -/
def TDC_EDGE : Row := ⟨0x040, 1, 0, .rws, 0, [(3, 3)], 4, 1⟩
def TDC_PRESC : Row := ⟨0x040, 7, 4, .rws, 0, [(9, 15)], 4, 1⟩
def TDC_TERM : Row := ⟨0x040, 8, 8, .rws, 1, [], 4, 1⟩
def TDC_ARM_SRC : Row := ⟨0x040, 20, 16, .rws, 0, [(1, 3), (8, 15)], 4, 1⟩
def TDC_ARM_POL : Row := ⟨0x040, 21, 21, .rws, 1, [], 4, 1⟩
def TDC_CD_SRC : Row := ⟨0x040, 24, 24, .rws, 0, [], 4, 1⟩
def TDC_TH : Row := ⟨0x044, 11, 0, .rws, 0, [], 4, 1⟩
def TDC_HYST : Row := ⟨0x044, 18, 16, .rws, 2, [], 4, 1⟩
def TDC_OFFSET : Row := ⟨0x048, 31, 0, .rws, 0, [], 4, 1⟩
def TDC_LOCKED : Row := ⟨0x04C, 0, 0, .ro, 0, [], 4, 1⟩
def TDC_ARMED : Row := ⟨0x04C, 1, 1, .ro, 0, [], 4, 1⟩
def TDC_LEVEL : Row := ⟨0x04C, 2, 2, .ro, 0, [], 4, 1⟩
def TDC_CD_VALID : Row := ⟨0x04C, 3, 3, .ro, 0, [], 4, 1⟩
def TDC_CD_BUSY : Row := ⟨0x04C, 4, 4, .ro, 0, [], 4, 1⟩
def TDC_FIFO_FILL : Row := ⟨0x04C, 14, 8, .ro, 0, [], 4, 1⟩
def TDC_START : Row := ⟨0x050, 0, 0, .sc, 0, [], 4, 1⟩
def TDC_LOG2_EDGES : Row := ⟨0x050, 12, 8, .rw, 22, [(0, 15), (27, 31)], 4, 1⟩
def TDC_EVCOUNT_LO : Row := ⟨0x058, 31, 0, .ro, 0, [], 4, 1⟩
def TDC_EVCOUNT_HI : Row := ⟨0x05C, 31, 0, .ro, 0, [], 4, 1⟩
def TDC_CNT_STAMPS : Row := ⟨0x060, 31, 0, .rw, 0, [], 4, 1⟩
def TDC_CNT_DEAD : Row := ⟨0x064, 31, 0, .rw, 0, [], 4, 1⟩
def TDC_CNT_FIFO_LOST : Row := ⟨0x068, 31, 0, .rw, 0, [], 4, 1⟩
def TDC_CNT_UNARMED : Row := ⟨0x06C, 31, 0, .rw, 0, [], 4, 1⟩
def TDC_CNT_UNLOCKED : Row := ⟨0x070, 31, 0, .rw, 0, [], 4, 1⟩
def TDC_CNT_CODE_RANGE : Row := ⟨0x074, 31, 0, .rw, 0, [], 4, 1⟩
def TDC_CENTRE : Row := ⟨0x200, 19, 0, .ro, 0, [], 4, 128⟩

/-! HIST (R217). -/
def HIST_DEPTH : Row := ⟨0x040, 7, 0, .rws, 16, [(0, 0), (129, 255)], 4, 8⟩
def HIST_ACTIVE : Row := ⟨0x060, 7, 0, .ro, 0, [], 4, 1⟩
def HIST_FILLING : Row := ⟨0x060, 15, 8, .ro, 0, [], 4, 1⟩
def HIST_HBM_USED : Row := ⟨0x064, 10, 0, .ro, 128, [], 4, 1⟩
def HIST_CNT_OVERRUN : Row := ⟨0x080, 31, 0, .rw, 0, [], 4, 8⟩

/-! ACC (R219). -/
def ACC_POOL_SIZE : Row := ⟨0x040, 13, 0, .ro, 14336, [], 4, 1⟩
def ACC_POOL_USED : Row := ⟨0x044, 13, 0, .ro, 0, [], 4, 1⟩
def ACC_BINS_USED : Row := ⟨0x048, 23, 0, .ro, 0, [], 4, 1⟩
def ACC_EPOCH_STREAM : Row := ⟨0x04C, 7, 0, .wo, 0, [], 4, 1⟩
def ACC_EPOCH_GO : Row := ⟨0x04C, 31, 31, .wo, 0, [], 4, 1⟩
def ACC_ACC_BUSY : Row := ⟨0x050, 7, 0, .ro, 0, [], 4, 1⟩
def ACC_DEN_BUSY : Row := ⟨0x050, 11, 8, .ro, 0, [], 4, 1⟩
def ACC_CNT_EPOCH_LIMIT : Row := ⟨0x060, 31, 0, .rw, 0, [], 4, 1⟩
def ACC_CNT_EPOCH_LEN : Row := ⟨0x064, 31, 0, .rw, 0, [], 4, 1⟩
def ACC_CNT_EPOCH_CMD : Row := ⟨0x068, 31, 0, .rw, 0, [], 4, 1⟩
def ACC_CNT_ALLOC_FAIL : Row := ⟨0x06C, 31, 0, .rw, 0, [], 4, 1⟩
def ACC_EPOCH_SEGS : Row := ⟨0x400, 23, 0, .rws, 0, [], 4, 256⟩

/-! DEN (R221). -/
def DEN_USE : Row := ⟨0x040, 0, 0, .rws, 0, [], 32, 16⟩
def DEN_STREAM : Row := ⟨0x040, 15, 8, .rws, 0, [], 32, 16⟩
def DEN_X_BINS : Row := ⟨0x044, 12, 0, .rws, 1024, [], 32, 16⟩
def DEN_Y_BINS : Row := ⟨0x044, 26, 16, .rws, 256, [], 32, 16⟩
def DEN_X_OFF : Row := ⟨0x048, 31, 0, .rws, 0, [], 32, 16⟩
def DEN_X_DIV : Row := ⟨0x04C, 23, 0, .rws, 4, [], 32, 16⟩
def DEN_Y_BASE : Row := ⟨0x050, 15, 0, .rws, 32769, [], 32, 16⟩
def DEN_Y_SHIFT : Row := ⟨0x050, 19, 16, .rws, 8, [], 32, 16⟩
def DEN_EPOCH_SEGS : Row := ⟨0x054, 23, 0, .rws, 0, [], 32, 16⟩
def DEN_ALLOC : Row := ⟨0x300, 0, 0, .ro, 0, [], 16, 16⟩
def DEN_SAT : Row := ⟨0x300, 1, 1, .ro, 0, [], 16, 16⟩
def DEN_CNT_OUT : Row := ⟨0x304, 31, 0, .rw, 0, [], 16, 16⟩
def DEN_CNT_BINNED : Row := ⟨0x308, 31, 0, .rw, 0, [], 16, 16⟩
def DEN_CNT_EPOCHS : Row := ⟨0x30C, 31, 0, .rw, 0, [], 16, 16⟩

/-! DIFF (R278). -/
def DIFF_FLUSH : Row := ⟨0x040, 15, 0, .rws, 1000, [(0, 0)], 4, 1⟩
def DIFF_HEPOCH_N : Row := ⟨0x044, 31, 0, .rws, 0, [], 4, 1⟩
def DIFF_EPOCH_PAIR : Row := ⟨0x048, 5, 0, .wo, 0, [], 4, 1⟩
def DIFF_EPOCH_GO : Row := ⟨0x048, 31, 31, .wo, 0, [], 4, 1⟩
def DIFF_CNT_DIFFS : Row := ⟨0x060, 31, 0, .rw, 0, [], 4, 1⟩
def DIFF_CNT_NO_MATCH : Row := ⟨0x064, 31, 0, .rw, 0, [], 4, 1⟩
def DIFF_CNT_ALL_EXCESS : Row := ⟨0x068, 31, 0, .rw, 0, [], 4, 1⟩
def DIFF_CNT_DROP : Row := ⟨0x06C, 31, 0, .rw, 0, [], 4, 1⟩
def DIFF_CNT_HEPOCH : Row := ⟨0x070, 31, 0, .rw, 0, [], 4, 1⟩
def DIFF_USE : Row := ⟨0x100, 0, 0, .rws, 0, [], 16, 64⟩
def DIFF_MODE : Row := ⟨0x100, 2, 1, .rws, 0, [(3, 3)], 16, 64⟩
def DIFF_A : Row := ⟨0x100, 11, 8, .rws, 0, [], 16, 64⟩
def DIFF_B : Row := ⟨0x100, 15, 12, .rws, 0, [], 16, 64⟩
def DIFF_OUT : Row := ⟨0x100, 16, 16, .rws, 0, [], 16, 64⟩
def DIFF_WIN_LO : Row := ⟨0x104, 31, 0, .rws, 0, [], 16, 64⟩
def DIFF_WIN_HI : Row := ⟨0x108, 31, 0, .rws, 0, [], 16, 64⟩
def DIFF_BIN_W : Row := ⟨0x10C, 31, 0, .rws, 1, [], 16, 64⟩

/-! ST (R191). -/
def ST_SRC_KIND : Row := ⟨0x040, 1, 0, .rws, 0, [], 4, 1⟩
def ST_SRC : Row := ⟨0x040, 19, 4, .rws, 0, [], 4, 1⟩
def ST_TRIG_MODE : Row := ⟨0x044, 0, 0, .rws, 0, [], 4, 1⟩
def ST_TDEF : Row := ⟨0x044, 7, 4, .rws, 0, [], 4, 1⟩
def ST_POLICY : Row := ⟨0x044, 8, 8, .rws, 0, [], 4, 1⟩
def ST_CLOSE : Row := ⟨0x044, 9, 9, .rws, 0, [], 4, 1⟩
def ST_UNCONF_KEEP : Row := ⟨0x044, 10, 10, .rws, 0, [], 4, 1⟩
def ST_FORMAT : Row := ⟨0x044, 19, 16, .rws, 0, [(9, 15)], 4, 1⟩
def ST_CLASS : Row := ⟨0x044, 25, 24, .rws, 1, [(3, 3)], 4, 1⟩
def ST_SEG_LEN : Row := ⟨0x048, 31, 0, .rws, 4096, [], 4, 1⟩
def ST_PRE_LEN : Row := ⟨0x04C, 31, 0, .rws, 0, [], 4, 1⟩
def ST_PART_LEN : Row := ⟨0x050, 24, 0, .rws, 65536, [], 4, 1⟩
def ST_EQ_SIZE : Row := ⟨0x054, 16, 0, .rws, 256, [], 4, 1⟩
def ST_SCALE_G : Row := ⟨0x058, 17, 0, .rws, 16384, [], 4, 1⟩
def ST_SCALE_S : Row := ⟨0x05C, 5, 0, .rws, 14, [], 4, 1⟩
def ST_SCALE_O : Row := ⟨0x05C, 24, 8, .rws, 0, [], 4, 1⟩
def ST_DEC_MODE : Row := ⟨0x060, 2, 0, .rws, 0, [(5, 7)], 4, 1⟩
def ST_DEC_N : Row := ⟨0x060, 28, 4, .rws, 2, [], 4, 1⟩
def ST_ACC_EN : Row := ⟨0x064, 0, 0, .rws, 0, [], 4, 1⟩
def ST_NORM : Row := ⟨0x064, 1, 1, .rws, 0, [], 4, 1⟩
def ST_SEG_OUT : Row := ⟨0x064, 2, 2, .rws, 0, [], 4, 1⟩
def ST_DEN_EN : Row := ⟨0x064, 3, 3, .rws, 0, [], 4, 1⟩
def ST_DEN_W32 : Row := ⟨0x064, 4, 4, .rws, 0, [], 4, 1⟩
def ST_DEST_KIND : Row := ⟨0x070, 1, 0, .ro, 0, [], 4, 1⟩
def ST_DEST_INDEX : Row := ⟨0x070, 28, 16, .ro, 0, [], 4, 1⟩
def ST_IN_FRAME : Row := ⟨0x074, 0, 0, .ro, 0, [], 4, 1⟩
def ST_EQ_FULL : Row := ⟨0x074, 1, 1, .ro, 0, [], 4, 1⟩
def ST_EQ_HIGH : Row := ⟨0x074, 2, 2, .ro, 0, [], 4, 1⟩
def ST_PIP_RES_FULL : Row := ⟨0x074, 3, 3, .ro, 0, [], 4, 1⟩
def ST_DRAINED : Row := ⟨0x074, 4, 4, .ro, 0, [], 4, 1⟩
def ST_EQ_FILL : Row := ⟨0x078, 16, 0, .ro, 0, [], 4, 1⟩
def ST_NEXT_SEQ_LO : Row := ⟨0x07C, 31, 0, .ro, 0, [], 4, 1⟩
def ST_NEXT_SEQ_HI : Row := ⟨0x080, 31, 0, .ro, 0, [], 4, 1⟩
def ST_CNT_SEG : Row := ⟨0x084, 31, 0, .rw, 0, [], 4, 1⟩
def ST_CNT_REC : Row := ⟨0x088, 31, 0, .rw, 0, [], 4, 1⟩
def ST_CNT_PIP : Row := ⟨0x08C, 31, 0, .rw, 0, [], 4, 1⟩
def ST_CNT_LOST_LO : Row := ⟨0x090, 31, 0, .rw, 0, [], 4, 1⟩
def ST_CNT_LOST_HI : Row := ⟨0x094, 31, 0, .rw, 0, [], 4, 1⟩
def ST_CNT_OVERRUN : Row := ⟨0x098, 31, 0, .rw, 0, [], 4, 1⟩
def ST_CNT_BUF_FULL : Row := ⟨0x09C, 31, 0, .rw, 0, [], 4, 1⟩
def ST_CNT_TRUNC : Row := ⟨0x0A0, 31, 0, .rw, 0, [], 4, 1⟩
def ST_CNT_UNCONF : Row := ⟨0x0A4, 31, 0, .rw, 0, [], 4, 1⟩
def ST_CNT_REQ_FULL : Row := ⟨0x0A8, 31, 0, .rw, 0, [], 4, 1⟩
def ST_CNT_LOG_LOST : Row := ⟨0x0AC, 31, 0, .rw, 0, [], 4, 1⟩

/-! SQ (R422). -/
def SQ_STATE : Row := ⟨0x040, 1, 0, .ro, 0, [], 4, 1⟩
def SQ_CMDS : Row := ⟨0x040, 7, 4, .ro, 0, [], 4, 1⟩
def SQ_OPCODE : Row := ⟨0x040, 15, 8, .ro, 0, [], 4, 1⟩
def SQ_SHELL : Row := ⟨0x040, 27, 16, .ro, 0, [], 4, 1⟩
def SQ_PC : Row := ⟨0x044, 17, 0, .ro, 0, [], 4, 1⟩
def SQ_FLAGS : Row := ⟨0x048, 2, 0, .ro, 0, [], 4, 1⟩
def SQ_STEP_MAX : Row := ⟨0x04C, 15, 0, .rw, 0, [], 4, 1⟩
def SQ_CNT_CMDS : Row := ⟨0x050, 31, 0, .rw, 0, [], 4, 1⟩
def SQ_CNT_STEPS : Row := ⟨0x054, 31, 0, .rw, 0, [], 4, 1⟩
def SQ_CNT_FWD : Row := ⟨0x058, 31, 0, .rw, 0, [], 4, 1⟩
def SQ_CNT_SB_WAIT : Row := ⟨0x05C, 31, 0, .rw, 0, [], 4, 1⟩
def SQ_CNT_FAULT : Row := ⟨0x060, 31, 0, .rw, 0, [], 4, 1⟩
def SQ_CNT_ABORT : Row := ⟨0x064, 31, 0, .rw, 0, [], 4, 1⟩

/-! MC (R437). -/
def MC_PC_UP : Row := ⟨0x040, 15, 0, .ro, 0, [], 4, 1⟩
def MC_MODE : Row := ⟨0x044, 1, 0, .ro, 0, [], 4, 1⟩
def MC_STACK_TEMP : Row := ⟨0x044, 15, 8, .ro, 0, [], 4, 1⟩
def MC_ECC_ADDR : Row := ⟨0x048, 28, 0, .ro, 0, [], 4, 1⟩
def MC_CNT_RD_LO : Row := ⟨0x050, 31, 0, .rw, 0, [], 4, 1⟩
def MC_CNT_RD_HI : Row := ⟨0x054, 31, 0, .rw, 0, [], 4, 1⟩
def MC_CNT_WR_LO : Row := ⟨0x058, 31, 0, .rw, 0, [], 4, 1⟩
def MC_CNT_WR_HI : Row := ⟨0x05C, 31, 0, .rw, 0, [], 4, 1⟩
def MC_CNT_ECC_CORR : Row := ⟨0x060, 31, 0, .rw, 0, [], 4, 1⟩
def MC_CNT_ECC_UNCORR : Row := ⟨0x064, 31, 0, .rw, 0, [], 4, 1⟩
def MC_CNT_REFRESH_STALL : Row := ⟨0x068, 31, 0, .rw, 0, [], 4, 1⟩

/-! ARB (R439). -/
def ARB_AGE_LIMIT : Row := ⟨0x040, 8, 0, .rw, 200, [(0, 0), (501, 511)], 4, 1⟩
def ARB_RES_GUAR : Row := ⟨0x044, 31, 0, .ro, 0, [], 4, 1⟩
def ARB_RES_FIRM : Row := ⟨0x048, 31, 0, .ro, 0, [], 4, 1⟩
def ARB_RES_LIMIT : Row := ⟨0x04C, 31, 0, .ro, 1146800, [], 4, 1⟩
def ARB_HINT_SEL : Row := ⟨0x050, 6, 0, .rw, 0, [], 4, 1⟩
def ARB_HINT_NOW : Row := ⟨0x054, 7, 0, .ro, 255, [], 4, 1⟩
def ARB_CNT_TIMEOUT : Row := ⟨0x060, 31, 0, .rw, 0, [], 4, 1⟩
def ARB_CNT_WITHDRAW : Row := ⟨0x064, 31, 0, .rw, 0, [], 4, 1⟩
def ARB_CNT_AGED : Row := ⟨0x068, 31, 0, .rw, 0, [], 4, 1⟩
def ARB_CNT_FIRM_LATE : Row := ⟨0x06C, 31, 0, .rw, 0, [], 4, 1⟩
def ARB_PRIO : Row := ⟨0x100, 2, 0, .rw, 0, [], 4, 79⟩
def ARB_CLASS : Row := ⟨0x100, 9, 8, .ro, 0, [], 4, 79⟩
def ARB_WAITING : Row := ⟨0x100, 16, 16, .ro, 0, [], 4, 79⟩
def ARB_CNT_DELAY : Row := ⟨0x400, 31, 0, .rw, 0, [], 8, 79⟩
def ARB_CNT_GRANT : Row := ⟨0x404, 31, 0, .rw, 0, [], 8, 79⟩

/-! PCIE (R362). -/
def PCIE_SPEED : Row := ⟨0x040, 3, 0, .ro, 0, [], 4, 1⟩
def PCIE_WIDTH : Row := ⟨0x040, 9, 4, .ro, 0, [], 4, 1⟩
def PCIE_PM_STATE : Row := ⟨0x040, 14, 12, .ro, 0, [], 4, 1⟩
def PCIE_NUM_VF : Row := ⟨0x044, 6, 0, .ro, 0, [], 4, 1⟩
def PCIE_VEC_SEL : Row := ⟨0x050, 5, 0, .rw, 0, [], 4, 1⟩
def PCIE_VEC_BASE : Row := ⟨0x054, 10, 0, .rw, 0, [], 4, 1⟩
def PCIE_VEC_COUNT : Row := ⟨0x054, 27, 16, .rw, 0, [], 4, 1⟩
def PCIE_COAL_SEL : Row := ⟨0x058, 10, 0, .rw, 0, [], 4, 1⟩
def PCIE_COAL_C : Row := ⟨0x05C, 7, 0, .rw, 1, [(0, 0)], 4, 1⟩
def PCIE_COAL_T : Row := ⟨0x05C, 31, 16, .rw, 0, [], 4, 1⟩
def PCIE_CNT_DB_BAD : Row := ⟨0x060, 31, 0, .rw, 0, [], 4, 1⟩
def PCIE_CNT_EVT_DROP : Row := ⟨0x064, 31, 0, .rw, 0, [], 4, 1⟩
def PCIE_CNT_ZLR : Row := ⟨0x068, 31, 0, .rw, 0, [], 4, 1⟩
def PCIE_CNT_FAULT : Row := ⟨0x06C, 31, 0, .rw, 0, [], 4, 1⟩
def PCIE_CNT_MSIX : Row := ⟨0x070, 31, 0, .rw, 0, [], 4, 1⟩
def PCIE_CNT_FLR : Row := ⟨0x074, 31, 0, .rw, 0, [], 4, 1⟩

/-! ENET (R387). -/
def ENET_MODE : Row := ⟨0x040, 1, 0, .rw, 0, [(3, 3)], 4, 1⟩
def ENET_MEDIA : Row := ⟨0x040, 5, 4, .rw, 0, [(3, 3)], 4, 1⟩
def ENET_AN_EN : Row := ⟨0x040, 8, 8, .rw, 0, [], 4, 1⟩
def ENET_LT_EN : Row := ⟨0x040, 9, 9, .rw, 0, [], 4, 1⟩
def ENET_PFC_EN : Row := ⟨0x044, 7, 0, .rw, 0, [], 4, 1⟩
def ENET_PCP_ROCE : Row := ⟨0x044, 10, 8, .rw, 3, [], 4, 1⟩
def ENET_PCP_UDP : Row := ⟨0x044, 14, 12, .rw, 1, [], 4, 1⟩
def ENET_PCP_PTP : Row := ⟨0x044, 18, 16, .rw, 7, [], 4, 1⟩
def ENET_VLAN_ID : Row := ⟨0x048, 11, 0, .rw, 0, [], 4, 1⟩
def ENET_MAC_LO : Row := ⟨0x050, 31, 0, .rw, 0, [], 8, 4⟩
def ENET_MAC_HI : Row := ⟨0x054, 15, 0, .rw, 0, [], 8, 4⟩
def ENET_PTP_EN : Row := ⟨0x070, 0, 0, .rw, 0, [], 4, 1⟩
def ENET_PTP_SUB : Row := ⟨0x070, 2, 1, .rw, 0, [], 4, 1⟩
def ENET_SLAVE_ONLY : Row := ⟨0x070, 3, 3, .rw, 1, [], 4, 1⟩
def ENET_TRANSPORT : Row := ⟨0x070, 4, 4, .rw, 0, [], 4, 1⟩
def ENET_DOMAIN : Row := ⟨0x070, 15, 8, .rw, 0, [], 4, 1⟩
def ENET_PRIORITY1 : Row := ⟨0x070, 23, 16, .rw, 128, [], 4, 1⟩
def ENET_PRIORITY2 : Row := ⟨0x070, 31, 24, .rw, 128, [], 4, 1⟩
def ENET_LOG_SYNC : Row := ⟨0x074, 7, 0, .rw, 0, [(5, 248)], 4, 1⟩
def ENET_PTP_IPV4 : Row := ⟨0x078, 31, 0, .rw, 0, [], 4, 1⟩
def ENET_PTP_ASYM : Row := ⟨0x07C, 31, 0, .rw, 0, [], 4, 1⟩
def ENET_LINK : Row := ⟨0x080, 3, 0, .ro, 0, [], 4, 1⟩
def ENET_PTP_STATE : Row := ⟨0x080, 14, 12, .ro, 0, [], 4, 1⟩
def ENET_PAUSED : Row := ⟨0x080, 23, 16, .ro, 0, [], 4, 1⟩
def ENET_PTP_OFFSET : Row := ⟨0x084, 31, 0, .ro, 0, [], 4, 1⟩
def ENET_CNT_TX_FRAMES : Row := ⟨0x090, 31, 0, .rw, 0, [], 4, 1⟩
def ENET_CNT_RX_FRAMES : Row := ⟨0x094, 31, 0, .rw, 0, [], 4, 1⟩
def ENET_CNT_RX_DISCARD : Row := ⟨0x098, 31, 0, .rw, 0, [], 4, 1⟩
def ENET_CNT_FEC_CORR : Row := ⟨0x09C, 31, 0, .rw, 0, [], 4, 1⟩
def ENET_CNT_FEC_UNCORR : Row := ⟨0x0A0, 31, 0, .rw, 0, [], 4, 1⟩
def ENET_CNT_PFC_RX : Row := ⟨0x0A4, 31, 0, .rw, 0, [], 4, 1⟩
def ENET_CNT_PAUSE_GLOBAL : Row := ⟨0x0A8, 31, 0, .rw, 0, [], 4, 1⟩
def ENET_CNT_LINK_DOWN : Row := ⟨0x0AC, 31, 0, .rw, 0, [], 4, 1⟩

/-! RDMA (R389). -/
def RDMA_SHED_AGE : Row := ⟨0x040, 15, 0, .rw, 100, [(0, 0)], 4, 1⟩
def RDMA_LINK_HOLD : Row := ⟨0x044, 15, 0, .rw, 10, [(0, 0)], 4, 1⟩
def RDMA_RP_DEC : Row := ⟨0x048, 2, 0, .rw, 3, [(0, 0)], 4, 1⟩
def RDMA_RP_GUARD : Row := ⟨0x048, 31, 16, .rw, 50, [(0, 0)], 4, 1⟩
def RDMA_RP_AI : Row := ⟨0x04C, 15, 0, .rw, 200, [], 4, 1⟩
def RDMA_RP_PERIOD : Row := ⟨0x04C, 31, 16, .rw, 55, [(0, 0)], 4, 1⟩
def RDMA_FAILBACK : Row := ⟨0x050, 0, 0, .rw, 1, [], 4, 1⟩
def RDMA_PCIE_CAP : Row := ⟨0x054, 15, 0, .rw, 50000, [], 4, 1⟩
def RDMA_SUM_E0 : Row := ⟨0x060, 15, 0, .ro, 0, [], 4, 4⟩
def RDMA_SUM_E1 : Row := ⟨0x070, 15, 0, .ro, 0, [], 4, 4⟩
def RDMA_SUM_PCIE : Row := ⟨0x080, 15, 0, .ro, 0, [], 4, 1⟩
def RDMA_CTX_USED : Row := ⟨0x084, 12, 0, .ro, 0, [], 4, 1⟩
def RDMA_CNT_SHED : Row := ⟨0x090, 31, 0, .rw, 0, [], 4, 1⟩
def RDMA_CNT_REFUSED : Row := ⟨0x094, 31, 0, .rw, 0, [], 4, 1⟩
def RDMA_CNT_CNP : Row := ⟨0x098, 31, 0, .rw, 0, [], 4, 1⟩
def RDMA_CNT_RATE_FLOOR : Row := ⟨0x09C, 31, 0, .rw, 0, [], 4, 1⟩
def RDMA_CNT_RETX : Row := ⟨0x0A0, 31, 0, .rw, 0, [], 4, 1⟩
def RDMA_CNT_RNR : Row := ⟨0x0A4, 31, 0, .rw, 0, [], 4, 1⟩
def RDMA_CNT_TIMEOUT : Row := ⟨0x0A8, 31, 0, .rw, 0, [], 4, 1⟩
def RDMA_CNT_FAILOVER : Row := ⟨0x0AC, 31, 0, .rw, 0, [], 4, 1⟩
def RDMA_CNT_FAILBACK : Row := ⟨0x0B0, 31, 0, .rw, 0, [], 4, 1⟩
def RDMA_CNT_QP_ERR : Row := ⟨0x0B4, 31, 0, .rw, 0, [], 4, 1⟩
def RDMA_CNT_LINK_HOLD : Row := ⟨0x0B8, 31, 0, .rw, 0, [], 4, 1⟩
def RDMA_ADM_CHARGE : Row := ⟨0x400, 15, 0, .ro, 0, [], 4, 256⟩
def RDMA_ADM_SUMMED : Row := ⟨0x400, 16, 16, .ro, 0, [], 4, 256⟩

/-! FLINK (R331). -/
def FLINK_DEV_ID : Row := ⟨0x040, 13, 0, .rw, 0, [], 4, 1⟩
def FLINK_UP_PORT : Row := ⟨0x044, 2, 0, .rw, 0, [(5, 7)], 4, 1⟩
def FLINK_VER_MIN : Row := ⟨0x048, 3, 0, .rw, 1, [(0, 0), (3, 15)], 4, 1⟩
def FLINK_VER_MAX : Row := ⟨0x048, 7, 4, .rw, 2, [(0, 0), (3, 15)], 4, 1⟩
def FLINK_FEAT_EN : Row := ⟨0x048, 23, 8, .rw, 31, [], 4, 1⟩
def FLINK_RD_EN : Row := ⟨0x04C, 0, 0, .rw, 1, [], 4, 1⟩
def FLINK_WR_EN : Row := ⟨0x04C, 1, 1, .rw, 1, [], 4, 1⟩
def FLINK_RST_EN : Row := ⟨0x04C, 2, 2, .rw, 0, [], 4, 1⟩
def FLINK_REMOTE_TMO : Row := ⟨0x04C, 31, 16, .rw, 1000, [(0, 0)], 4, 1⟩
def FLINK_GATE_EXP : Row := ⟨0x050, 3, 0, .rw, 0, [], 4, 1⟩
def FLINK_GATE_SRC : Row := ⟨0x050, 11, 8, .rw, 0, [], 4, 1⟩
def FLINK_GATE_LAT : Row := ⟨0x054, 23, 0, .rw, 2000, [(0, 0)], 4, 1⟩
def FLINK_WAKE_EN : Row := ⟨0x058, 0, 0, .rw, 1, [], 4, 1⟩
def FLINK_KA_EN : Row := ⟨0x058, 1, 1, .rw, 1, [], 4, 1⟩
def FLINK_ROOT_ID : Row := ⟨0x060, 13, 0, .ro, 0, [], 4, 1⟩
def FLINK_DEPTH : Row := ⟨0x060, 21, 16, .ro, 0, [], 4, 1⟩
def FLINK_IS_ROOT : Row := ⟨0x060, 24, 24, .ro, 0, [], 4, 1⟩
def FLINK_REMOTE_OUT : Row := ⟨0x064, 4, 0, .ro, 0, [], 4, 1⟩
def FLINK_RQ_ID : Row := ⟨0x068, 13, 0, .rw, 0, [], 4, 1⟩
def FLINK_RQ_PORT : Row := ⟨0x068, 18, 16, .ro, 7, [], 4, 1⟩
def FLINK_EVT_NUM : Row := ⟨0x06C, 10, 0, .rc, 0, [], 4, 1⟩
def FLINK_EVT_SRC : Row := ⟨0x06C, 24, 11, .rc, 0, [], 4, 1⟩
def FLINK_EVT_VALID : Row := ⟨0x06C, 31, 31, .rc, 0, [], 4, 1⟩
def FLINK_CNT_REMOTE_EXEC : Row := ⟨0x080, 31, 0, .rw, 0, [], 4, 1⟩
def FLINK_CNT_REMOTE_REJ : Row := ⟨0x084, 31, 0, .rw, 0, [], 4, 1⟩
def FLINK_CNT_LATE_RESP : Row := ⟨0x088, 31, 0, .rw, 0, [], 4, 1⟩
def FLINK_CNT_NO_ROUTE : Row := ⟨0x08C, 31, 0, .rw, 0, [], 4, 1⟩
def FLINK_CNT_EVT_LOST : Row := ⟨0x090, 31, 0, .rw, 0, [], 4, 1⟩
def FLINK_CNT_GATE_LATE : Row := ⟨0x094, 31, 0, .rw, 0, [], 4, 1⟩

/-! FPORT (R333). -/
def FPORT_FWD_MASK : Row := ⟨0x040, 15, 0, .rw, 65535, [], 4, 1⟩
def FPORT_GATE_FWD : Row := ⟨0x040, 19, 16, .rw, 15, [], 4, 1⟩
def FPORT_RETRAIN : Row := ⟨0x044, 0, 0, .sc, 0, [], 4, 1⟩
def FPORT_ASYM : Row := ⟨0x048, 31, 0, .rw, 0, [], 4, 1⟩
def FPORT_TT_PERIOD : Row := ⟨0x04C, 15, 0, .rw, 1000, [(0, 9)], 4, 1⟩
def FPORT_STATE : Row := ⟨0x050, 3, 0, .ro, 0, [], 4, 1⟩
def FPORT_VER : Row := ⟨0x050, 7, 4, .ro, 0, [], 4, 1⟩
def FPORT_ROLE : Row := ⟨0x050, 8, 8, .ro, 0, [], 4, 1⟩
def FPORT_FALLBACK : Row := ⟨0x050, 9, 9, .ro, 0, [], 4, 1⟩
def FPORT_PEER_ID : Row := ⟨0x050, 29, 16, .ro, 0, [], 4, 1⟩
def FPORT_PEER_MIN : Row := ⟨0x054, 3, 0, .ro, 0, [], 4, 1⟩
def FPORT_PEER_MAX : Row := ⟨0x054, 7, 4, .ro, 0, [], 4, 1⟩
def FPORT_PEER_FEAT : Row := ⟨0x054, 23, 8, .ro, 0, [], 4, 1⟩
def FPORT_PEER_PORT : Row := ⟨0x054, 25, 24, .ro, 0, [], 4, 1⟩
def FPORT_DELAY : Row := ⟨0x058, 31, 0, .ro, 0, [], 4, 1⟩
def FPORT_THETA : Row := ⟨0x05C, 31, 0, .ro, 0, [], 4, 1⟩
def FPORT_TX_DLY : Row := ⟨0x060, 15, 0, .ro, 0, [], 4, 1⟩
def FPORT_RX_DLY : Row := ⟨0x060, 31, 16, .ro, 0, [], 4, 1⟩
def FPORT_CNT_RETRAIN : Row := ⟨0x070, 31, 0, .rw, 0, [], 4, 1⟩
def FPORT_CNT_CRC : Row := ⟨0x074, 31, 0, .rw, 0, [], 4, 1⟩
def FPORT_CNT_ABORT : Row := ⟨0x078, 31, 0, .rw, 0, [], 4, 1⟩
def FPORT_CNT_TX_DROP : Row := ⟨0x07C, 31, 0, .rw, 0, [], 4, 1⟩
def FPORT_CNT_RX_DROP : Row := ⟨0x080, 31, 0, .rw, 0, [], 4, 1⟩
def FPORT_CNT_TIME_EXCH : Row := ⟨0x084, 31, 0, .rw, 0, [], 4, 1⟩
def FPORT_CNT_TIME_REJ : Row := ⟨0x088, 31, 0, .rw, 0, [], 4, 1⟩

/-! DISP (R497). -/
def DISP_LANES : Row := ⟨0x040, 1, 0, .rws, 2, [(3, 3)], 4, 1⟩
def DISP_RATE : Row := ⟨0x040, 5, 4, .rws, 2, [(3, 3)], 4, 1⟩
def DISP_ASYNC_EN : Row := ⟨0x040, 8, 8, .rws, 0, [], 4, 1⟩
def DISP_PCLK_DIV : Row := ⟨0x044, 9, 0, .rws, 38, [(0, 33), (801, 1023)], 4, 1⟩
def DISP_HACTIVE : Row := ⟨0x048, 12, 0, .rws, 3840, [], 4, 1⟩
def DISP_HTOTAL : Row := ⟨0x048, 28, 16, .rws, 3920, [], 4, 1⟩
def DISP_HSYNC_START : Row := ⟨0x04C, 12, 0, .rws, 32, [], 4, 1⟩
def DISP_HSYNC_W : Row := ⟨0x04C, 28, 16, .rws, 32, [], 4, 1⟩
def DISP_HSYNC_POL : Row := ⟨0x04C, 31, 31, .rws, 1, [], 4, 1⟩
def DISP_VACTIVE : Row := ⟨0x050, 11, 0, .rws, 2160, [], 4, 1⟩
def DISP_VFP : Row := ⟨0x050, 27, 16, .rws, 48, [], 4, 1⟩
def DISP_VSYNC_W : Row := ⟨0x054, 7, 0, .rws, 8, [], 4, 1⟩
def DISP_VBP : Row := ⟨0x054, 15, 8, .rws, 6, [], 4, 1⟩
def DISP_VSYNC_POL : Row := ⟨0x054, 31, 31, .rws, 0, [], 4, 1⟩
def DISP_VMIN : Row := ⟨0x058, 13, 0, .rws, 2238, [], 4, 1⟩
def DISP_VMAX : Row := ⟨0x058, 29, 16, .rws, 2238, [], 4, 1⟩
def DISP_BG : Row := ⟨0x05C, 23, 0, .rws, 0, [], 4, 1⟩
def DISP_LINE_MATCH : Row := ⟨0x060, 11, 0, .rws, 0, [], 4, 1⟩
def DISP_READY : Row := ⟨0x064, 0, 0, .sc, 0, [], 4, 1⟩
def DISP_REN_START : Row := ⟨0x064, 1, 1, .sc, 0, [], 4, 1⟩
def DISP_LINK_UP : Row := ⟨0x068, 0, 0, .ro, 0, [], 4, 1⟩
def DISP_HPD : Row := ⟨0x068, 1, 1, .ro, 0, [], 4, 1⟩
def DISP_IN_VBLANK : Row := ⟨0x068, 2, 2, .ro, 0, [], 4, 1⟩
def DISP_REPEAT : Row := ⟨0x068, 3, 3, .ro, 0, [], 4, 1⟩
def DISP_LINE : Row := ⟨0x068, 27, 16, .ro, 0, [], 4, 1⟩
def DISP_LAST_VTOTAL : Row := ⟨0x06C, 13, 0, .ro, 0, [], 4, 1⟩
def DISP_AUX_CMD : Row := ⟨0x070, 3, 0, .rw, 0, [(2, 3), (6, 7), (10, 15)], 4, 1⟩
def DISP_AUX_ADDR : Row := ⟨0x070, 23, 4, .rw, 0, [], 4, 1⟩
def DISP_AUX_LEN : Row := ⟨0x070, 27, 24, .rw, 0, [], 4, 1⟩
def DISP_AUX_GO : Row := ⟨0x070, 31, 31, .sc, 0, [], 4, 1⟩
def DISP_AUX_DATA : Row := ⟨0x074, 31, 0, .rw, 0, [], 4, 4⟩
def DISP_REPLY : Row := ⟨0x084, 1, 0, .ro, 0, [], 4, 1⟩
def DISP_BYTES : Row := ⟨0x084, 8, 4, .ro, 0, [], 4, 1⟩
def DISP_L_EN : Row := ⟨0x100, 0, 0, .rws, 0, [], 32, 4⟩
def DISP_L_FMT : Row := ⟨0x100, 2, 1, .rws, 2, [], 32, 4⟩
def DISP_L_SRC : Row := ⟨0x100, 3, 3, .rws, 0, [], 32, 4⟩
def DISP_L_ALPHA : Row := ⟨0x100, 15, 8, .rws, 255, [], 32, 4⟩
def DISP_L_BASE_LO : Row := ⟨0x108, 31, 0, .rws, 0, [], 32, 4⟩
def DISP_L_BASE_HI : Row := ⟨0x10C, 31, 0, .rws, 0, [], 32, 4⟩
def DISP_L_STRIDE : Row := ⟨0x110, 23, 0, .rws, 0, [], 32, 4⟩
def DISP_L_X : Row := ⟨0x114, 12, 0, .rws, 0, [], 32, 4⟩
def DISP_L_Y : Row := ⟨0x114, 28, 16, .rws, 0, [], 32, 4⟩
def DISP_L_W : Row := ⟨0x118, 12, 0, .rws, 0, [], 32, 4⟩
def DISP_L_H : Row := ⟨0x118, 28, 16, .rws, 0, [], 32, 4⟩
def DISP_BASE_B_LO : Row := ⟨0x180, 31, 0, .rws, 0, [], 4, 1⟩
def DISP_BASE_B_HI : Row := ⟨0x184, 31, 0, .rws, 0, [], 4, 1⟩
def DISP_DEN_SLOT : Row := ⟨0x188, 3, 0, .rws, 0, [], 4, 1⟩
def DISP_REN_MODE : Row := ⟨0x188, 9, 8, .rws, 1, [(2, 3)], 4, 1⟩
def DISP_REN_SHIFT : Row := ⟨0x188, 20, 16, .rws, 0, [], 4, 1⟩
def DISP_REN_AUTO : Row := ⟨0x188, 24, 24, .rws, 0, [], 4, 1⟩
def DISP_REN_READY : Row := ⟨0x188, 25, 25, .rws, 0, [], 4, 1⟩
def DISP_CNT_UNDERRUN : Row := ⟨0x300, 31, 0, .rw, 0, [], 4, 4⟩
def DISP_CNT_REPEAT : Row := ⟨0x310, 31, 0, .rw, 0, [], 4, 1⟩
def DISP_CNT_RENDER : Row := ⟨0x314, 31, 0, .rw, 0, [], 4, 1⟩
def DISP_CNT_FRAMES : Row := ⟨0x318, 31, 0, .rw, 0, [], 4, 1⟩
def DISP_PALETTE : Row := ⟨0x400, 31, 0, .rws, 0, [], 4, 256⟩

/-! RING (R340). -/
def RING_BASE_LO : Row := ⟨0x000, 31, 0, .rw, 0, [], 4, 1⟩
def RING_BASE_HI : Row := ⟨0x004, 31, 0, .rw, 0, [], 4, 1⟩
def RING_LOG2_SIZE : Row := ⟨0x008, 4, 0, .rw, 4, [(0, 3), (17, 31)], 4, 1⟩
def RING_TYPE : Row := ⟨0x008, 6, 5, .rw, 0, [], 4, 1⟩
def RING_CHAIN : Row := ⟨0x008, 7, 7, .rw, 0, [], 4, 1⟩
def RING_EN : Row := ⟨0x008, 8, 8, .rw, 0, [], 4, 1⟩
def RING_LOCAL : Row := ⟨0x008, 9, 9, .rw, 0, [], 4, 1⟩
def RING_PAIR : Row := ⟨0x008, 28, 16, .rw, 0, [], 4, 1⟩
def RING_OWNER : Row := ⟨0x00C, 11, 0, .rw, 4095, [], 4, 1⟩
def RING_VECTOR : Row := ⟨0x010, 10, 0, .rw, 0, [], 4, 1⟩
def RING_MSIX_EN : Row := ⟨0x010, 11, 11, .rw, 0, [], 4, 1⟩
def RING_NRING : Row := ⟨0x010, 28, 16, .rw, 0, [], 4, 1⟩
def RING_NRING_EN : Row := ⟨0x010, 31, 31, .rw, 0, [], 4, 1⟩
def RING_PACE_MODE : Row := ⟨0x014, 1, 0, .rw, 0, [(3, 3)], 4, 1⟩
def RING_PACE_TMR : Row := ⟨0x014, 6, 4, .rw, 0, [], 4, 1⟩
def RING_PACE_RING : Row := ⟨0x014, 28, 16, .rw, 0, [], 4, 1⟩
def RING_PACE_QUOTA : Row := ⟨0x018, 15, 0, .rw, 1, [], 4, 1⟩
def RING_CREDITS : Row := ⟨0x018, 31, 16, .ro, 0, [], 4, 1⟩
def RING_FLUSH_TMO : Row := ⟨0x01C, 15, 0, .rw, 1000, [(0, 0)], 4, 1⟩
def RING_CHAIN_REPOLL : Row := ⟨0x01C, 31, 16, .rw, 100, [(0, 0)], 4, 1⟩
def RING_DEV_PTR : Row := ⟨0x020, 31, 0, .ro, 0, [], 4, 1⟩
def RING_DONE_PTR : Row := ⟨0x024, 31, 0, .ro, 0, [], 4, 1⟩
def RING_HOST_PTR : Row := ⟨0x028, 31, 0, .ro, 0, [], 4, 1⟩
def RING_RUNNING : Row := ⟨0x02C, 0, 0, .ro, 0, [], 4, 1⟩
def RING_PARKED : Row := ⟨0x02C, 1, 1, .ro, 0, [], 4, 1⟩
def RING_HALTED : Row := ⟨0x02C, 2, 2, .ro, 0, [], 4, 1⟩
def RING_OPEN : Row := ⟨0x02C, 3, 3, .ro, 0, [], 4, 1⟩
def RING_STARVED : Row := ⟨0x02C, 4, 4, .ro, 0, [], 4, 1⟩
def RING_HALT_CODE : Row := ⟨0x02C, 15, 8, .ro, 0, [], 4, 1⟩
def RING_CUR_ADDR_LO : Row := ⟨0x030, 31, 0, .ro, 0, [], 4, 1⟩
def RING_CUR_ADDR_HI : Row := ⟨0x034, 31, 0, .ro, 0, [], 4, 1⟩
def RING_CNT_DESC : Row := ⟨0x038, 31, 0, .rw, 0, [], 4, 1⟩
def RING_CNT_PARTIAL : Row := ⟨0x03C, 31, 0, .rw, 0, [], 4, 1⟩

/-! QPC (R374). -/
def QPC_STATE : Row := ⟨0x000, 1, 0, .ro, 0, [], 4, 1⟩
def QPC_KIND : Row := ⟨0x000, 3, 2, .ro, 0, [], 4, 1⟩
def QPC_IMM : Row := ⟨0x000, 5, 4, .ro, 0, [], 4, 1⟩
def QPC_ALT_EN : Row := ⟨0x000, 6, 6, .ro, 0, [], 4, 1⟩
def QPC_ON_ALT : Row := ⟨0x000, 7, 7, .ro, 0, [], 4, 1⟩
def QPC_PORT : Row := ⟨0x000, 10, 8, .ro, 0, [], 4, 1⟩
def QPC_ALT_PORT : Row := ⟨0x000, 14, 12, .ro, 0, [], 4, 1⟩
def QPC_PMTU : Row := ⟨0x000, 17, 16, .ro, 2, [], 4, 1⟩
def QPC_RETRY_CNT : Row := ⟨0x000, 20, 18, .ro, 7, [], 4, 1⟩
def QPC_RNR_RETRY : Row := ⟨0x000, 23, 21, .ro, 7, [], 4, 1⟩
def QPC_RETRY_TMO : Row := ⟨0x000, 27, 24, .ro, 8, [], 4, 1⟩
def QPC_DQPN : Row := ⟨0x004, 23, 0, .ro, 0, [], 4, 1⟩
def QPC_ALT_DQPN : Row := ⟨0x008, 23, 0, .ro, 0, [], 4, 1⟩
def QPC_RKEY : Row := ⟨0x00C, 31, 0, .ro, 0, [], 4, 1⟩
def QPC_VA_LO : Row := ⟨0x010, 31, 0, .ro, 0, [], 4, 1⟩
def QPC_VA_HI : Row := ⟨0x014, 31, 0, .ro, 0, [], 4, 1⟩
def QPC_REGION_LO : Row := ⟨0x018, 31, 0, .ro, 0, [], 4, 1⟩
def QPC_REGION_HI : Row := ⟨0x01C, 7, 0, .ro, 0, [], 4, 1⟩
def QPC_LOG2_SLOT : Row := ⟨0x01C, 12, 8, .ro, 12, [], 4, 1⟩
def QPC_HEAD_LO : Row := ⟨0x020, 31, 0, .ro, 0, [], 4, 1⟩
def QPC_HEAD_HI : Row := ⟨0x024, 31, 0, .ro, 0, [], 4, 1⟩
def QPC_LIMIT_LO : Row := ⟨0x028, 31, 0, .rw, 0, [], 4, 1⟩
def QPC_LIMIT_HI : Row := ⟨0x02C, 31, 0, .rw, 0, [], 4, 1⟩
def QPC_NEXT_PSN : Row := ⟨0x030, 23, 0, .ro, 0, [], 4, 1⟩
def QPC_ACK_PSN : Row := ⟨0x034, 23, 0, .ro, 0, [], 4, 1⟩
def QPC_RATE : Row := ⟨0x038, 15, 0, .ro, 0, [], 4, 1⟩
def QPC_MIN_RATE : Row := ⟨0x038, 31, 16, .ro, 0, [], 4, 1⟩
def QPC_OWNER : Row := ⟨0x03C, 11, 0, .rw, 4095, [], 4, 1⟩
def QPC_ERR_CAUSE : Row := ⟨0x03C, 19, 16, .ro, 0, [], 4, 1⟩

/-! SHELL (R445). -/
def SHELL_OPEN : Row := ⟨0x000, 0, 0, .ro, 0, [], 4, 1⟩
def SHELL_VERSION : Row := ⟨0x000, 7, 4, .ro, 0, [], 4, 1⟩
def SHELL_FUNC : Row := ⟨0x000, 21, 16, .ro, 0, [], 4, 1⟩
def SHELL_RIGHTS : Row := ⟨0x004, 15, 0, .ro, 0, [], 4, 1⟩
def SHELL_WIN_FIRST : Row := ⟨0x008, 11, 0, .ro, 0, [], 4, 1⟩
def SHELL_WIN_COUNT : Row := ⟨0x008, 28, 16, .ro, 0, [], 4, 1⟩
def SHELL_N_RINGS : Row := ⟨0x00C, 13, 0, .ro, 0, [], 4, 1⟩
def SHELL_N_CTX : Row := ⟨0x00C, 28, 16, .ro, 0, [], 4, 1⟩
def SHELL_N_STREAMS : Row := ⟨0x010, 8, 0, .ro, 0, [], 4, 1⟩
def SHELL_N_PAGES : Row := ⟨0x010, 20, 16, .ro, 0, [], 4, 1⟩
def SHELL_GEN : Row := ⟨0x014, 31, 0, .ro, 0, [], 4, 1⟩
def SHELL_CNT_DENIED : Row := ⟨0x018, 31, 0, .ro, 0, [], 4, 1⟩

/-! WIN (R447). -/
def WIN_BASE_LO : Row := ⟨0x000, 31, 0, .rw, 0, [], 4, 1⟩
def WIN_BASE_HI : Row := ⟨0x004, 2, 0, .rw, 0, [], 4, 1⟩
def WIN_SIZE_LO : Row := ⟨0x008, 31, 0, .rw, 0, [], 4, 1⟩
def WIN_SIZE_HI : Row := ⟨0x00C, 3, 0, .rw, 0, [], 4, 1⟩
def WIN_OFFSET_LO : Row := ⟨0x010, 31, 0, .rw, 0, [], 4, 1⟩
def WIN_OFFSET_HI : Row := ⟨0x014, 7, 0, .rw, 0, [], 4, 1⟩
def WIN_RD : Row := ⟨0x018, 0, 0, .rw, 0, [], 4, 1⟩
def WIN_WR : Row := ⟨0x018, 1, 1, .rw, 0, [], 4, 1⟩
def WIN_HOST : Row := ⟨0x018, 2, 2, .rw, 0, [], 4, 1⟩

/-! ROUTE (R357). -/
def ROUTE_KIND : Row := ⟨0x000, 2, 0, .rw, 0, [(5, 7)], 4, 1⟩
def ROUTE_TARGET : Row := ⟨0x000, 20, 8, .rw, 0, [], 4, 1⟩
def ROUTE_RROUTE : Row := ⟨0x000, 25, 24, .rw, 0, [(1, 1), (3, 3)], 4, 1⟩
def ROUTE_DST : Row := ⟨0x004, 13, 0, .rw, 0, [], 4, 1⟩
def ROUTE_WIDTH : Row := ⟨0x004, 23, 16, .rw, 16, [(0, 0)], 4, 1⟩

/-! MSIX (R337). -/
def MSIX_ADDR_LO : Row := ⟨0x000, 31, 0, .rw, 0, [], 4, 1⟩
def MSIX_ADDR_HI : Row := ⟨0x004, 31, 0, .rw, 0, [], 4, 1⟩
def MSIX_DATA : Row := ⟨0x008, 31, 0, .rw, 0, [], 4, 1⟩
def MSIX_MASK : Row := ⟨0x00C, 0, 0, .rw, 1, [], 4, 1⟩

end R

/-- The fields of the TOP page (R55). -/
def rowsTop : List Row :=
  [R.TOP_HOLD, R.TOP_HELD, R.TOP_OPEN_SRC, R.TOP_OPEN_GATE, R.TOP_CLOSE_COUNT_EN, R.TOP_CLOSE_TIME_EN, R.TOP_CLOSE_GATE_EN, R.TOP_CLOSE_GATE,
   R.TOP_CLOSE_DEF, R.TOP_FRAME_REPEAT, R.TOP_CLOSE_COUNT, R.TOP_FRAME_DUR_LO, R.TOP_FRAME_DUR_HI, R.TOP_OPEN_AT0, R.TOP_OPEN_AT1, R.TOP_OPEN_AT2,
   R.TOP_DRAIN_TMO, R.TOP_FRAME_NUM, R.TOP_STATE, R.TOP_ABANDONED, R.TOP_LATE_OPEN, R.TOP_CLOSE_CAUSE, R.TOP_TRIG_COUNT, R.TOP_OPEN_TIME] ++
  [R.TOP_CLOSE_TIME, R.TOP_CNT_GATE_MISSED, R.TOP_CNT_ABANDONED, R.TOP_STRAPS, R.TOP_STAGE, R.TOP_NO_IMAGE, R.TOP_RST_CAUSE, R.TOP_CORE_RST,
   R.TOP_FE_RST, R.TOP_SHELL, R.TOP_BUSY, R.TOP_GO, R.TOP_CNT_SRAM_CORR, R.TOP_CNT_SRAM_UNCORR, R.TOP_CNT_UCODE_CORR, R.TOP_CNT_UCODE_UNCORR,
   R.TOP_FLOG_COUNT, R.TOP_FLOG_SEL, R.TOP_FLOG_ENTRY]

/-- The fields of the CLK page (R294). -/
def rowsClk : List Row :=
  [R.CLK_SCS_REF, R.CLK_N, R.CLK_LBW, R.CLK_REF_NOM, R.CLK_REF_TERM, R.CLK_AUTO_RELOCK, R.CLK_SYNC_MODE, R.CLK_SYNC_POL, R.CLK_SYNC_OUT_MODE,
   R.CLK_SYNC_OUT_POL, R.CLK_RELOCK, R.CLK_SYNC_ARM, R.CLK_STATE, R.CLK_GATED, R.CLK_BAND, R.CLK_REF_OK, R.CLK_SYNCED, R.CLK_CPLL_STATE,
   R.CLK_CPLL_BAND, R.CLK_SQ_HALF, R.CLK_REF_OFFSET, R.CLK_PHASE_ERR, R.CLK_SEARCH_T, R.CLK_LOCK_T] ++
  [R.CLK_CNT_LOSS_LOCK, R.CLK_CNT_LOSS_REF, R.CLK_CNT_SYNC_ACT, R.CLK_CNT_SYNC_MOVED, R.CLK_CNT_SYNC_IGNORED, R.CLK_CNT_GATED_US]

/-- The fields of the TIME page (R274). -/
def rowsTime : List Row :=
  [R.TIME_PRIO0, R.TIME_PRIO1, R.TIME_PRIO2, R.TIME_PRIO3, R.TIME_REVERT, R.TIME_XO_AGE, R.TIME_STEP_THRESH, R.TIME_SLEW_MAX, R.TIME_PPS_OUT_EN,
   R.TIME_PPS_OUT_POL, R.TIME_PPS_OUT_WIDTH, R.TIME_PPS_IN_POL, R.TIME_SEL, R.TIME_STATE, R.TIME_QUAL, R.TIME_STEP_PEND, R.TIME_TAI_VALID,
   R.TIME_PHASE_ERR, R.TIME_STEER, R.TIME_SCLK_OFFSET, R.TIME_UTC_OFFSET, R.TIME_NOW, R.TIME_TIE_P_LO, R.TIME_TIE_P_HI] ++
  [R.TIME_CNT_SWITCH, R.TIME_CNT_STEP, R.TIME_CNT_HOLDOVER, R.TIME_CNT_PPS_MISS]

/-- The fields of the MON page (R481). -/
def rowsMon : List Row :=
  [R.MON_LOW_POWER, R.MON_SELFCAL, R.MON_CAL_VALID, R.MON_GAIN_CORR, R.MON_OFFS_CORR, R.MON_BUSY, R.MON_CUR_INPUT, R.MON_FLUSH, R.MON_WIN_EXIT,
   R.MON_WIN_WAKE, R.MON_CNT_CONV, R.MON_CNT_ABORT, R.MON_CNT_TRIG_LOST, R.MON_CNT_LATE, R.MON_LO, R.MON_HI, R.MON_HYST, R.MON_WIN_EN, R.MON_TRIG,
   R.MON_DELAY, R.MON_CODE, R.MON_WIN, R.MON_LATE, R.MON_VALID]

/-- The fields of the TMR page (R483). -/
def rowsTmr : List Row :=
  [R.TMR_EXP0, R.TMR_EXP1, R.TMR_EXP2, R.TMR_PERIOD_LO, R.TMR_PERIOD_HI, R.TMR_ARM, R.TMR_PERIODIC, R.TMR_CNT_EXP, R.TMR_CNT_LATE, R.TMR_CNT_SKIP,
   R.TMR_PWM_PERIOD, R.TMR_PWM_HIGH, R.TMR_PWM_MATCH, R.TMR_PWM_EN, R.TMR_PWM_POL, R.TMR_ALIGN_TMR, R.TMR_ALIGN_EN]

/-- The fields of the PWR page (R479). -/
def rowsPwr : List Row :=
  [R.PWR_STATE, R.PWR_TRANSIT, R.PWR_TARGET, R.PWR_RETAIN_OK, R.PWR_WAKE, R.PWR_WAKE_EN_TMR, R.PWR_WAKE_EN_GATE, R.PWR_WAKE_EN_MON, R.PWR_TGT_TMR,
   R.PWR_TGT_GATE, R.PWR_TGT_MON, R.PWR_WAKE_TMR, R.PWR_WAKE_GATE, R.PWR_WAKE_CAUSE, R.PWR_THERM_WARN_CORE, R.PWR_THERM_WARN_FE, R.PWR_THERM_ACT,
   R.PWR_THERM_STAT, R.PWR_HOTTEST, R.PWR_SMB_ADDR, R.PWR_CNT_DORMANT_ACC, R.PWR_CNT_WAKE, R.PWR_CNT_REFUSED, R.PWR_CNT_SHUT] ++
  [R.PWR_CNT_TRIP]

/-- The fields of the FLASH page (R508). -/
def rowsFlash : List Row :=
  [R.FLASH_BUSY, R.FLASH_WARN, R.FLASH_GOOD, R.FLASH_SPARE_LEFT, R.FLASH_MAX_ERASES, R.FLASH_WORST_SECTOR, R.FLASH_ERASE_T_MAX, R.FLASH_CNT_ERASE,
   R.FLASH_CNT_RETRY, R.FLASH_CNT_RETIRED, R.FLASH_CNT_SLOW_ERASE, R.FLASH_CNT_CHECK_FAIL, R.FLASH_RCV_SRC_LO, R.FLASH_RCV_SRC_HI, R.FLASH_RCV_LEN,
   R.FLASH_RCV_REGION, R.FLASH_RCV_GO, R.FLASH_RCV_STAT]

/-- The fields of the SEC page (R454). -/
def rowsSec : List Row :=
  [R.SEC_GEN, R.SEC_PUBLISH, R.SEC_PEND, R.SEC_REVOKING, R.SEC_DBG_LOCK, R.SEC_DBG_FUSE, R.SEC_DBG_ACTIVE, R.SEC_FALLBACK, R.SEC_CUST_VALID,
   R.SEC_KEY_VALID, R.SEC_BOOT_VER, R.SEC_UCODE_VER, R.SEC_DENY_SHELL, R.SEC_DENY_FUNC, R.SEC_DENY_KIND, R.SEC_DENY_VALID, R.SEC_DENY_ADDR,
   R.SEC_CNT_DENIED, R.SEC_CNT_LOG_LOST, R.SEC_CNT_PUBLISH, R.SEC_CNT_PUB_REFUSED, R.SEC_CNT_DEBUG]

/-- The fields of the BANK page (R93). -/
def rowsBank : List Row :=
  [R.BANK_MODE, R.BANK_RANGE, R.BANK_BW, R.BANK_EQ_PASS, R.BANK_SETTLING, R.BANK_POWERED, R.BANK_LEAD, R.BANK_LINK_OK, R.BANK_CHANNEL,
   R.BANK_EFF_MODE, R.BANK_EFF_RANGE, R.BANK_EFF_BW, R.BANK_EFF_EQ_PASS, R.BANK_OUT_SLICE, R.BANK_OUT_POS, R.BANK_WAIT_SLICE, R.BANK_ROT_STATE,
   R.BANK_ROT_COUNT, R.BANK_FSB, R.BANK_CNT_OVR, R.BANK_CNT_NODATA, R.BANK_CNT_LINK_ERR, R.BANK_CNT_HANDOVER, R.BANK_PEAK_MAX] ++
  [R.BANK_PEAK_MIN, R.BANK_SLICE_0, R.BANK_SLICE_1, R.BANK_SLICE_2, R.BANK_SLICE_3]

/-- The fields of the CAL page (R132). -/
def rowsCal : List Row :=
  [R.CAL_ROT_EN, R.CAL_AUTO_EN, R.CAL_HARD_EN, R.CAL_BOUNDARY_YIELD, R.CAL_DTEMP, R.CAL_DTEMP_HARD, R.CAL_CAL_STEP_TMO, R.CAL_CAL_RUN_TMO,
   R.CAL_RUN_ACTIVE, R.CAL_RUN_KIND, R.CAL_RUN_IN_FRAME, R.CAL_DUE, R.CAL_HARD, R.CAL_RUN_CHAN, R.CAL_START_DONE, R.CAL_NO_SET, R.CAL_CAL_BAD,
   R.CAL_CHOLD, R.CAL_OVERRIDE, R.CAL_TEMP_NOW, R.CAL_LAST_RUN, R.CAL_VALID_FE0, R.CAL_VALID_FE1, R.CAL_LOWER_FE0] ++
  [R.CAL_UPPER_FE0, R.CAL_LOWER_FE1, R.CAL_UPPER_FE1, R.CAL_SET_POINT_FE0, R.CAL_SET_POINT_FE1, R.CAL_CNT_RUNS, R.CAL_CNT_STEP_TMO,
   R.CAL_CNT_RUN_TMO, R.CAL_CNT_SKEW_SKIP, R.CAL_CNT_HOLDS]

/-- The fields of the TU page (R158). -/
def rowsTu : List Row :=
  [R.TU_COND, R.TU_DIR, R.TU_QUAL, R.TU_INTERP, R.TU_LEVEL_A, R.TU_LEVEL_B, R.TU_HYST, R.TU_T1, R.TU_T2, R.TU_STUCK_TIME, R.TU_STUCK, R.TU_QA,
   R.TU_QB, R.TU_KNOWN, R.TU_CANDIDATE, R.TU_CHANNEL, R.TU_CNT_DECISIONS, R.TU_CNT_CONFIRMED, R.TU_CNT_CANCELLED, R.TU_CNT_MISSED,
   R.TU_CNT_INTERP_LIN]

/-- The fields of the TCOMB page (R160). -/
def rowsTcomb : List Row :=
  [R.TCOMB_MODE, R.TCOMB_SEQ_ANCHOR, R.TCOMB_HOLD_MODE, R.TCOMB_ARM_SRC, R.TCOMB_ARM_EN, R.TCOMB_ARM_POL, R.TCOMB_LINK_EXPORT, R.TCOMB_LINK_LINE,
   R.TCOMB_HOLD_TIME_LO, R.TCOMB_HOLD_TIME_HI, R.TCOMB_HOLD_COUNT, R.TCOMB_SEQ_T, R.TCOMB_TERM0_W, R.TCOMB_TERM0_W1, R.TCOMB_TERM0_W2,
   R.TCOMB_TERM0_W3, R.TCOMB_TERM1_W, R.TCOMB_TERM1_W1, R.TCOMB_TERM1_W2, R.TCOMB_TERM1_W3, R.TCOMB_TERM2_W, R.TCOMB_TERM2_W1, R.TCOMB_TERM2_W2,
   R.TCOMB_TERM2_W3] ++
  [R.TCOMB_TERM3_W, R.TCOMB_TERM3_W1, R.TCOMB_TERM3_W2, R.TCOMB_TERM3_W3, R.TCOMB_PROV, R.TCOMB_SUSPENDED, R.TCOMB_HOLDING, R.TCOMB_CNT_FIRED,
   R.TCOMB_CNT_CANCELLED, R.TCOMB_CNT_HOLDOFF_DISCARD, R.TCOMB_CNT_MISSED, R.TCOMB_CNT_ARM_DISCARD, R.TCOMB_CNT_SUSPENDED, R.TCOMB_CNT_UNCONF,
   R.TCOMB_CNT_LATE]

/-- The fields of the TEXT page (R162). -/
def rowsText : List Row :=
  [R.TEXT_POL, R.TEXT_TERM, R.TEXT_HYST, R.TEXT_TH, R.TEXT_STUCK_TIME, R.TEXT_LEVEL, R.TEXT_STUCK, R.TEXT_CNT_MISSED, R.TEXT_MODE, R.TEXT_OPOL,
   R.TEXT_DEF, R.TEXT_WIDTH, R.TEXT_CONF_DEADLINE, R.TEXT_SW_TRIG, R.TEXT_TOUT_OPEN, R.TEXT_FL_EN, R.TEXT_CNT_TOUT_DROP, R.TEXT_CNT_REMOTE_PROV,
   R.TEXT_CNT_REMOTE_CONF, R.TEXT_CNT_REMOTE_CXL, R.TEXT_CNT_DEADLINE, R.TEXT_CNT_LATE]

/-- The fields of the TDC page (R276). -/
def rowsTdc : List Row :=
  [R.TDC_EDGE, R.TDC_PRESC, R.TDC_TERM, R.TDC_ARM_SRC, R.TDC_ARM_POL, R.TDC_CD_SRC, R.TDC_TH, R.TDC_HYST, R.TDC_OFFSET, R.TDC_LOCKED, R.TDC_ARMED,
   R.TDC_LEVEL, R.TDC_CD_VALID, R.TDC_CD_BUSY, R.TDC_FIFO_FILL, R.TDC_START, R.TDC_LOG2_EDGES, R.TDC_EVCOUNT_LO, R.TDC_EVCOUNT_HI,
   R.TDC_CNT_STAMPS, R.TDC_CNT_DEAD, R.TDC_CNT_FIFO_LOST, R.TDC_CNT_UNARMED, R.TDC_CNT_UNLOCKED] ++
  [R.TDC_CNT_CODE_RANGE, R.TDC_CENTRE]

/-- The fields of the HIST page (R217). -/
def rowsHist : List Row :=
  [R.HIST_DEPTH, R.HIST_ACTIVE, R.HIST_FILLING, R.HIST_HBM_USED, R.HIST_CNT_OVERRUN]

/-- The fields of the ACC page (R219). -/
def rowsAcc : List Row :=
  [R.ACC_POOL_SIZE, R.ACC_POOL_USED, R.ACC_BINS_USED, R.ACC_EPOCH_STREAM, R.ACC_EPOCH_GO, R.ACC_ACC_BUSY, R.ACC_DEN_BUSY, R.ACC_CNT_EPOCH_LIMIT,
   R.ACC_CNT_EPOCH_LEN, R.ACC_CNT_EPOCH_CMD, R.ACC_CNT_ALLOC_FAIL, R.ACC_EPOCH_SEGS]

/-- The fields of the DEN page (R221). -/
def rowsDen : List Row :=
  [R.DEN_USE, R.DEN_STREAM, R.DEN_X_BINS, R.DEN_Y_BINS, R.DEN_X_OFF, R.DEN_X_DIV, R.DEN_Y_BASE, R.DEN_Y_SHIFT, R.DEN_EPOCH_SEGS, R.DEN_ALLOC,
   R.DEN_SAT, R.DEN_CNT_OUT, R.DEN_CNT_BINNED, R.DEN_CNT_EPOCHS]

/-- The fields of the DIFF page (R278). -/
def rowsDiff : List Row :=
  [R.DIFF_FLUSH, R.DIFF_HEPOCH_N, R.DIFF_EPOCH_PAIR, R.DIFF_EPOCH_GO, R.DIFF_CNT_DIFFS, R.DIFF_CNT_NO_MATCH, R.DIFF_CNT_ALL_EXCESS,
   R.DIFF_CNT_DROP, R.DIFF_CNT_HEPOCH, R.DIFF_USE, R.DIFF_MODE, R.DIFF_A, R.DIFF_B, R.DIFF_OUT, R.DIFF_WIN_LO, R.DIFF_WIN_HI, R.DIFF_BIN_W]

/-- The fields of the ST page (R191). -/
def rowsSt : List Row :=
  [R.ST_SRC_KIND, R.ST_SRC, R.ST_TRIG_MODE, R.ST_TDEF, R.ST_POLICY, R.ST_CLOSE, R.ST_UNCONF_KEEP, R.ST_FORMAT, R.ST_CLASS, R.ST_SEG_LEN,
   R.ST_PRE_LEN, R.ST_PART_LEN, R.ST_EQ_SIZE, R.ST_SCALE_G, R.ST_SCALE_S, R.ST_SCALE_O, R.ST_DEC_MODE, R.ST_DEC_N, R.ST_ACC_EN, R.ST_NORM,
   R.ST_SEG_OUT, R.ST_DEN_EN, R.ST_DEN_W32, R.ST_DEST_KIND] ++
  [R.ST_DEST_INDEX, R.ST_IN_FRAME, R.ST_EQ_FULL, R.ST_EQ_HIGH, R.ST_PIP_RES_FULL, R.ST_DRAINED, R.ST_EQ_FILL, R.ST_NEXT_SEQ_LO, R.ST_NEXT_SEQ_HI,
   R.ST_CNT_SEG, R.ST_CNT_REC, R.ST_CNT_PIP, R.ST_CNT_LOST_LO, R.ST_CNT_LOST_HI, R.ST_CNT_OVERRUN, R.ST_CNT_BUF_FULL, R.ST_CNT_TRUNC,
   R.ST_CNT_UNCONF, R.ST_CNT_REQ_FULL, R.ST_CNT_LOG_LOST]

/-- The fields of the SQ page (R422). -/
def rowsSq : List Row :=
  [R.SQ_STATE, R.SQ_CMDS, R.SQ_OPCODE, R.SQ_SHELL, R.SQ_PC, R.SQ_FLAGS, R.SQ_STEP_MAX, R.SQ_CNT_CMDS, R.SQ_CNT_STEPS, R.SQ_CNT_FWD,
   R.SQ_CNT_SB_WAIT, R.SQ_CNT_FAULT, R.SQ_CNT_ABORT]

/-- The fields of the MC page (R437). -/
def rowsMc : List Row :=
  [R.MC_PC_UP, R.MC_MODE, R.MC_STACK_TEMP, R.MC_ECC_ADDR, R.MC_CNT_RD_LO, R.MC_CNT_RD_HI, R.MC_CNT_WR_LO, R.MC_CNT_WR_HI, R.MC_CNT_ECC_CORR,
   R.MC_CNT_ECC_UNCORR, R.MC_CNT_REFRESH_STALL]

/-- The fields of the ARB page (R439). -/
def rowsArb : List Row :=
  [R.ARB_AGE_LIMIT, R.ARB_RES_GUAR, R.ARB_RES_FIRM, R.ARB_RES_LIMIT, R.ARB_HINT_SEL, R.ARB_HINT_NOW, R.ARB_CNT_TIMEOUT, R.ARB_CNT_WITHDRAW,
   R.ARB_CNT_AGED, R.ARB_CNT_FIRM_LATE, R.ARB_PRIO, R.ARB_CLASS, R.ARB_WAITING, R.ARB_CNT_DELAY, R.ARB_CNT_GRANT]

/-- The fields of the PCIE page (R362). -/
def rowsPcie : List Row :=
  [R.PCIE_SPEED, R.PCIE_WIDTH, R.PCIE_PM_STATE, R.PCIE_NUM_VF, R.PCIE_VEC_SEL, R.PCIE_VEC_BASE, R.PCIE_VEC_COUNT, R.PCIE_COAL_SEL, R.PCIE_COAL_C,
   R.PCIE_COAL_T, R.PCIE_CNT_DB_BAD, R.PCIE_CNT_EVT_DROP, R.PCIE_CNT_ZLR, R.PCIE_CNT_FAULT, R.PCIE_CNT_MSIX, R.PCIE_CNT_FLR]

/-- The fields of the ENET page (R387). -/
def rowsEnet : List Row :=
  [R.ENET_MODE, R.ENET_MEDIA, R.ENET_AN_EN, R.ENET_LT_EN, R.ENET_PFC_EN, R.ENET_PCP_ROCE, R.ENET_PCP_UDP, R.ENET_PCP_PTP, R.ENET_VLAN_ID,
   R.ENET_MAC_LO, R.ENET_MAC_HI, R.ENET_PTP_EN, R.ENET_PTP_SUB, R.ENET_SLAVE_ONLY, R.ENET_TRANSPORT, R.ENET_DOMAIN, R.ENET_PRIORITY1,
   R.ENET_PRIORITY2, R.ENET_LOG_SYNC, R.ENET_PTP_IPV4, R.ENET_PTP_ASYM, R.ENET_LINK, R.ENET_PTP_STATE, R.ENET_PAUSED] ++
  [R.ENET_PTP_OFFSET, R.ENET_CNT_TX_FRAMES, R.ENET_CNT_RX_FRAMES, R.ENET_CNT_RX_DISCARD, R.ENET_CNT_FEC_CORR, R.ENET_CNT_FEC_UNCORR,
   R.ENET_CNT_PFC_RX, R.ENET_CNT_PAUSE_GLOBAL, R.ENET_CNT_LINK_DOWN]

/-- The fields of the RDMA page (R389). -/
def rowsRdma : List Row :=
  [R.RDMA_SHED_AGE, R.RDMA_LINK_HOLD, R.RDMA_RP_DEC, R.RDMA_RP_GUARD, R.RDMA_RP_AI, R.RDMA_RP_PERIOD, R.RDMA_FAILBACK, R.RDMA_PCIE_CAP,
   R.RDMA_SUM_E0, R.RDMA_SUM_E1, R.RDMA_SUM_PCIE, R.RDMA_CTX_USED, R.RDMA_CNT_SHED, R.RDMA_CNT_REFUSED, R.RDMA_CNT_CNP, R.RDMA_CNT_RATE_FLOOR,
   R.RDMA_CNT_RETX, R.RDMA_CNT_RNR, R.RDMA_CNT_TIMEOUT, R.RDMA_CNT_FAILOVER, R.RDMA_CNT_FAILBACK, R.RDMA_CNT_QP_ERR, R.RDMA_CNT_LINK_HOLD,
   R.RDMA_ADM_CHARGE] ++
  [R.RDMA_ADM_SUMMED]

/-- The fields of the FLINK page (R331). -/
def rowsFlink : List Row :=
  [R.FLINK_DEV_ID, R.FLINK_UP_PORT, R.FLINK_VER_MIN, R.FLINK_VER_MAX, R.FLINK_FEAT_EN, R.FLINK_RD_EN, R.FLINK_WR_EN, R.FLINK_RST_EN,
   R.FLINK_REMOTE_TMO, R.FLINK_GATE_EXP, R.FLINK_GATE_SRC, R.FLINK_GATE_LAT, R.FLINK_WAKE_EN, R.FLINK_KA_EN, R.FLINK_ROOT_ID, R.FLINK_DEPTH,
   R.FLINK_IS_ROOT, R.FLINK_REMOTE_OUT, R.FLINK_RQ_ID, R.FLINK_RQ_PORT, R.FLINK_EVT_NUM, R.FLINK_EVT_SRC, R.FLINK_EVT_VALID,
   R.FLINK_CNT_REMOTE_EXEC] ++
  [R.FLINK_CNT_REMOTE_REJ, R.FLINK_CNT_LATE_RESP, R.FLINK_CNT_NO_ROUTE, R.FLINK_CNT_EVT_LOST, R.FLINK_CNT_GATE_LATE]

/-- The fields of the FPORT page (R333). -/
def rowsFport : List Row :=
  [R.FPORT_FWD_MASK, R.FPORT_GATE_FWD, R.FPORT_RETRAIN, R.FPORT_ASYM, R.FPORT_TT_PERIOD, R.FPORT_STATE, R.FPORT_VER, R.FPORT_ROLE,
   R.FPORT_FALLBACK, R.FPORT_PEER_ID, R.FPORT_PEER_MIN, R.FPORT_PEER_MAX, R.FPORT_PEER_FEAT, R.FPORT_PEER_PORT, R.FPORT_DELAY, R.FPORT_THETA,
   R.FPORT_TX_DLY, R.FPORT_RX_DLY, R.FPORT_CNT_RETRAIN, R.FPORT_CNT_CRC, R.FPORT_CNT_ABORT, R.FPORT_CNT_TX_DROP, R.FPORT_CNT_RX_DROP,
   R.FPORT_CNT_TIME_EXCH] ++
  [R.FPORT_CNT_TIME_REJ]

/-- The fields of the DISP page (R497). -/
def rowsDisp : List Row :=
  [R.DISP_LANES, R.DISP_RATE, R.DISP_ASYNC_EN, R.DISP_PCLK_DIV, R.DISP_HACTIVE, R.DISP_HTOTAL, R.DISP_HSYNC_START, R.DISP_HSYNC_W,
   R.DISP_HSYNC_POL, R.DISP_VACTIVE, R.DISP_VFP, R.DISP_VSYNC_W, R.DISP_VBP, R.DISP_VSYNC_POL, R.DISP_VMIN, R.DISP_VMAX, R.DISP_BG,
   R.DISP_LINE_MATCH, R.DISP_READY, R.DISP_REN_START, R.DISP_LINK_UP, R.DISP_HPD, R.DISP_IN_VBLANK, R.DISP_REPEAT] ++
  [R.DISP_LINE, R.DISP_LAST_VTOTAL, R.DISP_AUX_CMD, R.DISP_AUX_ADDR, R.DISP_AUX_LEN, R.DISP_AUX_GO, R.DISP_AUX_DATA, R.DISP_REPLY, R.DISP_BYTES,
   R.DISP_L_EN, R.DISP_L_FMT, R.DISP_L_SRC, R.DISP_L_ALPHA, R.DISP_L_BASE_LO, R.DISP_L_BASE_HI, R.DISP_L_STRIDE, R.DISP_L_X, R.DISP_L_Y,
   R.DISP_L_W, R.DISP_L_H, R.DISP_BASE_B_LO, R.DISP_BASE_B_HI, R.DISP_DEN_SLOT, R.DISP_REN_MODE] ++
  [R.DISP_REN_SHIFT, R.DISP_REN_AUTO, R.DISP_REN_READY, R.DISP_CNT_UNDERRUN, R.DISP_CNT_REPEAT, R.DISP_CNT_RENDER, R.DISP_CNT_FRAMES, R.DISP_PALETTE]

/-- The fields of the RING entry (R340). -/
def rowsRing : List Row :=
  [R.RING_BASE_LO, R.RING_BASE_HI, R.RING_LOG2_SIZE, R.RING_TYPE, R.RING_CHAIN, R.RING_EN, R.RING_LOCAL, R.RING_PAIR, R.RING_OWNER, R.RING_VECTOR,
   R.RING_MSIX_EN, R.RING_NRING, R.RING_NRING_EN, R.RING_PACE_MODE, R.RING_PACE_TMR, R.RING_PACE_RING, R.RING_PACE_QUOTA, R.RING_CREDITS,
   R.RING_FLUSH_TMO, R.RING_CHAIN_REPOLL, R.RING_DEV_PTR, R.RING_DONE_PTR, R.RING_HOST_PTR, R.RING_RUNNING] ++
  [R.RING_PARKED, R.RING_HALTED, R.RING_OPEN, R.RING_STARVED, R.RING_HALT_CODE, R.RING_CUR_ADDR_LO, R.RING_CUR_ADDR_HI, R.RING_CNT_DESC,
   R.RING_CNT_PARTIAL]

/-- The fields of the QPC entry (R374). -/
def rowsQpc : List Row :=
  [R.QPC_STATE, R.QPC_KIND, R.QPC_IMM, R.QPC_ALT_EN, R.QPC_ON_ALT, R.QPC_PORT, R.QPC_ALT_PORT, R.QPC_PMTU, R.QPC_RETRY_CNT, R.QPC_RNR_RETRY,
   R.QPC_RETRY_TMO, R.QPC_DQPN, R.QPC_ALT_DQPN, R.QPC_RKEY, R.QPC_VA_LO, R.QPC_VA_HI, R.QPC_REGION_LO, R.QPC_REGION_HI, R.QPC_LOG2_SLOT,
   R.QPC_HEAD_LO, R.QPC_HEAD_HI, R.QPC_LIMIT_LO, R.QPC_LIMIT_HI, R.QPC_NEXT_PSN] ++
  [R.QPC_ACK_PSN, R.QPC_RATE, R.QPC_MIN_RATE, R.QPC_OWNER, R.QPC_ERR_CAUSE]

/-- The fields of the SHELL entry (R445). -/
def rowsShell : List Row :=
  [R.SHELL_OPEN, R.SHELL_VERSION, R.SHELL_FUNC, R.SHELL_RIGHTS, R.SHELL_WIN_FIRST, R.SHELL_WIN_COUNT, R.SHELL_N_RINGS, R.SHELL_N_CTX,
   R.SHELL_N_STREAMS, R.SHELL_N_PAGES, R.SHELL_GEN, R.SHELL_CNT_DENIED]

/-- The fields of the WIN entry (R447). -/
def rowsWin : List Row :=
  [R.WIN_BASE_LO, R.WIN_BASE_HI, R.WIN_SIZE_LO, R.WIN_SIZE_HI, R.WIN_OFFSET_LO, R.WIN_OFFSET_HI, R.WIN_RD, R.WIN_WR, R.WIN_HOST]

/-- The fields of the ROUTE entry (R357). -/
def rowsRoute : List Row :=
  [R.ROUTE_KIND, R.ROUTE_TARGET, R.ROUTE_RROUTE, R.ROUTE_DST, R.ROUTE_WIDTH]

/-- The fields of the MSIX entry (R337). -/
def rowsMsix : List Row :=
  [R.MSIX_ADDR_LO, R.MSIX_ADDR_HI, R.MSIX_DATA, R.MSIX_MASK]

/-- The fields a page or entry of each kind carries; pages without listed fields have none. -/
def Kind.rows : Kind → List Row
  | .top => rowsTop
  | .clk => rowsClk
  | .time => rowsTime
  | .mon => rowsMon
  | .tmr => rowsTmr
  | .pwr => rowsPwr
  | .flash => rowsFlash
  | .sec => rowsSec
  | .bank => rowsBank
  | .cal => rowsCal
  | .tu => rowsTu
  | .tcomb => rowsTcomb
  | .text => rowsText
  | .tdc => rowsTdc
  | .hist => rowsHist
  | .acc => rowsAcc
  | .den => rowsDen
  | .diff => rowsDiff
  | .st => rowsSt
  | .sq => rowsSq
  | .mc => rowsMc
  | .arb => rowsArb
  | .pcie => rowsPcie
  | .enet => rowsEnet
  | .rdma => rowsRdma
  | .flink => rowsFlink
  | .fport => rowsFport
  | .disp => rowsDisp
  | .ring => rowsRing
  | .qpc => rowsQpc
  | .shell => rowsShell
  | .win => rowsWin
  | .route => rowsRoute
  | .msix => rowsMsix
  | .pba | .legacy | .none => []

end Sys2Proof.Machine
end

