-- ==== Sys2Proof/Machine/RegKinds.lean ====
section
/-! DEFINITION. Which registers of the register map are counters, whose reads FREEZE holds (R50), and which are 64-bit registers (R51). -/

namespace Sys2Proof.Machine

/-- The counters of a page or entry (R50): the registers the tables name CNT_*.  EVCOUNT, TRIG_COUNT, ROT_COUNT and FLOG_COUNT count too,
but show present state; R50 does not say which registers are counters, and a frozen page does not hold these (DESIGN CHOICE, log entry 112). -/
def Kind.counters (k : Kind) : List Row :=
  match k with
  | .top =>
    [R.TOP_CNT_GATE_MISSED, R.TOP_CNT_ABANDONED, R.TOP_CNT_SRAM_CORR, R.TOP_CNT_SRAM_UNCORR, R.TOP_CNT_UCODE_CORR, R.TOP_CNT_UCODE_UNCORR]
  | .clk =>
    [R.CLK_CNT_LOSS_LOCK, R.CLK_CNT_LOSS_REF, R.CLK_CNT_SYNC_ACT, R.CLK_CNT_SYNC_MOVED, R.CLK_CNT_SYNC_IGNORED, R.CLK_CNT_GATED_US]
  | .time =>
    [R.TIME_CNT_SWITCH, R.TIME_CNT_STEP, R.TIME_CNT_HOLDOVER, R.TIME_CNT_PPS_MISS]
  | .mon =>
    [R.MON_CNT_CONV, R.MON_CNT_ABORT, R.MON_CNT_TRIG_LOST, R.MON_CNT_LATE]
  | .tmr =>
    [R.TMR_CNT_EXP, R.TMR_CNT_LATE, R.TMR_CNT_SKIP]
  | .pwr =>
    [R.PWR_CNT_DORMANT_ACC, R.PWR_CNT_WAKE, R.PWR_CNT_REFUSED, R.PWR_CNT_SHUT, R.PWR_CNT_TRIP]
  | .flash =>
    [R.FLASH_CNT_ERASE, R.FLASH_CNT_RETRY, R.FLASH_CNT_RETIRED, R.FLASH_CNT_SLOW_ERASE, R.FLASH_CNT_CHECK_FAIL]
  | .sec =>
    [R.SEC_CNT_DENIED, R.SEC_CNT_LOG_LOST, R.SEC_CNT_PUBLISH, R.SEC_CNT_PUB_REFUSED, R.SEC_CNT_DEBUG]
  | .bank =>
    [R.BANK_CNT_OVR, R.BANK_CNT_NODATA, R.BANK_CNT_LINK_ERR, R.BANK_CNT_HANDOVER]
  | .cal =>
    [R.CAL_CNT_RUNS, R.CAL_CNT_STEP_TMO, R.CAL_CNT_RUN_TMO, R.CAL_CNT_SKEW_SKIP, R.CAL_CNT_HOLDS]
  | .tu =>
    [R.TU_CNT_DECISIONS, R.TU_CNT_CONFIRMED, R.TU_CNT_CANCELLED, R.TU_CNT_MISSED, R.TU_CNT_INTERP_LIN]
  | .tcomb =>
    [R.TCOMB_CNT_FIRED, R.TCOMB_CNT_CANCELLED, R.TCOMB_CNT_HOLDOFF_DISCARD, R.TCOMB_CNT_MISSED, R.TCOMB_CNT_ARM_DISCARD,
     R.TCOMB_CNT_SUSPENDED, R.TCOMB_CNT_UNCONF, R.TCOMB_CNT_LATE]
  | .text =>
    [R.TEXT_CNT_MISSED, R.TEXT_CNT_TOUT_DROP, R.TEXT_CNT_REMOTE_PROV, R.TEXT_CNT_REMOTE_CONF, R.TEXT_CNT_REMOTE_CXL, R.TEXT_CNT_DEADLINE,
     R.TEXT_CNT_LATE]
  | .tdc =>
    [R.TDC_CNT_STAMPS, R.TDC_CNT_DEAD, R.TDC_CNT_FIFO_LOST, R.TDC_CNT_UNARMED, R.TDC_CNT_UNLOCKED, R.TDC_CNT_CODE_RANGE]
  | .hist =>
    [R.HIST_CNT_OVERRUN]
  | .acc =>
    [R.ACC_CNT_EPOCH_LIMIT, R.ACC_CNT_EPOCH_LEN, R.ACC_CNT_EPOCH_CMD, R.ACC_CNT_ALLOC_FAIL]
  | .den =>
    [R.DEN_CNT_OUT, R.DEN_CNT_BINNED, R.DEN_CNT_EPOCHS]
  | .diff =>
    [R.DIFF_CNT_DIFFS, R.DIFF_CNT_NO_MATCH, R.DIFF_CNT_ALL_EXCESS, R.DIFF_CNT_DROP, R.DIFF_CNT_HEPOCH]
  | .st =>
    [R.ST_CNT_SEG, R.ST_CNT_REC, R.ST_CNT_PIP, R.ST_CNT_LOST_LO, R.ST_CNT_LOST_HI, R.ST_CNT_OVERRUN, R.ST_CNT_BUF_FULL, R.ST_CNT_TRUNC,
     R.ST_CNT_UNCONF, R.ST_CNT_REQ_FULL, R.ST_CNT_LOG_LOST]
  | .sq =>
    [R.SQ_CNT_CMDS, R.SQ_CNT_STEPS, R.SQ_CNT_FWD, R.SQ_CNT_SB_WAIT, R.SQ_CNT_FAULT, R.SQ_CNT_ABORT]
  | .mc =>
    [R.MC_CNT_RD_LO, R.MC_CNT_RD_HI, R.MC_CNT_WR_LO, R.MC_CNT_WR_HI, R.MC_CNT_ECC_CORR, R.MC_CNT_ECC_UNCORR, R.MC_CNT_REFRESH_STALL]
  | .arb =>
    [R.ARB_CNT_TIMEOUT, R.ARB_CNT_WITHDRAW, R.ARB_CNT_AGED, R.ARB_CNT_FIRM_LATE, R.ARB_CNT_DELAY, R.ARB_CNT_GRANT]
  | .pcie =>
    [R.PCIE_CNT_DB_BAD, R.PCIE_CNT_EVT_DROP, R.PCIE_CNT_ZLR, R.PCIE_CNT_FAULT, R.PCIE_CNT_MSIX, R.PCIE_CNT_FLR]
  | .enet =>
    [R.ENET_CNT_TX_FRAMES, R.ENET_CNT_RX_FRAMES, R.ENET_CNT_RX_DISCARD, R.ENET_CNT_FEC_CORR, R.ENET_CNT_FEC_UNCORR, R.ENET_CNT_PFC_RX,
     R.ENET_CNT_PAUSE_GLOBAL, R.ENET_CNT_LINK_DOWN]
  | .rdma =>
    [R.RDMA_CNT_SHED, R.RDMA_CNT_REFUSED, R.RDMA_CNT_CNP, R.RDMA_CNT_RATE_FLOOR, R.RDMA_CNT_RETX, R.RDMA_CNT_RNR, R.RDMA_CNT_TIMEOUT,
     R.RDMA_CNT_FAILOVER, R.RDMA_CNT_FAILBACK, R.RDMA_CNT_QP_ERR, R.RDMA_CNT_LINK_HOLD]
  | .flink =>
    [R.FLINK_CNT_REMOTE_EXEC, R.FLINK_CNT_REMOTE_REJ, R.FLINK_CNT_LATE_RESP, R.FLINK_CNT_NO_ROUTE, R.FLINK_CNT_EVT_LOST,
     R.FLINK_CNT_GATE_LATE]
  | .fport =>
    [R.FPORT_CNT_RETRAIN, R.FPORT_CNT_CRC, R.FPORT_CNT_ABORT, R.FPORT_CNT_TX_DROP, R.FPORT_CNT_RX_DROP, R.FPORT_CNT_TIME_EXCH,
     R.FPORT_CNT_TIME_REJ]
  | .disp =>
    [R.DISP_CNT_UNDERRUN, R.DISP_CNT_REPEAT, R.DISP_CNT_RENDER, R.DISP_CNT_FRAMES]
  | .ring =>
    [R.RING_CNT_DESC, R.RING_CNT_PARTIAL]
  | .shell =>
    [R.SHELL_CNT_DENIED]
  | _ => []

/-- The low words of the 64-bit registers of a page or entry; the high word follows (R51).  The two words of SEC.DENY_LOG are one
register (R454), and so are those of a routing entry (Table 12-8a). -/
def Kind.wides (k : Kind) : List Row :=
  match k with
  | .top =>
    [R.TOP_FRAME_DUR_LO]
  | .time =>
    [R.TIME_TIE_P_LO]
  | .tmr =>
    [R.TMR_PERIOD_LO]
  | .flash =>
    [R.FLASH_RCV_SRC_LO]
  | .tcomb =>
    [R.TCOMB_HOLD_TIME_LO]
  | .tdc =>
    [R.TDC_EVCOUNT_LO]
  | .st =>
    [R.ST_NEXT_SEQ_LO, R.ST_CNT_LOST_LO]
  | .mc =>
    [R.MC_CNT_RD_LO, R.MC_CNT_WR_LO]
  | .enet =>
    [R.ENET_MAC_LO]
  | .disp =>
    [R.DISP_L_BASE_LO, R.DISP_BASE_B_LO]
  | .ring =>
    [R.RING_BASE_LO, R.RING_CUR_ADDR_LO]
  | .qpc =>
    [R.QPC_VA_LO, R.QPC_REGION_LO, R.QPC_HEAD_LO, R.QPC_LIMIT_LO]
  | .win =>
    [R.WIN_BASE_LO, R.WIN_SIZE_LO, R.WIN_OFFSET_LO]
  | .msix =>
    [R.MSIX_ADDR_LO]
  | .sec =>
    [R.SEC_DENY_SHELL]
  | .route =>
    [R.ROUTE_KIND]
  | _ => []

end Sys2Proof.Machine
end

