-- ==== Sys2Proof/Machine/Flags.lean ====
section
/-! DEFINITION. Results and flags of the microwords' arithmetic, with every edge of Table 14-10 (R410, R411).  Each function answers the
result and the flags it sets: 1 DZ, 2 V. -/

namespace Sys2Proof.Machine

/-- The flags DZ, V and FAULT of CSR 0 (R410). -/
def flagDZ : Nat := 1
def flagV : Nat := 2
def flagFAULT : Nat := 4

/-- The most negative word. -/
def minWord : Word := 0x80000000#32

/-- V where an exact sum or difference is not what the word holds. -/
def overflow (exact : Int) (w : Word) : Nat := if w.toInt = exact then 0 else flagV

/-- ADD and ADDI. -/
def aluAdd (a b : Word) : Word × Nat := (a + b, overflow (a.toInt + b.toInt) (a + b))

/-- SUB. -/
def aluSub (a b : Word) : Word × Nat := (a - b, overflow (a.toInt - b.toInt) (a - b))

/-- AND, OR and XOR. -/
def aluAnd (a b : Word) : Word × Nat := (a &&& b, 0)
def aluOr (a b : Word) : Word × Nat := (a ||| b, 0)
def aluXor (a b : Word) : Word × Nat := (a ^^^ b, 0)

/-- Shifts and rotation by the unsigned value of b; by 32 or more a shift leaves 0, or the sign (Table 14-10). -/
def aluSll (a b : Word) : Word × Nat := (if b.toNat < 32 then a <<< b.toNat else 0#32, 0)
def aluSrl (a b : Word) : Word × Nat := (if b.toNat < 32 then a >>> b.toNat else 0#32, 0)
def aluSra (a b : Word) : Word × Nat := (a.sshiftRight (min 32 b.toNat), 0)
def aluRor (a b : Word) : Word × Nat := (a.rotateRight (b.toNat % 32), 0)

/-- MUL, MULH and MULHU. -/
def aluMul (a b : Word) : Word × Nat := (a * b, 0)
def aluMulh (a b : Word) : Word × Nat := (BitVec.ofInt 32 (a.toInt * b.toInt / 2 ^ 32), 0)
def aluMulhu (a b : Word) : Word × Nat := (BitVec.ofNat 32 (a.toNat * b.toNat / 2 ^ 32), 0)

/-- DIV: the quotient truncated toward zero. -/
def aluDiv (a b : Word) : Word × Nat :=
  if b = 0#32 then (0xFFFFFFFF#32, flagDZ)
  else if a = minWord ∧ b = 0xFFFFFFFF#32 then (minWord, flagV)
  else (BitVec.ofInt 32 (Int.tdiv a.toInt b.toInt), 0)

/-- REM: the remainder with the sign of the dividend. -/
def aluRem (a b : Word) : Word × Nat :=
  if b = 0#32 then (a, flagDZ)
  else if a = minWord ∧ b = 0xFFFFFFFF#32 then (0#32, flagV)
  else (BitVec.ofInt 32 (Int.tmod a.toInt b.toInt), 0)

/-- DIVU and REMU. -/
def aluDivu (a b : Word) : Word × Nat := if b = 0#32 then (0xFFFFFFFF#32, flagDZ) else (BitVec.ofNat 32 (a.toNat / b.toNat), 0)
def aluRemu (a b : Word) : Word × Nat := if b = 0#32 then (a, flagDZ) else (BitVec.ofNat 32 (a.toNat % b.toNat), 0)

/-- SLT and SLTU. -/
def aluSlt (a b : Word) : Word × Nat := (if a.toInt < b.toInt then 1#32 else 0#32, 0)
def aluSltu (a b : Word) : Word × Nat := (if a.toNat < b.toNat then 1#32 else 0#32, 0)

/-- NEG: 0 - a. -/
def aluNeg (a _b : Word) : Word × Nat := if a = minWord then (minWord, flagV) else (-a, 0)

/-- LUI: b in the upper half. -/
def aluLui (_a b : Word) : Word × Nat := (b <<< 16, 0)

/-- The comparisons of the branches. -/
def cmpEq (a b : Word) : Bool := a = b
def cmpNe (a b : Word) : Bool := a ≠ b
def cmpLt (a b : Word) : Bool := decide (a.toInt < b.toInt)
def cmpGe (a b : Word) : Bool := decide (b.toInt ≤ a.toInt)
def cmpLtu (a b : Word) : Bool := decide (a.toNat < b.toNat)
def cmpGeu (a b : Word) : Bool := decide (b.toNat ≤ a.toNat)

end Sys2Proof.Machine
end

