-- ==== Sys2Proof/Config.lean ====
section
/-! DEFINITION. What an implementation fixes and the spec does not give: constants without a body, which no proof can see through.
Each is named in a log entry under notes/assumptions. -/

namespace Sys2Proof.Config

/-- A value the spec leaves open, one for each use (DESIGN CHOICE, log entry 3). -/
opaque freeValue : Nat → Nat

/-- The factory value of a calibration parameter in a temperature set: set, die, parameter key (R101; log entry 9). -/
opaque factoryTrim : Nat → Nat → Nat → Int

/-- The line fitted through measurements of CCLK edges, newest first: the Q-time of the newest edge and the CCLK period, both in 2^-64 s (R255;
log entry 43). -/
opaque fitTie : List (Nat × Nat) → Nat × Nat

/-- Whether an image's ECDSA signature verifies: the customer key, or none for the vendor key in fuses, and the image (R416; log entry 46). -/
opaque signatureOk : Option (List Byte) → List Byte → Bool

end Sys2Proof.Config
end

