-- ==== Sys2Proof/Machine/Bits.lean ====
section
/-! DEFINITION. Bit fields, two's complement, byte order and check codes: the arithmetic helpers every part of the machine uses.
Register fields are handled as natural numbers once they are read out of their word. -/

namespace Sys2Proof.Machine

/-- Bits `hi` down to `lo` of a number. -/
def bits (v hi lo : Nat) : Nat := (v >>> lo) % 2 ^ (hi + 1 - lo)

/-- One bit of a number. -/
def bit (v k : Nat) : Bool := v.testBit k

/-- A truth value as 0 or 1. -/
def b2n (b : Bool) : Nat := if b then 1 else 0

/-- The number `v` with its bits `hi` down to `lo` replaced by `x`. -/
def putBits (v hi lo x : Nat) : Nat :=
  v - (bits v hi lo) * 2 ^ lo + (x % 2 ^ (hi + 1 - lo)) * 2 ^ lo

/-- A register word with bits `hi` down to `lo` replaced by `x`. -/
def putField (w : Word) (hi lo x : Nat) : Word := BitVec.ofNat 32 (putBits w.toNat hi lo x)

/-- The signed value of a `w`-bit number. -/
def sgn (w v : Nat) : Int :=
  let u := v % 2 ^ w
  if u < 2 ^ (w - 1) then (u : Int) else (u : Int) - (2 ^ w : Nat)

/-- The `w`-bit two's complement code of an integer. -/
def unsgn (w : Nat) (i : Int) : Nat := (i % ((2 ^ w : Nat) : Int)).toNat

/-- An integer held within the range of a signed `w`-bit field. -/
def clampS (w : Nat) (i : Int) : Int :=
  let m : Int := ((2 ^ (w - 1) : Nat) : Int)
  if i < -m then -m else if m - 1 < i then m - 1 else i

/-- Division rounding to the nearest integer, halves towards plus infinity. -/
def divRound (a : Int) (b : Nat) : Int := (2 * a + b) / (2 * (b : Int))

/-- Round to nearest, halves to even: `a / b`. -/
def divEven (a : Int) (b : Nat) : Int :=
  let q := a / (b : Int)
  let r := a % (b : Int)
  if 2 * r < b then q else if (b : Int) < 2 * r then q + 1 else if q % 2 = 0 then q else q + 1

/-- `n` bytes of a number, least significant first. -/
def leBytes : Nat → Nat → List Byte
  | 0, _ => []
  | n + 1, v => BitVec.ofNat 8 v :: leBytes n (v / 256)

/-- The number whose bytes, least significant first, are given. -/
def ofLe : List Byte → Nat
  | [] => 0
  | b :: bs => b.toNat + 256 * ofLe bs

/-- `n` bytes of a byte string from offset `o`, as a little-endian number. -/
def field (bs : List Byte) (o n : Nat) : Nat := ofLe ((bs.drop o).take n)

/-- The numbers 0 to n - 1 for which a test holds. -/
def which (n : Nat) (p : Nat → Bool) : List Nat := (List.range n).filter p

/-- The mask with bit k set for each of the first `n` numbers that pass a test. -/
def maskOf (n : Nat) (p : Nat → Bool) : Nat := (which n p).foldl (fun m k => m + 2 ^ k) 0

/-- One bit of the reflected CRC-32C shift register. -/
def crcShift (c : Nat) : Nat := if c % 2 = 1 then (c / 2) ^^^ 0x82F63B78 else c / 2

/-- CRC-32C over one byte, the register given and returned. -/
def crcByte (c : Nat) (b : Byte) : Nat :=
  (List.range 8).foldl (fun x _ => crcShift x) (c ^^^ b.toNat)

/-- CRC-32C of a byte string (R223): polynomial 0x1EDC6F41 reflected, initial value and final inversion all ones. -/
def crc32c (bs : List Byte) : Nat := (bs.foldl crcByte 0xFFFFFFFF) ^^^ 0xFFFFFFFF

/-- The greatest integer whose square does not exceed `n` (R208 and R212 style statistics never need more). -/
def isqrtFuel : Nat → Nat → Nat → Nat
  | 0, _, r => r
  | k + 1, n, r =>
    let t := r + 2 ^ k
    if t * t ≤ n then isqrtFuel k n t else isqrtFuel k n r

end Sys2Proof.Machine
end

