-- ==== Sys2Proof/Machine/Tab.lean ====
section
/-! DEFINITION. Sparse tables: lists of (key, value) pairs with strictly rising keys.  They hold the register cells, the HBM bytes
and the arrays of the model; a key that is not listed has the table's default. -/

namespace Sys2Proof.Machine

/-- A sparse table over natural-number keys. -/
abbrev Tab (α : Type) := List (Nat × α)

/-- The value listed at a key. -/
def Tab.find {α : Type} : Tab α → Nat → Option α
  | [], _ => none
  | (k, v) :: t, a => if k = a then some v else Tab.find t a

/-- The value at a key, or a default where none is listed. -/
def Tab.get {α : Type} (t : Tab α) (d : α) (a : Nat) : α := (Tab.find t a).getD d

/-- The table with the key removed. -/
def Tab.del {α : Type} (t : Tab α) (a : Nat) : Tab α := t.filter fun e => decide (e.1 ≠ a)

/-- The table with the key set. -/
def Tab.put {α : Type} : Tab α → Nat → α → Tab α
  | [], a, x => [(a, x)]
  | (k, v) :: t, a, x =>
    if k = a then (a, x) :: t else if a < k then (a, x) :: (k, v) :: t else (k, v) :: Tab.put t a x

/-- The table with the value at a key changed by a function, from the default where none is listed. -/
def Tab.mod {α : Type} (t : Tab α) (d : α) (a : Nat) (f : α → α) : Tab α := Tab.put t a (f (Tab.get t d a))

/-- The table in canonical form: the key set, but removed where the value is what an unlisted key reads as. -/
def Tab.putC {α : Type} [DecidableEq α] (t : Tab α) (d : α) (a : Nat) (x : α) : Tab α :=
  if x = d then Tab.del t a else Tab.put t a x

/-- Keys strictly rising. -/
def Tab.sorted {α : Type} : Tab α → Bool
  | [] => true
  | [_] => true
  | (k, _) :: (k', v') :: t => decide (k < k') && Tab.sorted ((k', v') :: t)

end Sys2Proof.Machine
end

