-- ==== Sys2Proof/Machine/State.lean ====
section
/-! DEFINITION. The state of the EA9180 as plain data: the register cells of BAR0, HBM, sequencer local memory, the hidden state of
every unit, what has been put on the outer interfaces, and the queue of commands that wait. -/

namespace Sys2Proof.Machine

/-- Why a command stops with a fault.  No command of this model faults: every command the spec lists has an effect. -/
inductive Fault where
  /-- A command for which the spec gives no effect at all; raised by no meaning of this model; safe. -/
  | noEffect
  deriving DecidableEq, Repr

/-- Why a command is refused. -/
inductive Refusal where
  /-- The command has no meaning yet (its mnemonic); raised by an arm of exec only; safe. -/
  | notModelled (mnemonic : String)
  deriving DecidableEq, Repr

/-- What the device puts on its outer interfaces, in the order it does so.  This record is the model's own field. -/
inductive Out where
  /-- The answer to a register read of a function: offset and value (R37). -/
  | readData (fn off : Nat) (v : Nat)
  /-- The answer to a BAR4 read: HBM address and bytes (R448). -/
  | memData (addr : Nat) (bytes : List Byte)
  /-- A posted memory write to the host on behalf of a function (R346). -/
  | busWrite (addr : Nat) (bytes : List Byte)
  /-- A memory read of the host; length 0 is a zero-length read (R345, R353). -/
  | busRead (addr len : Nat)
  /-- An MSI-X message: global vector, address and data (R359). -/
  | msix (vector addr : Nat) (data : Nat)
  /-- A message sent on a Filmund port: the header fields and payload as bytes (spec/11). -/
  | link (port : Nat) (kind : Nat) (bytes : List Byte)
  /-- A frame sent on an Ethernet sub-port: port * 4 + sub-port, kind, and content (spec/13). -/
  | packet (sub kind : Nat) (bytes : List Byte)
  /-- The level of an output pin changes: a pin number of Machine/Ops.lean. -/
  | pin (p : Nat) (level : Bool)
  /-- Bytes returned over SMBus (R467). -/
  | smbus (bytes : List Byte)
  /-- An AUX request (R487). -/
  | aux (cmd addr : Nat) (bytes : List Byte)
  /-- The active pixels of a frame sent to the monitor: width, and 24-bit RGB row by row (R492). -/
  | picture (width : Nat) (pixels : List Nat)
  /-- The answer to a PCIe configuration request: function, register and value, or Retry Status (R501). -/
  | config (fn off : Nat) (v : Option Nat)
  /-- The trace of a fabric grant or of hints: point, requester, hint (R431). -/
  | grant (point req hint : Nat)
  deriving DecidableEq, Repr

/-! ### Converter array and correction pipeline (spec/03, spec/06) -/

/-- A span of samples of one channel. -/
structure Span where
  /-- 64 bits; first sample position. -/
  first : Nat
  /-- 64 bits; number of samples. -/
  len : Nat
  deriving DecidableEq, Repr

/-- One sample in the equaliser window of R76. -/
structure PipeEnt where
  /-- The value a of R76 before the equaliser; none is NO-DATA (R78). -/
  a : Option Int
  /-- 12 bits; the slice code (R76). -/
  code : Nat
  deriving DecidableEq, Repr

/-- A hold in progress on a channel (R117). -/
structure HoldSt where
  /-- Position of the first held sample, at a CCLK boundary. -/
  first : Nat
  /-- The first held sample has been put out (R117). -/
  started : Bool
  /-- Position at which the span ends, since the channel has been switched back; none while it is on the tone (R117). -/
  upto : Option Nat
  /-- The repeated corrected sample, once the first has been put out. -/
  value : Nat
  /-- 1 DELTA, 2 FULL, 3 RECOVERY (Table 4-3). -/
  kind : Nat
  /-- The run was started by HARD (Table 4-3). -/
  hard : Bool
  /-- A frame was open when the hold began (R118, R120). -/
  inFrame : Bool
  deriving DecidableEq, Repr

/-- A span in which a channel was stopped (R175, R544). -/
structure Stop where
  /-- Position at which the stop began. -/
  first : Nat
  /-- Position of the first sample after it; none while it lasts. -/
  upto : Option Nat
  /-- The pip cause that reports it: 4 CLOCK_GATED, 5 RESET (Table 6-4). -/
  cause : Nat
  deriving DecidableEq, Repr

/-- The corrected-sample path and history buffer of one channel. -/
structure Chan where
  /-- The samples in the equaliser's window, newest first, at most 31 (R76); 15 entries stand for what lies before the first sample of a
  channel that starts or resumes (R78, R285); reset 15 NO-DATA entries. -/
  pipe : List PipeEnt
  /-- Position of the next sample to be written to the history buffer (R167, R544); reset 0. -/
  top : Nat
  /-- The history buffer (R164): corrected samples newest first, at most D/2 of them; 0x10000 marks a location passed while
  the channel was stopped (R544); reset empty. -/
  hist : List Nat
  /-- Position of the first sample written after the buffer was last emptied (R166); reset 0. -/
  base : Nat
  /-- 16 bits; the last corrected sample put out (R117); reset NO-DATA. -/
  last : Nat
  /-- The hold in progress (R117); reset none. -/
  hold : Option HoldSt
  /-- The last 16 held spans (R119), newest first; reset empty. -/
  holds : List Span
  /-- Start of the present CAL_BAD interval (R126); reset none. -/
  bad : Option Nat
  /-- The last 16 CAL_BAD intervals (R126), newest first; reset empty. -/
  bads : List Span
  /-- Start of the present interval without a valid set (R105); reset none. -/
  noSet : Option Nat
  /-- Earlier intervals without a valid set (R105), newest first; reset empty. -/
  noSets : List Span
  /-- The stopped spans still within history (R544), newest first; reset empty. -/
  stops : List Stop
  deriving DecidableEq, Repr

/-- What stands in the equaliser's window before the first sample of a channel that starts: NO-DATA (R78). -/
def emptyPipe : List PipeEnt := List.replicate 15 { a := none, code := 0 }

/-- A channel at reset. -/
def Chan.reset : Chan :=
  { pipe := emptyPipe, top := 0, hist := [], base := 0, last := 0x8000, hold := none, holds := [], bad := none, bads := [],
    noSet := none, noSets := [], stops := [] }

/-- The converter array: eight channels, and the hidden state of banks and die links. -/
structure Conv where
  /-- Channels 0 to 7 (R67). -/
  chans : Tab Chan
  /-- Per bank: the position p of its next handover, 6 bits (R111); reset 0. -/
  rotPos : Tab Nat
  /-- Per bank: handovers made since its last full rotation, 0 to 65 (R111); reset 0. -/
  rotCnt : Tab Nat
  /-- Per bank: the slice at each of 64 positions is SLICE_MAP; this is the handover that fell due in a hold (R114); reset false. -/
  rotDue : Tab Bool
  /-- Per bank whose handover fell due in a hold: the deltas then measured, and whether the input had slope (R112, R114); reset empty. -/
  rotMeas : Tab (Tab Int × Bool)
  /-- Per die: retraining attempts since power-up, 24 bits (R95); reset 0. -/
  retrains : Tab Nat
  /-- Per die: Q-time at which its link was lost (R79). -/
  lostAt : Tab Nat
  /-- Per die: a front-end-die reset is in progress (R512); reset false. -/
  dieRst : Tab Bool
  /-- Per bank: a write of EN held for the frame boundary (R86); reset none. -/
  enHeld : Tab Bool
  /-- Per bank: what its settling waits for: 0 nothing special, 1 a FULL run (R108), 2 the DELTA run of a MODE change or of the way to
  READY (R108, R460), 3 start-up calibration, 4 the FULL run of CAL_LOAD (R125). -/
  settle : Tab Nat
  deriving DecidableEq, Repr

/-! ### Calibration controller (spec/04) -/

/-- One half of a temperature set (R101). -/
structure SetHalf where
  /-- 0 to 7: CALSETk. -/
  set : Nat
  /-- 0 or 1: the front-end die. -/
  die : Nat
  /-- Set point in 0.125 °C, signed (R101). -/
  point : Int
  /-- The VALID bit (R101). -/
  valid : Bool
  /-- The half holds the factory values, which the spec does not list (R101). -/
  factory : Bool
  /-- Parameter values by parameter key (Table 4-1). -/
  vals : Tab Int
  deriving DecidableEq, Repr

/-- A calibration run (R116, R123). -/
structure CalRun where
  /-- 1 DELTA, 2 FULL, 3 RECOVERY. -/
  kind : Nat
  /-- Channels the run was started for (R123, R126). -/
  named : List Nat
  /-- Channels still to measure, the one under measurement first (R116). -/
  chans : List Nat
  /-- Number of the step within the channel's measurement, 16 bits (R133). -/
  step : Nat
  /-- Started beyond DTEMP_HARD (R115). -/
  hard : Bool
  /-- The command that started it, as sequencer * 8 + slot, or none for an automatic run (R123). -/
  cmd : Option Nat
  /-- The temperature of each die at its start, in 0.125 °C (R115). -/
  temps : List Int
  /-- Q-times at which the present step and the present channel began (R110). -/
  stepAt : Nat
  chanAt : Nat
  /-- Deltas measured for the channel under measurement, by parameter key (R116, R126). -/
  meas : Tab Int
  deriving DecidableEq, Repr

/-- The calibration controller. -/
structure Cal where
  /-- The temperature sets loaded into SRAM (R104); reset empty. -/
  sets : List SetHalf
  /-- delta by parameter key (R100); reset empty, every delta 0. -/
  delta : Tab Int
  /-- Per die: the T_die whose interpolated values are in use, in 0.125 °C (R98); reset 0. -/
  temp : Tab Int
  /-- Overridden window words and their written values (R130); reset empty. -/
  ovr : Tab Word
  /-- Window writes and releases that wait for a step boundary, in order: a word (none: all) and its new value (none: released)
  (R109, R129, R130); reset empty. -/
  ovrWait : List (Option Nat × Option Word)
  /-- Measured deltas that wait for a step boundary, by parameter key (R109); reset empty. -/
  meas : Tab Int
  /-- Set halves saved and not yet in use: they wait for a step boundary (R98, R124); reset empty. -/
  setWait : List SetHalf
  /-- Runs in progress: 0 and 1 the automatic run of FE0 and FE1, 2 the run of a command (R116, R123), 8 + c the FULL run of a channel c
  that has been enabled, 16 + d the DELTA run of a die d after a MODE change or on the way to READY (R108, R460); reset empty. -/
  runs : Tab CalRun
  /-- Per die: steps of start-up calibration so far, 16 bits; present while it runs (R107); reset empty. -/
  startup : Tab Nat
  /-- Per die: Q-times at which start-up calibration and its present step began (R110). -/
  startAt : Tab (Nat × Nat)
  /-- Per die: T_die at the start of start-up calibration (R115). -/
  startTemp : Tab Int
  deriving DecidableEq, Repr

/-! ### Trigger engine (spec/05) -/

/-- A decision that has begun its provisional phase and is not resolved (R138). -/
structure Cand where
  /-- Sample position at which it began. -/
  i0 : Nat
  /-- 96 bits; anchor Q-time (R142). -/
  anchor : Nat
  /-- The opening transition was positive. -/
  pos : Bool
  deriving DecidableEq, Repr

/-- A trigger unit (R136, R138). -/
structure Tu where
  /-- Position of the next sample it takes; reset 0. -/
  next : Nat
  /-- Comparator QA: 0, 1, or 2 for UNKNOWN (R136); reset 2. -/
  qa : Nat
  /-- Comparator QB; reset 2. -/
  qb : Nat
  /-- Outstanding candidates (R138): at most one, two under RUNT either. -/
  cands : List Cand
  /-- Anchor of the previous decision (R140); reset none. -/
  lastA : Option Nat
  /-- CCLK count at which the level became active (R141); reset none. -/
  actAt : Option Nat
  deriving DecidableEq, Repr

/-- A trigger unit at reset. -/
def Tu.reset : Tu := { next := 0, qa := 2, qb := 2, cands := [], lastA := none, actAt := none }

/-- An event of a source (R134). -/
structure SrcEv where
  /-- 6 bits; source index (Table 5-1). -/
  src : Nat
  /-- 96 bits; anchor. -/
  anchor : Nat
  /-- It has a provisional phase. -/
  prov : Bool
  /-- The outcome of its phase, where its source has resolved it: confirmed or not. -/
  res : Option Bool
  /-- The phase ended at its deadline (R151). -/
  late : Bool
  deriving DecidableEq, Repr

/-- A provisional trigger of a definition (R148). -/
structure Prov where
  anchor : Nat
  src : Nat
  /-- It has a provisional phase; one without waits here only for earlier provisional triggers (R148). -/
  phase : Bool
  /-- Not announced, because COUNT holdoff was active (R148). -/
  silent : Bool
  /-- Its outcome, once its source has resolved: true confirmed (R148). -/
  done : Option Bool
  /-- It reached its deadline (R151). -/
  late : Bool
  deriving DecidableEq, Repr

/-- A trigger definition's working state (R145 to R148). -/
structure TDef where
  /-- At most four provisional triggers, in anchor order (R148); reset empty. -/
  provs : List Prov
  /-- Holdoffs of the frame's confirmed triggers, newest first (R147): the anchor of each, and under SEGMENT the Q-time of the last sample
  of its latest window; reset empty. -/
  holds : List (Nat × Option Nat)
  /-- Triggers COUNT holdoff still discards (R147); reset 0. -/
  holdLeft : Nat
  /-- Sequence wait: the anchor a_A and its deciding source (R145); reset none. -/
  seqWait : Option (Nat × Nat)
  /-- Anchors of the events the definition took in the frame, each of which an event of another source at the same anchor joins (R144);
  reset empty. -/
  taken : List Nat
  /-- Firings of terms A, B and C not yet taken: term, anchor, source (R145); reset empty. -/
  firings : List (Nat × Nat × Nat)
  /-- Anchor of the last firing the sequence has taken (R145); reset 0. -/
  seqAt : Nat
  deriving DecidableEq, Repr

/-- A definition at reset. -/
def TDef.reset : TDef :=
  { provs := [], holds := [], holdLeft := 0, seqWait := none, taken := [], firings := [], seqAt := 0 }

/-- The state of one TRIG_OUT pin (R154, R155). -/
structure TOut where
  /-- CCLK count of the start of the previous pulse; reset none. -/
  start : Option Nat
  /-- Anchor of its unresolved provisional pulse; reset none. -/
  prov : Option Nat
  /-- TRIG_OUT and TRIG_CXL are active now, each until a CCLK count (R154). -/
  outOn : Bool
  outEnd : Nat
  cxlOn : Bool
  cxlEnd : Nat
  deriving DecidableEq, Repr

/-- A TRIG_OUT pin at reset. -/
def TOut.reset : TOut := { start := none, prov := none, outOn := false, outEnd := 0, cxlOn := false, cxlEnd := 0 }

/-- A remote provisional trigger (R151, R319). -/
structure Remote where
  /-- Identifier of the device that sent it (R319). -/
  src : Nat
  /-- Filmund line 0 to 15. -/
  line : Nat
  anchor : Nat
  /-- 0 open, 1 resolved, 2 expired (R152), 3 not delivered as a source and remembered for its repeats alone (R542). -/
  st : Nat
  /-- It was received as a TRIG_PROV (R542). -/
  prov : Bool
  /-- Definitions and streams whose requests were kept at the deadline (R151, R152). -/
  kept : List (Nat × Nat)
  /-- Definitions that took it as a trigger (R152). -/
  defs : List Nat
  deriving DecidableEq, Repr

/-- The trigger engine. -/
structure Trig where
  /-- Trigger units 0 to 7. -/
  tus : Tab Tu
  /-- Definitions 0 to 15. -/
  defs : Tab TDef
  /-- Per source: anchor of its previous event (R140). -/
  lastEv : Tab Nat
  /-- Per source: level changes with their anchors, newest first (R144). -/
  levels : Tab (List (Nat × Bool))
  /-- Per TRIG_IN input: CCLK count at which its level became active (R141). -/
  tinAct : Tab Nat
  /-- Events that wait, per definition, until every level at their anchor is known (R144). -/
  waiting : List (Nat × SrcEv)
  /-- TRIG_OUT0 to 3. -/
  touts : Tab TOut
  /-- Remote triggers received, newest first (R151, R152). -/
  remotes : List Remote
  /-- Definitions armed from this Q-time on, while a frame is open (R146); reset none. -/
  armFrom : Option Nat
  /-- Definitions disarmed from this Q-time on (R146); reset none. -/
  armUpto : Option Nat
  /-- Q-time of the last write of TEXT.BLK_CTRL.EN from 0 to 1 (R162); reset none. -/
  textOn : Option Nat
  deriving DecidableEq, Repr

/-! ### Segments, frames and reduction (spec/06, spec/07, spec/08) -/

/-- A segment request (R149, R171). -/
structure Req where
  /-- 8 bits; stream. -/
  stream : Nat
  /-- 64 bits; segment sequence number once confirmed (R179). -/
  seq : Option Nat
  /-- 96 bits; anchor of its trigger, or instant of the first sample of a CONTINUOUS segment (R22). -/
  anchor : Nat
  /-- Position of the window's first sample in the channel. -/
  first : Int
  /-- Window length in samples. -/
  len : Nat
  /-- 16 bits; trigger-source code (R135). -/
  code : Nat
  /-- 0 provisional, 1 confirmed, 2 eligible (R171). -/
  st : Nat
  /-- Kept under UNCONF_KEEP (R151). -/
  unconf : Bool
  /-- A CONTINUOUS segment. -/
  cont : Bool
  /-- A CONTINUOUS segment cut at t_close (R184). -/
  cut : Bool
  deriving DecidableEq, Repr

/-- A record in an egress queue (R176, R223). -/
structure Rec where
  /-- Record type (Table 8-2). -/
  ty : Nat
  /-- The record's bytes. -/
  bytes : List Byte
  /-- 8 bits; stream, or 256 for a pod. -/
  stream : Nat
  /-- Destination: kind * 65536 + index (Table 6-10). -/
  dest : Nat
  /-- Frame number. -/
  frame : Nat
  /-- First sequence number covered (R178). -/
  seq : Nat
  /-- Segments covered. -/
  segs : Nat
  /-- First sample index (signed as R168). -/
  first : Int
  /-- Samples covered. -/
  len : Nat
  /-- Pip cause, or 0. -/
  cause : Nat
  /-- MERGED (R178). -/
  merged : Bool
  /-- It lies in the pip reserve (R176). -/
  inRes : Bool
  /-- Transmission has begun (R177). -/
  begun : Bool
  /-- Q-time at which it was queued (R380). -/
  queuedAt : Nat
  /-- Trigger-source code. -/
  code : Nat
  /-- Husk Q-time. -/
  qt : Nat
  /-- Q-time of its first sample, which a pip that takes its place bears (R226). -/
  qFirst : Nat
  deriving DecidableEq, Repr

/-- What a destination has received of one stream in the frame (R187, Table 6-6). -/
structure PodEnt where
  /-- Key of the destination. -/
  dest : Nat
  stream : Nat
  /-- Frame of the records. -/
  frame : Nat
  /-- Records of each type: SEG, ACC, DEN, STAMP, DIFF, MON, PIP, LOG. -/
  counts : List Nat
  /-- Samples of the stream's pips delivered here. -/
  lost : Nat
  /-- Running CRC-32C register over the records' CRC fields. -/
  crc : Nat
  deriving DecidableEq, Repr

/-- A working epoch of an accumulating or envelope stream or of a density slot (R204, R212). -/
structure Epoch where
  /-- Epoch number within the frame. -/
  num : Nat
  /-- Segments taken. -/
  segs : Nat
  /-- Flags the contributing samples would set (R207). -/
  flags : Nat
  /-- Sequence number of the last segment. -/
  lastSeq : Nat
  /-- First index, husk Q-time and trigger code of the first segment. -/
  first : Int
  qt : Nat
  code : Nat
  /-- Samples outside the grid in the epoch (density). -/
  out : Nat
  /-- One past the last index of the last segment. -/
  last : Int
  /-- COMMAND close requested while a segment is being taken (R204). -/
  goReq : Bool
  /-- A read-and-clear pass is due, with its cause: 0 none, 1 LIMIT, 2 LENGTH, 3 COMMAND, 4 DRAIN. -/
  closing : Nat
  deriving DecidableEq, Repr

/-- An epoch that has taken nothing. -/
def Epoch.reset : Epoch :=
  { num := 0, segs := 0, flags := 0, lastSeq := 0, first := 0, qt := 0, code := 0xFFFF, out := 0, last := 0, goReq := false,
    closing := 0 }

/-- An entry record being filled for a STAMP, DIFF or MON stream (R266, R272, R474). -/
structure OpenRec where
  /-- Entry bytes so far, in order. -/
  body : List Byte
  /-- Entries so far. -/
  n : Nat
  /-- Number of the first entry among the stream's entries of the frame. -/
  firstNo : Nat
  /-- Husk Q-time: the first entry's. -/
  qt : Nat
  /-- Q-time at which the first entry entered. -/
  openedAt : Nat
  deriving DecidableEq, Repr

/-- Working state of one stream. -/
structure Strm where
  /-- The egress queue, oldest first (R176). -/
  queue : List Rec
  /-- A pip held outside the queue (R178). -/
  pend : Option Rec
  /-- Next CONTINUOUS segment number (R170). -/
  contK : Nat
  /-- The stream was enabled at some time in the frame (R187). -/
  inPod : Bool
  /-- Destinations it was bound to while enabled in the frame (R187); reset empty. -/
  bound : List Nat
  /-- Q-time from which it takes requests (R146, R190). -/
  since : Nat
  /-- Pip causes of the frame, bit c - 1 (Table 6-6). -/
  causes : Nat
  /-- Position just after the last SEG record or pip of the frame, to set GAP_BEFORE (R227). -/
  gap : Bool
  /-- Accumulation or envelope epoch. -/
  ep : Epoch
  /-- Accumulation bins: sum and count by bin (R202); envelope bins: minimum and maximum (R209). -/
  bins : Tab (Int × Int)
  /-- The entry record being filled. -/
  openRec : Option OpenRec
  /-- Entries of the frame so far (Table 8-3). -/
  entries : Nat
  /-- Records whose segments are built but wait for an earlier segment of the stream (R23): sequence number and records. -/
  built : List (Nat × List Rec)
  /-- Sequence number whose records enter the queue next (R23). -/
  outSeq : Nat
  deriving DecidableEq, Repr

/-- A stream at reset. -/
def Strm.reset : Strm :=
  { queue := [], pend := none, contK := 0, inPod := false, bound := [], since := 0, causes := 0, gap := false, ep := Epoch.reset, bins := [],
    openRec := none, entries := 0, built := [], outSeq := 0 }

/-- A busy extractor (R22, R173). -/
structure Extr where
  req : Req
  /-- CCLK count at which it started. -/
  start : Nat
  /-- The window as read from history when it started: 16-bit samples, 0x10000 where nothing was written. -/
  data : List Nat
  /-- Position of the oldest safe sample when it started. -/
  safe : Int
  /-- The accumulation engine and the density engine that serve it (R203, R213). -/
  acc : Option Nat
  den : Option Nat
  deriving DecidableEq, Repr

/-- A density map slot's counters (R210). -/
structure Map where
  /-- Counter by cell xb * Y_BINS + yb. -/
  cells : Tab Nat
  ep : Epoch
  deriving DecidableEq, Repr

/-- Segments, frames and reduction. -/
structure Seg where
  /-- The request queue, in the order of R22 (R174: at most 262,144). -/
  reqs : List Req
  /-- Extractors 0 to 15 that are busy. -/
  extrs : Tab Extr
  /-- Streams 0 to 255. -/
  strms : Tab Strm
  /-- What each destination has received of each stream in the frame. -/
  pods : List PodEnt
  /-- Density slots 0 to 15. -/
  maps : Tab Map
  /-- t_open and t_close of the frame (R167), 96 bits. -/
  tOpen : Nat
  tClose : Option Nat
  /-- Per channel: position of index 0 (R167). -/
  pos0 : Tab Int
  /-- Per channel: PRESENT at t_open, mode and rate in Hz for the pod (R237). -/
  present : Tab (Nat × Nat)
  /-- Channels whose mode or fSB changed during the frame (R237). -/
  rateChg : List Nat
  /-- FRAME_CFG, CLOSE_COUNT, FRAME_DUR and OPEN_AT as read at arming (R189). -/
  cfg : Nat
  closeCount : Nat
  dur : Nat
  openAt : Nat
  /-- DRAIN_TMO in ms as read at the close (R189); reset 1,000. -/
  drainTmo : Nat
  /-- A FRAME_OPEN waits for a calibration run or for the clock (R121, R285): the command, if it was one. -/
  openWait : Bool
  /-- Steps of the drain done: 0 none, 1 provisional resolved, 2 requests done, 3 records written and pods queued (R184). -/
  drain : Nat
  /-- Destinations whose pod of the frame is still to be written (R184). -/
  podWait : List Nat
  /-- Pods queued for a destination: destination and record, oldest first (R184, R186). -/
  podQ : List Rec
  /-- Destinations stopped in this frame by a revocation or a shell reset: they receive nothing further (R450, R514). -/
  stopped : List Nat
  deriving DecidableEq, Repr

/-! ### Host interface: rings, events, MSI-X (spec/12) -/

/-- Where a taken ring entry stands (R345, R346). -/
inductive EntSt where
  /-- Its read is outstanding. -/
  | reading
  /-- Its content has returned; it is free for the device to use. -/
  | ready
  /-- It is the open data buffer, its opening read outstanding (R353). -/
  | opening
  /-- It is the open data buffer. -/
  | opened
  /-- Its fields are written; the landing check is outstanding (R346). -/
  | landing
  deriving DecidableEq, Repr

/-- A ring entry the device has taken. -/
structure RingEnt where
  /-- 64 bits; address of the entry. -/
  addr : Nat
  st : EntSt
  /-- Its content as read. -/
  bytes : List Byte
  /-- Data buffer: bytes written into it so far, and whole records in it. -/
  filled : Nat
  recs : Nat
  /-- The fragment flags, bits [19:16] of RESULT (Table 12-4). -/
  frags : Nat
  /-- The buffer ends with a pod. -/
  pod : Bool
  /-- Completed by the drain. -/
  drain : Bool
  /-- Code it completes or halts with (Table 12-5); 0 while nothing is wrong with it. -/
  code : Nat
  /-- Bits [30:0] of the OWN word to be written (Table 12-4, Table 14-2). -/
  own : Nat
  /-- Records whose last byte lies in the buffer: written once it has completed (R347). -/
  held : List Rec
  /-- Q-time at which FLUSH_TMO ends, as it was at the last byte written (R354, Table 12-3). -/
  flushAt : Nat
  deriving DecidableEq, Repr

/-- An entry waiting to be written to an event or completion ring (R356, R358). -/
structure WaitEnt where
  /-- The entry's bytes without its last word. -/
  bytes : List Byte
  /-- Bits [30:0] of its last word, where the device gives them: CMD_RING of a completion (Table 14-2). -/
  own : Nat
  /-- For a ring notification: the notifying ring (R358). -/
  ring : Option Nat
  deriving DecidableEq, Repr

/-- Working state of one ring (spec/12). -/
structure Ring where
  /-- Entries taken and not completed, oldest first (R345). -/
  ents : List RingEnt
  /-- Entries waiting for a free entry of a completion or event ring (R356, R358). -/
  waiting : List WaitEnt
  /-- A delivery was dropped: the next entry has LOST set (R358). -/
  lost : Bool
  /-- Chain: address of the descriptor read next (R350). -/
  next : Nat
  /-- Chain: the descriptor last read with END = 1, on which the engine parks (R352). -/
  atEnd : Option Nat
  /-- Chain: its re-read is outstanding (R352). -/
  reread : Bool
  /-- A doorbell arrived since parked_at, and the Q-time of parked_at (R352). -/
  woken : Bool
  parkedAt : Nat
  /-- CHAIN_REPOLL of the present park, in 2^-48 s (Table 12-3). -/
  repoll : Nat
  /-- The record being written across buffers: its stream (256 for a pod) and bytes already placed (R241). -/
  part : Option (Nat × Nat)
  deriving DecidableEq, Repr

/-- A ring at reset. -/
def Ring.reset : Ring :=
  { ents := [], waiting := [], lost := false, next := 0, atEnd := none, reread := false, woken := false, parkedAt := 0, repoll := 0, part := none }

/-- The host interface's hidden state. -/
structure HostIf where
  /-- Rings 0 to 8191. -/
  rings : Tab Ring
  /-- Per function: first vector and count (R337); the physical function holds all 2,048 at reset. -/
  vecs : Tab (Nat × Nat)
  /-- Per function: MSI-X enabled (R337); reset false. -/
  msixEn : Tab Bool
  /-- Per vector: C and T written (R359); unlisted 1 and 0. -/
  coal : Tab (Nat × Nat)
  /-- Per vector: C and T in force while deliveries are pending (R359). -/
  coalUse : Tab (Nat × Nat)
  /-- Per vector: deliveries pending, and Q-time of the oldest (R359). -/
  pend : Tab (Nat × Nat)
  /-- Per vector: the pending bit (R359); reset false. -/
  pba : Tab Bool
  /-- Events not yet delivered because the device is in DORMANT (R457). -/
  evtHeld : List Nat
  /-- Per EVENT_OUT pin: Q-time at which its pulse ends (R360). -/
  evtOut : Tab Nat
  /-- Per function and register: the held low word of a 64-bit write (R51), by function * 2^26 + offset. -/
  lowHeld : Tab Word
  /-- Per function and register: the latched high word of a 64-bit read (R51). -/
  highLatch : Tab Word
  /-- Per page: the snapshot of its counters and RC fields while frozen (R50), by offset. -/
  frozen : Tab Word
  /-- Per function: a function-level reset is in progress (R338). -/
  flr : Tab Bool
  /-- Per function: Device Control as last written, 16 bits (R335). -/
  devCtl : Tab Nat
  /-- Base address register words by function * 8 + word: the address bits as written, 32 bits (R36); reset 0. -/
  bars : Tab Nat
  deriving DecidableEq, Repr

/-! ### Time base, event stamping and differences (spec/09), clocks (spec/10) -/

/-- A tie of CCLK to Q-time (R255). -/
structure Tie where
  /-- Q-time of the edge in units of 2^-64 s, 112 bits. -/
  qref : Nat
  /-- CCLK periods since power-up at that edge. -/
  cref : Nat
  /-- 48 bits; the CCLK period in units of 2^-64 s. -/
  per : Nat
  deriving DecidableEq, Repr

/-- A stamp waiting in a TDC FIFO (R262). -/
structure RawStamp where
  /-- CCLK periods since power-up, phase j and fine code m (R262). -/
  c : Nat
  j : Nat
  m : Nat
  falling : Bool
  presc : Bool
  /-- The input's event count with this edge (R267). -/
  cnt : Nat
  ovf : Bool
  deriving DecidableEq, Repr

/-- A converted stamp. -/
structure Stamp where
  /-- 96 bits; Q-time. -/
  q : Nat
  cnt : Nat
  falling : Bool
  presc : Bool
  ovf : Bool
  deriving DecidableEq, Repr

/-- One event input (spec/09). -/
structure Tdc where
  /-- Stamps waiting, oldest first, at most 64 (R259). -/
  fifo : List RawStamp
  /-- 64 bits; event count since t_open (R267); reset 0. -/
  count : Nat
  /-- An edge was lost at the FIFO: the next stamp carries OVF (R267). -/
  ovf : Bool
  /-- Comparator level (before the prescaler); reset false. -/
  level : Bool
  /-- Changes of the comparator level, newest first: position in units of 2^-19 CCLK since power-up, before OFFSET (R261); reset empty. -/
  lvls : List (Nat × Bool)
  /-- Input cycles since the prescaler's last output edge (R260); reset 0. -/
  presc : Nat
  /-- Position of the last detected edge in units of 2^-19 CCLK since power-up (R260); reset none. -/
  last : Option Nat
  /-- A code-density test runs: edges wanted, histogram of codes, counts of phases (R264). -/
  cd : Option (Nat × Tab Nat × Tab Nat)
  /-- A START waits for the frame's pod (R264). -/
  cdWait : Bool
  deriving DecidableEq, Repr

/-- An event input at reset. -/
def Tdc.reset : Tdc :=
  { fifo := [], count := 0, ovf := false, level := false, lvls := [], presc := 0, last := none, cd := none, cdWait := false }

/-- One pair of the differences engine (R269). -/
structure Pair where
  /-- A stamps still to be evaluated, oldest first. -/
  as : List Stamp
  /-- B stamps kept, oldest first, at most 256 (R273). -/
  bs : List Stamp
  /-- Q-times of B stamps inside the window span that found no room, oldest first (R273); reset empty. -/
  gone : List Nat
  /-- Histogram bins (R271). -/
  hist : Tab Nat
  below : Nat
  above : Nat
  /-- Differences of the epoch, and its number. -/
  n : Nat
  epoch : Nat
  deriving DecidableEq, Repr

/-- A pair at reset. -/
def Pair.reset : Pair := { as := [], bs := [], gone := [], hist := [], below := 0, above := 0, n := 0, epoch := 0 }

/-- The time base and the clock loops. -/
structure TimeB where
  /-- The Q-time counter, 128 bits in units of 2^-80 s (R246); reset 0. -/
  q : Nat
  /-- CCLK periods since power-up; the model's count behind the coarse counter (R255); reset 0. -/
  cc : Nat
  /-- The coarse counter, 48 bits (R255); reset 0. -/
  coarse : Nat
  /-- The ties made, newest first: a position is converted with the latest one at or before it (R255, R256); reset none. -/
  ties : List Tie
  /-- The last 64 measurements: CCLK count and Q-time in 2^-64 s, newest first (R255). -/
  meas : List (Nat × Nat)
  /-- XO_AGE in force, on its ramp, signed 10^-12 (R248); reset 0. -/
  age : Int
  /-- The servo's correction, and its values of the last 10 s, newest first, one a ms, signed 10^-12 (R247, R252). -/
  servo : Int
  servos : List Int
  /-- Q-time at which the PPS_OUT pulse ends (Table 9-5); reset none. -/
  ppsOff : Option Nat
  /-- Qualified sources: code and Q-time since (R250). -/
  qual : Tab Nat
  /-- Phase errors measured since the source in use was last chosen, by source, signed 2^-48 s (R250); reset empty. -/
  phases : Tab Int
  /-- The step that waits gives Q-time its TAI seconds (R253); reset false. -/
  stepTai : Bool
  /-- Phase error still to be removed, in 2^-48 s, signed (R251). -/
  err : Int
  /-- theta of the last accepted exchange with the parent, in 2^-48 s (R315); reset 0. -/
  theta : Int
  /-- Last PPS_IN edge in Q-time and consecutive good edges (R249). -/
  ppsLast : Option Nat
  ppsGood : Nat
  /-- Seconds that TIME_SET gives to the next PPS_IN edge (R253). -/
  ppsSet : Option Nat
  /-- PPS_OUT settings in use since the last second: the word at 0x050 (Table 9-5). -/
  ppsOut : Nat
  /-- Event inputs 0 to 15. -/
  tdcs : Tab Tdc
  /-- Difference pairs 0 to 63. -/
  pairs : Tab Pair
  /-- Converted stamps that wait to enter streams in order: input and stamp, ascending (R266); reset empty. -/
  held : List (Nat × Stamp)
  /-- The differences engine is occupied up to here, in halves of a CCLK period since power-up (R273); reset 0. -/
  diffSlot : Nat
  /-- SCS lock attempts that failed in a row (R281). -/
  lockTry : Nat
  /-- CPLL lock attempts that failed in a row (R281). -/
  cpllTry : Nat
  /-- Q-time at which REF_IN came back in band (R286). -/
  refSince : Option Nat
  /-- SYNC_IN has moved the dividers: the lock in progress restores no grid (R289). -/
  moved : Bool
  /-- Q-time at which the SCS outputs were gated, while they are (R285); reset 0, since they are gated from reset on. -/
  gatedAt : Option Nat
  /-- The bank rate in MHz of the last lock; 0 where no grid is to be restored (R282). -/
  lockCfg : Nat
  /-- Q-time at which the CPLL began its search (R281); reset 0. -/
  cpllAt : Nat
  /-- Phase of the divider of the 1 MHz tick: a sample position at which a tick lies (R280, R289); reset 0. -/
  tick0 : Nat
  /-- SYNC_OUT is in the pulse of a tick (R290); reset false. -/
  tickOn : Bool
  /-- XCLK period of the 16 that LOCKF_S and LOCKF_C repeat, and whether each is high (R283); reset 0, low. -/
  lockf : Nat
  lockS : Bool
  lockC : Bool
  deriving DecidableEq, Repr

/-! ### Filmund link (spec/11) -/

/-- A message of the Filmund link (R308, R310); the CRC is computed when it is sent. -/
structure Msg where
  /-- 4 bits; Table 11-6. -/
  ty : Nat
  line : Nat
  /-- 0 UNICAST, 1 FLOOD, 2 UP. -/
  route : Nat
  src : Nat
  dst : Nat
  hops : Nat
  tag : Nat
  /-- Data blocks, the last without its CRC. -/
  data : List Nat
  /-- A forwarded copy that ends with ABORT after this many data blocks (R307). -/
  cut : Option Nat := none
  deriving DecidableEq, Repr

/-- What a port has to send (R312). -/
structure PortTx where
  /-- Messages that wait, in the order they became ready. -/
  queue : List Msg
  /-- What is left of the message in progress, in 2^-80 s; 0 where there is none. -/
  busy : Nat
  deriving DecidableEq, Repr

/-- A port that has nothing to send. -/
def PortTx.reset : PortTx := { queue := [], busy := 0 }

/-- One port. -/
structure Port where
  /-- Identical ADVERT blocks received in a row, and their content (R300). -/
  advSame : Nat
  adv : Nat
  /-- Training failures in a row (R299), and failures at 28.125 Gbit/s in a row (R301). -/
  fails : Nat
  fastFails : Nat
  /-- The lanes run at 28.125 Gbit/s (R296). -/
  fast : Bool
  /-- The port goes back to ACTIVE from keep-alive, skipping CALIBRATE (R322). -/
  fromKa : Bool
  /-- The last 256 accepted delays in 2^-48 s, newest first (R315). -/
  delays : List Int
  /-- t1 of the TIME_REQ outstanding (R314). -/
  t1 : Option Nat
  /-- Time exchanges made in CALIBRATE (R299). -/
  exch : Nat
  /-- Q-time of the last TIME_REQ sent in the port's present state (R314). -/
  askAt : Option Nat
  deriving DecidableEq, Repr

/-- A port at reset. -/
def Port.reset : Port :=
  { advSame := 0, adv := 0, fails := 0, fastFails := 0, fast := false, fromKa := false, delays := [], t1 := none, exch := 0, askAt := none }

/-- A remote request outstanding (R324). -/
structure RemReq where
  tag : Nat
  target : Nat
  port : Nat
  /-- The command, as sequencer * 8 + slot. -/
  cmd : Nat
  /-- Q-time at which it times out (R325). -/
  due : Nat
  deriving DecidableEq, Repr

/-- The Filmund ports together. -/
structure Link where
  ports : Tab Port
  /-- Identifiers recorded, with the port each arrived on (R305). -/
  ids : Tab Nat
  reqs : List RemReq
  /-- A DEV_ID write that waits for REMOTE_OUT to reach 0 (Table 11-10). -/
  devIdWait : Option Nat
  /-- GATE0 to 3: level of the ball, and of the GATE line last applied (R321). -/
  ball : Tab Bool
  lineLvl : Tab Bool
  /-- Gate levels received and not yet in effect: line, level, Q-time (R321). -/
  gateWait : List (Nat × Bool × Nat)
  /-- Remote event FIFO, at most 64: source device and event (R326). -/
  evFifo : List (Nat × Nat)
  /-- The parent's last TIME_RESP: time state, TAI_VALID, UTC_OFFSET, seconds (R316). -/
  parent : Nat × Bool × Nat × Nat
  /-- Root identifier and depth that the parent's last TOPO ROOT gives this device (R305). -/
  up : Option (Nat × Nat)
  deriving DecidableEq, Repr

/-! ### Shells and protection (spec/16) -/

/-- A window in force (R447). -/
structure Win where
  base : Nat
  size : Nat
  off : Nat
  rd : Bool
  wr : Bool
  host : Bool
  deriving DecidableEq, Repr

/-- Protection. -/
structure Sec where
  /-- Windows in force (R447); the pending ones are the window cells. -/
  wins : Tab Win
  /-- Owners in force, by the BAR0 offset of the OWNER or SHELL_OWNER register (R442); unlisted 0xFFF. -/
  owners : Tab Nat
  /-- OWNER registers written and not yet published, by offset (R449). -/
  pendOwn : List Nat
  /-- Windows written and not yet published (R449). -/
  pendWin : List Nat
  /-- Shells whose revoked work is still stopping (R450). -/
  revoking : List Nat
  /-- HBM placed for history buffers (key: channel) and egress queues (key: 8 + stream): base and size (R25, R448). -/
  placed : Tab (Nat × Nat)
  /-- Per function: DENY_ADDR latched by its last low-word read (R454). -/
  denyLatch : Tab Nat
  deriving DecidableEq, Repr
/-! ### Commands and sequencers (spec/14) -/

/-- What a held command waits for (R402, R403, R410). -/
inductive CmdWait where
  /-- Nothing: its next step can start. -/
  | ready
  /-- Its step runs. -/
  | running
  /-- A DMA handle (WAIT 0). -/
  | dma (h : Nat)
  /-- A Q-time (WAIT 1). -/
  | until (q : Nat)
  /-- EVT_RAW of a global event (WAIT 2). -/
  | event (e : Nat)
  /-- The hardware its opcode works with. -/
  | work
  deriving DecidableEq, Repr

/-- A command in flight (R400 to R407). -/
structure Held where
  /-- 13 bits; its command ring. -/
  ring : Nat
  /-- 12 bits; the shell that issued it, 0xFFF the supervisor. -/
  shell : Nat
  /-- Its 64 bytes (Table 14-1). -/
  bytes : List Byte
  /-- Its place in the order in which commands are taken (R401). -/
  order : Nat
  /-- Its first step has started. -/
  started : Bool
  wait : CmdWait
  /-- Sticky flags DZ, V, FAULT (R406), 3 bits. -/
  flags : Nat
  /-- 18 bits; where its next step resumes (R406). -/
  pc : Nat
  /-- The customer image slot it runs (R420). -/
  img : Option Nat
  /-- ARG0 to ARG7 (R410), each 32 bits. -/
  args : Tab Word
  /-- Outcomes that wait for its step boundary: rank in R404, status and RESULT. -/
  ends : List (Nat × Nat × Nat)
  /-- Work done so far: bytes moved, channels timed out, by opcode. -/
  work : Nat
  deriving DecidableEq, Repr

/-- A sequencer (R406). -/
structure Seqr where
  /-- u1 to u31 (R406); unlisted 0. -/
  regs : Tab Word
  /-- The store buffer, oldest first, at most 8 (R408): local address and bytes. -/
  buf : List (Nat × List Byte)
  /-- Commands held, by slot 0 to 7 (R402). -/
  held : Tab Held
  /-- Slot whose step runs. -/
  cur : Option Nat
  /-- Slot whose step ran last (R402). -/
  last : Nat
  /-- Cycles since the step began (R410). -/
  cyc : Nat
  /-- Whether an access of the step has met the fabric timeout (R409). -/
  stalled : Bool
  deriving DecidableEq, Repr

/-- A sequencer at reset. -/
def Seqr.reset : Seqr := { regs := [], buf := [], held := [], cur := none, last := 7, cyc := 0, stalled := false }

/-- A customer image loaded in the microcode store (R416, R420). -/
structure Image where
  /-- Microword address of its first microword, and its microwords. -/
  load : Nat
  len : Nat
  /-- Its entry points. -/
  entries : List Nat
  deriving DecidableEq, Repr

/-- A DMA transfer a sequencer has started (R410). -/
structure Dma where
  handle : Nat
  sq : Nat
  slot : Nat
  done : Bool
  deriving DecidableEq, Repr

/-- Command dispatch and the sequencers. -/
structure Cmd where
  /-- Sequencers 0 to 31. -/
  seqs : Tab Seqr
  /-- The dispatch queue, oldest first, at most 4,096 (R400). -/
  queue : List Held
  /-- Commands taken since reset; the model's count for R401. -/
  order : Nat
  /-- The shell a command was last taken from (R400). -/
  rota : Nat
  /-- The microcode store: 256 Ki microwords (R406), canonical; unlisted 0. -/
  store : Tab Word
  /-- Customer images loaded, by slot 0 to 3 (R419). -/
  images : Tab Image
  /-- DMA transfers whose handles are in use. -/
  dmas : List Dma
  deriving DecidableEq, Repr


/-! ### Network data service (spec/13) -/

/-- A record sent to a context and not yet fully acknowledged (R369, R370). -/
structure Sent where
  item : Rec
  /-- The stream it came from, 256 for a pod. -/
  src : Nat
  /-- HEAD position of its first byte (R372). -/
  head : Nat
  /-- 24 bits; PSN of its first packet. -/
  psn : Nat
  /-- Packets of its messages, and how many of them have been put out since the last go-back. -/
  packets : Nat
  put : Nat
  /-- It has been put out whole before (R369: packets resent are counted). -/
  again : Bool
  /-- Its immediate, where it carries one (R373). -/
  imm : Option Nat
  deriving DecidableEq, Repr

/-- The working state of one context. -/
structure Ctx where
  /-- The two 48-byte path blocks of Table 14-6. -/
  path : List Byte
  alt : List Byte
  /-- Records sent and not acknowledged, oldest first. -/
  sent : List Sent
  /-- NEXT_PSN and ACK_PSN of the path not in use (R383). -/
  other : Nat × Nat
  /-- Retries made in a row after timeouts and after receiver-not-ready NAKs (R371). -/
  retries : Nat
  rnr : Nat
  /-- Q-time before which a receiver-not-ready message is not retried (R369). -/
  rnrAt : Option Nat
  /-- Q-time at which the retransmission timer started (R369). -/
  timerAt : Nat
  /-- Q-time at which LINK_HOLD ends, while in WAIT_LINK (R384). -/
  holdEnd : Option Nat
  /-- Q-time of the last congestion notification that acted (R382). -/
  cnpAt : Option Nat
  /-- Q-time at which the present RP_PERIOD began (R382). -/
  incAt : Nat
  /-- Q-time from which RATE lets the next record begin (R379). -/
  freeAt : Nat
  /-- The frame whose first record has been sent (R373). -/
  frame : Option Nat
  deriving DecidableEq, Repr

/-- A context that is FREE. -/
def Ctx.reset : Ctx :=
  { path := [], alt := [], sent := [], other := (0, 0), retries := 0, rnr := 0, rnrAt := none, timerAt := 0, holdEnd := none,
    cnpAt := none, incAt := 0, freeAt := 0, frame := none }

/-- One PTP clock (R385): the stamps of the exchange in progress, 96-bit Q-times. -/
structure Ptp where
  /-- t1 to t4 as far as they are known. -/
  t1 : Option Nat
  t2 : Option Nat
  t3 : Option Nat
  t4 : Option Nat
  /-- Sync exchanges since the clock is in SLAVE, none of them missed (R249); reset 0. -/
  syncs : Nat
  /-- As master: Q-time at which the next Sync is due; none before the first (R385). -/
  syncDue : Option Nat
  deriving DecidableEq, Repr

/-- A PTP clock at reset. -/
def Ptp.reset : Ptp := { t1 := none, t2 := none, t3 := none, t4 := none, syncs := 0, syncDue := none }

/-- The network data service. -/
structure Net where
  /-- Contexts 0 to 4095. -/
  ctxs : Tab Ctx
  /-- Per stream: declared rate R of its binding in MB/s (R376). -/
  rate : Tab Nat
  /-- Per sub-port (port * 4 + sub-port): Q-time since which it is up (R383). -/
  upAt : Tab Nat
  /-- Paused priorities (sub-port * 8 + priority) and the Q-time at which their pause ends (R366). -/
  paused : Tab Nat
  /-- Frames that wait for the end of a pause, oldest first: sub-port * 8 + priority, kind and content (R366). -/
  waiting : List (Nat × Nat × List Byte)
  /-- Per sub-port: Q-time at which it went down (R365). -/
  downAt : Tab Nat
  /-- Values of SHED_AGE with the Q-time from which each holds, newest first (Table 13-9). -/
  shedAge : List (Nat × Nat)
  /-- Per sub-port and class (sub-port * 4 + class; sub-port 8 is the PCIe engine): the context or ring served last (R379). -/
  turn : Tab Nat
  /-- Per port: its PTP clock. -/
  ptp : Tab Ptp
  deriving DecidableEq, Repr

/-! ### Fabric (spec/15) -/

/-- A request presented to an arbitration point (R428). -/
structure FabReq where
  /-- Requester number (Table 15-2). -/
  num : Nat
  /-- Bytes of the transfer, and whether it writes. -/
  bytes : Nat
  write : Bool
  deriving DecidableEq, Repr

/-- The fabric arbiter.  Points 0 to 63 are pseudo-channels, 64 to 191 port A and 192 to 319 port B of the SRAM banks, and 320 is
control space (Table 15-1). -/
structure Fab where
  /-- Per point: requester granted last (R429). -/
  last : Tab Nat
  /-- Per point: the grant whose first data cycle has not passed, and the tokens it spent (R432). -/
  granted : Tab (FabReq × Nat)
  /-- Waiting requests by point * 256 + requester: fabric cycle and Q-time at which each was presented (R429, R433). -/
  waits : Tab (Nat × Nat)
  /-- Per requester: tokens in 2^-48 bytes, and the Q-time at which they were counted (R426). -/
  tokens : Tab (Nat × Nat)
  /-- Waiting requests by point * 256 + requester: the latest hint (R431). -/
  hints : Tab Nat
  /-- Per requester: fabric cycle up to which CNT_DELAY has been counted (R434). -/
  counted : Tab Nat
  /-- Samples and device structures found uncorrectable, not otherwise in State: kind and place (Table 19-7). -/
  poison : List (Nat × Nat)
  deriving DecidableEq, Repr

/-! ### Power and monitor converter (spec/17) -/

/-- A monitor conversion requested (R470). -/
structure MonReq where
  /-- 0 URGENT, 1 TRIGGERED, 2 HOUSE, 3 READ. -/
  cls : Nat
  input : Nat
  /-- Q-time at which it falls due. -/
  due : Nat
  /-- The MON_READ that waits for it, as sequencer * 8 + slot. -/
  cmd : Option Nat
  deriving DecidableEq, Repr

/-- A PWM output (R477). -/
structure Pwm where
  /-- Count, 24 bits. -/
  cnt : Nat
  /-- PERIOD, HIGH and MATCH in force. -/
  period : Nat
  high : Nat
  mat : Nat
  deriving DecidableEq, Repr

/-- A PWM output at reset. -/
def Pwm.reset : Pwm := { cnt := 0, period := 50000, high := 0, mat := 0 }

/-- What a conversion takes from the MON page at its start: the factors of R469, and its input's band (R473). -/
structure MonSetup where
  gain : Nat
  offs : Nat
  lo : Nat
  hi : Nat
  hyst : Nat
  en : Bool
  deriving DecidableEq, Repr

/-- The reset values of those fields (Table 17-10). -/
def MonSetup.reset : MonSetup := { gain := 32768, offs := 0, lo := 0, hi := 4095, hyst := 16, en := false }

/-- Power, thermal protection, the monitor converter and the PWM outputs. -/
structure Pwr where
  /-- The trim retention store: deltas, overrides, the LAST_RUN fields and fSB (R459). -/
  keptDelta : Tab Int
  keptOvr : Tab Word
  keptLast : List Nat
  keptFsb : Nat
  /-- SHUT has closed the frame, and STANDBY is entered when it has drained (R465). -/
  shutPend : Bool
  /-- Per sensor: housekeeping scans in a row beyond SHUT (Table 17-4). -/
  hot : Tab Nat
  /-- Latest housekeeping codes of inputs 0 to 6 (R464, R467). -/
  house : Tab Nat
  /-- The word of the thermal thresholds in use, read at each housekeeping scan (Table 17-9). -/
  therm : Nat
  /-- Per timer: EXP in force, a Q-time (R475). -/
  exps : Tab Nat
  /-- ALERT_N is asserted and no Alert Response Address read has been answered (R464). -/
  alert : Bool
  /-- Conversions requested (R470), in order of arrival. -/
  reqs : List MonReq
  /-- The conversion that runs: its request, start Q-time, and whether it started late (R470). -/
  running : Option (MonReq × Nat × Bool)
  /-- It runs in low-power mode (R472); reset false. -/
  lowPower : Bool
  /-- The factors and the band it uses, as they stood when it started (Table 17-10). -/
  setup : MonSetup
  /-- Inputs whose WIN_EN has been written 1 since their last conversion started (R473). -/
  winNew : List Nat
  /-- A self-calibration runs; the first has ended (R469). -/
  selfcal : Bool
  first : Bool
  /-- PWM outputs 0 to 7. -/
  pwms : Tab Pwm
  /-- Per HBM stack: Q-time of its last access (R461). -/
  used : Tab Nat
  deriving DecidableEq, Repr

/-! ### Preview scan-out (spec/18) -/

/-- The display engine. -/
structure Disp where
  /-- 0 stopped, 1 active lines, 2 front porch, 3 at the first sync line, 4 sync and back porch after the commit point (R488, R490). -/
  phase : Nat
  /-- Layers that have underrun in the frame, each with the pixel from which it is transparent, counted row by row (R494). -/
  under : List (Nat × Nat)
  /-- The L0 buffer being rendered: 0 BASE, 1 BASE_B (R495). -/
  render : Option Nat
  /-- The L0 buffer whose render completed last, and the one that is shown (R495, R496). -/
  done : Nat
  shown : Nat
  /-- DEFER replies of the AUX transaction in progress (R487). -/
  defers : Nat
  /-- What it carries, as AUX_GO found it (Table 18-4). -/
  aux : List Byte
  /-- The link is being trained; training failed and the idle pattern is sent (R486). -/
  training : Bool
  failed : Bool
  deriving DecidableEq, Repr

/-! ### Start-up, flash and resets (spec/19) -/

/-- A flash write in progress (R503 to R506). -/
structure FlashJob where
  /-- Region of Table 19-3. -/
  region : Nat
  /-- Its content: bytes of an image or key, or a set half. -/
  data : List Byte
  half : Option SetHalf
  /-- The command that waits for it, as sequencer * 8 + slot; none for a recovery write or the identity region. -/
  cmd : Option Nat
  /-- Sectors needed, those erased for it so far, and the one being erased. -/
  need : Nat
  secs : List Nat
  erasing : Option Nat
  /-- Pages to program, pages that compare equal, programs of the present page, failed erases of the present sector, restarts. -/
  pages : Nat
  done : Nat
  tries : Nat
  eraseTries : Nat
  restarts : Nat
  deriving DecidableEq, Repr

/-- Start-up, the flash store and resets. -/
structure Sys where
  /-- POR_N and PERST_N are held low; the supply monitor holds a reset (R510, R530). -/
  porLow : Bool
  perstLow : Bool
  supply : Bool
  /-- BOOT_MODE at the last POR_N (R499) is TOP.STRAPS; configuration space is ready (R501). -/
  cfgReady : Bool
  /-- Flash: erases by sector, retired sectors, region held by a sector, and directory copies that have failed (R503, R506). -/
  erases : Tab Nat
  retired : List Nat
  held : Tab Nat
  dirBad : Nat
  /-- Content of the regions: images, keys and set halves (Table 19-3). -/
  images : Tab (List Byte)
  halves : List SetHalf
  /-- Set halves in flash that fail their check code: set and die (R104). -/
  halfBad : List (Nat × Nat)
  /-- Flash writes, the one in progress first. -/
  jobs : List FlashJob
  /-- Q-times of HBM_FAIL faults, newest first; the device stays in STANDBY after the second within 10 s (Table 19-8). -/
  hbmFails : List Nat
  noReady : Bool
  /-- Retrains of a pseudo-channel that have failed in a row (R517). -/
  pcTries : Tab Nat
  /-- 4 KiB parts of the microcode store being reloaded (R517). -/
  reload : List Nat
  /-- Shells whose reset is in progress (R514), and resets that wait for an RRESP to leave (R510). -/
  shellRst : List Nat
  /-- Customer slots written to flash whose image waits to be loaded until no command runs the slot's present one (Table 14-12). -/
  slotWait : List Nat
  /-- OPEN_AT as the last write of its third word completed it (R189); reset 0. -/
  openSet : Nat
  /-- The recovery write in progress: region and length as RCV_GO found them (Table 19-4). -/
  rcv : Nat × Nat
  deriving DecidableEq, Repr

/-! ### The whole state -/

/-- One denial (R454). -/
structure Denial where
  shell : Nat
  func : Nat
  kind : Nat
  addr : Nat
  deriving DecidableEq, Repr

/-- One entry of the fault log (R519). -/
structure FaultRec where
  /-- Q-time, 96 bits. -/
  q : Nat
  code : Nat
  ty : Nat
  detail : Nat
  deriving DecidableEq, Repr

/-- The machine. -/
structure State where
  /-- Register cells of BAR0 by byte offset, canonical: keys rising, none equal to its reset word (R41, R44). -/
  regs : Tab Word
  /-- HBM, 32 GiB, by byte address, canonical: bytes not listed read 0 (R25). -/
  hbm : List Host.Cell
  /-- Local memory of the 32 sequencers, 64 KiB each, at sequencer * 65536 + address, canonical (R407). -/
  lmem : List Host.Cell
  /-- The converter array. -/
  conv : Conv
  /-- The calibration controller. -/
  cal : Cal
  /-- The trigger engine. -/
  trig : Trig
  /-- Segments, frames and reduction. -/
  seg : Seg
  /-- The time base, event inputs and clock loops. -/
  time : TimeB
  /-- The Filmund ports. -/
  link : Link
  /-- What each Filmund port has to send. -/
  tx : Tab PortTx
  /-- The Ethernet ports and contexts. -/
  net : Net
  /-- Command dispatch and sequencers. -/
  cmd : Cmd
  /-- The fabric arbiter. -/
  fab : Fab
  /-- Shells, windows and protection. -/
  sec : Sec
  /-- Power, monitor converter, timers and PWM. -/
  pwr : Pwr
  /-- The preview scan-out. -/
  disp : Disp
  /-- Start-up, flash and resets. -/
  sys : Sys
  /-- The host interface. -/
  host : HostIf
  /-- The denial FIFO, oldest first, at most 16 (R454). -/
  denials : List Denial
  /-- The fault log, newest first, at most 64 (R519). -/
  faults : List FaultRec
  /-- What has been put on the outer interfaces, newest first; the model's own field. -/
  out : List Out
  /-- The counter of free values; the model's own field (no statement rests on it). -/
  free : Nat
  /-- The commands that wait, first in, first out. -/
  pending : List Instr
  deriving DecidableEq, Repr

/-- The machine right after reset: every register cell at its reset value, memories with nothing listed, every queue and table
empty, no command waiting. -/
def State.reset : State :=
  { regs := [], hbm := [], lmem := []
    conv := { chans := [], rotPos := [], rotCnt := [], rotDue := [], retrains := [], rotMeas := [], lostAt := [], dieRst := [], enHeld := [], settle := [] }
    cal := { sets := [], delta := [], temp := [], ovr := [], ovrWait := [], meas := [], setWait := [], runs := [], startup := [], startAt := [],
             startTemp := [] }
    trig := { tus := [], defs := [], lastEv := [], levels := [], tinAct := [], waiting := [], touts := [], remotes := [],
              armFrom := none, armUpto := none, textOn := none }
    seg := { reqs := [], extrs := [], strms := [], pods := [], maps := [], tOpen := 0, tClose := none, pos0 := [],
             present := [], rateChg := [], cfg := 0, closeCount := 0, dur := 0, openAt := 0, drainTmo := 1000, openWait := false, drain := 0,
             podWait := [], podQ := [], stopped := [] }
    time := { q := 0, cc := 0, coarse := 0, ties := [], meas := [], age := 0, servo := 0, servos := [], ppsOff := none, qual := [], err := 0, theta := 0,
              phases := [], stepTai := false, ppsLast := none, ppsGood := 0, ppsSet := none, ppsOut := 0, tdcs := [], pairs := [], held := [],
              diffSlot := 0, lockTry := 0, cpllTry := 0, refSince := none, moved := false, gatedAt := some 0, lockCfg := 0, cpllAt := 0,
              tick0 := 0, tickOn := false, lockf := 0, lockS := false, lockC := false }
    link := { ports := [], ids := [], reqs := [], devIdWait := none, ball := [], lineLvl := [], gateWait := [], evFifo := [],
              parent := (0, false, 0, 0), up := none }
    tx := []
    sec := { wins := [], owners := [], pendOwn := [], pendWin := [], revoking := [], placed := [], denyLatch := [] }
    cmd := { seqs := [], queue := [], order := 0, rota := 0, store := [], images := [], dmas := [] }
    net := { ctxs := [], rate := [], upAt := [], paused := [], waiting := [], downAt := [], shedAge := [], turn := [], ptp := [] }
    fab := { last := [], granted := [], waits := [], tokens := [], hints := [], counted := [], poison := [] }
    pwr := { keptDelta := [], keptOvr := [], keptLast := [], keptFsb := 0, shutPend := false, hot := [], house := [], therm := 0x15A5F, exps := [], alert := false,
             reqs := [], running := none, lowPower := false, setup := MonSetup.reset, winNew := [], selfcal := false, first := false, pwms := [], used := [] }
    disp := { phase := 0, under := [], render := none, done := 0, shown := 0, defers := 0, aux := [], training := false, failed := false }
    sys := { porLow := false, perstLow := false, supply := false, cfgReady := false, erases := [], retired := [], held := [], dirBad := 0,
             images := [],
             halves := (List.range 16).map fun i => { set := i / 2, die := i % 2, point := 160 + 80 * ((i / 2 : Nat) : Int), valid := true, factory := true, vals := [] }, halfBad := [],
              jobs := [], hbmFails := [], noReady := false, pcTries := [], reload := [], shellRst := [], slotWait := [], openSet := 0, rcv := (0, 0) }
    host := { rings := [], vecs := [(0, 0, 2048)], msixEn := [], coal := [], coalUse := [], pend := [], pba := [], evtHeld := [],
              evtOut := [], lowHeld := [], highLatch := [], frozen := [], flr := [], devCtl := [], bars := [] }
    denials := [], faults := [], out := [], free := 0, pending := [] }

end Sys2Proof.Machine
end

