-- ==== Sys2Proof/Machine/Prog.lean ====
section
/-! DEFINITION. What a command can do to the machine: single acts, and programs of acts.  Every meaning is a program, so one lemma per
act (Sys2Proof/Laws/Prog.lean) says what any command can do. -/

namespace Sys2Proof.Machine

/-! ### Register map: where an offset of BAR0 lies (R41) -/

/-- A page or table entry: its kind and its instance. -/
structure Pg where
  kind : Kind
  inst : Nat
  deriving DecidableEq, Repr

/-- Offset of a block page of each kind, or of entry 0 of a table (Table 2-2). -/
def Kind.base : Kind → Nat
  | .top => 0x0000 | .clk => 0x1000 | .time => 0x2000 | .mon => 0x3000 | .tmr => 0x4000 | .pwr => 0x5000
  | .flash => 0x6000 | .sec => 0x7000 | .bank => 0x10000 | .cal => 0x18000 | .legacy => 0x1C000 | .tu => 0x20000
  | .tcomb => 0x28000 | .text => 0x29000 | .tdc => 0x30000 | .hist => 0x40000 | .acc => 0x41000 | .den => 0x42000
  | .diff => 0x43000 | .st => 0x100000 | .sq => 0x200000 | .mc => 0x300000 | .arb => 0x304000 | .pcie => 0x400000
  | .enet => 0x410000 | .rdma => 0x430000 | .flink => 0x440000 | .fport => 0x441000 | .disp => 0x450000
  | .ring => 0x800000 | .qpc => 0x900000 | .shell => 0xA00000 | .win => 0xA40000 | .route => 0xB00000
  | .msix => 0xC00000 | .pba => 0xC08000 | .none => 0

/-- Distance between instances of each kind (R41). -/
def Kind.stride : Kind → Nat
  | .enet => 0x10000 | .ring => 64 | .qpc => 64 | .shell => 64 | .win => 32 | .route => 8 | .msix => 16
  | _ => 0x1000

/-- Number of instances of each kind (Table 2-2). -/
def Kind.count : Kind → Nat
  | .bank => 8 | .tu => 8 | .tdc => 16 | .st => 256 | .sq => 32 | .mc => 4 | .enet => 2 | .fport => 4
  | .ring => 8192 | .qpc => 4096 | .shell => 4096 | .win => 4096 | .route => 2048 | .msix => 2048 | .none => 0
  | _ => 1

/-- Whether a kind is a block page with the common header (R42). -/
def Kind.isBlock : Kind → Bool
  | .ring | .qpc | .shell | .win | .route | .msix | .pba | .legacy | .none => false
  | _ => true

/-- Bytes covered by one instance of a kind. -/
def Kind.size : Kind → Nat
  | .legacy => 0x4000 | .pba => 256 | .ring => 64 | .qpc => 64 | .shell => 64 | .win => 32 | .route => 8 | .msix => 16
  | _ => 0x1000

/-- Every kind that occupies offsets of BAR0. -/
def Kind.all : List Kind :=
  [.top, .clk, .time, .mon, .tmr, .pwr, .flash, .sec, .bank, .cal, .legacy, .tu, .tcomb, .text, .tdc, .hist, .acc, .den,
   .diff, .st, .sq, .mc, .arb, .pcie, .enet, .rdma, .flink, .fport, .disp, .ring, .qpc, .shell, .win, .route, .msix, .pba]

/-- Byte offset of a page or entry in BAR0. -/
def Pg.base (p : Pg) : Nat := p.kind.base + p.kind.stride * p.inst

/-- Whether a kind's instances hold an offset. -/
def Kind.holds (k : Kind) (a : Nat) : Bool :=
  decide (k.base ≤ a) && decide ((a - k.base) / k.stride < k.count ∨ k = .legacy) &&
    decide ((a - k.base) % k.stride < k.size ∨ k = .legacy) && decide (k ≠ .legacy ∨ a - k.base < k.size)

/-- The page or entry that holds an offset of BAR0, and the offset within it; kind `none` where none is assigned (R43). -/
def locate (a : Nat) : Pg × Nat :=
  match Kind.all.find? (fun k => k.holds a) with
  | some .legacy => (⟨.legacy, 0⟩, a - Kind.legacy.base)
  | some k => (⟨k, (a - k.base) / k.stride⟩, (a - k.base) % k.stride)
  | none => (⟨.none, 0⟩, a)

/-- Whether a register of a row (any entry of its array) lies at an offset of its page. -/
def Row.lies (r : Row) (rel : Nat) : Bool :=
  decide (r.off ≤ rel) && decide ((rel - r.off) % r.stride = 0) && decide ((rel - r.off) / r.stride < r.count)

/-- The array index of the register of a row at an offset. -/
def Row.idx (r : Row) (rel : Nat) : Nat := (rel - r.off) / r.stride

/-- Byte offset in BAR0 of entry i of a row on a page. -/
def Row.addr (r : Row) (p : Pg) (i : Nat) : Nat := p.base + r.off + r.stride * i

/-- The class of a requester: 0 GUARANTEED, 1 FIRM, 2 BEST (Table 15-2). -/
def reqClass (r : Nat) : Nat := if r < 8 then 0 else if r = 43 then 1 else 2

/-- The reset priority of a requester (Table 15-2). -/
def reqPrio (r : Nat) : Nat :=
  if r < 8 then 7 else if r < 24 then 4 else if r < 40 then 3 else if r < 43 then 4 else if r = 43 then 7
  else if r < 76 then 2 else if r < 78 then 1 else 2

/-- The interpolation-free centre of fine code m, in 2^-16 of a phase step (R263): round_half_away((2m+1) * 1024 / 3). -/
def centre0 (m : Nat) : Nat := ((2 * m + 1) * 2048 + 3) / 6

/-- The reset value of a field, where the register table says it differs by page or by entry. -/
def rowReset (p : Pg) (r : Row) (i : Nat) : Nat :=
  match p.kind with
  | .bank =>
    if r = R.BANK_CHANNEL then p.inst
    else if r = R.BANK_SLICE_0 then 4 * i else if r = R.BANK_SLICE_1 then 4 * i + 1
    else if r = R.BANK_SLICE_2 then 4 * i + 2 else if r = R.BANK_SLICE_3 then 4 * i + 3 else r.rst
  | .tu => if r = R.TU_CHANNEL then p.inst else r.rst
  | .tdc => if r = R.TDC_CENTRE then centre0 i else r.rst
  | .arb => if r = R.ARB_PRIO then reqPrio i else if r = R.ARB_CLASS then reqClass i else r.rst
  | .shell => if p.inst = 4095 then (if r = R.SHELL_OPEN then 1 else if r = R.SHELL_VERSION then 2
      else if r = R.SHELL_RIGHTS then 0x1FFF else r.rst) else r.rst
  | .fport => if r = R.FPORT_ROLE then (if p.inst = 0 then 0 else 1) else r.rst
  | _ => r.rst

/-- The sum of the reset values of the listed fields at an offset of a page. -/
def fieldsReset (p : Pg) (rs : List Row) (rel : Nat) : Nat :=
  (rs.filter (fun r => r.lies rel)).foldl (fun w r => w + rowReset p r (r.idx rel) * 2 ^ r.lo) 0

/-- Block type codes (Table 2-17). -/
def Kind.ty : Kind → Nat
  | .top => 1 | .clk => 2 | .time => 3 | .mon => 4 | .tmr => 5 | .pwr => 6 | .flash => 7 | .sec => 8 | .bank => 0x10
  | .cal => 0x11 | .tu => 0x20 | .tcomb => 0x21 | .text => 0x22 | .tdc => 0x30 | .hist => 0x40 | .acc => 0x41
  | .den => 0x42 | .diff => 0x43 | .st => 0x100 | .sq => 0x200 | .mc => 0x300 | .arb => 0x301 | .pcie => 0x400
  | .enet => 0x410 | .rdma => 0x430 | .flink => 0x440 | .fport => 0x441 | .disp => 0x450 | _ => 0

/-- Major version of each block type as shipped (Table 2-17). -/
def Kind.major : Kind → Nat
  | .top | .clk | .time | .mon | .pwr | .bank | .cal | .tu | .tcomb | .hist | .acc | .den | .st | .sq | .flink | .fport => 2
  | _ => 1

/-- Whether a page of this kind has RWS fields (BLK_CAP.SHADOWED). -/
def Kind.shadowed (k : Kind) : Bool := k.rows.any (fun r => r.acc = .rws)

/-- First global event number and number of sources of a page (Table 2-18). -/
def Pg.events (p : Pg) : Nat × Nat :=
  let n := p.inst
  match p.kind with
  | .top => (0, 32) | .clk => (32, 32) | .time => (64, 32) | .mon => (96, 32) | .tmr => (128, 32) | .pwr => (160, 32)
  | .flash => (192, 32) | .sec => (224, 32) | .bank => (256 + 16 * n, 16) | .cal => (384, 32) | .tu => (416 + 8 * n, 8)
  | .tcomb => (480, 16) | .text => (496, 16) | .tdc => (512 + 8 * n, 8) | .hist => (640, 16) | .acc => (656, 16)
  | .den => (672, 16) | .diff => (688, 16) | .mc => (704 + 8 * n, 8) | .arb => (736, 32) | .sq => (768 + 4 * n, 4)
  | .pcie => (896, 32) | .enet => (928 + 16 * n, 16) | .rdma => (960, 16) | .flink => (976, 16)
  | .fport => (992 + 4 * n, 4) | .disp => (1008, 16) | .st => (1024 + 4 * n, 4) | _ => (0, 0)

/-- BLK_CTRL.EN after reset: 0 on TU, TDC, ST and DISP pages, 1 on every other. -/
def Kind.enReset : Kind → Nat
  | .tu | .tdc | .st | .disp => 0
  | _ => 1

/-- BLK_CAP.BLOCK_CAP of a page: Table 3-12 on BANK pages, CD on TDC0 and TDC1, 0 elsewhere. -/
def Pg.cap (p : Pg) : Nat :=
  match p.kind with
  | .bank => p.inst / 4 + 2 * (p.inst % 4) + (if p.inst % 4 = 0 then 8 else 0) + 66 * 256
  | .tdc => if p.inst < 2 then 1 else 0
  | _ => 0

/-- The instance number shown by BLK_ID.INST (Table 2-3). -/
def Pg.idInst (p : Pg) : Nat := if 1 < p.kind.count then p.inst else 0

/-- The common header after reset (Tables 2-3 to 2-11), by offset. -/
def headReset (p : Pg) (rel : Nat) : Nat :=
  if rel = 0x000 then p.kind.ty * 65536 + p.idInst
  else if rel = 0x004 then p.kind.major * 256
  else if rel = 0x008 then b2n p.kind.shadowed * 2 ^ 31 + 2 ^ 30 + p.cap
  else if rel = 0x00C then p.kind.enReset
  else if rel = 0x020 then p.events.1 + p.events.2 * 65536
  else if rel = 0x02C then 0xFFF
  else 0

/-- The reset value of the register word at an offset of BAR0: of the common header, of the listed fields, or of a live copy. -/
def resetWord (a : Nat) : Word :=
  let (p, rel) := locate a
  BitVec.ofNat 32
    (if p.kind.isBlock then
      if rel < 0x40 then headReset p rel
      else if rel < 0x800 then fieldsReset p p.kind.rows rel
      else fieldsReset p (p.kind.rows.filter (fun r => r.acc = .rws)) (rel - 0x800)
    else fieldsReset p p.kind.rows rel)

/-! ### Acts and programs -/

/-- One act. -/
inductive Act where
  /-- The field at bits hi down to lo of the register cell at an offset takes a value. -/
  | fld (a hi lo v : Nat)
  /-- A register cell takes a word. -/
  | wr (a : Nat) (v : Word)
  /-- Bytes are written to HBM. -/
  | mem (a : Nat) (bs : List Byte)
  /-- Bytes are written to sequencer local memory. -/
  | lmem (a : Nat) (bs : List Byte)
  /-- Something is put on an outer interface. -/
  | emit (o : Out)
  /-- A free value has been used. -/
  | useFree
  /-- A denial enters the FIFO of SEC.DENY_LOG, which holds 16 (R454). -/
  | deny (d : Denial)
  /-- The oldest denial leaves the FIFO. -/
  | denyPop
  /-- A fault enters the log, which keeps 64 (R519). -/
  | flog (f : FaultRec)
  /-- The fault log is lost (POR_N, R519). -/
  | flogClear
  /-- The hidden state of this unit changes. -/
  | conv (f : Conv → Conv)
  /-- The hidden state of this unit changes. -/
  | cal (f : Cal → Cal)
  /-- The hidden state of this unit changes. -/
  | trig (f : Trig → Trig)
  /-- The hidden state of this unit changes. -/
  | seg (f : Seg → Seg)
  /-- The hidden state of this unit changes. -/
  | time (f : TimeB → TimeB)
  /-- The hidden state of this unit changes. -/
  | link (f : Link → Link)
  /-- What the Filmund ports have to send changes. -/
  | tx (f : Tab PortTx → Tab PortTx)
  /-- The hidden state of this unit changes. -/
  | host (f : HostIf → HostIf)
  /-- The hidden state of this unit changes. -/
  | net (f : Net → Net)
  /-- The hidden state of this unit changes. -/
  | cmd (f : Cmd → Cmd)
  /-- The hidden state of this unit changes. -/
  | fab (f : Fab → Fab)
  /-- The hidden state of this unit changes. -/
  | sec (f : Sec → Sec)
  /-- The hidden state of this unit changes. -/
  | pwr (f : Pwr → Pwr)
  /-- The hidden state of this unit changes. -/
  | disp (f : Disp → Disp)
  /-- The hidden state of this unit changes. -/
  | sys (f : Sys → Sys)

/-- A program: acts in order, each part able to read the state the acts before it have left. -/
inductive Prog where
  | nil
  | ask (k : State → Prog)
  | act (a : Act) (k : Prog)

/-- The register cells with one cell set, in canonical form. -/
def putReg (t : Tab Word) (a : Nat) (v : Word) : Tab Word := Tab.putC t (resetWord a) a v

/-- A byte memory with bytes written from an address on, in canonical form: a byte of 0 is not listed. -/
def putBytes (m : List Host.Cell) (a : Nat) : List Byte → List Host.Cell
  | [] => m
  | b :: bs => putBytes (Tab.putC m 0 a b) (a + 1) bs

/-- The word of a register cell. -/
def State.cell (s : State) (a : Nat) : Word := Tab.get s.regs (resetWord a) a

/-- The effect of one act. -/
def applyAct (a : Act) (s : State) : State :=
  match a with
  | .fld a hi lo v => { s with regs := putReg s.regs a (putField (s.cell a) hi lo v) }
  | .wr a v => { s with regs := putReg s.regs a v }
  | .mem a bs => { s with hbm := putBytes s.hbm a bs }
  | .lmem a bs => { s with lmem := putBytes s.lmem a bs }
  | .emit o => { s with out := o :: s.out }
  | .useFree => { s with free := s.free + 1 }
  | .deny d => { s with denials := (s.denials ++ [d]).take 16 }
  | .denyPop => { s with denials := s.denials.drop 1 }
  | .flog f => { s with faults := (f :: s.faults).take 64 }
  | .flogClear => { s with faults := [] }
  | .conv f => { s with conv := f s.conv }
  | .cal f => { s with cal := f s.cal }
  | .trig f => { s with trig := f s.trig }
  | .seg f => { s with seg := f s.seg }
  | .time f => { s with time := f s.time }
  | .link f => { s with link := f s.link }
  | .tx f => { s with tx := f s.tx }
  | .host f => { s with host := f s.host }
  | .net f => { s with net := f s.net }
  | .cmd f => { s with cmd := f s.cmd }
  | .fab f => { s with fab := f s.fab }
  | .sec f => { s with sec := f s.sec }
  | .pwr f => { s with pwr := f s.pwr }
  | .disp f => { s with disp := f s.disp }
  | .sys f => { s with sys := f s.sys }

/-- The state a program leaves. -/
def run : Prog → State → State
  | .nil, s => s
  | .ask k, s => run (k s) s
  | .act a k, s => run k (applyAct a s)

/-- One program after another. -/
def Prog.seq : Prog → Prog → Prog
  | .nil, q => q
  | .ask k, q => .ask (fun s => Prog.seq (k s) q)
  | .act a k, q => .act a (Prog.seq k q)

/-- Programs in order. -/
def Prog.all : List Prog → Prog
  | [] => .nil
  | p :: ps => p.seq (Prog.all ps)

/-- A program for each element of a list, in order. -/
def Prog.each {α : Type} (l : List α) (f : α → Prog) : Prog := Prog.all (l.map f)

/-- A program under a condition. -/
def Prog.when (c : Bool) (p : Prog) : Prog := if c then p else .nil

/-- One act as a program. -/
def Prog.one (a : Act) : Prog := .act a .nil

/-- Something is put on an outer interface. -/
def Prog.out (o : Out) : Prog := .act (.emit o) .nil

/-- A change of this unit's hidden state, as a program. -/
def Prog.conv (f : Conv → Conv) : Prog := .act (.conv f) .nil

/-- A change of this unit's hidden state, as a program. -/
def Prog.cal (f : Cal → Cal) : Prog := .act (.cal f) .nil

/-- A change of this unit's hidden state, as a program. -/
def Prog.trig (f : Trig → Trig) : Prog := .act (.trig f) .nil

/-- A change of this unit's hidden state, as a program. -/
def Prog.seg (f : Seg → Seg) : Prog := .act (.seg f) .nil

/-- A change of this unit's hidden state, as a program. -/
def Prog.time (f : TimeB → TimeB) : Prog := .act (.time f) .nil

/-- A change of this unit's hidden state, as a program. -/
def Prog.link (f : Link → Link) : Prog := .act (.link f) .nil

/-- A change of what the Filmund ports have to send, as a program. -/
def Prog.tx (f : Tab PortTx → Tab PortTx) : Prog := .act (.tx f) .nil

/-- A change of this unit's hidden state, as a program. -/
def Prog.host (f : HostIf → HostIf) : Prog := .act (.host f) .nil

/-- A change of this unit's hidden state, as a program. -/
def Prog.net (f : Net → Net) : Prog := .act (.net f) .nil

/-- A change of this unit's hidden state, as a program. -/
def Prog.cmd (f : Cmd → Cmd) : Prog := .act (.cmd f) .nil

/-- A change of this unit's hidden state, as a program. -/
def Prog.fab (f : Fab → Fab) : Prog := .act (.fab f) .nil

/-- A change of this unit's hidden state, as a program. -/
def Prog.sec (f : Sec → Sec) : Prog := .act (.sec f) .nil

/-- A change of this unit's hidden state, as a program. -/
def Prog.pwr (f : Pwr → Pwr) : Prog := .act (.pwr f) .nil

/-- A change of this unit's hidden state, as a program. -/
def Prog.disp (f : Disp → Disp) : Prog := .act (.disp f) .nil

/-- A change of this unit's hidden state, as a program. -/
def Prog.sys (f : Sys → Sys) : Prog := .act (.sys f) .nil

end Sys2Proof.Machine
end

