-- ==== Sys2Proof/Machine/Ops.lean ====
section
/-! DEFINITION. The named operations every meaning is written in: register fields, counters, error capture, events and their
delivery, ownership and windows, ring entries, link messages, the fault log. -/

namespace Sys2Proof.Machine

/-! ### Pages -/

abbrev pgTop : Pg := ⟨.top, 0⟩
abbrev pgClk : Pg := ⟨.clk, 0⟩
abbrev pgTime : Pg := ⟨.time, 0⟩
abbrev pgMon : Pg := ⟨.mon, 0⟩
abbrev pgTmr : Pg := ⟨.tmr, 0⟩
abbrev pgPwr : Pg := ⟨.pwr, 0⟩
abbrev pgFlash : Pg := ⟨.flash, 0⟩
abbrev pgSec : Pg := ⟨.sec, 0⟩
abbrev pgBank (n : Nat) : Pg := ⟨.bank, n⟩
abbrev pgCal : Pg := ⟨.cal, 0⟩
abbrev pgTu (n : Nat) : Pg := ⟨.tu, n⟩
abbrev pgTcomb : Pg := ⟨.tcomb, 0⟩
abbrev pgText : Pg := ⟨.text, 0⟩
abbrev pgTdc (n : Nat) : Pg := ⟨.tdc, n⟩
abbrev pgHist : Pg := ⟨.hist, 0⟩
abbrev pgAcc : Pg := ⟨.acc, 0⟩
abbrev pgDen : Pg := ⟨.den, 0⟩
abbrev pgDiff : Pg := ⟨.diff, 0⟩
abbrev pgSt (n : Nat) : Pg := ⟨.st, n⟩
abbrev pgSq (n : Nat) : Pg := ⟨.sq, n⟩
abbrev pgMc (n : Nat) : Pg := ⟨.mc, n⟩
abbrev pgArb : Pg := ⟨.arb, 0⟩
abbrev pgPcie : Pg := ⟨.pcie, 0⟩
abbrev pgEnet (n : Nat) : Pg := ⟨.enet, n⟩
abbrev pgRdma : Pg := ⟨.rdma, 0⟩
abbrev pgFlink : Pg := ⟨.flink, 0⟩
abbrev pgFport (n : Nat) : Pg := ⟨.fport, n⟩
abbrev pgDisp : Pg := ⟨.disp, 0⟩
abbrev pgRing (n : Nat) : Pg := ⟨.ring, n⟩
abbrev pgQpc (n : Nat) : Pg := ⟨.qpc, n⟩
abbrev pgShell (n : Nat) : Pg := ⟨.shell, n⟩
abbrev pgWin (n : Nat) : Pg := ⟨.win, n⟩
abbrev pgRoute (n : Nat) : Pg := ⟨.route, n⟩
abbrev pgMsix (n : Nat) : Pg := ⟨.msix, n⟩

/-! ### Fields -/

/-- The value of entry i of a field: its shadow where the field is RWS (R49). -/
def State.geti (s : State) (p : Pg) (r : Row) (i : Nat) : Nat := bits (s.cell (r.addr p i)).toNat r.hi r.lo

/-- The value of a field. -/
def State.get (s : State) (p : Pg) (r : Row) : Nat := s.geti p r 0

/-- The live value of entry i of a RWS field (R52). -/
def State.livei (s : State) (p : Pg) (r : Row) (i : Nat) : Nat := bits (s.cell (r.addr p i + 0x800)).toNat r.hi r.lo

/-- The live value of a RWS field (R52). -/
def State.live (s : State) (p : Pg) (r : Row) : Nat := s.livei p r 0

/-- A 64-bit register of two rows. -/
def State.get64 (s : State) (p : Pg) (lo hi : Row) : Nat := s.get p lo + s.get p hi * 2 ^ 32

/-- Entry i of a field takes a value. -/
def Prog.seti (p : Pg) (r : Row) (i v : Nat) : Prog := .one (.fld (r.addr p i) r.hi r.lo v)

/-- A field takes a value. -/
def Prog.set (p : Pg) (r : Row) (v : Nat) : Prog := .seti p r 0 v

/-- Entry i of the live copy of a RWS field takes a value. -/
def Prog.setLivei (p : Pg) (r : Row) (i v : Nat) : Prog := .one (.fld (r.addr p i + 0x800) r.hi r.lo v)

/-- The greatest value of a field. -/
def Row.max (r : Row) : Nat := 2 ^ (r.hi + 1 - r.lo) - 1

/-- Entry i of a counter advances by n, saturating at its maximum (R56, R57). -/
def Prog.addi (p : Pg) (r : Row) (i n : Nat) : Prog := .ask fun s => .seti p r i (min r.max (s.geti p r i + n))

/-- A counter advances by one, saturating. -/
def Prog.inc (p : Pg) (r : Row) : Prog := .addi p r 0 1

/-- A counter advances by n, saturating. -/
def Prog.add (p : Pg) (r : Row) (n : Nat) : Prog := .addi p r 0 n

/-- A two-word register takes a value. -/
def Prog.set64 (p : Pg) (lo hi : Row) (v : Nat) : Prog :=
  .all [.set p lo (v % 2 ^ 32), .set p hi (v / 2 ^ 32)]

/-- A two-word counter advances by n, saturating at 64 bits. -/
def Prog.add64 (p : Pg) (lo hi : Row) (n : Nat) : Prog :=
  .ask fun s => .set64 p lo hi (min (2 ^ 64 - 1) (s.get64 p lo hi + n))

/-- One bit of a field is set or cleared. -/
def Prog.setBit (p : Pg) (r : Row) (k : Nat) (v : Bool) : Prog :=
  .one (.fld (r.addr p 0) (r.lo + k) (r.lo + k) (b2n v))

/-! ### The common header (R44) -/

/-- BLK_CTRL.EN of a page. -/
def State.en (s : State) (p : Pg) : Bool := (s.cell (p.base + 0x00C)).toNat.testBit 0

/-- BLK_CTRL.FREEZE of a page. -/
def State.frozen (s : State) (p : Pg) : Bool := (s.cell (p.base + 0x00C)).toNat.testBit 8

/-- BLK_STAT.RESET_BUSY of a page. -/
def State.busy (s : State) (p : Pg) : Bool := (s.cell (p.base + 0x010)).toNat.testBit 1

/-- BLK_STAT.COMMIT_PEND of a page. -/
def State.commitPend (s : State) (p : Pg) : Bool := (s.cell (p.base + 0x010)).toNat.testBit 4

/-- EVT_RAW, EVT_EN and the ERR_INFO word of a page. -/
def State.evtRaw (s : State) (p : Pg) : Nat := (s.cell (p.base + 0x014)).toNat
def State.evtEn (s : State) (p : Pg) : Nat := (s.cell (p.base + 0x018)).toNat
def State.errInfo (s : State) (p : Pg) : Nat := (s.cell (p.base + 0x028)).toNat

/-! ### Q-time (R10, R246) -/

/-- The present Q-time, 96 bits in units of 2^-48 s: the counter without its 32 lower bits (R246). -/
def State.now (s : State) : Nat := s.time.q / 2 ^ 32

/-- The three words of a Q-time in the layout of TOP.OPEN_AT (Table 6-8). -/
def qWord (q : Nat) : Nat → Nat
  | 0 => (q / 2 ^ 48) % 2 ^ 32
  | 1 => (q / 2 ^ 80) % 2 ^ 16 + (q % 2 ^ 16) * 2 ^ 16
  | _ => (q / 2 ^ 16) % 2 ^ 32

/-- The Q-time whose OPEN_AT words are given. -/
def qOfWords (w0 w1 w2 : Nat) : Nat :=
  (w0 + (w1 % 2 ^ 16) * 2 ^ 32) * 2 ^ 48 + (w1 / 2 ^ 16) + w2 * 2 ^ 16

/-- The twelve bytes of a Q-time in husk order: seconds then fraction (Table 8-1). -/
def qBytes (q : Nat) : List Byte := leBytes 6 ((q / 2 ^ 48) % 2 ^ 48) ++ leBytes 6 (q % 2 ^ 48)

/-- A three-word Q-time register takes a value. -/
def Prog.setQ (p : Pg) (r : Row) (q : Nat) : Prog :=
  .all [.seti p r 0 (qWord q 0), .seti p r 1 (qWord q 1), .seti p r 2 (qWord q 2)]

/-- Microseconds, milliseconds and nanoseconds in units of 2^-48 s, rounded half away from zero. -/
def usQ (n : Nat) : Nat := (2 * n * 2 ^ 48 + 1000000) / 2000000
def msQ (n : Nat) : Nat := (2 * n * 2 ^ 48 + 1000) / 2000
def nsQ (n : Nat) : Nat := (2 * n * 2 ^ 48 + 1000000000) / 2000000000
def secQ (n : Nat) : Nat := n * 2 ^ 48

/-- Round half away from zero (R7 style): a / b for b positive. -/
def divAway (a : Int) (b : Nat) : Int :=
  if 0 ≤ a then (2 * a + b) / (2 * (b : Int)) else -((2 * (-a) + b) / (2 * (b : Int)))

/-! ### Power state and functions (spec/17, spec/16) -/

/-- PWR.STATE: 0 DORMANT, 1 STANDBY, 2 READY, 3 ACQUIRE (Table 17-9). -/
def State.pstate (s : State) : Nat := s.get pgPwr R.PWR_STATE

/-- Whether the core domain is on, in which its pins act (R27, R525): above DORMANT, and on the way out of it. -/
def State.coreOn (s : State) : Bool := decide (s.pstate ≠ 0) || s.get pgPwr R.PWR_TRANSIT = 1

/-- FRAME_STAT.STATE: 0 IDLE, 1 ARMED, 2 OPEN, 3 DRAINING, 4 CLEARING (R181). -/
def State.fstate (s : State) : Nat := s.get pgTop R.TOP_STATE

/-- The shell that stands for the supervisor (R441). -/
def supervisor : Nat := 0xFFF

/-- The owner in force recorded at an OWNER or SHELL_OWNER register (R442). -/
def State.owner (s : State) (a : Nat) : Nat := Tab.get s.sec.owners supervisor a

/-- Where a page's owner is recorded (Table 16-1). -/
def Pg.ownReg (p : Pg) : Nat :=
  match p.kind with
  | .ring => p.base + 0x00C
  | .qpc => p.base + 0x03C
  | _ => p.base + 0x02C

/-- Whether the page's SHELL_OWNER or OWNER is writable (R48, R442). -/
def Kind.ownable : Kind → Bool
  | .st | .tu | .tdc | .disp | .ring | .qpc => true
  | _ => false

/-- Whether a shell is open; the supervisor always is (R441). -/
def State.shellOpen (s : State) (n : Nat) : Bool := n = supervisor || s.get (pgShell n) R.SHELL_OPEN = 1

/-- The function a shell is bound to (R443). -/
def State.shellFunc (s : State) (n : Nat) : Nat := if n = supervisor then 0 else s.get (pgShell n) R.SHELL_FUNC

/-- A shell's command rights (R444). -/
def State.rights (s : State) (n : Nat) : Nat := if n = supervisor then 0x1FFF else s.get (pgShell n) R.SHELL_RIGHTS

/-- The owner in force of a page. -/
def State.pgOwner (s : State) (p : Pg) : Nat := if p.kind.ownable then s.owner p.ownReg else supervisor

/-- Start of the region of HBM reserved for the device (R25). -/
def hbmReserved : Nat := 0x7F0000000

/-- The HBM address of a LOCAL access of a shell, when every byte lies in one valid window of its range with the right the access
needs (R447); for the supervisor the offset is the address, below the reserved region. -/
def State.resolve (s : State) (shell off len : Nat) (write : Bool) : Option Nat :=
  if shell = supervisor then
    (if off + len ≤ hbmReserved && !(write && s.sec.placed.any (fun e => decide (e.2.1 < off + len) && decide (off < e.2.1 + e.2.2)))
     then some off else none)
  else
    let first := s.get (pgShell shell) R.SHELL_WIN_FIRST
    let count := s.get (pgShell shell) R.SHELL_WIN_COUNT
    match (s.sec.wins.filter (fun e => decide (first ≤ e.1) && decide (e.1 < first + count))).find? (fun e =>
        decide (e.2.size ≠ 0) && decide (e.2.off ≤ off) && decide (off + len ≤ e.2.off + e.2.size) &&
        (if write then e.2.wr else e.2.rd)) with
    | some e => some (e.2.base + off - e.2.off)
    | none => none

/-- Bytes of HBM. -/
def State.hbmRead (s : State) (a n : Nat) : List Byte := (List.range n).map (fun i => Tab.get s.hbm 0 (a + i))

/-! ### Pins put out by the device -/

/-- Pin numbers of Out.pin: TRIG_OUT, TRIG_CXL, EVENT_OUT, PPS_OUT, SYNC_OUT, ALERT_N, THERM_N, PWM, LOCKF_S, LOCKF_C. -/
def pinTrigOut (n : Nat) : Nat := n
def pinTrigCxl (n : Nat) : Nat := 4 + n
def pinEventOut (n : Nat) : Nat := 8 + n
def pinPpsOut : Nat := 12
def pinSyncOut : Nat := 13
def pinAlert : Nat := 14
def pinTherm : Nat := 15
def pinPwm (n : Nat) : Nat := 16 + n
def pinLockfS : Nat := 24
def pinLockfC : Nat := 25

/-! ### Link messages (spec/11) -/

/-- The 56-bit header of a message (Table 11-5), with HOPS given. -/
def msgHeader (m : Msg) (hops : Nat) : Nat :=
  m.ty % 16 + (m.line % 16) * 2 ^ 4 + (m.route % 4) * 2 ^ 8 + (m.src % 2 ^ 14) * 2 ^ 10 + (m.dst % 2 ^ 14) * 2 ^ 24 +
    (hops % 64) * 2 ^ 38 + (m.data.length % 8) * 2 ^ 44 + (m.tag % 16) * 2 ^ 47

/-- The data bytes of a message with its CRC in bits [63:32] of the last block (R310, R311: the CRC takes HOPS as 0). -/
def msgBytes (m : Msg) : List Byte :=
  let last := m.data.length - 1
  let body := (m.data.take last).flatMap (leBytes 8) ++ leBytes 4 ((m.data.getD last 0) % 2 ^ 32)
  leBytes 7 (msgHeader m m.hops) ++ body ++ leBytes 4 (crc32c (leBytes 7 (msgHeader m 0) ++ body))

/-- State code and negotiated version of a port (Table 11-13). -/
def State.portState (s : State) (n : Nat) : Nat := s.get (pgFport n) R.FPORT_STATE
def State.portVer (s : State) (n : Nat) : Nat := s.get (pgFport n) R.FPORT_VER

/-- Whether a feature of Table 11-4 is in use on a port: version 2, and both ends set its bit (R301). -/
def State.portFeat (s : State) (n k : Nat) : Bool :=
  s.portVer n = 2 && bit (s.get pgFlink R.FLINK_FEAT_EN) k && bit (s.get (pgFport n) R.FPORT_PEER_FEAT) k

/-- Whether a port's version and features permit a message type (Table 11-6). -/
def State.portPermits (s : State) (n ty : Nat) : Bool :=
  match ty with
  | 1 | 3 => s.portFeat n 0
  | 4 => s.portFeat n 1
  | 5 => s.portFeat n 2
  | 12 => s.portFeat n 4
  | 2 | 6 | 7 | 8 | 9 | 10 | 11 => true
  | _ => false

/-- Whether a port carries a message type in its state: everything permitted in ACTIVE, time messages also in CALIBRATE, TOPO and
GATE also in IDENTIFY, and the keep-alive set in KEEPALIVE (Table 11-3, R322). -/
def State.portCarries (s : State) (n ty : Nat) : Bool :=
  s.portPermits n ty &&
    (match s.portState n with
     | 6 => true
     | 7 => ty = 5 || ty = 6 || ty = 7 || ty = 10 || ty = 11
     | 5 => ty = 6 || ty = 7 || ty = 11
     | 4 => ty = 11 || ty = 4
     | _ => false)

/-- A port's working state. -/
def State.port (s : State) (n : Nat) : Port := Tab.get s.link.ports Port.reset n

/-- It changes. -/
def modPort (n : Nat) (f : Port → Port) : Prog := .link fun l => { l with ports := Tab.mod l.ports Port.reset n f }

/-- What a port has to send. -/
def State.txOf (s : State) (n : Nat) : PortTx := Tab.get s.tx PortTx.reset n

/-- It becomes another. -/
def putTx (n : Nat) (t : PortTx) : Prog := .tx fun l => Tab.put l n t

/-- The class in which a port sends a message type: 1 goes first (R312). -/
def msgClass (ty : Nat) : Nat :=
  match ty with
  | 1 | 2 | 3 | 4 => 1
  | 5 | 6 | 7 | 10 | 11 => 2
  | _ => 3

/-- Of the messages that wait, the one that leaves next: the oldest of the highest class (R312). -/
def txNext (l : List Msg) : Option Msg :=
  match l.find? (fun m => msgClass m.ty = 1) with
  | some m => some m
  | none => match l.find? (fun m => msgClass m.ty = 2) with
    | some m => some m
    | none => l.head?

/-- How long a block takes on a port, in 2^-80 s: 66 bits on two lanes of 28.125 or 10.3125 Gbit/s, or on one of 1.2890625 Gbit/s (R296, R297). -/
def State.blockTime (s : State) (n : Nat) : Nat :=
  if s.portState n = 7 then 2 ^ 80 * 512 / 10 ^ 10
  else if (s.port n).fast then 2 ^ 80 * 88 / (75 * 10 ^ 9) else 2 ^ 80 * 32 / 10 ^ 10

/-- The blocks of a message, with the ABORT that ends one cut short. -/
def msgBlocks (m : Msg) : Nat := match m.cut with | none => 1 + m.data.length | some k => 2 + k

/-- The blocks of a message leave a port: all of it, or of a copy cut short its header, the data blocks it had and ABORT (R307, Table 11-2). -/
def emitMsg (n : Nat) (m : Msg) : Prog :=
  match m.cut with
  | none => .out (.link n m.ty (msgBytes m))
  | some k => .all [.out (.link n m.ty (leBytes 7 (msgHeader m m.hops) ++ (m.data.take k).flatMap (leBytes 8))),
      .out (.link n 0x33 (leBytes 7 0))]

/-- What leaves in a span of time, in order, and what is then left to send (R312); the first argument bounds the messages. -/
def txRun : Nat → Nat → Nat → PortTx → List Msg × PortTx
  | 0, _, _, t => ([], t)
  | k + 1, block, span, t =>
    if span < t.busy then ([], { t with busy := t.busy - span })
    else match txNext t.queue with
    | none => ([], { t with busy := 0 })
    | some m =>
      let r := txRun k block (span - t.busy) { queue := t.queue.erase m, busy := msgBlocks m * block }
      (m :: r.1, r.2)

/-- A span of time passes on a port: messages that waited leave it. -/
def txSpan (span n : Nat) : Prog :=
  .ask fun s =>
    let t := s.txOf n
    .when (decide (t ≠ PortTx.reset)) (
      let r := txRun (t.queue.length + 1) (s.blockTime n) span t
      .all [putTx n r.2, .each r.1 (emitMsg n)])

/-- It passes on every port. -/
def txTick (span : Nat) : Prog := .each (List.range 4) (txSpan span)

/-- A port goes on until all that waits on it has left. -/
def txFlush (n : Nat) : Prog :=
  .ask fun s =>
    let t := s.txOf n
    txSpan (t.busy + (t.queue.map fun m => msgBlocks m * s.blockTime n).foldl (· + ·) 0) n

/-- A message that a port carries leaves it, or waits for those before it (R312). -/
def txSend (n : Nat) (m : Msg) : Prog :=
  .ask fun s =>
    let t := s.txOf n
    if t.busy = 0 && t.queue.isEmpty then .all [putTx n { t with busy := msgBlocks m * s.blockTime n }, emitMsg n m]
    else putTx n { t with queue := t.queue ++ [m] }

/-- A message leaves by a port, or is discarded and counted where the port does not carry it (R322, R328). -/
def sendLink (n : Nat) (m : Msg) : Prog :=
  .ask fun s => if s.portCarries n m.ty then txSend n m else .inc (pgFport n) R.FPORT_CNT_TX_DROP

/-- A port takes a state: what the state does not carry is discarded and counted, and outside IDENTIFY to KEEPALIVE the message in progress
too (R322, R328). -/
def txState (n v : Nat) : Prog :=
  .ask fun s =>
    let t := s.txOf n
    if v = 4 || v = 5 || v = 6 then .nil
    else if v = 7 then .all [
      .add (pgFport n) R.FPORT_CNT_TX_DROP (t.queue.filter fun m => !(s.portCarries n m.ty)).length,
      putTx n { t with queue := t.queue.filter fun m => s.portCarries n m.ty }]
    else .all [.add (pgFport n) R.FPORT_CNT_TX_DROP (t.queue.length + b2n (decide (t.busy ≠ 0))), putTx n PortTx.reset]

/-- The upstream port, if there is one and it is trained (R302, R303). -/
def State.upPort (s : State) : Option Nat :=
  let u := s.get pgFlink R.FLINK_UP_PORT
  if u < 4 && (s.portState u = 6 || s.portState u = 7) then some u else none

/-- The upstream port is trained, or on its way back from keep-alive (R302). -/
def State.parentTrained (s : State) : Bool :=
  let u := s.get pgFlink R.FLINK_UP_PORT
  u < 4 && (s.portState u = 6 || s.portState u = 7 || (Tab.get s.link.ports Port.reset u).fromKa)

/-- The port by which a unicast to an identifier leaves (R305). -/
def State.routeTo (s : State) (dst : Nat) : Option Nat :=
  match Tab.find s.link.ids dst with
  | some p => some p
  | none => s.upPort

/-! ### Ring entries (spec/12) -/

/-- A ring's hidden state. -/
def State.ring (s : State) (n : Nat) : Ring := Tab.get s.host.rings Ring.reset n

/-- A ring's hidden state changes. -/
def modRing (n : Nat) (f : Ring → Ring) : Prog := .host fun h => { h with rings := Tab.mod h.rings Ring.reset n f }

/-- Bytes of an entry by ring type (Table 12-2). -/
def entrySize : Nat → Nat
  | 0 => 64
  | 1 => 16
  | 2 => 32
  | _ => 32

/-- Bytes written to memory on behalf of a ring: to HBM through the shell's windows when LOCAL is 1, else a posted write (R340). -/
def ringStore (n addr : Nat) (bs : List Byte) : Prog :=
  .ask fun s =>
    if s.get (pgRing n) R.RING_LOCAL = 1 then
      match s.resolve (s.owner (pgRing n).ownReg) addr bs.length true with
      | some a => .one (.mem a bs)
      | none => .nil
    else .out (.busWrite addr bs)

/-- The first entry of a list that satisfies a test is changed. -/
def modFirst {α : Type} (p : α → Bool) (f : α → α) : List α → List α
  | [] => []
  | x :: xs => if p x then f x :: xs else x :: modFirst p f xs

/-- The oldest waiting entry of a completion or event ring is written into the oldest free entry the device has read, step 1 of R346;
the landing check follows.  Nothing happens while either is missing. -/
def ringFlush1 (n : Nat) : Prog :=
  .ask fun s =>
    match (s.ring n).waiting, (s.ring n).ents.find? (fun e => e.st = .ready) with
    | w :: _, some e => .when (e.code = 0) <|
      let body := w.bytes
      let body := match w.ring with
        | some r => body.take 0x14 ++ leBytes 4 (s.get (pgRing r) R.RING_DONE_PTR) ++ body.drop 0x18
        | none => body
      let body := if (s.ring n).lost then body.take 3 ++ [BitVec.ofNat 8 1] ++ body.drop 4 else body
      .all [ringStore n e.addr body,
        modRing n fun r => { r with
          waiting := r.waiting.drop 1, lost := false,
          ents := modFirst (fun x => x.st = .ready)
            (fun x => { x with st := .landing, own := if s.get (pgRing n) R.RING_TYPE = 3 then field x.bytes 28 2 else w.own }) r.ents },
        .when (s.get (pgRing n) R.RING_LOCAL = 0)
          (.all [.inc pgPcie R.PCIE_CNT_ZLR, .out (.busRead (e.addr + entrySize (s.get (pgRing n) R.RING_TYPE) - 4) 0)])]
    | _, _ => .nil

/-- Every waiting entry that finds a free entry is written. -/
def ringFlush (n : Nat) : Prog := .ask fun s => .each (List.range (s.ring n).waiting.length) (fun _ => ringFlush1 n)

/-! ### Events and their delivery (R63, R64, R357 to R360) -/

/-- The function whose vector range holds a global vector (R337). -/
def State.vecFunc (s : State) (v : Nat) : Option Nat :=
  (s.host.vecs.find? (fun e => decide (e.2.1 ≤ v) && decide (v < e.2.1 + e.2.2))).map (·.1)

/-- C and T of a vector as written, and as in force (R359). -/
def State.coal (s : State) (v : Nat) : Nat × Nat := Tab.get s.host.coal (1, 0) v

/-- An MSI-X message leaves, or its pending bit is set while the vector is masked or the function has MSI-X disabled or is in a
function-level reset (R337, R338, R359). -/
def sendMsix (v : Nat) : Prog :=
  .ask fun s =>
    match s.vecFunc v with
    | none => .inc pgPcie R.PCIE_CNT_EVT_DROP
    | some f =>
      if Tab.get s.host.flr false f then .nil
      else if s.get (pgMsix v) R.MSIX_MASK = 1 || !(Tab.get s.host.msixEn false f) then
        .host fun h => { h with pba := Tab.putC h.pba false v true }
      else .all [.out (.msix v (s.get64 (pgMsix v) R.MSIX_ADDR_LO R.MSIX_ADDR_HI) (s.get (pgMsix v) R.MSIX_DATA)),
        .inc pgPcie R.PCIE_CNT_MSIX]

/-- The pending deliveries of a vector become one message, and the count clears (R359). -/
def coalSend (v : Nat) : Prog :=
  .all [.host fun h => { h with pend := Tab.del h.pend v, coalUse := Tab.del h.coalUse v }, sendMsix v]

/-- A delivery to a vector: counted as pending, and sent when C are pending or T is 0 (R359). -/
def msixDeliver (v : Nat) : Prog :=
  .ask fun s =>
    let (n, at0) := Tab.get s.host.pend (0, s.now) v
    let ct := if n = 0 then s.coal v else Tab.get s.host.coalUse (s.coal v) v
    .all [.host fun h => { h with pend := Tab.put h.pend v (n + 1, at0), coalUse := Tab.put h.coalUse v ct },
      .when (decide (ct.1 ≤ n + 1) || ct.2 = 0) (coalSend v)]

/-- Whether a ring is an event ring with EN = 1 (R358). -/
def State.isEventRing (s : State) (n : Nat) : Bool :=
  s.get (pgRing n) R.RING_EN = 1 && s.get (pgRing n) R.RING_TYPE = 3

/-- A dropped delivery: counted, and PCIE source 3 set where that is not itself the dropped event (R358, R363). -/
def evtDrop (again : Prog) : Prog := .all [.inc pgPcie R.PCIE_CNT_EVT_DROP, again]

/-- An entry for an event ring waits for a free entry; a 65th is dropped (R358). -/
def eventRingPut (n : Nat) (w : WaitEnt) (again : Prog) : Prog :=
  .ask fun s =>
    if 64 ≤ (s.ring n).waiting.length then
      .all [modRing n fun r => { r with lost := true }, evtDrop again]
    else .all [modRing n fun r => { r with waiting := r.waiting ++ [w] }, ringFlush n]

/-- The page that holds a global event number (Table 2-18). -/
def evtPage (e : Nat) : Pg :=
  if e < 256 then ⟨[Kind.top, .clk, .time, .mon, .tmr, .pwr, .flash, .sec].getD (e / 32) .top, 0⟩
  else if e < 384 then pgBank ((e - 256) / 16)
  else if e < 416 then pgCal
  else if e < 480 then pgTu ((e - 416) / 8)
  else if e < 496 then pgTcomb
  else if e < 512 then pgText
  else if e < 640 then pgTdc ((e - 512) / 8)
  else if e < 704 then ⟨[Kind.hist, .acc, .den, .diff].getD ((e - 640) / 16) .hist, 0⟩
  else if e < 736 then pgMc ((e - 704) / 8)
  else if e < 768 then pgArb
  else if e < 896 then pgSq ((e - 768) / 4)
  else if e < 928 then pgPcie
  else if e < 960 then pgEnet ((e - 928) / 16)
  else if e < 976 then pgRdma
  else if e < 992 then pgFlink
  else if e < 1008 then pgFport ((e - 992) / 4)
  else if e < 1024 then pgDisp
  else pgSt ((e - 1024) / 4)

/-- One delivery of an event to the destination its routing entry names (R357 to R360); in DORMANT it is kept until STANDBY (R457).
The fuel bounds the chain in which a dropped delivery is itself an event. -/
def deliverN : Nat → Nat → Prog
  | 0, _ => .nil
  | fuel + 1, e => .ask fun s =>
    let again : Prog :=
      .ask fun t => .all [.one (.fld (pgPcie.base + 0x014) 3 3 1),
        .when (!(bit (t.evtRaw pgPcie) 3) && bit (t.evtEn pgPcie) 3) (deliverN fuel 899)]
    let rt := pgRoute e
    let target := s.get rt R.ROUTE_TARGET
    if s.pstate = 0 then .host fun h => { h with evtHeld := h.evtHeld ++ [e] }
    else match s.get rt R.ROUTE_KIND with
    | 1 => match s.vecFunc target with
      | some _ => msixDeliver target
      | none => evtDrop again
    | 2 =>
      if s.isEventRing target then
        eventRingPut target
          { bytes := leBytes 2 e ++ [0, 0] ++ leBytes 4 (s.evtRaw (evtPage e)) ++ qBytes s.now ++ leBytes 4 0 ++ leBytes 4 0,
            own := 0, ring := none } again
      else evtDrop again
    | 3 =>
      let m : Msg := {
        ty := 12, line := 0, route := s.get rt R.ROUTE_RROUTE, src := s.get pgFlink R.FLINK_DEV_ID,
        dst := if s.get rt R.ROUTE_RROUTE = 0 then s.get rt R.ROUTE_DST else 0, hops := 0, tag := 0, data := [e] }
      match (if m.route = 0 then s.routeTo m.dst else s.upPort) with
      | some p => if s.portCarries p 12 then txSend p m else evtDrop again
      | none => evtDrop again
    | 4 =>
      .all [.host fun h => { h with evtOut := Tab.put h.evtOut target (s.now + nsQ (8 * s.get rt R.ROUTE_WIDTH)) },
        .when ((Tab.find s.host.evtOut target).isNone) (.out (.pin (pinEventOut target) true))]
    | _ => .nil

/-- One delivery of an event. -/
def deliver (e : Nat) : Prog := deliverN 2 e

/-- Source k of a page occurs: EVT_RAW[k] sets, and the event is delivered when EVT_PEND[k] rises (R64). -/
def raise (p : Pg) (k : Nat) : Prog :=
  .ask fun s => .all [.one (.fld (p.base + 0x014) k k 1),
    .when (!(bit (s.evtRaw p) k) && bit (s.evtEn p) k) (deliver (p.events.1 + k))]

/-- An error is captured: the first while VALID is 0, with ERR raised; a further one only sets LOST (R46). -/
def capture (p : Pg) (code detail : Nat) : Prog :=
  .ask fun s =>
    if bit (s.errInfo p) 31 then .one (.fld (p.base + 0x028) 30 30 1)
    else .all [.one (.wr (p.base + 0x028) (BitVec.ofNat 32 (detail % 2 ^ 24 + (code % 64) * 2 ^ 24 + 2 ^ 31))),
      .when (decide (1 ≤ p.events.2)) (raise p 0)]

/-- A counter advances and a source of its page is set. -/
def incRaise (p : Pg) (r : Row) (k : Nat) : Prog := .all [.inc p r, raise p k]

/-! ### Denials (R443, R454) -/

/-- A denial is counted and logged in SEC.DENY_LOG, or counted as lost where the FIFO of 16 is full (R454). -/
def denyAccess (shell func kind addr : Nat) : Prog :=
  .ask fun s => .all [
    .inc pgSec R.SEC_CNT_DENIED,
    .when (decide (shell < 4095)) (.add (pgShell shell) R.SHELL_CNT_DENIED 1),
    if s.denials.length < 16 then
      .all [.one (.deny { shell := shell, func := func, kind := kind, addr := (addr / 8) % 2 ^ 32 }), raise pgSec 1]
    else incRaise pgSec R.SEC_CNT_LOG_LOST 5]

/-- The lowest-numbered open shell bound to a function, or 0xFFE where there is none (R454). -/
def State.funcShell (s : State) (fn : Nat) : Nat :=
  match (s.regs.filter (fun e => decide (Kind.shell.base ≤ e.1) && decide (e.1 < Kind.win.base) && decide (e.1 % 64 = 0))).find?
      (fun e => let n := (e.1 - Kind.shell.base) / 64; s.shellOpen n && decide (s.shellFunc n = fn)) with
  | some e => (e.1 - Kind.shell.base) / 64
  | none => 0xFFE

/-! ### The fault log (R519) -/

/-- A fault is logged with its time, the code and type of its page and its detail: FLOG_COUNT advances and FAULT_LOGGED is raised. -/
def logFault (code ty detail : Nat) : Prog :=
  .ask fun s => .all [.one (.flog { q := s.now, code := code, ty := ty, detail := detail }),
    .inc pgTop R.TOP_FLOG_COUNT, raise pgTop 10]

/-- A free value is used: the program goes on with it, and the counter of free values advances. -/
def withFree (k : Nat → Prog) : Prog := .ask fun s => .act .useFree (k (Config.freeValue s.free))

/-- A free value as a signed one: every integer is one of these. -/
def signedOf (v : Nat) : Int := if v % 2 = 0 then (v / 2 : Nat) else -((v / 2 : Nat) : Int) - 1

end Sys2Proof.Machine
end

