-- ==== Sys2Proof/Machine/Samples.lean ====
section
/-! DEFINITION. Channels, sample positions and instants: which channels exist and run, where a sample stands in time, and which
samples of a history buffer can be read (R67 to R73, R81, R164 to R168, R255, R256). -/

namespace Sys2Proof.Machine

/-! ### Modes and channels -/

/-- The mode in effect on a die: 0 M8, 1 M4, 2 M2 (R67). -/
def State.mode (s : State) (die : Nat) : Nat := s.live (pgBank (4 * die)) R.BANK_MODE

/-- The die of a bank or channel (R17). -/
def dieOf (n : Nat) : Nat := n / 4

/-- Banks of a channel in a mode (Table 3-2). -/
def modeBanks (mode : Nat) : Nat := 2 ^ mode

/-- Whether a channel exists in a mode (Table 3-2). -/
def chanIn (mode c : Nat) : Bool := decide (c % modeBanks mode = 0)

/-- Whether a channel exists in the mode in effect. -/
def State.chanExists (s : State) (c : Nat) : Bool := c < 8 && chanIn (s.mode (dieOf c)) c

/-- The channel a bank feeds in a mode; its lead bank has the same number (R68). -/
def bankChan (mode b : Nat) : Nat := b - b % modeBanks mode

/-- BLK_CTRL.EN of a lead bank as it acts: a write made while a frame is open waits for the frame boundary (R86). -/
def State.bankEn (s : State) (b : Nat) : Bool :=
  match Tab.find s.conv.enHeld b with
  | some v => v
  | none => s.en (pgBank b)

/-- Whether a channel is enabled (R19). -/
def State.chanOn (s : State) (c : Nat) : Bool := s.chanExists c && s.bankEn c

/-- The front-end dies are on: in READY and ACQUIRE, on the way to READY, and in the last stage of start-up (R27, R460, R500). -/
def State.diesOn (s : State) : Bool :=
  decide (2 ≤ s.pstate) || s.get pgTop R.TOP_STAGE = 6 ||
    (s.pstate = 1 && s.get pgPwr R.PWR_TRANSIT = 1 && s.get pgPwr R.PWR_TARGET = 2)

/-- Corrected samples per channel and CCLK period (Table 3-2). -/
def State.spc (s : State) (c : Nat) : Nat := 8 * modeBanks (s.mode (dieOf c))

/-- The SCS is in RUN (R281). -/
def State.scsRun (s : State) : Bool := s.get pgClk R.CLK_STATE = 4

/-- The reference frequency in MHz that settings select: XCLK at 50, or REF_IN at 10 or 100 (R73). -/
def refMHz (scsRef refNom : Nat) : Nat := if scsRef = 0 then 50 else if refNom = 1 then 10 else if refNom = 2 then 100 else 0

/-- The bank rate in MHz that the live settings select (R73). -/
def State.fsbSet (s : State) : Nat := s.live pgClk R.CLK_N * refMHz (s.live pgClk R.CLK_SCS_REF) (s.live pgClk R.CLK_REF_NOM)

/-- The rate of a channel in Hz (Table 3-2). -/
def State.chanRate (s : State) (c : Nat) : Nat := s.fsbSet * 1000000 * modeBanks (s.mode (dieOf c))

/-- The hidden state of a channel. -/
def State.chan (s : State) (c : Nat) : Chan := Tab.get s.conv.chans Chan.reset c

/-- The hidden state of a channel changes. -/
def modChan (c : Nat) (f : Chan → Chan) : Prog := .conv fun v => { v with chans := Tab.mod v.chans Chan.reset c f }

/-! ### Instants (R81, R256) -/

/-- The instant in 2^-48 s of a position `u` in units of 2^-19 CCLK since power-up, with a delay correction (R256). -/
def tieInstant (t : Tie) (u offset : Int) : Int :=
  let q : Int := t.qref + divAway ((u - t.cref * 2 ^ 19) * t.per) (2 ^ 19) + offset * 2 ^ 16
  divAway q (2 ^ 16)

/-- The latest tie (R255). -/
def State.tie (s : State) : Option Tie := s.time.ties.head?

/-- The first of some ties that passes a test, or the last of them. -/
def firstTie (p : Tie → Bool) : List Tie → Option Tie
  | [] => none
  | [t] => some t
  | t :: ts => if p t then some t else firstTie p ts

/-- The latest tie at or before a position in units of 2^-19 CCLK (R256); the oldest one before all of them. -/
def State.tieFor (s : State) (u : Int) : Option Tie := firstTie (fun t => decide ((t.cref * 2 ^ 19 : Nat) ≤ u)) s.time.ties

/-- The attributed instant of position x of a channel with spc samples per CCLK.  Without a tie no sample is attributed (R257), and
the value is free. -/
def State.instant (s : State) (spc : Nat) (x : Int) : Nat :=
  match s.tieFor (x * (2 ^ 19 / spc : Nat)) with
  | some t => (tieInstant t (x * (2 ^ 19 / spc : Nat)) 0).toNat
  | none => Config.freeValue (s.free + x.toNat)

/-- Search upwards from a lower bound for the first position whose instant is not before q. -/
def firstFrom (f : Int → Nat) (q : Nat) : Nat → Int → Int
  | 0, x => x
  | k + 1, x => if q ≤ f x then x else firstFrom f q k (x + 1)

/-- The first position of a channel whose attributed instant is at or after q (R167, R170). -/
def State.posAt (s : State) (spc q : Nat) : Int :=
  match firstTie (fun t => decide (t.qref ≤ q * 2 ^ 16)) s.time.ties with
  | some t =>
    let est : Int := (((q : Int) * 2 ^ 16 - t.qref) * spc) / (if t.per = 0 then 1 else t.per : Nat) + t.cref * spc
    firstFrom (s.instant spc) q 8 (est - 3)
  | none => Config.freeValue (s.free + q)

/-- The CCLK boundary at or after Q-time q, as a count since power-up. -/
def State.cclkAt (s : State) (q : Nat) : Int := s.posAt 1 q

/-- The Q-time of a CCLK boundary. -/
def State.cclkQ (s : State) (c : Nat) : Nat := s.instant 1 c

/-- The Q-time of the present CCLK boundary; while the sample clock is gated there is none, and it is the edge of the
312.5 MHz core clock at or after the present Q-time (R285; where those edges stand in Q-time is a DESIGN CHOICE, log entry 117). -/
def State.nowQ (s : State) : Nat :=
  if s.scsRun && s.tie.isSome then s.cclkQ s.time.cc
  else ((s.now * 312500000 + 2 ^ 48 - 1) / 2 ^ 48 * 2 ^ 48 + 312499999) / 312500000

/-- The Q-time of the CCLK boundary at the end of the present cycle (R146, R167, R182). -/
def State.nextQ (s : State) : Nat := if s.scsRun && s.tie.isSome then s.cclkQ (s.time.cc + 1) else s.nowQ

/-! ### Stamps of edges (R256, R257, R262, R263) -/

/-- An event input's hidden state. -/
def State.tdc (s : State) (k : Nat) : Tdc := Tab.get s.time.tdcs Tdc.reset k

/-- An event input's hidden state changes. -/
def modTdc (k : Nat) (f : Tdc → Tdc) : Prog := .time fun t => { t with tdcs := Tab.mod t.tdcs Tdc.reset k f }

/-- Live fields of a TDC page. -/
def State.td0 (s : State) (k : Nat) (r : Row) : Nat := s.live (pgTdc k) r

/-- The centre of a fine code in use on an input, in 2^-16 of a phase step (R263, R264). -/
def State.centre (s : State) (k m : Nat) : Nat := s.geti (pgTdc k) R.TDC_CENTRE m

/-- The position of an edge in 2^-19 CCLK since power-up (R262). -/
def State.edgePos (s : State) (k c j m : Nat) : Int := (c * 2 ^ 19 + j * 2 ^ 16 : Nat) - s.centre k m

/-- The Q-time of a stamp (R256, R262); a stamp is only made while there is a tie (R257), and without one the value is free. -/
def State.stampQ (s : State) (k : Nat) (r : RawStamp) : Nat :=
  match s.tieFor (s.edgePos k r.c r.j r.m) with
  | some t => (tieInstant t (s.edgePos k r.c r.j r.m) (sgn 32 (s.td0 k R.TDC_OFFSET))).toNat
  | none => Config.freeValue s.free

/-- A stamp of CCLK period c, phase j and fine code m with the nominal delay-line table (R262, R263). -/
def State.pinStamp (s : State) (c j m : Nat) : Option Nat :=
  (s.tieFor ((c : Int) * 2 ^ 19 + j * 2 ^ 16 - centre0 m)).map fun t => (tieInstant t ((c : Int) * 2 ^ 19 + j * 2 ^ 16 - centre0 m) 0).toNat

/-! ### History (R164 to R166, R544) -/

/-- Depth of a channel's buffer in samples: D / 2 (R165). -/
def State.histDepth (s : State) (c : Nat) : Nat := s.livei pgHist R.HIST_DEPTH c * 2 ^ 25

/-- Samples of a channel in 1 µs: fCH * 1 µs (R166). -/
def State.histMargin (s : State) (c : Nat) : Nat := s.fsbSet * modeBanks (s.mode (dieOf c))

/-- The sample clock is gated (R285). -/
def State.gated (s : State) : Bool := s.get pgClk R.CLK_GATED = 1

/-- The position that the present CCLK boundary stands at in a channel; while the sample clock is gated the position counts on by instant
(R285, R544). -/
def State.posNow (s : State) (c : Nat) : Nat :=
  s.spc c * (if s.gated && s.tie.isSome then max s.time.cc (s.cclkAt s.now).toNat else s.time.cc)

/-- Whether a channel is stopped. -/
def Chan.stopped (ch : Chan) : Bool := ch.stops.any fun p => p.upto.isNone

/-- Position after the newest written one; a stopped channel's writers advance with time (R544). -/
def State.top (s : State) (c : Nat) : Nat :=
  if (s.chan c).stopped then max (s.chan c).top (s.posNow c) else (s.chan c).top

/-- Position of the oldest safe sample: D/2 - fCH * 1 µs behind the newest written one (R166). -/
def State.oldestSafe (s : State) (c : Nat) : Int :=
  s.top c - 1 - ((s.histDepth c : Int) - s.histMargin c)

/-- The word at a position of a channel's history: a sample, NO-DATA before the buffer's first sample (R166), or 0x10000 where nothing
stands because the channel was stopped or the location has been overwritten. -/
def Chan.word (ch : Chan) (x : Int) : Nat :=
  if x < ch.base then 0x8000
  else if ch.top ≤ x then 0x10000
  else ch.hist.getD (ch.top - 1 - x.toNat) 0x10000

/-- Whether a position lies in the span of a hold (R117). -/
def HoldSt.covers (h : HoldSt) (x : Int) : Bool :=
  decide ((h.first : Int) ≤ x) && (match h.upto with | some e => decide (x < e) | none => true)

/-- Whether a position lies in a span. -/
def Span.has (p : Span) (x : Int) : Bool := decide ((p.first : Int) ≤ x) && decide (x < p.first + p.len)

/-- The pip cause that a stop gives to a position, if it was stopped there (Table 6-4, R544). -/
def Chan.stopAt (ch : Chan) (x : Int) : Option Nat :=
  (ch.stops.find? (fun p => decide ((p.first : Int) ≤ x) &&
    (match p.upto with | some u => decide (x < u) | none => true))).map (·.cause)

/-- The index in the frame of a position of a channel (R167, R168). -/
def State.index (s : State) (c : Nat) (x : Int) : Int := x - Tab.get s.seg.pos0 0 c

/-- A channel's history buffer is emptied (R166): every sample before its next one reads as NO-DATA. -/
def emptyHist (c : Nat) : Prog :=
  .all [modChan c fun ch => { ch with base := ch.top, hist := [] },
    .setBit pgHist R.HIST_FILLING c true, raise pgHist 2]

/-- The cause that a channel is stopped for, if it is to stop (Table 6-3): 5 RESET while its die is off or in the reset of R512 and no word
has come, or while it is disabled; 4 CLOCK_GATED while the sample clock is gated. -/
def State.stopCause (s : State) (c : Nat) : Option Nat :=
  if !s.diesOn || !s.chanOn c || (Tab.get s.conv.dieRst false (dieOf c) && s.get (pgBank c) R.BANK_LINK_OK = 0) then some 5
  else if s.gated then some 4 else none

/-- A channel at position x with its open stop ended there: its writers have advanced without writing (R544). -/
def Chan.resumed (ch : Chan) (x : Nat) : Chan :=
  { ch with
    hist := List.replicate (x - ch.top) 0x10000 ++ ch.hist, top := max x ch.top,
    stops := modFirst (fun p => p.upto.isNone) (fun p => { p with upto := some (max x ch.top) }) ch.stops }

/-- A channel stopped with a cause; the last 16 stopped spans are kept (R512). -/
def Chan.stopNow (ch : Chan) (cause : Nat) : Chan :=
  { ch with pipe := emptyPipe, stops := ({ first := ch.top, upto := none, cause := cause } :: ch.stops).take 16 }

/-- NO-DATA (Table 3-6). -/
def noData : Nat := 0x8000

end Sys2Proof.Machine
end

