-- ==== Sys2Proof/Machine/Records.lean ====
section
/-! DEFINITION. Record formats and egress queues: husks, payload packing, pips, LOG records and pods (spec/08), and how records enter
a stream's queue under its buffer policy (R176 to R180). -/

namespace Sys2Proof.Machine

/-! ### Layout of records (R223 to R237) -/

/-- A record with its CRC computed over the whole of it with bytes 0x3C to 0x3F taken as zero (R239). -/
def sealRecord (bs : List Byte) : List Byte :=
  let z := bs.take 0x3C ++ leBytes 4 0 ++ bs.drop 0x40
  bs.take 0x3C ++ leBytes 4 (crc32c z) ++ bs.drop 0x40

/-- Zero bytes to a multiple of 8 (R229). -/
def pad8 (bs : List Byte) : List Byte := bs ++ List.replicate ((8 - bs.length % 8) % 8) 0

/-- The fields of a husk (Table 8-1). -/
structure Husk where
  ver : Nat
  ty : Nat
  stream : Nat
  flags : Nat
  frame : Nat
  seq : Nat
  first : Int
  qt : Nat
  trig : Nat
  format : Nat
  decMode : Nat
  count : Nat
  factor : Nat
  ext : Nat

/-- A complete record from its husk and payload (R223, R229, R239, R243). -/
def mkRecord (h : Husk) (payload : List Byte) : List Byte :=
  let body := pad8 payload
  let flags := if h.ver = 1 then putBits h.flags 10 10 1 else h.flags
  sealRecord
    (leBytes 2 0xE59A ++ leBytes 1 h.ver ++ leBytes 1 h.ty ++ leBytes 4 (64 + body.length) ++ leBytes 2 h.stream ++
      leBytes 2 flags ++ leBytes 4 h.frame ++ leBytes 8 h.seq ++ leBytes 8 (unsgn 64 h.first) ++ qBytes h.qt ++
      leBytes 2 h.trig ++ leBytes 1 h.format ++ leBytes 1 h.decMode ++ leBytes 4 h.count ++ leBytes 4 h.factor ++
      leBytes 4 (if h.ver = 1 then 0 else h.ext) ++ leBytes 4 0 ++ body)

/-- A list completed with a fill value to a multiple of g units (R229). -/
def fillTo {α : Type} (g : Nat) (fill : α) (l : List α) : List α := l ++ List.replicate ((g - l.length % g) % g) fill

/-- S16 payload. -/
def packS16 (vs : List Nat) : List Byte := (fillTo 4 0x8000 vs).flatMap (leBytes 2)

/-- The P12 code of a 16-bit value (R230). -/
def p12Code (v : Nat) : Nat :=
  if v = 0x8000 then 0x800
  else
    let c := divAway (sgn 16 v) 16
    unsgn 12 (if c < -2047 then -2047 else if 2047 < c then 2047 else c)

/-- Pairs of 12-bit codes as 24-bit words (R230). -/
def pairs12 : List Nat → List Byte
  | a :: b :: r => leBytes 3 (a + b * 4096) ++ pairs12 r
  | [a] => leBytes 3 (a + 0x800 * 4096)
  | [] => []

/-- P12 payload. -/
def packP12 (vs : List Nat) : List Byte := pairs12 (fillTo 16 0x800 (vs.map p12Code))

/-- P24 payload. -/
def packP24 (vs : List Nat) : List Byte := (fillTo 8 0x800000 vs).flatMap (leBytes 3)

/-- S32 payload. -/
def packS32 (vs : List Nat) : List Byte := (fillTo 2 0x80000000 vs).flatMap (leBytes 4)

/-- MM16 payload. -/
def packMM16 (vs : List (Nat × Nat)) : List Byte :=
  (fillTo 2 (0x8000, 0x8000) vs).flatMap (fun p => leBytes 2 p.1 ++ leBytes 2 p.2)

/-- One ACC64 bin: sum in bits 39:0, count in bits 63:40 (R231). -/
def packBin (sum : Int) (count : Nat) : List Byte := leBytes 5 (unsgn 40 sum) ++ leBytes 3 count

/-- Flag bits of Table 8-4. -/
def flOVR : Nat := 1
def flSTALE : Nat := 2
def flDEGRADED : Nat := 4
def flGAP : Nat := 8
def flCONT : Nat := 16
def flFIRST : Nat := 32
def flLAST : Nat := 64
def flUNCONF : Nat := 128
def flSAT : Nat := 256
def flTRUNC : Nat := 512

/-- A record with flag bit k of its husk set. -/
def withFlag (k : Nat) (bs : List Byte) : List Byte :=
  sealRecord (bs.take 0x0A ++ leBytes 2 (putBits (field bs 0x0A 2) k k 1) ++ bs.drop 0x0C)

/-! ### Streams -/

/-- The hidden state of a stream. -/
def State.strm (s : State) (n : Nat) : Strm := Tab.get s.seg.strms Strm.reset n

/-- The hidden state of a stream changes. -/
def modStrm (n : Nat) (f : Strm → Strm) : Prog := .seg fun g => { g with strms := Tab.mod g.strms Strm.reset n f }

/-- Live configuration of a stream. -/
def State.st (s : State) (n : Nat) (r : Row) : Nat := s.live (pgSt n) r

/-- The record version of a shell: 1 where it negotiated command protocol version 1 (R243). -/
def State.shellVer (s : State) (n : Nat) : Nat :=
  if n = supervisor then 2 else if s.get (pgShell n) R.SHELL_VERSION = 1 then 1 else 2

/-- The record version of a stream (R243). -/
def State.strmVer (s : State) (n : Nat) : Nat := s.shellVer (s.pgOwner (pgSt n))

/-- The key of a stream's destination: kind * 65536 + index; 0 where unbound (Table 6-10). -/
def State.dest (s : State) (n : Nat) : Nat := s.get (pgSt n) R.ST_DEST_KIND * 65536 + s.get (pgSt n) R.ST_DEST_INDEX

/-- The owner of a destination. -/
def State.destOwner (s : State) (d : Nat) : Nat :=
  if d / 65536 = 1 then s.pgOwner (pgRing (d % 65536)) else s.pgOwner (pgQpc (d % 65536))

/-- The decimation factor a husk states: N, or 1 for NONE (Table 8-3). -/
def State.factor (s : State) (n : Nat) : Nat := if s.st n R.ST_DEC_MODE = 0 then 1 else s.st n R.ST_DEC_N

/-- Segment length in samples; 0 encodes 2^32 (Table 6-2). -/
def State.segLen (s : State) (n : Nat) : Nat := if s.st n R.ST_SEG_LEN = 0 then 2 ^ 32 else s.st n R.ST_SEG_LEN

/-- The channel of a stream with SRC_KIND CHANNEL: bits [6:4] of the word, the low three of SRC (Table 6-9). -/
def State.srcChan (s : State) (n : Nat) : Nat := s.st n R.ST_SRC % 8

/-- The number of the open frame, or of the last one. -/
def State.frameNum (s : State) : Nat := s.get pgTop R.TOP_FRAME_NUM

/-- Next segment sequence number (Table 6-10). -/
def State.nextSeq (s : State) (n : Nat) : Nat := s.get64 (pgSt n) R.ST_NEXT_SEQ_LO R.ST_NEXT_SEQ_HI

/-- Bytes of the queue in 64 KiB units, and outside the pip reserve (R176). -/
def State.eqBytes (s : State) (n : Nat) : Nat := s.st n R.ST_EQ_SIZE * 65536

/-- The pip reserve: 64 KiB (R176). -/
def pipReserve : Nat := 65536

/-- Bytes of the records of a list. -/
def recBytes (l : List Rec) : Nat := l.foldl (fun a r => a + r.bytes.length) 0

/-- Bytes of a queue in the pip reserve, and outside it. -/
def resUsed (q : List Rec) : Nat := recBytes (q.filter (·.inRes))
def outUsed (q : List Rec) : Nat := recBytes (q.filter (fun r => !r.inRes))

/-- A data record: one a buffer policy may discard (R177). -/
def Rec.isData (r : Rec) : Bool := r.ty < 0x0E

/-! ### Pips (R178, R180, R235) -/

/-- The bytes of a pip record (R226, R235). -/
def pipBytes (ver factor : Nat) (r : Rec) : List Byte :=
  mkRecord
    { ver := ver, ty := 0x0E, stream := r.stream, flags := flFIRST + flLAST, frame := r.frame, seq := r.seq, first := r.first,
      qt := r.qt, trig := r.code, format := 0xFF, decMode := 0, count := min r.len 0xFFFFFFFF, factor := factor,
      ext := r.cause + 16 * b2n r.merged }
    (leBytes 8 r.len ++ leBytes 4 r.segs ++ leBytes 1 r.cause ++ leBytes 1 (b2n r.merged) ++ leBytes 2 0)

/-- Whether a pip may take another into itself: they go to one destination, since no pip moves between destinations (R543), and belong to one
frame, since indices and sequence numbers count in a frame (DEDUCED, log entry 122). -/
def Rec.mates (p n : Rec) : Bool := decide (p.dest = n.dest) && decide (p.frame = n.frame)

/-- Whether a pip adjoins another in sample index and in sequence number: it begins where the other ends, in the same segment or the
next (R178; DEDUCED, log entry 12). -/
def Rec.adjoins (p n : Rec) : Bool :=
  p.mates n && decide (p.cause = n.cause) && decide (p.first + p.len = n.first) &&
    (decide (p.seq + p.segs = n.seq) || decide (p.seq + p.segs = n.seq + 1))

/-- A pip takes a new loss into itself: its span runs to the end of the new loss (R178). -/
def Rec.absorb (p n : Rec) (merged : Bool) : Rec :=
  let e := max (p.first + p.len) (n.first + n.len)
  { p with len := (e - p.first).toNat, segs := max (p.seq + p.segs) (n.seq + n.segs) - p.seq, merged := p.merged || merged }

/-- An unsent pip. -/
def Rec.openPip (r : Rec) : Bool := r.ty = 0x0E && !r.begun

/-- A queue with its newest element that satisfies a test changed. -/
def modLast (p : Rec → Bool) (f : Rec → Rec) (q : List Rec) : List Rec := (modFirst p f q.reverse).reverse

/-- Where a new pip goes: into an adjoining unsent pip; into the reserve; into the newest unsent pip; outside the reserve; or held as the
pending pip (R178).  The answer is the queue, the pending pip and whether a PIP record was queued. -/
def placePip (cap : Nat) (q : List Rec) (pend : Option Rec) (n : Rec) (mk : Rec → Rec) : List Rec × Option Rec × Bool :=
  match pend with
  | some p => (q, some (mk (p.absorb n (!p.adjoins n))), false)
  | none =>
    if q.any (fun p => p.openPip && p.adjoins n) then
      (modLast (fun p => p.openPip && p.adjoins n) (fun p => mk (p.absorb n false)) q, none, false)
    else if resUsed q + 80 ≤ pipReserve then (q ++ [mk { n with inRes := true }], none, true)
    else if q.any (fun p => p.openPip && p.mates n) then
      (modLast (fun p => p.openPip && p.mates n) (fun p => mk (p.absorb n true)) q, none, false)
    else if outUsed q + 80 ≤ cap - pipReserve then (q ++ [mk { n with inRes := false }], none, true)
    else (q, some (mk n), false)

/-- The status of a stream's queue: EQ_FILL, EQ_HIGH with its event, PIP_RES_FULL (Table 6-10). -/
def eqStat (n : Nat) : Prog :=
  .ask fun s =>
    let q := (s.strm n).queue
    let b := recBytes q
    let high : Bool := decide (3 * s.eqBytes n ≤ 4 * b) && decide (b ≠ 0)
    .all [.set (pgSt n) R.ST_EQ_FILL ((b + 65535) / 65536),
      .when (high && s.get (pgSt n) R.ST_EQ_HIGH = 0) (raise (pgSt n) 2),
      .set (pgSt n) R.ST_EQ_HIGH (b2n high),
      .set (pgSt n) R.ST_PIP_RES_FULL (b2n (decide (pipReserve < resUsed q + 80)))]

/-- A loss reported by a pip: counted in CNT_LOST and in the counter of its cause, noted for the pod, and the PIP event raised (R180). -/
def countLoss (n cause len : Nat) : Prog :=
  .ask fun s => .all [
    .add64 (pgSt n) R.ST_CNT_LOST_LO R.ST_CNT_LOST_HI len,
    .when (cause = 2) (.inc (pgSt n) R.ST_CNT_BUF_FULL),
    .when (cause = 3) (.all [.inc (pgSt n) R.ST_CNT_OVERRUN,
      .when (s.st n R.ST_SRC_KIND = 0) (.all [.addi pgHist R.HIST_CNT_OVERRUN (s.srcChan n) 1, raise pgHist 1])]),
    modStrm n fun t => { t with causes := t.causes ||| 2 ^ (cause - 1), gap := true },
    raise (pgSt n) 1]

/-- A pip record from a loss; its bytes are made when it is placed. -/
def pipRec (s : State) (n cause seq segs : Nat) (first : Int) (len qt code : Nat) : Rec :=
  { ty := 0x0E, bytes := [], stream := n, dest := s.dest n, frame := s.frameNum, seq := seq, segs := segs, first := first, len := len,
    cause := cause, merged := false, inRes := true, begun := false, queuedAt := s.now, code := code, qt := qt, qFirst := qt }

/-- The bytes of a pip as its fields now stand. -/
def State.sealPip (s : State) (r : Rec) : Rec := { r with bytes := pipBytes (s.strmVer r.stream) (s.factor r.stream) r }

/-- The pending pip enters the queue once there is room in the reserve or outside it, for the destination that the stream has then (R178,
R543). -/
def flushPend (n : Nat) : Prog :=
  .ask fun s =>
    let t := s.strm n
    match t.pend with
    | none => .nil
    | some p =>
      let res : Bool := decide (resUsed t.queue + 80 ≤ pipReserve)
      if res || decide (outUsed t.queue + 80 ≤ s.eqBytes n - pipReserve) then
        .all [modStrm n fun t => { t with
            queue := t.queue ++ [s.sealPip { p with inRes := res, dest := s.dest n, queuedAt := s.now }], pend := none },
          .inc (pgSt n) R.ST_CNT_PIP, .inc (pgSt n) R.ST_CNT_REC, eqStat n]
      else .nil

/-- A loss of a stream is reported by a pip for the destination that the stream has now (R178, R180, R543); where that is stopped no PIP
record is queued, and the loss is counted. -/
def pushPip (r : Rec) : Prog :=
  .all [flushPend r.stream, .ask fun s =>
    let t := s.strm r.stream
    let r := { r with dest := s.dest r.stream, queuedAt := s.now }
    if s.seg.stopped.contains r.dest then countLoss r.stream r.cause r.len
    else
    let (q, pend, new) := placePip (s.eqBytes r.stream) t.queue t.pend r s.sealPip
    .all [modStrm r.stream fun t => { t with queue := q, pend := pend },
      .when new (.all [.inc (pgSt r.stream) R.ST_CNT_PIP, .inc (pgSt r.stream) R.ST_CNT_REC]),
      countLoss r.stream r.cause r.len, eqStat r.stream]]

/-! ### Buffer policies (R177) -/

/-- A SEG record that follows a pip of its frame in its queue, with no other SEG record between, carries GAP_BEFORE (Table 8-4).  The first
argument is the frame of the last pip met since a SEG record. -/
def markGap : Option Nat → List Rec → List Rec
  | _, [] => []
  | g, r :: rs =>
    if r.ty = 0x0E then r :: markGap (some r.frame) rs
    else if r.ty = 1 then
      (if g = some r.frame && !r.begun then { r with bytes := withFlag 3 r.bytes } else r) :: markGap none rs
    else r :: markGap g rs

/-- The pip that stands for a discarded record: it bears the instant of the span's first sample (Table 8-3). -/
def lossOf (r : Rec) (cause : Nat) : Rec :=
  { r with ty := 0x0E, bytes := [], cause := cause, merged := false, inRes := true, begun := false, qt := r.qFirst }

/-- The oldest unsent data record is discarded and a pip with a cause takes its place (R177, R380): it joins the pip before it where they
adjoin.  The answer holds the new queue, the discarded record and whether a PIP record was queued. -/
def discardOldest (cause : Nat) (mk : Rec → Rec) : List Rec → List Rec → Option (List Rec × Rec × Bool)
  | _, [] => none
  | before, r :: rs =>
    if r.isData && !r.begun then
      let p := lossOf r cause
      let q := before ++ rs
      if before.any (fun x => x.openPip && x.adjoins p) then
        some (modLast (fun x => x.openPip && x.adjoins p) (fun x => mk (x.absorb p false)) before ++ rs, r, false)
      else if resUsed q + 80 ≤ pipReserve then some (before ++ mk p :: rs, r, true)
      else if q.any (fun x => x.openPip && x.mates p) then
        some (modLast (fun x => x.openPip && x.mates p) (fun x => mk (x.absorb p true)) q, r, false)
      else some (before ++ mk { p with inRes := false } :: rs, r, true)
    else discardOldest cause mk (before ++ [r]) rs

/-- Oldest data records are discarded until a length fits (R177, OVERWRITE_OLDEST); the answer holds the queue, the losses and the number
of PIP records queued. -/
def makeRoom (cap len : Nat) (mk : Rec → Rec) : Nat → List Rec → List Rec × List Rec × Nat
  | 0, q => (q, [], 0)
  | k + 1, q =>
    if outUsed q + len ≤ cap - pipReserve then (q, [], 0)
    else match discardOldest 2 mk [] q with
      | none => (q, [], 0)
      | some (q', r, new) =>
        let (q'', ls, m) := makeRoom cap len mk k q'
        (q'', r :: ls, m + b2n new)

/-- A destination is a context in ERROR: every later record is reported by a LINK_DOWN pip (R371). -/
def State.destDown (s : State) (d : Nat) : Bool := decide (2 ≤ d / 65536) && s.get (pgQpc (d % 65536)) R.QPC_STATE = 3

/-- A data record enters its stream's queue.  The first SEG record in the queue carries GAP_BEFORE too where a loss has been reported since
the last one was queued (Table 8-4). -/
def queueData (r : Rec) : Prog :=
  let n := r.stream
  .all [
    modStrm n fun t =>
      let alone := !(t.queue.any fun x => x.ty = 1 && decide (x.frame = r.frame))
      { t with
        queue := markGap none (t.queue ++ [if t.gap && alone && r.ty = 1 then { r with bytes := withFlag 3 r.bytes } else r]),
        gap := if r.ty = 1 then false else t.gap },
    .inc (pgSt n) R.ST_CNT_REC, .when (bit (field r.bytes 0x0A 2) 9) (.inc (pgSt n) R.ST_CNT_TRUNC)]

/-- A record of a stream enters its egress queue, or the stream's buffer policy applies (R176, R177); a pending pip goes before it (R178). -/
def pushData (r : Rec) : Prog :=
  .all [flushPend r.stream, .ask fun s =>
    let n := r.stream
    let t := s.strm n
    let cap := s.eqBytes n
    let r := { r with dest := s.dest n, queuedAt := s.now }
    if s.seg.stopped.contains (s.dest n) then pushPip (lossOf r 6)
    else if s.destDown (s.dest n) then pushPip (lossOf r 8) else
    if t.pend.isNone && decide (outUsed t.queue + r.bytes.length ≤ cap - pipReserve) then
      .all [queueData r, .set (pgSt n) R.ST_EQ_FULL 0, eqStat n]
    else if s.st n R.ST_POLICY = 0 then
      .all [.set (pgSt n) R.ST_EQ_FULL 1, pushPip (lossOf r 2)]
    else
      let (q, ls, m) := makeRoom cap (r.bytes.length + 80 * b2n t.pend.isSome) s.sealPip (t.queue.length + 1) t.queue
      .all [.set (pgSt n) R.ST_EQ_FULL 1,
        modStrm n fun t => { t with queue := markGap none q },
        .add (pgSt n) R.ST_CNT_PIP m, .add (pgSt n) R.ST_CNT_REC m,
        .each ls (fun l => countLoss n 2 l.len),
        flushPend n,
        .ask fun u =>
          if (u.strm n).pend.isNone && decide (outUsed (u.strm n).queue + r.bytes.length ≤ cap - pipReserve) then queueData r
          else pushPip (lossOf r 2),
        eqStat n]]

/-- Every unsent data record of a stream that is queued for a destination, others that were sent in vain, and losses that follow them are
discarded, and one pip with the cause stands in the queue where the first of them stood (R186, R338, R371, R513). -/
def dropMore (n d cause : Nat) (also more : List Rec) : Prog :=
  .ask fun s =>
    let q := (s.strm n).queue
    let gone (r : Rec) : Bool := r.isData && !r.begun && r.dest = d
    match (also.filter (·.isData) ++ q.filter gone).map (fun r => lossOf r cause) ++ more with
    | [] => .nil
    | x :: xs =>
      let keep := q.filter (fun r => !gone r)
      let p := xs.foldl (fun p y => p.absorb y (!p.adjoins y)) x
      let p := s.sealPip { p with inRes := decide (resUsed keep + 80 ≤ pipReserve), dest := d, queuedAt := s.now }
      let before := if also.isEmpty then q.takeWhile (fun r => !gone r) else []
      .all [modStrm n fun t => { t with queue := markGap none (before ++ p :: keep.drop before.length) },
        .inc (pgSt n) R.ST_CNT_PIP, .inc (pgSt n) R.ST_CNT_REC,
        .each (x :: xs) (fun y => countLoss n cause y.len), eqStat n]

/-- Every unsent data record of a stream that is queued for a destination, and others that were sent in vain, become one pip. -/
def dropData (n d cause : Nat) (also : List Rec) : Prog := dropMore n d cause also []

/-- A LOG record enters the pip reserve, after a pending pip, or the free space outside it, or is lost and counted (R176); version 1 streams have none
(R243). -/
def pushLog (r : Rec) : Prog :=
  .all [flushPend r.stream, .ask fun s =>
    let n := r.stream
    let t := s.strm n
    let r := { r with dest := s.dest n, queuedAt := s.now, seq := s.nextSeq n, segs := 0 }
    if s.strmVer n = 1 || s.seg.stopped.contains (s.dest n) then .nil
    else if resUsed t.queue + r.bytes.length ≤ pipReserve then
      .all [modStrm n fun t => { t with queue := t.queue ++ [{ r with inRes := true }] }, .inc (pgSt n) R.ST_CNT_REC, eqStat n]
    else if outUsed t.queue + r.bytes.length ≤ s.eqBytes n - pipReserve then
      .all [modStrm n fun t => { t with queue := t.queue ++ [{ r with inRes := false }] }, .inc (pgSt n) R.ST_CNT_REC, eqStat n]
    else .inc (pgSt n) R.ST_CNT_LOG_LOST]

/-- A LOG record (R236). -/
def logRec (s : State) (n code : Nat) (first : Int) (count qt : Nat) (body : List Byte) : Rec :=
  { ty := 0x10, stream := n, dest := s.dest n, frame := s.frameNum, seq := s.nextSeq n, segs := 0, first := first, len := 0, cause := 0,
    merged := false, inRes := true, begun := false, queuedAt := s.now, code := 0xFFFF, qt := qt, qFirst := qt,
    bytes := mkRecord
      { ver := 2, ty := 0x10, stream := n, flags := flFIRST + flLAST, frame := s.frameNum, seq := s.nextSeq n, first := first, qt := qt,
        trig := 0xFFFF, format := 0xFF, decMode := 0, count := count, factor := 0, ext := code } body }

/-! ### Records in sequence order (R23) -/

/-- Items of a segment wait until every earlier segment's have entered the queue (R23).  A number below the next one is taken at once. -/
def addBuilt (n seq : Nat) (items : List Rec) : Prog :=
  modStrm n fun t => { t with built := Tab.put t.built seq ((Tab.find t.built seq).getD [] ++ items) }

/-- The next item that may enter the queue of a stream, and the working state without it. -/
def Strm.nextItem (t : Strm) : Option (Option Rec × Strm) :=
  match t.built with
  | (k, items) :: rest =>
    if k ≤ t.outSeq then
      match items with
      | [] => some (none, { t with built := rest, outSeq := if k = t.outSeq then k + 1 else t.outSeq })
      | r :: rs => some (some r, { t with built := (k, rs) :: rest })
    else none
  | [] => none

/-- Pips and finished segments at the head of a stream's items are taken; a data record waits for its builder (R172). -/
def pumpBuilt (n : Nat) : Nat → Prog
  | 0 => .nil
  | k + 1 => .ask fun s =>
    match (s.strm n).nextItem with
    | some (none, t) => .all [modStrm n fun _ => t, pumpBuilt n k]
    | some (some r, t) => if r.ty = 0x0E then .all [modStrm n fun _ => t, pushPip r, pumpBuilt n k] else .nil
    | none => .nil

/-- Enough steps to take every pip and every finished segment that waits. -/
def pump (n : Nat) : Prog :=
  .ask fun s => pumpBuilt n ((s.strm n).built.foldl (fun a e => a + e.2.length + 1) 1)

/-! ### Entry records: STAMP, DIFF and MON streams (R266, R272, R474) -/

/-- The record of a stream's open entry record: TYPE 4, 5 or 6; EXT and FORMAT as its type gives (Table 8-3). -/
def entryRecord (s : State) (n : Nat) (o : OpenRec) : Rec :=
  let kind := s.st n R.ST_SRC_KIND
  let ty := 3 + kind
  let seq := s.nextSeq n - 1
  let ext := if kind = 3 then s.st n R.ST_SRC % 32 else 0
  let bs := mkRecord
    { ver := s.strmVer n, ty := ty, stream := n, flags := flFIRST + flLAST, frame := s.frameNum, seq := seq, first := o.firstNo,
      qt := o.qt, trig := 0xFFFF, format := if kind = 3 then 0 else 8, decMode := 0, count := o.n, factor := 1, ext := ext }
    (if kind = 3 then o.body ++ (List.replicate ((4 - o.n % 4) % 4) (leBytes 2 0x8000)).flatten else o.body)
  { ty := ty, bytes := bs, stream := n, dest := s.dest n, frame := s.frameNum, seq := seq, segs := 0, first := o.firstNo, len := o.n,
    cause := 0, merged := false, inRes := false, begun := false, queuedAt := s.now, code := 0xFFFF, qt := o.qt, qFirst := o.qt }

/-- A stream's open entry record closes and enters the queue; a version 1 stream produces no DIFF or MON record (R243). -/
def closeEntries (n : Nat) : Prog :=
  .ask fun s =>
    match (s.strm n).openRec with
    | some o => .all [modStrm n fun t => { t with openRec := none },
        .when (s.strmVer n ≠ 1 || s.st n R.ST_SRC_KIND = 1) (pushData (entryRecord s n o))]
    | none => .nil

/-- An entry joins a stream's open record, which closes when it holds PART_LEN entries (R266, R272, R474). -/
def addEntry (n : Nat) (e : List Byte) (qt : Nat) : Prog :=
  .all [.ask fun s =>
      let t := s.strm n
      let o : OpenRec := t.openRec.getD { body := [], n := 0, firstNo := t.entries, qt := qt, openedAt := s.now }
      modStrm n fun t => { t with openRec := some { o with body := o.body ++ e, n := o.n + 1 }, entries := t.entries + 1 },
    .ask fun s => match (s.strm n).openRec with
      | some o => .when (decide (s.st n R.ST_PART_LEN ≤ o.n)) (closeEntries n)
      | none => .nil]

/-! ### Stamps enter STAMP streams in order (R266) -/

/-- Whether a frame is open for an input's edges in CCLK period c, and the input is enabled (R261). -/
def State.tdcOpen (s : State) (k c : Nat) : Bool :=
  s.en (pgTdc k) &&
    (decide (s.fstate = 2) || (decide (s.fstate = 3) && (match s.seg.tClose with | some u => decide (s.cclkQ c < u) | none => false)))

/-- No input holds, or can still give, a stamp that comes before the one of input k at q: not in its FIFO, and none of an edge to come, which
lies no earlier than the first fine code of the present CCLK period (R266). -/
def State.stampSafe (s : State) (k q : Nat) : Bool :=
  let before (i q' : Nat) : Bool := decide (q < q') || (q = q' && decide (k ≤ i))
  (List.range 16).all fun i =>
    (match (s.tdc i).fifo.head? with | some r => before i (s.stampQ i r) | none => true) &&
      (i = k || !(s.scsRun && s.tie.isSome && s.tdcOpen i s.time.cc) ||
        before i (s.stampQ i { c := s.time.cc, j := 0, m := 100, falling := false, presc := false, cnt := 0, ovf := false }))

/-- A stamp among those that wait to enter streams, ascending by Q-time and then input. -/
def insertStamp (k : Nat) (x : Stamp) : List (Nat × Stamp) → List (Nat × Stamp)
  | [] => [(k, x)]
  | e :: es => if x.q < e.2.q || (x.q = e.2.q && decide (k < e.1)) then (k, x) :: e :: es else e :: insertStamp k x es

/-- A stamp becomes an entry of the streams that take its input (R266, R233). -/
def stampEntry (k : Nat) (x : Stamp) : Prog :=
  .ask fun s =>
    .each (which 256 fun n => s.get (pgSt n) R.ST_IN_FRAME = 1 && s.st n R.ST_SRC_KIND = 1 && bit (s.st n R.ST_SRC) k) fun n =>
      addEntry n (qBytes x.q ++ leBytes 1 k ++ leBytes 1 (b2n x.falling + 2 * b2n x.presc + 4 * b2n x.ovf) ++ leBytes 2 (x.cnt % 2 ^ 16)) x.q

/-- Converted stamps enter their streams, as far as none can come before them. -/
def stampReleaseN : Nat → Prog
  | 0 => .nil
  | n + 1 => .ask fun s => match s.time.held with
    | [] => .nil
    | (k, x) :: rest => .when (s.stampSafe k x.q) (.all [.time fun t => { t with held := rest }, stampEntry k x, stampReleaseN n])

/-- Converted stamps enter their streams in ascending order: one waits until no input can give an earlier one (R266; that it waits outside its
FIFO is a DESIGN CHOICE, log entry 130). -/
def stampRelease : Prog := .ask fun s => stampReleaseN s.time.held.length

/-! ### What a destination has received, and its pod (R184, R187, R237, R543) -/

/-- Position of a record type in the counts of a pod entry (Table 6-6). -/
def podSlot (ty : Nat) : Nat :=
  match ty with
  | 1 => 0 | 2 => 1 | 3 => 2 | 4 => 3 | 5 => 4 | 6 => 5 | 0x0E => 6 | _ => 7

/-- The entry of a destination and stream with one more record (Table 6-6). -/
def PodEnt.add (e : PodEnt) (r : Rec) : PodEnt :=
  { e with
    counts := e.counts.mapIdx (fun i c => if i = podSlot r.ty then c + 1 else c),
    lost := e.lost + (if r.ty = 0x0E then r.len else 0),
    crc := ((r.bytes.drop 0x3C).take 4).foldl crcByte e.crc }

/-- An entry before any record. -/
def PodEnt.new (d n f : Nat) : PodEnt :=
  { dest := d, stream := n, frame := f, counts := List.replicate 8 0, lost := 0, crc := 0xFFFFFFFF }

/-- Whether an entry is that of a record's destination, stream and frame. -/
def PodEnt.of (e : PodEnt) (r : Rec) : Bool :=
  decide (e.dest = r.dest) && decide (e.stream = r.stream) && decide (e.frame = r.frame)

/-- Entries with a record counted in its own. -/
def countIn (es : List PodEnt) (r : Rec) : List PodEnt :=
  if r.ty = 0x0F then es
  else if es.any (·.of r) then modFirst (·.of r) (fun e => e.add r) es
  else es ++ [(PodEnt.new r.dest r.stream r.frame).add r]

/-- A record has been delivered to its destination: it is counted for the pod of its frame. -/
def podCount (r : Rec) : Prog := .seg fun g => { g with pods := countIn g.pods r }

/-- A channel entry of a pod (Table 8-9). -/
def podChan (s : State) (c : Nat) : List Byte :=
  match Tab.find s.seg.present c with
  | some (mode, rate) =>
    qBytes (s.instant (8 * modeBanks mode) (Tab.get s.seg.pos0 0 c)) ++ leBytes 1 (1 + 2 * b2n (s.seg.rateChg.contains c)) ++ leBytes 1 mode ++
      leBytes 2 0 ++ leBytes 8 rate
  | none => List.replicate 12 0 ++ leBytes 1 (2 * b2n (s.seg.rateChg.contains c)) ++ List.replicate 11 0

/-- What a destination has received of a stream in the frame. -/
def State.podEnt (s : State) (d n : Nat) : Option PodEnt :=
  s.seg.pods.find? fun e => decide (e.dest = d) && decide (e.stream = n) && decide (e.frame = s.frameNum)

/-- A stream entry of a pod (Table 8-9): the stream's totals, and what this destination received. -/
def podStream (s : State) (d n : Nat) : List Byte :=
  let e := (s.podEnt d n).getD (PodEnt.new d n s.frameNum)
  leBytes 2 n ++ leBytes 1 (s.strm n).causes ++ leBytes 1 0 ++ leBytes 4 (e.crc ^^^ 0xFFFFFFFF) ++
    leBytes 8 (s.nextSeq n) ++ leBytes 8 e.lost ++ e.counts.flatMap (leBytes 8)

/-- The streams a destination's pod lists: bound to it while enabled in the frame, or received by it (R187). -/
def State.podStreams (s : State) (d : Nat) : List Nat :=
  which 256 fun n => (s.strm n).bound.contains d || (s.podEnt d n).isSome

/-- The pod of a destination (R187, R237). -/
def podRecord (s : State) (d : Nat) (abandoned : Bool) : Rec :=
  let ver := s.shellVer (s.destOwner d)
  let ns := s.podStreams d
  let tc := s.seg.tClose.getD s.seg.tOpen
  let body :=
    leBytes 4 s.frameNum ++ leBytes 2 ns.length ++ leBytes 1 (if ver = 1 then 0 else 8) ++
      leBytes 1 (s.get pgTop R.TOP_CLOSE_CAUSE) ++ leBytes 1 (b2n abandoned + 2 * s.get pgTop R.TOP_LATE_OPEN) ++ leBytes 1 0 ++
      leBytes 2 (s.get pgFlink R.FLINK_DEV_ID) ++ leBytes 4 0 ++ qBytes s.seg.tOpen ++ qBytes tc ++ List.replicate 24 0 ++
      (if ver = 1 then [] else (List.range 8).flatMap (podChan s)) ++ ns.flatMap (podStream s d)
  { ty := 0x0F, stream := 256, dest := d, frame := s.frameNum, seq := 0, segs := 0, first := 0, len := 0, cause := 0, merged := false,
    inRes := true, begun := false, queuedAt := s.now, code := 0xFFFF, qt := tc, qFirst := tc,
    bytes := mkRecord
      { ver := ver, ty := 0x0F, stream := 0xFFFF, flags := flFIRST + flLAST, frame := s.frameNum, seq := 0, first := 0, qt := tc,
        trig := 0xFFFF, format := 0xFF, decMode := 0, count := ns.length, factor := 0,
        ext := (d / 65536) % 4 + (d % 8192) * 65536 } body }

/-- Streams with records queued for a destination. -/
def State.queuedFor (s : State) (d : Nat) : List Nat := which 256 fun n => (s.strm n).queue.any (fun r => decide (r.dest = d))

/-! ### Meanings -/

/-- RECORD_BUILT: a record builder finishes the next record of a stream and places it in the egress queue under the buffer policy
(R23, R172, R176). -/
def recordBuilt (n : Nat) : Prog :=
  .all [pump n, .ask fun s =>
    match (s.strm n).nextItem with
    | some (some r, t) => .all [modStrm n fun _ => t, pushData r]
    | _ => .nil, pump n]

/-- A record builder finishes a record of a stream (R172, R176, R177). -/
def execRecordBuilt (stream : Nat) (s : State) : Host.Outcome State Fault Refusal := .next (run (recordBuilt stream) s)

/-- A pending pip enters its queue when room opens (R178). -/
def execPendingPipQueued (stream : Nat) (s : State) : Host.Outcome State Fault Refusal := .next (run (flushPend stream) s)

/-- The FLUSH time of the DIFF page in 2^-48 s (R266, R272). -/
def State.flushQ (s : State) : Nat := usQ (s.live pgDiff R.DIFF_FLUSH)

/-- A STAMP or DIFF entry record closes when DIFF.FLUSH has passed since its first entry (R266, R272). -/
def execStampFlush (stream : Nat) (s : State) : Host.Outcome State Fault Refusal :=
  .next (run (.ask fun s =>
    match (s.strm stream).openRec with
    | some o => .when ((s.st stream R.ST_SRC_KIND = 1 || s.st stream R.ST_SRC_KIND = 2) &&
        decide (o.openedAt + s.flushQ ≤ s.now)) (closeEntries stream)
    | none => .nil) s)

/-- A MON record closes when MON.FLUSH has passed since its first conversion (R474). -/
def execMonFlush (stream : Nat) (s : State) : Host.Outcome State Fault Refusal :=
  .next (run (.ask fun s =>
    match (s.strm stream).openRec with
    | some o => .when (s.st stream R.ST_SRC_KIND = 3 && decide (o.openedAt + usQ (s.get pgMon R.MON_FLUSH) ≤ s.now))
        (closeEntries stream)
    | none => .nil) s)

end Sys2Proof.Machine
end

