-- ==== Sys2Proof/Machine/Rings.lean ====
section
/-! DEFINITION. Rings: taking entries, their reads, chains, data buffers, completion and write-back order, pacing, doorbells,
notifications, and MSI-X coalescing (spec/12). -/

namespace Sys2Proof.Machine

/-! ### Reading a ring -/

/-- The shell that owns a ring in force. -/
def State.ringOwner (s : State) (n : Nat) : Nat := s.owner (pgRing n).ownReg

/-- Entries a ring holds in ring mode (R339). -/
def State.ringSize (s : State) (n : Nat) : Nat := 2 ^ s.get (pgRing n) R.RING_LOG2_SIZE

/-- A ring is in chain mode (R350). -/
def State.chained (s : State) (n : Nat) : Bool := s.get (pgRing n) R.RING_CHAIN = 1 && s.get (pgRing n) R.RING_TYPE = 2

/-- Address of entry i of a ring in ring mode (R339). -/
def State.entryAddr (s : State) (n i : Nat) : Nat :=
  s.get64 (pgRing n) R.RING_BASE_LO R.RING_BASE_HI + entrySize (s.get (pgRing n) R.RING_TYPE) * (i % s.ringSize n)

/-- Address of the entry a ring takes next. -/
def State.nextEntry (s : State) (n : Nat) : Nat :=
  if s.chained n then (s.ring n).next else s.entryAddr n (s.get (pgRing n) R.RING_DEV_PTR)

/-- CUR_ADDR and OPEN follow the entries held (Table 12-3). -/
def ringStat (n : Nat) : Prog :=
  .ask fun s =>
    let r := s.ring n
    let cur := match r.ents with
      | e :: _ => e.addr
      | [] => match r.atEnd with
        | some a => a
        | none => s.nextEntry n
    .all [.set64 (pgRing n) R.RING_CUR_ADDR_LO R.RING_CUR_ADDR_HI cur,
      .set (pgRing n) R.RING_OPEN (b2n (r.ents.any (fun e => e.st = .opened && decide (0 < e.filled)))),
      .set (pgRing n) R.RING_PARKED (b2n (r.atEnd.isSome && r.ents.isEmpty && s.get (pgRing n) R.RING_EN = 1)),
      .when (s.get (pgRing n) R.RING_EN = 0 && r.ents.isEmpty) (.set (pgRing n) R.RING_RUNNING 0)]

/-- A data ring whose records wait while the device owns no free buffer (Table 12-3): the field as it reads. -/
def State.starved (s : State) (n : Nat) : Bool :=
  s.get (pgRing n) R.RING_EN = 1 && s.get (pgRing n) R.RING_TYPE = 2 &&
    !((s.ring n).ents.any (fun e => e.st ≠ .landing && (e.st ≠ .opened || decide (e.filled < field e.bytes 8 4)) &&
      !(e.st = .ready && s.chained n && bit (field e.bytes 12 4) 1))) &&
    (!(s.queuedFor (65536 + n)).isEmpty || s.seg.podQ.any (fun r => r.dest = 65536 + n))

/-! ### Halts and faults (R343, R344) -/

/-- A ring halts on a code (R344). -/
def haltRing (n code : Nat) : Prog :=
  .all [.set (pgRing n) R.RING_HALTED 1, .set (pgRing n) R.RING_HALT_CODE code, .set (pgRing n) R.RING_RUNNING 0,
    raise pgPcie 2, capture pgPcie 0x20 (n % 8192 + code * 2 ^ 16),
    .when (code = 6 || code = 8) (.all [.inc pgPcie R.PCIE_CNT_FAULT, raise pgPcie 4])]

/-! ### Notifications and pacing (R349, R358) -/

/-- A notification of a ring: an MSI-X delivery and an event-ring entry, as its slot selects; one held unwritten stands for all of them
(R358). -/
def notifyRing (n : Nat) : Prog :=
  .ask fun s =>
    let fn := s.shellFunc (s.ringOwner n)
    let v := s.get (pgRing n) R.RING_VECTOR
    let e := s.get (pgRing n) R.RING_NRING
    .all [
      .when (s.get (pgRing n) R.RING_MSIX_EN = 1)
        (if s.vecFunc v = some fn then msixDeliver v else incRaise pgPcie R.PCIE_CNT_EVT_DROP 3),
      .when (s.get (pgRing n) R.RING_NRING_EN = 1)
        (if s.isEventRing e && s.ringOwner e = s.ringOwner n then
          (if (s.ring e).waiting.any (fun w => w.ring = some n) then .nil
           else eventRingPut e
             { bytes := leBytes 2 0 ++ [1, 0] ++ leBytes 4 (n % 8192) ++ qBytes s.now ++ leBytes 4 0 ++ leBytes 4 0,
               own := 0, ring := some n } (raise pgPcie 3))
         else incRaise pgPcie R.PCIE_CNT_EVT_DROP 3)]

/-- A pace event of a ring: PACE_QUOTA credits, saturating (R349). -/
def paceRing (n : Nat) : Prog := .ask fun s => .add (pgRing n) R.RING_CREDITS (s.get (pgRing n) R.RING_PACE_QUOTA)

/-- The rings that have been written with a pacing mode (R349). -/
def State.pacedBy (s : State) (mode x : Nat) : List Nat :=
  let rings := (s.regs.filter (fun e => decide (Kind.ring.base ≤ e.1) && decide (e.1 < Kind.qpc.base) && decide (e.1 % 64 = 0x14))).map
    (fun e => (e.1 - Kind.ring.base) / 64)
  rings.filter fun n => s.get (pgRing n) R.RING_PACE_MODE = mode && s.get (pgRing n) R.RING_EN = 1 &&
    (if mode = 1 then s.get (pgRing n) R.RING_PACE_TMR = x else s.get (pgRing n) R.RING_PACE_RING = x)

/-! ### Completing entries (R346, R347) -/

/-- RESULT of a data descriptor (Table 12-4). -/
def RingEnt.result (e : RingEnt) (code : Nat) : Nat :=
  min e.recs 0xFFFF + e.frags * 2 ^ 16 + b2n e.pod * 2 ^ 20 + b2n e.drain * 2 ^ 21 + code * 2 ^ 24

/-- The oldest entry not yet in its landing check completes with a code: its fields are written, and the landing check starts (R346).
Entries other than data descriptors have no fields of this kind. -/
def completeFirst (n code : Nat) (drain : Bool) : Prog :=
  .ask fun s =>
    match (s.ring n).ents.find? (fun e => e.st ≠ .landing) with
    | none => .nil
    | some e =>
      let e := { e with drain := drain }
      .all [
        .when (s.get (pgRing n) R.RING_TYPE = 2)
          (ringStore n (e.addr + 0x10) (leBytes 4 e.filled ++ leBytes 4 (e.result code) ++ leBytes 4 (s.now % 2 ^ 32))),
        modRing n fun r => { r with
          ents := modFirst (fun x => x.st ≠ .landing) (fun x => { x with
            st := .landing, drain := drain, code := code,
            own := if s.get (pgRing n) R.RING_TYPE = 2 then field x.bytes 28 2
                   else field x.bytes (x.bytes.length - 4) 4 % 2 ^ 31 }) r.ents },
        .when (s.get (pgRing n) R.RING_TYPE = 2 && code = 1) (.inc (pgRing n) R.RING_CNT_PARTIAL),
        .when (s.get (pgRing n) R.RING_LOCAL = 0)
          (.all [.inc pgPcie R.PCIE_CNT_ZLR, .out (.busRead (e.addr + entrySize (s.get (pgRing n) R.RING_TYPE) - 4) 0)])]

/-- Whether an entry's content breaks Table 12-4 for its ring mode (BAD_DESC). -/
def badDesc (chain : Bool) (bs : List Byte) : Bool :=
  let addr := field bs 0 8
  let len := field bs 8 4
  let ctrl := field bs 12 4
  if !chain then bit ctrl 0 || bit ctrl 1 || decide (addr % 8 ≠ 0 ∨ len % 8 ≠ 0 ∨ len < 64)
  else if bit ctrl 0 && bit ctrl 1 then true
  else if bit ctrl 1 then decide (addr % 32 ≠ 0 ∨ len ≠ 0)
  else decide (addr % 8 ≠ 0 ∨ len % 8 ≠ 0 ∨ len < 64)

/-- The oldest entry not in its landing check, if it can never carry data: a LINK completes, an entry at fault halts the ring, an entry
returned by EN = 0 completes FLUSHED (R341, R343, R344, R350). -/
def advanceRing (n : Nat) : Nat → Prog
  | 0 => ringStat n
  | k + 1 => .ask fun s =>
    match (s.ring n).ents.find? (fun e => e.st ≠ .landing) with
    | some e =>
      if e.st ≠ .ready then ringStat n
      else if e.code = 2 ∨ e.code = 3 ∨ e.code = 4 then .all [completeFirst n e.code false, advanceRing n k]
      else if s.get (pgRing n) R.RING_HALTED = 1 then ringStat n
      else if e.code = 5 then .all [completeFirst n 5 false, haltRing n 5, ringStat n]
      else if e.code ≠ 0 then .all [haltRing n e.code, ringStat n]
      else if s.chained n && bit (field e.bytes 12 4) 1 then .all [completeFirst n 0 false, advanceRing n k]
      else ringStat n
    | none => ringStat n

/-- The entries of a ring that wait for their turn are looked at (at most 64 are held). -/
def settleRing (n : Nat) : Prog := .all [ringFlush n, advanceRing n 65]

/-! ### Starting and stopping a ring (R341) -/

/-- The PAIR of a command ring is a completion ring of the same shell (R356). -/
def State.pairOk (s : State) (n : Nat) : Bool :=
  let c := s.get (pgRing n) R.RING_PAIR
  s.get (pgRing c) R.RING_TYPE = 1 && s.ringOwner c = s.ringOwner n

/-- EN goes from 0 to 1 (R341); a command ring without its PAIR halts at once (R356). -/
def enableRing (n : Nat) : Prog :=
  .ask fun s => .all [
    .set (pgRing n) R.RING_EN 1,
    .set (pgRing n) R.RING_DEV_PTR 0, .set (pgRing n) R.RING_DONE_PTR 0, .set (pgRing n) R.RING_HOST_PTR 0,
    .set (pgRing n) R.RING_CREDITS 0, .set (pgRing n) R.RING_HALTED 0, .set (pgRing n) R.RING_HALT_CODE 0,
    .set (pgRing n) R.RING_RUNNING 1,
    modRing n fun r => { Ring.reset with
      waiting := r.waiting, lost := r.lost, part := r.part, next := s.get64 (pgRing n) R.RING_BASE_LO R.RING_BASE_HI },
    .when (s.get (pgRing n) R.RING_TYPE = 0 && !s.pairOk n) (haltRing n 5),
    ringStat n]

/-- Every entry held but those in their landing check completes with a code, an open data buffer that holds bytes with another (R341,
R361); one whose read is outstanding when the read returns.  An entry that the ring halted on, and whose code is no completion code or whose
content no read has brought, is not written back (R344). -/
def returnEnts (n code open_ : Nat) : Prog :=
  .all [
    modRing n fun r => { r with
      ents := (r.ents.filter fun e => !(e.st = .ready && decide (6 ≤ e.code))).map (fun e =>
      if e.st = .landing then e
      else { e with code := if 0 < e.filled then open_ else code,
                    st := if e.st = .reading then .reading else .ready }) },
    .ask fun s => .each (List.range (s.ring n).ents.length) fun _ => .ask fun t =>
      match (t.ring n).ents.find? (fun e => e.st ≠ .landing) with
      | some e => .when (e.st = .ready && decide (0 < e.code)) (completeFirst n e.code false)
      | none => .nil,
    ringStat n]

/-- EN goes to 0: the ring stops taking entries and returns those it holds; HALTED stands until EN is written 1 (R341). -/
def disableRing (n : Nat) : Prog :=
  .all [.set (pgRing n) R.RING_EN 0, modRing n fun r => { r with atEnd := none, reread := false }, returnEnts n 2 1]

/-! ### Taking and reading entries (R345, R350, R352) -/

/-- The ring can take an entry now: it runs, an entry is posted, credits allow, at most 64 are held, and a command ring has its PAIR
(R345, R349, R356). -/
def State.canTake (s : State) (n : Nat) : Bool :=
  let p := pgRing n
  let r := s.ring n
  s.get p R.RING_RUNNING = 1 && s.get p R.RING_EN = 1 && s.shellOpen (s.ringOwner n) && decide (r.ents.length < 64) &&
    (s.get p R.RING_PACE_MODE = 0 || decide (1 ≤ s.get p R.RING_CREDITS)) &&
    (if s.chained n then r.atEnd.isNone && !(r.ents.any (fun e => e.st = .reading))
     else decide (s.get p R.RING_DEV_PTR ≠ s.get p R.RING_HOST_PTR))

/-- A read of memory on behalf of a ring: from HBM there is nothing to issue (R340). -/
def ringRead (n addr len : Nat) : Prog :=
  .ask fun s => .when (s.get (pgRing n) R.RING_LOCAL = 0) (.out (.busRead addr len))

/-- The re-read of a parked descriptor is issued: parked_at is now (R352). -/
def rereadEnd (n : Nat) : Prog :=
  .ask fun s =>
    match (s.ring n).atEnd with
    | some a => .when (!(s.ring n).reread && (s.ring n).ents.isEmpty && s.get (pgRing n) R.RING_RUNNING = 1)
        (.all [modRing n fun r => { r with reread := true, woken := false, parkedAt := s.now }, ringRead n a 32])
    | none => .nil

/-- The device takes the next entry of a ring: it issues the entry's read, and DEV_PTR advances (R345).  A parked chain that a doorbell has
woken re-reads its END descriptor (R352). -/
def entryTake (n : Nat) : Prog :=
  .ask fun s =>
    if (s.ring n).atEnd.isSome then .when (s.ring n).woken (rereadEnd n)
    else .when (s.canTake n) (
      if s.get (pgRing n) R.RING_TYPE = 0 && !s.pairOk n then .all [haltRing n 5, ringStat n]
      else
        let a := s.nextEntry n
        .all [
          .when (s.get (pgRing n) R.RING_PACE_MODE ≠ 0) (.set (pgRing n) R.RING_CREDITS (s.get (pgRing n) R.RING_CREDITS - 1)),
          .set (pgRing n) R.RING_DEV_PTR ((s.get (pgRing n) R.RING_DEV_PTR + 1) % 2 ^ 32),
          modRing n fun r => { r with
            woken := false, parkedAt := s.now, repoll := nsQ (10 * s.get (pgRing n) R.RING_CHAIN_REPOLL),
            ents := r.ents ++ [{ addr := a, st := .reading, bytes := [], filled := 0, recs := 0, frags := 0, pod := false,
                                 drain := false, code := 0, own := 0, held := [], flushAt := 0 }] },
          ringRead n a (entrySize (s.get (pgRing n) R.RING_TYPE)), ringStat n])

/-- The bytes that the oldest outstanding read of a ring brings: what the host returned, or for LOCAL the bytes of HBM; none where the read
fails. -/
def State.readBack (s : State) (n addr : Nat) (resp : Option (List Byte)) : Option (List Byte) :=
  let len := entrySize (s.get (pgRing n) R.RING_TYPE)
  if s.get (pgRing n) R.RING_LOCAL = 1 then (s.resolve (s.ringOwner n) addr len false).map (fun a => s.hbmRead a len)
  else resp.map (fun bs => (bs ++ List.replicate len 0).take len)

/-- Code that a read entry carries before it is used (R343). -/
def State.readCode (s : State) (n : Nat) (b : Option (List Byte)) : Nat :=
  match b with
  | none => if s.get (pgRing n) R.RING_LOCAL = 1 then 6 else 8
  | some bs =>
    if !(bit (field bs (bs.length - 4) 4) 31) then 7
    else if s.get (pgRing n) R.RING_TYPE = 2 && badDesc (s.chained n) bs then 5
    else 0

/-- The oldest outstanding read of a ring returns (R345, R352). -/
def readBackEntry (n : Nat) (resp : Option (List Byte)) : Prog :=
  .ask fun s =>
    let r := s.ring n
    match r.atEnd, r.reread with
    | some a, true =>
      match s.readBack n a resp with
      | some bs =>
        if bit (field bs 12 4) 0 then .all [modRing n fun r => { r with reread := false }, ringStat n]
        else .all [modRing n fun r => { r with
              reread := false, atEnd := none, next := if bit (field bs 12 4) 1 then field bs 0 8 else a + 32 }, ringStat n]
      | none => .all [modRing n fun r => { r with reread := false }, haltRing n (if s.get (pgRing n) R.RING_LOCAL = 1 then 6 else 8), ringStat n]
    | _, _ =>
      match r.ents.find? (fun e => e.st = .reading) with
      | none => .nil
      | some e =>
        let b := s.readBack n e.addr resp
        let bs := b.getD (List.replicate (entrySize (s.get (pgRing n) R.RING_TYPE)) 0)
        let code := if e.code ≠ 0 then e.code else s.readCode n b
        .all [modRing n fun r => { r with
            ents := modFirst (fun x => x.st = .reading) (fun x => { x with st := .ready, bytes := bs, code := code }) r.ents,
            atEnd := if s.chained n && code = 0 && bit (field bs 12 4) 0 then some e.addr else r.atEnd,
            next := if bit (field bs 12 4) 1 then field bs 0 8 else e.addr + 32 },
          settleRing n]

/-! ### Data buffers (R353 to R355) -/

/-- The buffer of a data descriptor: address and length. -/
def RingEnt.buf (e : RingEnt) : Nat × Nat := (field e.bytes 0 8, field e.bytes 8 4)

/-- Payload written to a buffer; whether a LOCAL buffer lies in the shell's windows is checked when it opens. -/
def bufStore (n addr : Nat) (bs : List Byte) : Prog := ringStore n addr bs

/-- The next free buffer of a data ring opens: on PCIe a zero-length read is issued first (R353); a LOCAL buffer outside the shell's
windows is an ADDR_FAULT. -/
def openBuffer (n : Nat) : Prog :=
  .ask fun s =>
    match (s.ring n).ents.find? (fun e => e.st ≠ .landing) with
    | some e =>
      if e.st ≠ .ready ∨ e.code ≠ 0 ∨ s.get (pgRing n) R.RING_RUNNING = 0 then .nil
      else if s.get (pgRing n) R.RING_LOCAL = 1 then
        if (s.resolve (s.ringOwner n) e.buf.1 e.buf.2 true).isSome then
          modRing n fun r => { r with ents := modFirst (fun x => x.st = .ready) (fun x => { x with st := .opened }) r.ents }
        else .all [denyAccess (s.ringOwner n) (s.shellFunc (s.ringOwner n)) 4 e.buf.1, completeFirst n 6 false, haltRing n 6, ringStat n]
      else .all [
        modRing n fun r => { r with ents := modFirst (fun x => x.st = .ready) (fun x => { x with st := .opening }) r.ents },
        .inc pgPcie R.PCIE_CNT_ZLR, .out (.busRead e.buf.1 0)]
    | none => .nil

/-- The next record for a destination of a stream, or of the pods (stream 256). -/
def State.nextRec (s : State) (key src : Nat) : Option Rec :=
  if src = 256 then s.seg.podQ.find? (fun r => r.dest = key) else (s.strm src).queue.find? (fun r => r.dest = key)

/-- The first of a list that satisfies a test is removed. -/
def delFirst {α : Type} (p : α → Bool) : List α → List α
  | [] => []
  | x :: xs => if p x then xs else x :: delFirst p xs

/-- The next record for a destination leaves its queue. -/
def dropRec (key src : Nat) : Prog :=
  if src = 256 then .seg fun g => { g with podQ := delFirst (fun r => r.dest = key) g.podQ }
  else .all [modStrm src fun t => { t with queue := delFirst (fun r => r.dest = key) t.queue }, eqStat src]

/-- Transmission of the next record for a destination has begun (R177). -/
def beginRec (key src : Nat) : Prog :=
  if src = 256 then .nil
  else modStrm src fun t => { t with queue := modFirst (fun r => r.dest = key) (fun r => { r with begun := true }) t.queue }

/-- The open buffer completes (R353): its records count as written once its OWN word is written (R347). -/
def closeBuffer (n code : Nat) (drain : Bool) : Prog := .all [completeFirst n code drain, settleRing n]

/-- Bytes of a record go into the open buffer: all that remain of it, or a tail fragment that fills the buffer. -/
def putInBuffer (n src : Nat) (r : Rec) (e : RingEnt) (placed : Nat) : Prog :=
  .ask fun s =>
    let key := 65536 + n
    let rest := r.bytes.drop placed
    let space := e.buf.2 - e.filled
    let whole : Bool := decide (rest.length ≤ space)
    let chunk := rest.take space
    let head : Nat := if placed = 0 then 0 else 1 + 2 * b2n whole
    let tail : Nat := if whole then 0 else 4 + 8 * b2n (placed = 0)
    .all [
      bufStore n (e.buf.1 + e.filled) chunk, beginRec key src,
      modRing n fun x => { x with
        part := if whole then none else some (src, placed + chunk.length),
        ents := modFirst (fun y => y.st = .opened) (fun y => { y with
          filled := y.filled + chunk.length, flushAt := s.now + usQ (s.get (pgRing n) R.RING_FLUSH_TMO),
          recs := y.recs + b2n (whole && placed = 0),
          frags := y.frags ||| head ||| tail,
          pod := src = 256 && whole,
          held := if whole then y.held ++ [r] else y.held }) x.ents },
      .when whole (dropRec key src)]

/-- A record, or as much of it as the open buffer takes, is placed in a data ring (R353). -/
def recordPlace (n src : Nat) : Prog :=
  .ask fun s =>
    let key := 65536 + n
    let g := s.ring n
    let placed := match g.part with | some (x, k) => if x = src then k else 0 | none => 0
    let turn : Bool := match g.part with | some (x, _) => x = src | none => true
    match s.nextRec key src with
    | none => .nil
    | some r =>
      .when (turn && s.get (pgRing n) R.RING_TYPE = 2 && s.get (pgRing n) R.RING_RUNNING = 1) (
        match g.ents.find? (fun e => e.st = .opened) with
        | none => .all [openBuffer n, ringStat n]
        | some e =>
          let older : Bool := decide (0 < e.filled) && placed = 0 && (src = 256 || e.held.any (fun x => x.frame ≠ r.frame))
          if older then closeBuffer n 0 true
          else
            let fits : Bool := decide (r.bytes.length - placed ≤ e.buf.2 - e.filled)
            let next : Bool := g.ents.any (fun x => x.st = .ready && x.code = 0 && !(s.chained n && bit (field x.bytes 12 4) 1))
            .when (fits || next) (.all [
              putInBuffer n src r e placed,
              .ask fun t => match (t.ring n).ents.find? (fun x => x.st = .opened) with
                | some x => .when (decide (x.buf.2 ≤ x.filled) || x.pod) (closeBuffer n 0 false)
                | none => .nil,
              ringStat n]))

/-- FLUSH_TMO passes since the last byte written into the open buffer: as much as fits of a queued record goes in, and the buffer completes
PARTIAL (R354). -/
def flushTmo (n src : Nat) : Prog :=
  .ask fun s =>
    match (s.ring n).ents.find? (fun e => e.st = .opened) with
    | none => .nil
    | some e =>
      .when (decide (0 < e.filled) && decide (e.flushAt ≤ s.now)) (
        let key := 65536 + n
        let src := match s.nextRec key src with | some _ => src | none => (s.queuedFor key).headD 256
        .all [
          match s.nextRec key src with
          | some r => .when (decide (e.filled < e.buf.2) && src ≠ 256 && !(e.held.any (fun x => x.frame ≠ r.frame)))
              (putInBuffer n src r e 0)
          | none => .nil,
          closeBuffer n 1 false])

/-- The drain completes the open buffer of a ring once the frame's last record for it has been placed (R355). -/
def drainRing (n : Nat) : Prog :=
  .ask fun s =>
    match (s.ring n).ents.find? (fun e => e.st = .opened) with
    | some e => .when (decide (0 < e.filled) && (s.queuedFor (65536 + n)).isEmpty && (s.ring n).part.isNone) (closeBuffer n 0 true)
    | none => .nil

/-! ### Landing checks (R346, R347) -/

/-- The oldest landing check of a ring ends.  When it succeeds, OWN is written 0, DONE_PTR advances and the notification follows; when it
fails, OWN stays 1 and the ring halts ADDR_FAULT (R344). -/
def landed (n : Nat) (ok : Bool) : Prog :=
  .ask fun s =>
    match (s.ring n).ents with
    | e :: _ =>
      if e.st ≠ .landing then .nil
      else if !ok && s.get (pgRing n) R.RING_LOCAL = 0 then
        .all [modRing n fun r => { r with ents := r.ents.drop 1 }, haltRing n 6, ringStat n]
      else
        let ty := s.get (pgRing n) R.RING_TYPE
        .all [
          ringStore n (e.addr + entrySize ty - 4) (leBytes 4 e.own),
          modRing n fun r => { r with ents := r.ents.drop 1 },
          .set (pgRing n) R.RING_DONE_PTR ((s.get (pgRing n) R.RING_DONE_PTR + 1) % 2 ^ 32),
          .inc (pgRing n) R.RING_CNT_DESC,
          .each e.held podCount,
          .when (ty = 1 || ty = 3 || (ty = 2 && bit (field e.bytes 12 4) 2)) (notifyRing n),
          .each (s.pacedBy 2 n) paceRing,
          .seg fun g => { g with podWait := if e.pod then g.podWait.filter (fun d => d ≠ 65536 + n) else g.podWait },
          ringStat n]
    | [] => .nil

/-! ### Doorbells (R348) -/

/-- Whether a function may reach a shell's doorbell page: the physical function as the supervisor, and the function bound to the shell; the
doorbells of a closed shell are refused (R441, R443). -/
def State.mayRing (s : State) (fn shell : Nat) : Bool := s.shellOpen shell && (fn = 0 || s.shellFunc shell = fn)

/-- A bad doorbell is counted (R348). -/
def badDoorbell : Prog := incRaise pgPcie R.PCIE_CNT_DB_BAD 1

/-- A write to a doorbell page: DB64 at 0x000 and DB32 at 0x008, each of its one width (R348). -/
def doorbell (fn shell off width v : Nat) : Prog :=
  .ask fun s =>
    if !(s.mayRing fn shell) then denyAccess (if fn = 0 then shell else s.funcShell fn) fn 2 (4096 * shell + off)
    else
      let n := v % 8192
      let p := pgRing n
      let owned : Bool := s.ringOwner n = shell || (s.ringOwner n = supervisor && shell = supervisor)
      let bad (denied : Bool) : Prog := .all [.when denied (denyAccess shell fn 2 (4096 * shell + off)), badDoorbell]
      let wake : Prog := modRing n fun r => { r with woken := true }
      if decide (off ≤ 7) then
        if off ≠ 0 ∨ width ≠ 8 then bad false
        else if !owned then bad true
        else if s.get p R.RING_EN = 0 then bad false
        else if s.chained n then wake
        else
          let h := (v / 2 ^ 32) % 2 ^ 32
          if s.ringSize n < (h + 2 ^ 32 - s.get p R.RING_DONE_PTR) % 2 ^ 32 then bad false
          else if 2 ^ 31 ≤ (h + 2 ^ 32 - s.get p R.RING_HOST_PTR) % 2 ^ 32 then bad false
          else .set p R.RING_HOST_PTR h
      else if decide (off ≤ 11) then
        if off ≠ 8 ∨ width ≠ 4 then bad false
        else if !owned then bad true
        else if s.get p R.RING_EN = 0 then bad false
        else .when (s.chained n) wake
      else .nil

/-! ### Function-level reset, and rings that a shell loses (R338, R361) -/

/-- A ring is abandoned without write-back (R338). -/
def abandonRing (n : Nat) : Prog :=
  .all [.set (pgRing n) R.RING_EN 0, .set (pgRing n) R.RING_RUNNING 0, .set (pgRing n) R.RING_DEV_PTR 0, .set (pgRing n) R.RING_DONE_PTR 0,
    .set (pgRing n) R.RING_HOST_PTR 0, .set (pgRing n) R.RING_CREDITS 0, modRing n fun _ => Ring.reset, ringStat n]

/-- The rings of a shell: those whose owner in force it is. -/
def State.ringsOf (s : State) (shell : Nat) : List Nat :=
  (s.sec.owners.filter (fun e => decide (Kind.ring.base ≤ e.1) && decide (e.1 < Kind.qpc.base) && e.2 = shell)).map
    (fun e => (e.1 - Kind.ring.base) / 64)

/-- A ring is revoked or reset: entries in their landing check complete, the others complete with the code, and the ring stops (R361,
R450, R514). -/
def stopRing (n code : Nat) : Prog :=
  .all [.set (pgRing n) R.RING_EN 0, modRing n fun r => { r with atEnd := none, reread := false }, returnEnts n code code, ringStat n]

/-! ### Meanings -/

/-- The device takes the next entry of a ring (R345). -/
def execEntryTake (ring : Nat) (s : State) : Host.Outcome State Fault Refusal := .next (run (entryTake ring) s)

/-- The oldest entry read of a ring returns: its bytes, or none where the host answered UR or CA (R345). -/
def execEntryReadComplete (ring : Nat) (resp : Option (List Byte)) (s : State) : Host.Outcome State Fault Refusal :=
  .next (run (readBackEntry ring resp) s)

/-- An entry read has no completion within 10 ms (R343). -/
def execReadFault (ring : Nat) (s : State) : Host.Outcome State Fault Refusal :=
  .next (run (.ask fun s => .when (s.get (pgRing ring) R.RING_LOCAL = 0) (readBackEntry ring none)) s)

/-- CHAIN_REPOLL has passed since a chain parked (R352). -/
def execChainRepoll (ring : Nat) (s : State) : Host.Outcome State Fault Refusal :=
  .next (run (.ask fun s =>
    .when (decide ((s.ring ring).parkedAt + (s.ring ring).repoll ≤ s.now)) (rereadEnd ring)) s)

/-- The zero-length read that opens a data buffer returns; where it fails, the descriptor completes ADDR_FAULT (R353). -/
def execBufferOpenReadDone (ring : Nat) (ok : Bool) (s : State) : Host.Outcome State Fault Refusal :=
  .next (run (.ask fun s => .when ((s.ring ring).ents.any (fun e => e.st = .opening)) (
    if ok then modRing ring fun r => { r with ents := modFirst (fun x => x.st = .opening) (fun x => { x with st := .opened }) r.ents }
    else .all [completeFirst ring 6 false, haltRing ring 6, ringStat ring])) s)

/-- A record, or part of it, is placed in a data ring's buffer (R353). -/
def execRecordPlace (ring stream : Nat) (s : State) : Host.Outcome State Fault Refusal := .next (run (recordPlace ring stream) s)

/-- The landing check of a ring's oldest completing entry returns (R346). -/
def execLandingCheckDone (ring : Nat) (ok : Bool) (s : State) : Host.Outcome State Fault Refusal := .next (run (landed ring ok) s)

/-- The flush timeout of an open buffer expires (R354). -/
def execFlushTmo (ring stream : Nat) (s : State) : Host.Outcome State Fault Refusal := .next (run (flushTmo ring stream) s)

/-- The coalescing time of a vector passes since its oldest pending delivery (R359). -/
def execCoalTimer (v : Nat) (s : State) : Host.Outcome State Fault Refusal :=
  .next (run (.ask fun s =>
    match Tab.find s.host.pend v with
    | some (_, at0) => .when (decide (at0 + usQ (Tab.get s.host.coalUse (s.coal v) v).2 ≤ s.now)) (coalSend v)
    | none => .nil) s)

/-- An EVENT_OUT pulse ends (R360). -/
def execEventOutPulseEnd (pin : Nat) (s : State) : Host.Outcome State Fault Refusal :=
  .next (run (.ask fun s =>
    match Tab.find s.host.evtOut pin with
    | some q => .when (decide (q ≤ s.now)) (.all [.host fun h => { h with evtOut := Tab.del h.evtOut pin }, .out (.pin (pinEventOut pin) false)])
    | none => .nil) s)

/-- A 64-bit doorbell write (R348): function, page, offset in it, width in bytes and value. -/
def execDb64 (fn shell off width v : Nat) (s : State) : Host.Outcome State Fault Refusal := .next (run (doorbell fn shell off width v) s)

/-- A 32-bit doorbell write (R348). -/
def execDb32 (fn shell off width v : Nat) (s : State) : Host.Outcome State Fault Refusal := .next (run (doorbell fn shell off width v) s)

end Sys2Proof.Machine
end

