-- ==== Sys2Proof/Machine/Cmds.lean ====
section
/-! DEFINITION. Commands in flight: their layout, the sequencers that hold them, their completions, and what a step boundary does
(R393 to R405, R415). -/

namespace Sys2Proof.Machine

/-! ### Layout of a command (Table 14-1) -/

/-- OPCODE, FLAGS, CMD_ID and parameter word k of a command. -/
def Held.op (h : Held) : Nat := field h.bytes 0 2
def Held.flagBits (h : Held) : Nat := field h.bytes 2 1
def Held.id (h : Held) : Nat := field h.bytes 4 4
def Held.p (h : Held) (k : Nat) : Nat := field h.bytes (8 + 4 * k) 4

/-- BARRIER, COMMIT and LOCAL. -/
def Held.barrier (h : Held) : Bool := bit h.flagBits 0
def Held.commit (h : Held) : Bool := bit h.flagBits 1
def Held.isLocal (h : Held) : Bool := bit h.flagBits 2

/-- A field of a parameter word. -/
def Held.pf (h : Held) (k hi lo : Nat) : Nat := bits (h.p k) hi lo

/-- A two-word parameter. -/
def Held.p64 (h : Held) (k : Nat) : Nat := h.p k + h.p (k + 1) * 2 ^ 32

/-- Status codes (Table 14-3). -/
def stOK : Nat := 0
def stBandwidth : Nat := 1
def stBusy : Nat := 2
def stBadParam : Nat := 3
def stNotPermitted : Nat := 4
def stTimeout : Nat := 5
def stResetAbort : Nat := 6
def stRevoked : Nat := 7
def stVersion : Nat := 8
def stCalBad : Nat := 9
def stFlashWear : Nat := 10
def stLinkDown : Nat := 11

/-! ### Sequencers -/

/-- A sequencer. -/
def State.seqr (s : State) (q : Nat) : Seqr := Tab.get s.cmd.seqs Seqr.reset q

/-- A sequencer changes. -/
def modSeqr (q : Nat) (f : Seqr → Seqr) : Prog := .cmd fun c => { c with seqs := Tab.mod c.seqs Seqr.reset q f }

/-- The command in a slot of a sequencer. -/
def State.heldAt (s : State) (q k : Nat) : Option Held := Tab.find (s.seqr q).held k

/-- A held command changes. -/
def modHeld (q k : Nat) (f : Held → Held) : Prog :=
  modSeqr q fun z => match Tab.find z.held k with
    | some h => { z with held := Tab.put z.held k (f h) }
    | none => z

/-- The command whose step runs on a sequencer, with its slot. -/
def State.current (s : State) (q : Nat) : Option (Nat × Held) :=
  match (s.seqr q).cur with
  | some k => (s.heldAt q k).map fun h => (k, h)
  | none => none

/-- Every held command: sequencer, slot, command. -/
def State.allHeld (s : State) : List (Nat × Nat × Held) :=
  s.cmd.seqs.flatMap fun e => e.2.held.map fun h => (e.1, h.1, h.2)

/-- Every command in flight that has no completion yet. -/
def State.inFlight (s : State) : List Held := s.cmd.queue ++ s.allHeld.map (fun e => e.2.2)

/-- Commands of a shell in flight: taken, and their completion not yet written (R400). -/
def State.flightOf (s : State) (shell : Nat) : Nat :=
  (s.inFlight.filter (fun h => h.shell = shell)).length +
    ((s.host.rings.flatMap fun e => e.2.waiting).filter (fun w => w.ring.isNone && w.bytes.length = 12 && s.ringOwner w.own = shell)).length

/-- STATE of a sequencer (Table 14-13): IDLE, RUN, WAIT, OFF. -/
def State.sqState (s : State) (q : Nat) : Nat :=
  let z := s.seqr q
  if z.held.isEmpty then (if s.en (pgSq q) then 0 else 3)
  else if z.held.all (fun e => e.2.wait ≠ .ready && e.2.wait ≠ .running) then 2
  else 1

/-- The status fields of a sequencer's page follow its state; event 3 when it becomes IDLE or OFF (R423). -/
def sqStat (q : Nat) : Prog :=
  .ask fun s =>
    let st := s.sqState q
    .all [.set (pgSq q) R.SQ_CMDS (s.seqr q).held.length,
      .when (decide (st ≠ s.get (pgSq q) R.SQ_STATE) && (st = 0 || st = 3)) (raise (pgSq q) 3),
      .set (pgSq q) R.SQ_STATE st]

/-- FLAGS, PC, OPCODE and SHELL of the command running or last run (Table 14-13). -/
def sqShow (q : Nat) (h : Held) : Prog :=
  .all [.set (pgSq q) R.SQ_OPCODE (h.op % 256), .set (pgSq q) R.SQ_SHELL h.shell, .set (pgSq q) R.SQ_PC h.pc,
    .set (pgSq q) R.SQ_FLAGS h.flags]

/-! ### Completions (R394) -/

/-- The completion of a command goes to the PAIR ring of its command ring (R346, R394). -/
def sendCompletion (h : Held) (q status result : Nat) : Prog :=
  .ask fun s =>
    let c := s.get (pgRing h.ring) R.RING_PAIR
    .all [modRing c fun r => { r with
        waiting := r.waiting ++ [{
          bytes := leBytes 4 h.id ++ leBytes 1 status ++ leBytes 1 q ++ leBytes 2 h.op ++ leBytes 4 result,
          own := h.ring % 8192, ring := none }] },
      ringFlush c]

/-- A command leaves its sequencer, and its DMA handles with it. -/
def releaseSlot (q k : Nat) : Prog :=
  .all [.cmd fun c => { c with dmas := c.dmas.filter fun d => !(d.sq = q && d.slot = k) }, modSeqr q fun z => { z with held := Tab.del z.held k, cur := if z.cur = some k then none else z.cur }, sqStat q]

/-- A command completes with a status and a result. -/
def finishCmd (q k status result : Nat) : Prog :=
  .ask fun s =>
    match s.heldAt q k with
    | none => .nil
    | some h => .all [sendCompletion h q status result, .inc (pgSq q) R.SQ_CNT_CMDS, releaseSlot q k]

/-- A command is refused: for a LOCAL address outside its shell's windows, a denial of kind 4 at that offset, else for a right or an object of
another shell, a denial of kind 3 at the base of its ring (R396, R397, R454; DEDUCED, log entry 138). -/
def denyCmd (q k : Nat) (bad : Option Nat) : Prog :=
  .ask fun s =>
    match s.heldAt q k with
    | none => .nil
    | some h => .all [denyAccess h.shell (s.shellFunc h.shell) (if bad.isSome then 4 else 3)
          (bad.getD (s.get64 (pgRing h.ring) R.RING_BASE_LO R.RING_BASE_HI)),
        finishCmd q k stNotPermitted 0]

/-- The held commands that wait for hardware and satisfy a test. -/
def State.waiters (s : State) (p : Held → Bool) : List (Nat × Nat × Held) := s.allHeld.filter fun e => e.2.2.wait = .work && p e.2.2

/-- The commands of an opcode that wait for hardware complete. -/
def finishWaiters (op status result : Nat) : Prog :=
  .ask fun s => .each (s.waiters fun h => h.op = op) fun e => finishCmd e.1 e.2.1 status result

/-- A command's step ends, and it waits for the hardware its opcode works with (R403). -/
def waitWork (q k : Nat) : Prog :=
  .all [modHeld q k fun h => { h with wait := .work }, modSeqr q fun z => { z with cur := none }, sqStat q]

/-- A command's step ends, and its next step can start at once (YIELD, R402). -/
def yieldStep (q k : Nat) : Prog :=
  .all [modHeld q k fun h => { h with wait := .ready }, modSeqr q fun z => { z with cur := none }, sqStat q]

/-! ### Ends of a command (R404, Table 14-7) -/

/-- A command ends otherwise than by DONE: counted, and completed unless its function was reset (rank 2). -/
def endCmd (q k rank status result : Nat) : Prog :=
  .ask fun s =>
    match s.heldAt q k with
    | none => .nil
    | some h => .all [
        .when (rank ≠ 2) (.all [sendCompletion h q status result, .inc (pgSq q) R.SQ_CNT_CMDS]),
        incRaise (pgSq q) R.SQ_CNT_ABORT 2, releaseSlot q k]

/-- The outcome taken first at a boundary: the lowest rank of R404. -/
def firstEnd : List (Nat × Nat × Nat) → Option (Nat × Nat × Nat)
  | [] => none
  | e :: es => match firstEnd es with
    | some x => if x.1 < e.1 then some x else some e
    | none => some e

end Sys2Proof.Machine
end

