-- ==== Sys2Proof/Machine/Reduce.lean ====
section
/-! DEFINITION. From an extracted window to records: what each sample of a window is delivered or reported as (R173, R175, R185), the
scaler, decimation, accumulation, envelopes and density maps, and their epochs (spec/07). -/

namespace Sys2Proof.Machine

/-! ### The scaler (R195, R196) -/

/-- The scaler's output and whether it was clamped. -/
def scaler (g : Int) (sh : Nat) (o x : Int) : Int × Bool :=
  let q := (x * g) / ((2 ^ sh : Nat) : Int)
  let y := q + o
  if y < -32767 then (-32767, true) else if 32767 < y then (32767, true) else (y, false)

/-- One sample of a window: the cause it is reported under or 0, its word, the flags it sets, and its scaled value. -/
structure Cell where
  rep : Nat
  w : Nat
  fl : Nat
  y : Option Int

/-- A cell scaled with the stream's settings; NO-DATA passes untouched (R195). -/
def Cell.scaled (g : Int) (sh : Nat) (o : Int) (c : Cell) : Cell :=
  if c.w = 0x8000 then c
  else
    let r := scaler g sh o (sgn 16 c.w)
    { c with y := some r.1, fl := if r.2 then c.fl ||| flSAT else c.fl }

/-! ### What a window can contain (R173, R175, R185) -/

/-- Read positions an extractor skips: before each block of 1,024 samples it compares its position with the oldest safe sample, which
moves by `adv` samples while a block is read (R173).  The answer lists the skipped spans as first position and end. -/
def skips (adv : Nat) : Nat → Int → Int → Int → List (Int × Int)
  | 0, _, _, _ => []
  | k + 1, pos, safe, fin =>
    if fin ≤ pos then []
    else if pos < safe then (pos, min safe fin) :: skips adv k (max safe pos + 1024) (safe + adv) fin
    else skips adv k (pos + 1024) (safe + adv) fin

/-- The flags a sample of a channel sets by its position: STALE and DEGRADED (R105, R119, R126). -/
def Chan.marks (ch : Chan) (x : Int) : Nat :=
  let since (o : Option Nat) : Bool := match o with | some f => decide ((f : Int) ≤ x) | none => false
  let held : Bool := ch.holds.any (·.has x) || ch.hold.any fun h => h.started && h.value ≠ noData && h.covers x
  let bad : Bool := ch.bads.any (·.has x) || ch.noSets.any (·.has x) || since ch.bad || since ch.noSet
  (if held then flSTALE else 0) ||| (if bad then flDEGRADED else 0)

/-- A held sample is no conversion, so it is not over-range (R75, R119). -/
def Chan.ovrAt (ch : Chan) (x : Int) (w : Nat) : Bool :=
  (w = 0x7FFF || w = 0x8001) && !(bit (ch.marks x) 1)

/-- What one position of a window is delivered or reported as (Table 6-3).  Positions at or after t_close of a stream that truncates are
reported as TRUNC_AT_CLOSE also where they are older than the oldest safe sample: R173 asks for a single pip over a window that is wholly
older, and R185 for one over what lies past t_close (DESIGN CHOICE, log entry 123). -/
def cellAt (ch : Chan) (skipped : List (Int × Int)) (close : Option Int) (x : Int) (w : Nat) : Cell :=
  let rep : Nat :=
    if (match close with | some c => decide (c ≤ x) | none => false) then 7
    else if x < ch.base then (ch.stopAt x).getD 0
    else if skipped.any (fun p => decide (p.1 ≤ x) && decide (x < p.2)) then 3
    else (ch.stopAt x).getD (if w = 0x10000 then 5 else 0)
  { rep := rep, w := if w = 0x10000 then 0x8000 else w,
    fl := ch.marks x ||| (if ch.ovrAt x w then flOVR else 0), y := none }

/-- The first cause other than truncation among the cells of an interval, or 0. -/
def intervalCause (cs : List Cell) : Nat := ((cs.find? (fun c => c.rep ≠ 0 && c.rep ≠ 7)).map (·.rep)).getD 0

/-- A list in chunks of n. -/
def chunks {α : Type} (n : Nat) : Nat → List α → List (List α)
  | 0, _ => []
  | k + 1, l => if l.isEmpty then [] else l.take n :: chunks n k (l.drop n)

/-- A decimated stream widens each reported span, but for truncation, to whole intervals (R199). -/
def widen (n : Nat) (cs : List Cell) : List Cell :=
  (chunks n (cs.length + 1) cs).flatMap fun c =>
    let k := intervalCause c
    if k = 0 then c else c.map (fun x => if x.rep = 7 then x else { x with rep := k })

/-- Runs of cells reported under one cause or delivered in one part: first window position, cause, cells (R172, R175). -/
def runsOf (part : Nat) : Nat → List Cell → List (Nat × Nat × List Cell)
  | _, [] => []
  | p, c :: cs =>
    match runsOf part (p + 1) cs with
    | (st, cause, l) :: rest =>
      if cause = c.rep && !(c.rep = 0 && (p + 1) % part = 0) then (p, cause, c :: l) :: rest
      else (p, c.rep, [c]) :: (st, cause, l) :: rest
    | [] => [(p, c.rep, [c])]

/-! ### Decimation (R197, R198) -/

/-- The valid scaled values of an interval. -/
def validOf (cs : List Cell) : List Int := cs.filterMap (fun c => if c.rep = 0 then c.y else none)

/-- Sum of a list of integers. -/
def isum (l : List Int) : Int := l.foldl (· + ·) 0

/-- Least and greatest of a list that is not empty. -/
def minMax : List Int → Option (Int × Int)
  | [] => none
  | x :: xs => some (xs.foldl min x, xs.foldl max x)

/-- Output code of one interval in a payload format, `scale` fraction steps per LSB and `w` bits wide (Table 7-2). -/
def average (scale w : Nat) (vs : List Int) : Nat :=
  if vs.isEmpty then 2 ^ (w - 1) else unsgn w (divAway (scale * isum vs) vs.length)

/-- The single value of an interval for S16, P12 and accumulation: the sample, or the rounded mean (R198, R202). -/
def oneValue (mode : Nat) (cs : List Cell) : Option Int :=
  if mode = 2 then (let vs := validOf cs; if vs.isEmpty then none else some (divAway (isum vs) vs.length))
  else match cs with | c :: _ => (if c.rep = 0 then c.y else none) | [] => none

/-- A 16-bit code of a value that may be NO-DATA. -/
def code16 (v : Option Int) : Nat := match v with | some i => unsgn 16 i | none => 0x8000

/-- The payload of a run of intervals in a format (Tables 7-2 and 8-5). -/
def segPayload (format mode : Nat) (ivs : List (List Cell)) : List Byte :=
  match format with
  | 0 => packS16 (ivs.map (fun c => code16 (oneValue mode c)))
  | 1 => packP12 (ivs.map (fun c => code16 (oneValue mode c)))
  | 2 => packP24 (ivs.map (fun c => average 256 24 (validOf c)))
  | 3 => packS32 (ivs.map (fun c => average 65536 32 (validOf c)))
  | _ => packMM16 (ivs.map (fun c => match minMax (validOf c) with
      | some (a, b) => (unsgn 16 a, unsgn 16 b)
      | none => (0x8000, 0x8000)))

/-- The flags of the samples an interval's output draws on: SAMPLE draws on its first only, and a NO-DATA sample takes no part in a mean
or an extreme (R198). -/
def drawnFlags (mode : Nat) (ivs : List (List Cell)) : Nat :=
  ivs.foldl (fun a c => (if mode = 1 then c.take 1 else c).foldl
    (fun b x => if x.rep = 0 && (decide (mode < 2) || x.y.isSome) then b ||| x.fl else b) a) 0

/-- The flags of the samples that contribute to a stream's bins: NO-DATA leaves a bin unchanged (R202, R207). -/
def binFlags (mode : Nat) (ivs : List (List Cell)) : Nat :=
  drawnFlags mode (ivs.map fun c => c.map fun x => if x.y.isSome then x else { x with fl := 0 })

/-! ### Windows into records -/

/-- The cells of an extracted window after the scaler, as the density engine takes them (R193). -/
def scaledCells (s : State) (e : Extr) : List Cell :=
  let n := e.req.stream
  let c := s.srcChan n
  let ch := s.chan c
  let adv := s.spc c * (if e.den.isSome then 128 else 64)
  let sk := skips adv (e.req.len / 1024 + 2) e.req.first e.safe (e.req.first + e.req.len)
  let close : Option Int := if e.req.cont || s.st n R.ST_CLOSE = 0 then none else s.seg.tClose.map (s.posAt (s.spc c))
  let raw := e.data.mapIdx (fun i w => cellAt ch sk close (e.req.first + i) w)
  raw.map (Cell.scaled (sgn 18 (s.st n R.ST_SCALE_G)) (s.st n R.ST_SCALE_S) (sgn 17 (s.st n R.ST_SCALE_O)))

/-- The cells of an extracted window, scaled, and widened where the stream is decimated (R199). -/
def windowCells (s : State) (e : Extr) : List Cell :=
  let n := e.req.stream
  if s.st n R.ST_DEC_MODE = 0 then scaledCells s e else widen (s.st n R.ST_DEC_N) (scaledCells s e)

/-- Whether a stream has accumulation or envelope bins (R202, R209). -/
def State.binned (s : State) (n : Nat) : Bool := s.st n R.ST_ACC_EN = 1 || s.st n R.ST_DEC_MODE = 4

/-- The density slot in use for a stream (R210). -/
def State.slotOf (s : State) (n : Nat) : Option Nat :=
  if s.st n R.ST_DEN_EN = 1 then
    (which 16 fun m => s.livei pgDen R.DEN_USE m = 1 && s.livei pgDen R.DEN_STREAM m = n).head?
  else none

/-- The items of a segment: SEG records of its delivered runs and pips of its reported ones, in order (R172, R175, R185, R228). -/
def segItems (s : State) (e : Extr) (cells : List Cell) : List Rec :=
  let n := e.req.stream
  let r := e.req
  let c := s.srcChan n
  let mode := s.st n R.ST_DEC_MODE
  let fac := s.factor n
  let acc : Bool := s.binned n
  let segs : Bool := !acc || (s.st n R.ST_ACC_EN = 1 && s.st n R.ST_SEG_OUT = 1)
  let runs := runsOf (s.st n R.ST_PART_LEN) 0 cells
  let trunc : Bool := cells.any (fun x => x.rep = 7)
  let lastDel := (runs.filter (fun t => t.2.1 = 0)).getLast?.map (·.1)
  runs.filterMap fun (p, cause, cs) =>
    let x : Int := r.first + p
    let ix := s.index c x
    let seq := r.seq.getD 0
    if cause ≠ 0 then some (pipRec s n cause seq 1 ix cs.length (s.instant (s.spc c) x) r.code)
    else if !segs then none
    else
      let ivs := chunks fac (cs.length + 1) cs
      let format := if acc then 0 else s.st n R.ST_FORMAT
      let isLast : Bool := decide (lastDel = some p)
      let flags := drawnFlags mode ivs ||| (if p = 0 then flFIRST else flCONT) |||
        (if p + cs.length = r.len then flLAST else 0) ||| (if r.unconf then flUNCONF else 0) |||
        (if isLast && (trunc || r.cut) then flTRUNC else 0) |||
        (if runs.any (fun t => t.2.1 ≠ 0 && decide (t.1 + t.2.2.length = p)) then flGAP else 0)
      let qt := if r.cont then s.instant (s.spc c) x else r.anchor
      some {
        ty := 1, stream := n, dest := s.dest n, frame := s.frameNum, seq := seq, segs := 1, first := ix, len := cs.length, cause := 0,
        merged := false, inRes := false, begun := false, queuedAt := s.now, code := r.code, qt := qt,
        qFirst := s.instant (s.spc c) x,
        bytes := mkRecord {
          ver := s.strmVer n, ty := 1, stream := n, flags := flags, frame := s.frameNum, seq := seq, first := ix, qt := qt,
          trig := r.code, format := format, decMode := mode, count := ivs.length, factor := fac,
          ext := p / s.st n R.ST_PART_LEN } (segPayload format mode ivs) }

/-! ### Accumulation, envelopes and density (R202, R209, R210) -/

/-- Bins of a stream (R202, R209).  R197 refuses a SEG_LEN that is no multiple of DEC_N for SAMPLE, AVERAGE and PEAK only; ENVELOPE has the whole
intervals of the segment as bins, and the samples after them reach none (DESIGN CHOICE, log entry 125). -/
def State.binsOf (s : State) (n : Nat) : Nat := if s.st n R.ST_DEC_MODE = 0 then s.segLen n else s.segLen n / s.st n R.ST_DEC_N

/-- One output value joins an accumulation bin (R202). -/
def accAdd (bins : Tab (Int × Int)) (j : Nat) (v : Option Int) : Tab (Int × Int) :=
  match v with
  | some x => Tab.mod bins (0, 0) j (fun b => (b.1 + x, b.2 + 1))
  | none => bins

/-- An interval's minimum and maximum join an envelope bin (R209). -/
def envAdd (bins : Tab (Int × Int)) (j : Nat) (vs : List Int) : Tab (Int × Int) :=
  match minMax vs with
  | some (a, b) => Tab.put bins j (match Tab.find bins j with | some (c, d) => (min a c, max b d) | none => (a, b))
  | none => bins

/-- A segment's intervals join the stream's bins. -/
def binSegment (s : State) (n : Nat) (cells : List Cell) (bins : Tab (Int × Int)) : Tab (Int × Int) :=
  let mode := s.st n R.ST_DEC_MODE
  let ivs := chunks (s.factor n) (cells.length + 1) cells
  (ivs.take (s.binsOf n)).foldl (fun (a : Nat × Tab (Int × Int)) c =>
    (a.1 + 1, if mode = 4 then envAdd a.2 a.1 (validOf c) else accAdd a.2 a.1 (oneValue mode c))) (0, bins) |>.2

/-- An epoch takes a segment (R204, R205, R207). -/
def Epoch.take (e : Epoch) (r : Req) (ix : Int) (qt flags : Nat) : Epoch :=
  let f := flags ||| (if r.unconf then flUNCONF else 0)
  let e := if e.segs = 0 then { e with first := ix, qt := qt, code := r.code, flags := 0 } else e
  { e with segs := e.segs + 1, lastSeq := r.seq.getD 0, last := ix + r.len, flags := e.flags ||| f }

/-- The flags an ACC record may carry (R207). -/
def accFlags (f : Nat) : Nat := f &&& (flOVR + flSTALE + flDEGRADED + flSAT + flUNCONF)

/-- The outcome of binning one scaled sample at a window position (R210): none discarded, some none outside, or a cell. -/
def denCell (xoff xdiv ybase yshift xbins ybins p : Nat) (y : Int) : Option (Option Nat) :=
  if p < xoff then none
  else
    let xb := (p - xoff) / xdiv
    let yb : Int := (y - sgn 16 ybase) / ((2 ^ yshift : Nat) : Int)
    if xbins ≤ xb || yb < 0 || (ybins : Int) ≤ yb then some none else some (some (xb * ybins + yb.toNat))

/-- The cells of a slot after a segment, with the counts outside and binned, and whether a counter is saturated (R210, R211). -/
def denSegment (s : State) (m n : Nat) (cells : List Cell) (t : Tab Nat) : Tab Nat × Nat × Nat × Bool :=
  let top := if s.st n R.ST_DEN_W32 = 1 then 2 ^ 32 - 1 else 2 ^ 16 - 1
  let f := fun (a : Tab Nat × Nat × Nat × Bool) (pc : Nat × Cell) =>
    match (if pc.2.rep = 0 then pc.2.y else none) with
    | none => a
    | some y =>
      match denCell (s.livei pgDen R.DEN_X_OFF m) (s.livei pgDen R.DEN_X_DIV m) (s.livei pgDen R.DEN_Y_BASE m)
          (s.livei pgDen R.DEN_Y_SHIFT m) (s.livei pgDen R.DEN_X_BINS m) (s.livei pgDen R.DEN_Y_BINS m) pc.1 y with
      | none => a
      | some none => (a.1, a.2.1 + 1, a.2.2)
      | some (some k) =>
        let v := Tab.get a.1 0 k
        let v' := min top (v + 1)
        (Tab.put a.1 k v', a.2.1, a.2.2.1 + 1, a.2.2.2 || decide (v' = top))
  (cells.mapIdx (fun i c => (i, c))).foldl f (t, 0, 0, false)

/-- The flags of the samples that a slot takes: those from X_OFF on that are not NO-DATA (R210, R212). -/
def denFlags (s : State) (m : Nat) (cells : List Cell) : Nat :=
  binFlags 0 [cells.drop (s.livei pgDen R.DEN_X_OFF m)]

/-- A map's hidden state. -/
def State.map (s : State) (m : Nat) : Map := Tab.get s.seg.maps { cells := [], ep := Epoch.reset } m

/-- A map's hidden state changes. -/
def modMap (m : Nat) (f : Map → Map) : Prog :=
  .seg fun g => { g with maps := Tab.mod g.maps { cells := [], ep := Epoch.reset } m f }

/-- A stream's epoch closes for a cause: 1 LIMIT, 2 LENGTH, 3 COMMAND, 4 DRAIN; the read-and-clear pass is due.  An epoch that took no
segment does not close (R204, R205). -/
def closeEpoch (n cause : Nat) : Prog :=
  .ask fun s => .when (decide (0 < (s.strm n).ep.segs) && (s.strm n).ep.closing = 0) (.all [
    modStrm n fun t => { t with ep := { t.ep with closing := cause, goReq := false } },
    .when (cause = 1) (incRaise pgAcc R.ACC_CNT_EPOCH_LIMIT 1),
    .when (cause = 2) (.inc pgAcc R.ACC_CNT_EPOCH_LEN),
    .when (cause = 3) (.inc pgAcc R.ACC_CNT_EPOCH_CMD)])

/-- A map's epoch closes (R212). -/
def closeMap (m cause : Nat) : Prog :=
  .ask fun s => .when (decide (0 < (s.map m).ep.segs) && (s.map m).ep.closing = 0)
    (modMap m fun t => { t with ep := { t.ep with closing := cause, goReq := false } })

/-- A stream's bins take a segment, and its epoch closes under the first condition that holds (R202 to R204, R208). -/
def accTake (n : Nat) (r : Req) (ix : Int) (qt flags : Nat) (cells : List Cell) : Prog :=
  .ask fun s => .all [
    modStrm n fun t => { t with bins := binSegment s n cells t.bins, ep := t.ep.take r ix qt flags },
    .ask fun s =>
      let t := s.strm n
      let len := s.livei pgAcc R.ACC_EPOCH_SEGS n
      if s.st n R.ST_ACC_EN = 1 && t.bins.any (fun b => decide (16777215 ≤ b.2.2)) then closeEpoch n 1
      else if len ≠ 0 && decide (len ≤ t.ep.segs) then closeEpoch n 2
      else .when t.ep.goReq (closeEpoch n 3)]

/-- A density slot takes a segment (R210 to R212). -/
def denTake (m n : Nat) (r : Req) (ix : Int) (qt flags : Nat) (cells : List Cell) : Prog :=
  .ask fun s =>
    let (t', out, binned, sat) := denSegment s m n cells (s.map m).cells
    .all [modMap m fun t => { cells := t', ep := { (t.ep.take r ix qt flags) with out := t.ep.out + out } },
      .addi pgDen R.DEN_CNT_OUT m out, .addi pgDen R.DEN_CNT_BINNED m binned,
      .when (sat && s.geti pgDen R.DEN_SAT m = 0) (.all [.seti pgDen R.DEN_SAT m 1, raise pgDen 1]),
      .ask fun s =>
        let len := s.livei pgDen R.DEN_EPOCH_SEGS m
        if len ≠ 0 && decide (len ≤ (s.map m).ep.segs) then closeMap m 2 else .when (s.map m).ep.goReq (closeMap m 3)]

/-- A write of ACC.EPOCH_GO: the named stream's accumulation or envelope epoch and its map epoch close, at once where the stream is idle
and else after the segment in progress; it is ignored unless a frame is open (R204, R208). -/
def epochGo (n : Nat) : Prog :=
  .ask fun s => .when (s.fstate = 2) (
    let busy : Bool := s.seg.extrs.any (fun e => e.2.req.stream = n)
    .all [
      .when (s.binned n) (if busy then modStrm n fun t => { t with ep := { t.ep with goReq := true } } else closeEpoch n 3),
      match s.slotOf n with
      | some m => if busy then modMap m fun t => { t with ep := { t.ep with goReq := true } } else closeMap m 3
      | none => .nil])

/-- The instant of the sample at an index of the frame in a stream's channel. -/
def State.indexInstant (s : State) (n : Nat) (ix : Int) : Nat :=
  let c := s.srcChan n
  s.instant (s.spc c) (ix + Tab.get s.seg.pos0 0 c)

/-- The ACC record of a closed epoch (R205, R206, R209, Table 8-3). -/
def accRecord (s : State) (n : Nat) : Rec :=
  let t := s.strm n
  let e := t.ep
  let b := s.binsOf n
  let env : Bool := s.st n R.ST_DEC_MODE = 4
  let norm : Bool := s.st n R.ST_NORM = 1
  let get (j : Nat) : Int × Int := Tab.get t.bins (0, 0) j
  let payload : List Byte :=
    if env then packMM16 ((List.range b).map fun j => match Tab.find t.bins j with
      | some (a, c) => (unsgn 16 a, unsgn 16 c)
      | none => (0x8000, 0x8000))
    else if norm then packS32 ((List.range b).map fun j =>
      if (get j).2 = 0 then 0x80000000 else unsgn 32 (divAway (256 * (get j).1) (get j).2.toNat))
    else (List.range b).flatMap fun j => packBin (get j).1 (get j).2.toNat
  let format := if env then 4 else if norm then 3 else 5
  { ty := 2, stream := n, dest := s.dest n, frame := s.frameNum, seq := e.lastSeq + 1 - e.segs, segs := e.segs, first := e.first,
    len := (e.last - e.first).toNat, cause := 0, merged := false, inRes := false, begun := false, queuedAt := s.now, code := e.code,
    qt := e.qt, qFirst := s.indexInstant n e.first,
    bytes := mkRecord
      { ver := s.strmVer n, ty := 2, stream := n, flags := accFlags e.flags + flFIRST + flLAST, frame := s.frameNum, seq := e.lastSeq,
        first := e.first, qt := e.qt, trig := e.code, format := format, decMode := s.st n R.ST_DEC_MODE, count := b,
        factor := s.factor n, ext := e.num } payload }

/-- The DEN record of a closed map epoch (R212, R232, Table 8-6). -/
def denRecord (s : State) (m n : Nat) : Rec :=
  let t := s.map m
  let e := t.ep
  let xb := s.livei pgDen R.DEN_X_BINS m
  let yb := s.livei pgDen R.DEN_Y_BINS m
  let w32 : Bool := s.st n R.ST_DEN_W32 = 1
  let axis := leBytes 4 (s.livei pgDen R.DEN_X_OFF m) ++ leBytes 4 (s.livei pgDen R.DEN_X_DIV m) ++ leBytes 2 xb ++ leBytes 2 yb ++
    leBytes 2 (s.livei pgDen R.DEN_Y_BASE m) ++ leBytes 1 (s.livei pgDen R.DEN_Y_SHIFT m) ++ leBytes 1 m ++ leBytes 8 e.segs ++
    leBytes 4 (min e.out 0xFFFFFFFF) ++ leBytes 4 0
  let counters := (List.range (xb * yb)).flatMap fun k => leBytes (if w32 then 4 else 2) (Tab.get t.cells 0 k)
  let sat := if s.geti pgDen R.DEN_SAT m = 1 then flSAT else 0
  { ty := 3, stream := n, dest := s.dest n, frame := s.frameNum, seq := e.lastSeq + 1 - e.segs, segs := e.segs, first := e.first,
    len := (e.last - e.first).toNat, cause := 0, merged := false, inRes := false, begun := false, queuedAt := s.now, code := e.code,
    qt := e.qt, qFirst := s.indexInstant n e.first,
    bytes := mkRecord
      { ver := 2, ty := 3, stream := n, flags := (accFlags e.flags ||| sat) + flFIRST + flLAST, frame := s.frameNum, seq := e.lastSeq,
        first := e.first, qt := e.qt, trig := e.code, format := if w32 then 7 else 6, decMode := 0, count := xb * yb, factor := 1,
        ext := e.num } (axis ++ counters) }

/-! ### Extractors (R21, R22, R173, R203, R213) -/

/-- Lowest number below n that is not taken. -/
def lowestFree (n : Nat) (taken : List Nat) : Option Nat := (which n fun k => !(taken.contains k)).head?

/-- Whether a free extractor may take a request: it is eligible, and a stream with bins or a map is neither served nor in a pass
(R203, R205, R212, R213).  A request whose stream needs an accumulation or density engine waits while none is free, and does not keep younger
requests from an extractor: R22 and R203 do not say which (DESIGN CHOICE, log entry 126). -/
def State.takeable (s : State) (r : Req) : Bool :=
  let n := r.stream
  let bins : Bool := s.binned n
  let den : Bool := (s.slotOf n).isSome
  let busy : Bool := s.seg.extrs.any (fun e => e.2.req.stream = n)
  r.st = 2 &&
    (!(bins || den) || (!busy && (s.strm n).ep.closing = 0 &&
      (match s.slotOf n with | some m => (s.map m).ep.closing = 0 | none => true))) &&
    (!bins || (lowestFree 8 (s.seg.extrs.filterMap (·.2.acc))).isSome) &&
    (!den || (lowestFree 4 (s.seg.extrs.filterMap (·.2.den))).isSome)

/-- The status bits of the engines (Table 7-7). -/
def engineStat : Prog :=
  .ask fun s => .all [
    .set pgAcc R.ACC_ACC_BUSY (maskOf 8 fun k => s.seg.extrs.any (fun e => e.2.acc = some k)),
    .set pgAcc R.ACC_DEN_BUSY (maskOf 4 fun k => s.seg.extrs.any (fun e => e.2.den = some k))]

/-- A free extractor takes the oldest eligible request and reads its window (R22, R173). -/
def extractionStart (k : Nat) : Prog :=
  .ask fun s =>
    if (Tab.find s.seg.extrs k).isSome then .nil
    else match s.seg.reqs.find? s.takeable with
    | none => .nil
    | some r =>
      let n := r.stream
      let c := s.srcChan n
      let ch := s.chan c
      let e : Extr := {
        req := r, start := s.time.cc, data := (List.range r.len).map (fun i => ch.word (r.first + i)), safe := s.oldestSafe c,
        acc := if s.binned n then lowestFree 8 (s.seg.extrs.filterMap (·.2.acc)) else none,
        den := if (s.slotOf n).isSome then lowestFree 4 (s.seg.extrs.filterMap (·.2.den)) else none }
      .all [.seg fun g => { g with reqs := g.reqs.erase r, extrs := Tab.put g.extrs k e }, engineStat]

/-- An extractor finishes its window: its samples pass the scaler, density, decimation and accumulation, and its records and pips wait
for the record builder in sequence order (R193, R22, R23). -/
def extractionDone (k : Nat) : Prog :=
  .ask fun s =>
    match Tab.find s.seg.extrs k with
    | none => .nil
    | some e =>
      let n := e.req.stream
      let c := s.srcChan n
      let cells := windowCells s e
      let ix := s.index c e.req.first
      let qt := if e.req.cont then s.instant (s.spc c) e.req.first else e.req.anchor
      let fl := binFlags (s.st n R.ST_DEC_MODE) ((chunks (s.factor n) (cells.length + 1) cells).take (s.binsOf n))
      let sc := scaledCells s e
      .all [
        .seg fun g => { g with extrs := Tab.del g.extrs k },
        engineStat,
        match s.slotOf n with | some m => denTake m n e.req ix qt (denFlags s m sc) sc | none => .nil,
        .when (s.binned n) (accTake n e.req ix qt fl cells),
        addBuilt n (e.req.seq.getD 0) (segItems s e cells), pump n]

/-- The read-and-clear pass of a stream's bins ends and its ACC record is built (R205, R209). -/
def accPassDone (n : Nat) : Prog :=
  .ask fun s =>
    let t := s.strm n
    .when (t.ep.closing ≠ 0) (.all [
      modStrm n fun t => { t with bins := [], ep := { Epoch.reset with num := t.ep.num + 1 } },
      addBuilt n t.ep.lastSeq [accRecord s n], pump n])

/-- The pass of a density map ends and its DEN record is built; a version 1 stream produces none (R212, R243). -/
def denPassDone (m : Nat) : Prog :=
  .ask fun s =>
    let t := s.map m
    let n := s.livei pgDen R.DEN_STREAM m
    .when (t.ep.closing ≠ 0) (.all [
      .seti pgDen R.DEN_SAT m 0,
      modMap m fun t => { cells := [], ep := { Epoch.reset with num := t.ep.num + 1 } },
      .when (s.strmVer n ≠ 1) (.all [.addi pgDen R.DEN_CNT_EPOCHS m 1, addBuilt n t.ep.lastSeq [denRecord s m n], pump n])])

/-! ### Meanings -/

/-- A free extractor takes the oldest eligible request (R22, R171, R173). -/
def execExtractionStart (extr : Nat) (s : State) : Host.Outcome State Fault Refusal := .next (run (extractionStart extr) s)

/-- An extractor finishes a window (R22, R175, R193). -/
def execExtractionDone (extr : Nat) (s : State) : Host.Outcome State Fault Refusal := .next (run (extractionDone extr) s)

/-- An epoch's read-and-clear pass ends: of a stream's bins, or of a density slot (R205, R212). -/
def execBinPassDone (den : Bool) (n : Nat) (s : State) : Host.Outcome State Fault Refusal :=
  .next (run (if den then denPassDone n else accPassDone n) s)

end Sys2Proof.Machine
end

