-- ==== Sys2Proof/Machine/Requests.lean ====
section
/-! DEFINITION. Segment requests and the closing of a frame: how triggers and CONTINUOUS streams make requests, when a request becomes
eligible, and what happens at t_close (R22, R149, R168 to R174, R179, R182, R184). -/

namespace Sys2Proof.Machine

/-! ### The request queue (R22, R174) -/

/-- Capacity of the request queue (R174). -/
def reqCap : Nat := 262144

/-- Whether a request stands before another: by trigger Q-time, then by stream (R22). -/
def Req.before (a b : Req) : Bool := decide (a.anchor < b.anchor) || (a.anchor = b.anchor && decide (a.stream ≤ b.stream))

/-- The queue with a request in its place (R22). -/
def insertReq (r : Req) : List Req → List Req
  | [] => [r]
  | x :: xs => if x.before r then x :: insertReq r xs else r :: x :: xs

/-- Whether a stream takes requests of triggers of definition d (R146, R190). -/
def State.follows (s : State) (d n : Nat) : Bool :=
  s.get (pgSt n) R.ST_IN_FRAME = 1 && s.st n R.ST_SRC_KIND = 0 && s.st n R.ST_TRIG_MODE = 0 && s.st n R.ST_TDEF = d

/-- The streams a trigger of a definition makes requests for: those bound to it that take requests with its anchor, and those that hold
a reserved request of it (R146, R149, R190). -/
def State.followers (s : State) (d anchor : Nat) : List Nat :=
  which 256 fun n => (s.follows d n && decide ((s.strm n).since ≤ anchor)) ||
    s.seg.reqs.any (fun r => r.stream = n && r.anchor = anchor && r.st = 0 && !r.cont && r.code % 16 = d)

/-- The position of the first sample of a stream's window for an anchor (R170). -/
def State.windowFirst (s : State) (n anchor : Nat) : Int :=
  s.posAt (s.spc (s.srcChan n)) anchor - s.st n R.ST_PRE_LEN

/-- A stream's request for a trigger. -/
def State.mkReq (s : State) (n anchor code : Nat) : Req :=
  { stream := n, seq := none, anchor := anchor, first := s.windowFirst n anchor, len := s.segLen n, code := code, st := 0,
    unconf := false, cont := false, cut := false }

/-- The trigger-source code (Table 5-2). -/
def trigCode (d src : Nat) (prov : Bool) : Nat := d + src * 16 + b2n prov * 2 ^ 14

/-- A provisional trigger reserves its streams' requests (R149); a request that finds the queue full is not queued (R174).  Nothing is reported
of it then, since the trigger may still be cancelled; at its confirmation it is queued or reported like one without a provisional phase (DESIGN
CHOICE, log entry 124). -/
def reserveReqs (d anchor code : Nat) : Prog :=
  .ask fun s => .each (s.followers d anchor) fun n => .seg fun g =>
    if g.reqs.length < reqCap then { g with reqs := insertReq (s.mkReq n anchor code) g.reqs } else g

/-- The next segment sequence number is taken (R179). -/
def takeSeq (n : Nat) : Prog :=
  .all [.add64 (pgSt n) R.ST_NEXT_SEQ_LO R.ST_NEXT_SEQ_HI 1, .inc (pgSt n) R.ST_CNT_SEG]

/-- Whether a queued request is the one a provisional trigger reserved for this one (R149). -/
def Req.reserved (r x : Req) : Bool := x.stream = r.stream && x.anchor = r.anchor && x.code = r.code && x.st = 0 && !x.cont

/-- A confirmed request takes its number and enters the queue, or is reported by a HISTORY_OVERRUN pip where the queue is full
(R174, R179). -/
def confirmReq (r : Req) : Prog :=
  .ask fun s =>
    let n := r.stream
    let q := s.nextSeq n
    let r' := { r with seq := some q, st := 1 }
    let c := s.srcChan n
    if s.seg.reqs.any r.reserved then
      .all [takeSeq n, .seg fun g => { g with reqs := modFirst r.reserved (fun x => { x with seq := some q, st := 1 }) g.reqs }]
    else if s.seg.reqs.length < reqCap then
      .all [takeSeq n, .seg fun g => { g with reqs := insertReq r' g.reqs }]
    else
      .all [takeSeq n, .inc (pgSt n) R.ST_CNT_REQ_FULL,
        addBuilt n q [pipRec s n 3 q 1 (s.index c r.first) r.len (s.instant (s.spc c) r.first) r.code], pump n]

/-- A confirmed trigger makes one request for each stream bound to its definition (R146, R149). -/
def confirmReqs (d anchor code : Nat) : Prog :=
  .ask fun s => .each (s.followers d anchor) fun n =>
    .ask fun s =>
      let r := s.mkReq n anchor code
      confirmReq r

/-- A cancelled trigger removes its requests (R149). -/
def dropReqs (d anchor : Nat) : Prog :=
  .seg fun g => { g with reqs := g.reqs.filter (fun r => !(r.st = 0 && !r.cont && r.anchor = anchor && r.code % 16 = d)) }

/-- The streams of a definition that keep requests past the deadline (R151). -/
def State.keepers (s : State) (d anchor : Nat) : List Nat := (s.followers d anchor).filter (fun n => s.st n R.ST_UNCONF_KEEP = 1)

/-- The requests of a trigger past its deadline: kept, marked UNCONF, by the streams that ask for it, and removed elsewhere (R151). -/
def keepReqs (d anchor code : Nat) : Prog :=
  .ask fun s => .all [
    .each (s.keepers d anchor) (fun n => .ask fun s => .all [
      confirmReq (s.mkReq n anchor code),
      .seg fun g => { g with reqs := g.reqs.map (fun r =>
        if r.stream = n && r.anchor = anchor && r.code = code then { r with unconf := true } else r) },
      .inc (pgSt n) R.ST_CNT_UNCONF]),
    dropReqs d anchor]

/-- Where a window ends for the purpose of waiting: at t_close for a stream that truncates (R171, R185). -/
def State.waitEnd (s : State) (r : Req) : Int :=
  let e := r.first + r.len
  if !r.cont && s.st r.stream R.ST_CLOSE = 1 then
    match s.seg.tClose with
    | some q => min e (s.posAt (s.spc (s.srcChan r.stream)) q)
    | none => e
  else e

/-- A confirmed request becomes eligible once the last sample of its window is readable (R171). -/
def requestEligible (n seq : Nat) : Prog :=
  .ask fun s => .seg fun g => { g with
    reqs := g.reqs.map (fun r =>
      if r.stream = n && r.seq = some seq && r.st = 1 && decide (s.waitEnd r ≤ s.top (s.srcChan n))
      then { r with st := 2 } else r) }

/-! ### CONTINUOUS segments (R170, R184) -/

/-- Whether a stream cuts its channel into back-to-back segments in this frame. -/
def State.continuous (s : State) (n : Nat) : Bool :=
  s.get (pgSt n) R.ST_IN_FRAME = 1 && s.st n R.ST_SRC_KIND = 0 && s.st n R.ST_TRIG_MODE = 1

/-- The position of the first sample of a stream's next CONTINUOUS segment. -/
def State.contFirst (s : State) (n : Nat) : Int := Tab.get s.seg.pos0 0 (s.srcChan n) + (s.strm n).contK * s.segLen n

/-- The next CONTINUOUS segment's request, once its first sample lies before a boundary at Q-time q. -/
def contSegment (n q : Nat) : Prog :=
  .ask fun s =>
    let c := s.srcChan n
    let x := s.contFirst n
    .when (s.continuous n && decide (s.instant (s.spc c) x < q)) (.all [
      modStrm n fun t => { t with contK := t.contK + 1 },
      confirmReq {
        stream := n, seq := none, anchor := s.instant (s.spc c) x, first := x, len := s.segLen n, code := 0xFFFF, st := 1,
        unconf := false, cont := true, cut := false }])

/-- Every CONTINUOUS segment of a stream that begins before Q-time q, and the end of the one that contains q at the last sample before
it, also of a stream that has been disabled meanwhile (R184, R190). -/
def contClose (n q : Nat) : Prog :=
  .ask fun s =>
    let c := s.srcChan n
    let e := s.posAt (s.spc c) q
    let due := if e ≤ s.contFirst n then 0 else ((e - 1 - s.contFirst n) / s.segLen n + 1).toNat
    .all [
      .when (s.continuous n) (.each (List.range due) (fun _ => contSegment n q)),
      .seg fun g => { g with
        reqs := g.reqs.map (fun r =>
          if r.stream = n && r.cont && decide (e < r.first + r.len) then { r with len := (e - r.first).toNat, cut := true } else r) }]

/-! ### Closing a frame (R182, R184) -/

/-- The close condition takes effect at a boundary with a Q-time, no earlier than t_open: definitions disarm, CONTINUOUS segments end, and the drain begins.  The
causes are 0 command, 1 count, 2 time, 3 gate (R182, R184).  Of two conditions at one boundary CLOSE_CAUSE names the first in this order
(Table 6-5). -/
def closeFrame (cause at_ : Nat) : Prog :=
  .ask fun s =>
    let q := max at_ s.seg.tOpen
    if s.fstate = 2 then .all [
      .each (List.range 256) (fun n => contClose n q),
      .seg fun g => { g with tClose := some q, drain := 0, drainTmo := s.get pgTop R.TOP_DRAIN_TMO },
      .trig fun t => { t with armUpto := some q },
      .set pgTop R.TOP_CLOSE_CAUSE cause,
      .setQ pgTop R.TOP_CLOSE_TIME q,
      .set pgTop R.TOP_STATE 3,
      raise pgTop 2]
    else .when (s.fstate = 3 && s.seg.tClose = some q && decide (cause < s.get pgTop R.TOP_CLOSE_CAUSE))
      (.set pgTop R.TOP_CLOSE_CAUSE cause)

/-- Frame settings as read at arming (R189): bits of FRAME_CFG. -/
def State.fcfg (s : State) (r : Row) : Nat := bits s.seg.cfg r.hi r.lo

/-- Another confirmed trigger of CLOSE_DEF in the open frame: counted, and the frame closes at the boundary that follows the count (R182). -/
def countTrigger (d : Nat) : Prog :=
  .ask fun s => .when (s.fstate = 2 && s.fcfg R.TOP_CLOSE_DEF = d) (.all [
    .inc pgTop R.TOP_TRIG_COUNT,
    .when (s.fcfg R.TOP_CLOSE_COUNT_EN = 1 && decide (s.seg.closeCount ≤ s.get pgTop R.TOP_TRIG_COUNT + 1)) (closeFrame 1 s.nextQ)])

/-! ### Meanings -/

/-- A confirmed request becomes eligible (R171). -/
def execRequestEligible (stream seq : Nat) (s : State) : Host.Outcome State Fault Refusal := .next (run (requestEligible stream seq) s)

/-- A CONTINUOUS stream reaches a segment boundary (R170). -/
def execContinuousSegment (stream : Nat) (s : State) : Host.Outcome State Fault Refusal :=
  .next (run (.ask fun s => .when (s.fstate = 2) (contSegment stream s.nowQ)) s)

/-- An open frame closes at t_open + FRAME_DUR, where CLOSE_TIME_EN is 1 (R182). -/
def execFrameDurExpiry (s : State) : Host.Outcome State Fault Refusal :=
  .next (run (.ask fun s => .when (s.fcfg R.TOP_CLOSE_TIME_EN = 1 && decide (s.seg.tOpen + nsQ s.seg.dur ≤ s.nowQ)) (closeFrame 2 s.nowQ)) s)

end Sys2Proof.Machine
end

