-- ==== Sys2Proof/Machine/Trigger.lean ====
section
/-! DEFINITION. The trigger engine: sources and levels, trigger units with sub-sample anchors, Boolean and sequence definitions,
holdoff, provisional triggers and their deadlines, TRIG_OUT pins and exported announcements (spec/05). -/

namespace Sys2Proof.Machine

/-! ### Sources and levels (R134, R144) -/

/-- The hidden state of a trigger unit, and of a definition. -/
def State.tu (s : State) (n : Nat) : Tu := Tab.get s.trig.tus Tu.reset n
def State.tdef (s : State) (d : Nat) : TDef := Tab.get s.trig.defs TDef.reset d

/-- Their changes. -/
def modTu (n : Nat) (f : Tu → Tu) : Prog := .trig fun t => { t with tus := Tab.mod t.tus Tu.reset n f }
def modDef (d : Nat) (f : TDef → TDef) : Prog := .trig fun t => { t with defs := Tab.mod t.defs TDef.reset d f }

/-- Live fields of a definition. -/
def State.td (s : State) (d : Nat) (r : Row) : Nat := s.livei pgTcomb r d

/-- The role of a source in term j of definition d: 0 ignore, 1 EVENT, 2 LEVEL_HIGH, 3 LEVEL_LOW (Table 5-11). -/
def State.role (s : State) (d j src : Nat) : Nat :=
  let w := (s.cell (pgTcomb.base + 0x850 + 0x50 * d + 16 * j + 4 * (src / 16))).toNat
  bits w (2 * (src % 16) + 1) (2 * (src % 16))

/-- The sources of a term that have a given role. -/
def State.withRole (s : State) (d j role : Nat) : List Nat := which 64 fun k => s.role d j k = role

/-- Terms a definition uses: four where it is Boolean, A, B and C where it is a sequence (R144, R145). -/
def State.terms (s : State) (d : Nat) : List Nat := if s.td d R.TCOMB_MODE = 2 then [0, 1, 2] else [0, 1, 2, 3]

/-- Whether an event of a source with an anchor finds the source inactive: a TRIG_IN, SW or FL source while TEXT is disabled, and for anchors
no later than the write that enabled it again (R162). -/
def State.srcOff (s : State) (src a : Nat) : Bool :=
  ((8 ≤ src && src < 12) || (40 ≤ src && src < 44) || 48 ≤ src) &&
    (!s.en pgText || (match s.trig.textOn with | some q => decide (a ≤ q) | none => false))

/-- The level of a source in force at an anchor (R144). -/
def State.levelAt (s : State) (src a : Nat) : Bool :=
  match ((Tab.find s.trig.levels src).getD []).find? (fun e => decide (e.1 ≤ a)) with
  | some e => e.2
  | none => false

/-- The last level that a source has taken. -/
def State.levelNow (s : State) (src : Nat) : Bool :=
  match (Tab.find s.trig.levels src).getD [] with
  | e :: _ => e.2
  | [] => false

/-- A level change in its place among those of its source, latest anchor first; of two at one anchor the later filed is in force. -/
def insertLevel (a : Nat) (v : Bool) : List (Nat × Bool) → List (Nat × Bool)
  | [] => [(a, v)]
  | x :: xs => if x.1 ≤ a then (a, v) :: x :: xs else x :: insertLevel a v xs

/-- A source's level changes at an anchor. -/
def setLevel (src a : Nat) (v : Bool) : Prog :=
  .trig fun t => { t with levels := Tab.put t.levels src (insertLevel a v ((Tab.find t.levels src).getD [])) }

/-- The channel a trigger unit watches (R21). -/
def State.tuChan (s : State) (n : Nat) : Nat := bankChan (s.mode (dieOf n)) n

/-- Whether a local source's level, and its edges, are known up to an anchor (R144): a trigger unit has taken every sample up to it, and no
edge that is still to come can have it, as edges of a pin are anchored in their CCLK period, stamps at most 101 taps before a phase edge of
theirs, and timers at their expiry. -/
def State.decided (s : State) (src a : Nat) : Bool :=
  if src < 8 then
    !s.en (pgTu src) || !s.chanOn (s.tuChan src) || (s.chan (s.tuChan src)).stopped ||
      decide (a < s.instant (s.spc (s.tuChan src)) ((s.tu src).next - 1))
  else if 32 ≤ src && src < 40 then decide (a < s.now)
  else decide (a < s.nowQ) && (!s.scsRun ||
    (if src < 12 then (match s.pinStamp s.time.cc 0 100 with | some q => decide (a < q) | none => true)
     else if 16 ≤ src && src < 32 then s.tie.isNone ||
       decide (a < s.stampQ (src - 16) { c := s.time.cc, j := 0, m := 100, falling := false, presc := false, cnt := 0, ovf := false })
     else true))

/-- Whether every event of a local source up to an anchor has been decided: its edges are known, and no stamp up to it waits for conversion
(R144). -/
def State.eventsKnown (s : State) (src a : Nat) : Bool :=
  s.decided src a && (!(16 ≤ src && src < 32) || (s.tdc (src - 16)).fifo.all fun r => decide (a < s.stampQ (src - 16) r))

/-- Whether every event of a source up to an anchor has been decided, for sequence definitions (R145): of an FL source once local Q-time has
reached the anchor plus CONF_DEADLINE, of a local one when it holds no candidate anchored before it either. -/
def State.settled (s : State) (src a : Nat) : Bool :=
  if 48 ≤ src then decide (a + nsQ (s.live pgText R.TEXT_CONF_DEADLINE) ≤ s.now)
  else s.eventsKnown src a && (!(src < 8) || (s.tu src).cands.all (fun c => decide (a ≤ c.anchor)))

/-- Whether term j fires on an event of a source at an anchor (R144). -/
def State.termFires (s : State) (d j src a : Nat) : Bool :=
  s.role d j src = 1 && (s.withRole d j 2).all (fun k => s.levelAt k a) && (s.withRole d j 3).all (fun k => !s.levelAt k a)

/-- Whether what a definition needs to act on an event is known (R144): the levels of the terms the event may fire, its arming level, and,
since the lowest source index at an anchor decides, whether a local source of lower index that feeds the definition fires there too.  FL
sources, whose messages may come at any time, are not waited for (DESIGN CHOICE, log entry 120). -/
def State.levelsKnown (s : State) (d src a : Nat) : Bool :=
  (which (min src 48) fun k => (s.terms d).any (fun j => s.role d j k = 1)).all (fun k => s.eventsKnown k a) &&
  (s.terms d).all (fun j => s.role d j src ≠ 1 ||
    (s.withRole d j 2 ++ s.withRole d j 3).all (fun k => s.decided k a)) &&
  (s.td d R.TCOMB_ARM_EN = 0 || s.decided (s.td d R.TCOMB_ARM_SRC) a)

/-- A count of CCLK periods in 2^-48 s (R256). -/
def State.cclkDur (s : State) (n : Nat) : Nat :=
  match s.tie with
  | some t => (divAway (n * t.per : Nat) (2 ^ 16)).toNat
  | none => Config.freeValue (s.free + n)

/-! ### Holdoff (R147) -/

/-- The end of the TIME part of the holdoff of a trigger confirmed at an anchor. -/
def State.holdUntil (s : State) (d a0 : Nat) : Nat :=
  a0 + s.cclkDur (s.td d R.TCOMB_HOLD_TIME_LO + s.td d R.TCOMB_HOLD_TIME_HI * 2 ^ 32)

/-- Whether the TIME part, the SEGMENT rule and the COUNT part of a definition's holdoff cover an anchor, which is later than that of the
trigger that started it. -/
def State.holdTime (s : State) (d a : Nat) : Bool :=
  (s.td d R.TCOMB_HOLD_MODE = 1 || s.td d R.TCOMB_HOLD_MODE = 3) &&
    (s.tdef d).holds.any fun h => decide (h.1 < a) && decide (a < s.holdUntil d h.1)

/-- SEGMENT: no later than the last sample of the latest window. -/
def State.holdSeg (s : State) (d a : Nat) : Bool :=
  s.td d R.TCOMB_HOLD_MODE = 4 &&
    (s.tdef d).holds.any fun h => decide (h.1 < a) && (match h.2 with | some e => decide (a ≤ e) | none => false)

/-- COUNT holdoff is active: triggers remain to be discarded. -/
def State.countActive (s : State) (d : Nat) : Bool :=
  (s.td d R.TCOMB_HOLD_MODE = 2 || s.td d R.TCOMB_HOLD_MODE = 3) && decide (0 < (s.tdef d).holdLeft)

/-- COUNT: an anchor later than that of the last confirmed trigger, while triggers remain to be discarded. -/
def State.holdCount (s : State) (d a : Nat) : Bool :=
  s.countActive d && (match (s.tdef d).holds with | h :: _ => decide (h.1 < a) | [] => false)

/-- Whether a holdoff covers an anchor. -/
def State.held (s : State) (d a : Nat) : Bool := s.holdTime d a || s.holdSeg d a || s.holdCount d a

/-- The definitions of which a holdoff is active now (HOLDING of Table 5-12). -/
def State.holding (s : State) : Nat :=
  maskOf 16 fun d => s.countActive d || s.holdTime d s.nowQ || s.holdSeg d s.nowQ

/-- A trigger that holdoff discards at an anchor: counted, and one fewer remains under COUNT (R147). -/
def holdDiscard (d a : Nat) : Prog :=
  .ask fun s => .all [.addi pgTcomb R.TCOMB_CNT_HOLDOFF_DISCARD d 1,
    .when (s.holdCount d a) (modDef d fun t => { t with holdLeft := t.holdLeft - 1 })]

/-- A confirmed trigger at an anchor starts its definition's holdoff (R147). -/
def startHold (d a : Nat) : Prog :=
  .ask fun s =>
    let ends := (s.followers d a).map fun n =>
      s.instant (s.spc (s.srcChan n)) (s.windowFirst n a + s.segLen n - 1)
    modDef d fun t => { t with holds := (a, ends.max?) :: t.holds, holdLeft := s.td d R.TCOMB_HOLD_COUNT }

/-! ### TRIG_OUT and TRIG_CXL (R154, R155) -/

/-- The state of a TRIG_OUT pin. -/
def State.tout (s : State) (n : Nat) : TOut := Tab.get s.trig.touts TOut.reset n
def modTout (n : Nat) (f : TOut → TOut) : Prog := .trig fun t => { t with touts := Tab.mod t.touts TOut.reset n f }

/-- A pin at its active or inactive level, by POL. -/
def toutPin (n pin : Nat) (on : Bool) : Prog := .ask fun s => .out (.pin pin (on != (s.livei pgText R.TEXT_OPOL n = 1 : Bool)))

/-- TRIG_OUTn pulses, or the trigger is dropped and counted (R155). -/
def pulseOut (n : Nat) (prov : Option Nat) : Prog :=
  .ask fun s =>
    let t := s.tout n
    let near : Bool := match t.start with
      | some c => decide (s.time.cc < c + s.livei pgText R.TEXT_WIDTH n + 2)
      | none => false
    if !s.en pgText then .nil
    else if near || t.prov.isSome then .all [.addi pgText R.TEXT_CNT_TOUT_DROP n 1, raise pgText (5 + n)]
    else .all [modTout n fun t => { t with
        start := some s.time.cc, prov := prov, outOn := true, outEnd := s.time.cc + s.livei pgText R.TEXT_WIDTH n },
      .setBit pgText R.TEXT_TOUT_OPEN n prov.isSome, toutPin n (pinTrigOut n) true]

/-- The kinds of announcement (R148). -/
inductive Ann where
  | provisional
  | confirmed
  | cancelled
  deriving DecidableEq, Repr

/-- TRIG_OUTn follows an announcement of its definition (R154). -/
def toutAnnounce (d a : Nat) (k : Ann) (phase : Bool) : Prog :=
  .ask fun s => .each (which 4 fun n => s.livei pgText R.TEXT_DEF n = d) fun n =>
    match s.livei pgText R.TEXT_MODE n, k with
    | 1, .confirmed => pulseOut n none
    | 2, .provisional => pulseOut n (some a)
    | 2, .confirmed =>
      if (s.tout n).prov = some a then
        .all [modTout n fun t => { t with prov := none }, .setBit pgText R.TEXT_TOUT_OPEN n false]
      else .when (!phase) (pulseOut n none)
    | 2, .cancelled =>
      .when ((s.tout n).prov = some a) (.all [
        modTout n fun t => { t with prov := none },
        .setBit pgText R.TEXT_TOUT_OPEN n false,
        .when (s.en pgText) (.all [
          modTout n fun t => { t with cxlOn := true, cxlEnd := s.time.cc + s.livei pgText R.TEXT_WIDTH n },
          toutPin n (pinTrigCxl n) true])])
    | _, _ => .nil

/-! ### Export on the Filmund link (R150, R318) -/

/-- A trigger or gate message (Table 11-7). -/
def anchorMsg (s : State) (ty line anchor : Nat) : Msg :=
  { ty := ty, line := line, route := 1, src := s.get pgFlink R.FLINK_DEV_ID, dst := 0, hops := 0, tag := 0,
    data := [(anchor / 2 ^ 48) % 2 ^ 48 + (anchor % 2 ^ 16) * 2 ^ 48, (anchor / 2 ^ 16) % 2 ^ 32] }

/-- A trigger message leaves by every ACTIVE port but one whose FWD_MASK includes its line; a version 1 port takes TRIG_CONF only
(R318). -/
def floodTrig (m : Msg) (but : Option Nat) : Prog :=
  .ask fun s => .each (which 4 fun p => decide (some p ≠ but) && s.portState p = 6 && bit (s.get (pgFport p) R.FPORT_FWD_MASK) m.line &&
    s.portPermits p m.ty) fun p => sendLink p m

/-- An announcement is exported where LINK_EXPORT is 1: one without a provisional phase, and any on a version 1 port, as its TRIG_CONF
alone (R150). -/
def exportTrig (d a : Nat) (k : Ann) : Prog :=
  .ask fun s => .when (s.td d R.TCOMB_LINK_EXPORT = 1)
    (floodTrig (anchorMsg s (match k with | .provisional => 1 | .confirmed => 2 | .cancelled => 3) (s.td d R.TCOMB_LINK_LINE) a) none)

/-- An announcement of a definition goes to the pins and the link (R148). -/
def announce (d a : Nat) (k : Ann) (phase : Bool) : Prog := .all [toutAnnounce d a k phase, exportTrig d a k]

/-! ### Definitions (R146, R148, R151) -/

/-- The PROV status bit of a definition. -/
def provStat (d : Nat) : Prog :=
  .ask fun s => .setBit pgTcomb R.TCOMB_PROV d ((s.tdef d).provs.any (·.phase))

/-- Whether a definition is suspended (Table 5-6). -/
def State.suspended (s : State) (d : Nat) : Bool := bit (s.get pgTcomb R.TCOMB_SUSPENDED) d

/-- Whether a definition is armed at an anchor (R146). -/
def State.armed (s : State) (d a : Nat) : Bool :=
  (match s.trig.armFrom with | some f => decide (f ≤ a) | none => false) &&
  (match s.trig.armUpto with | some u => decide (a < u) | none => true) &&
  (s.td d R.TCOMB_ARM_EN = 0 || (s.levelAt (s.td d R.TCOMB_ARM_SRC) a == (s.td d R.TCOMB_ARM_POL = 1 : Bool)))

/-- What is kept of the remote trigger on an FL source with an anchor changes; a local source has none (R151, R152). -/
def modRemote (src a : Nat) (f : Remote → Remote) : Prog :=
  .when (decide (48 ≤ src)) (.trig fun t => { t with remotes := modFirst (fun r => 48 + r.line = src && r.anchor = a && r.st ≠ 3) f t.remotes })

/-- The earliest provisional trigger of a definition takes its outcome (R148, R151). -/
def finalize (d : Nat) (p : Prov) (ok : Bool) : Prog :=
  .ask fun s =>
    let code := trigCode d p.src p.phase
    let cover : Bool := ok && s.held d p.anchor
    let ok' := ok && !cover
    let announced := p.phase && !p.silent
    .all [
      .when cover (holdDiscard d p.anchor),
      if announced then announce d p.anchor (if ok' then .confirmed else .cancelled) p.phase
      else .when ok' (announce d p.anchor .confirmed p.phase),
      if ok' then
        .all [startHold d p.anchor, .addi pgTcomb R.TCOMB_CNT_FIRED d 1, confirmReqs d p.anchor code, countTrigger d]
      else
        .all [.addi pgTcomb R.TCOMB_CNT_CANCELLED d 1,
          .when p.phase (raise pgTcomb 1),
          if p.late then
            .all [.when (!(s.keepers d p.anchor).isEmpty) (.addi pgTcomb R.TCOMB_CNT_UNCONF d 1),
              modRemote p.src p.anchor fun r => { r with kept := r.kept ++ (s.keepers d p.anchor).map fun n => (d, n) },
              keepReqs d p.anchor code]
          else dropReqs d p.anchor]]

/-- Resolved triggers of a definition take their outcome in anchor order, none before an earlier one (R148). -/
def defDrain (d : Nat) : Nat → Prog
  | 0 => .nil
  | k + 1 => .ask fun s =>
    match (s.tdef d).provs with
    | p :: ps =>
      match p.done with
      | some ok => .all [modDef d fun t => { t with provs := ps }, finalize d p ok, provStat d, defDrain d k]
      | none => provStat d
    | [] => provStat d

/-- Every trigger of a definition that can take its outcome does. -/
def defSettle (d : Nat) : Prog := .ask fun s => defDrain d ((s.tdef d).provs.length + 1)

/-- A trigger among the provisional ones, in anchor order. -/
def insertProv (p : Prov) : List Prov → List Prov
  | [] => [p]
  | x :: xs => if x.anchor ≤ p.anchor then x :: insertProv p xs else p :: x :: xs

/-- The trigger of a definition that began at an anchor with a source is resolved. -/
def defResolve (d a src : Nat) (ok late : Bool) : Prog :=
  .all [modDef d fun t => { t with
      provs := modFirst (fun p => p.anchor = a && p.src = src && p.done.isNone) (fun p => { p with done := some ok, late := late }) t.provs },
    defSettle d]

/-- An event of a definition with an anchor, by its deciding source (R148). -/
def defEvent (d a src : Nat) (prov : Bool) : Prog :=
  .ask fun s =>
    if s.suspended d then .nil
    else if !s.armed d a then .addi pgTcomb R.TCOMB_CNT_ARM_DISCARD d 1
    else if s.holdTime d a || s.holdSeg d a then holdDiscard d a
    else if !prov then
      .all [modRemote src a fun r => { r with defs := d :: r.defs }, modDef d fun t => { t with
          provs := insertProv { anchor := a, src := src, phase := false, silent := false, done := some true, late := false } t.provs },
        defSettle d]
    else if 4 ≤ ((s.tdef d).provs.filter (·.phase)).length then
      .all [.addi pgTcomb R.TCOMB_CNT_MISSED d 1, raise pgTcomb 5]
    else
      let silent := s.countActive d
      .all [
        modRemote src a fun r => { r with defs := d :: r.defs },
        .when (!silent) (announce d a .provisional true),
        modDef d fun t => { t with
          provs := insertProv { anchor := a, src := src, phase := true, silent := silent, done := none, late := false } t.provs },
        reserveReqs d a (trigCode d src true), provStat d]

/-! ### Sequences (R145) -/

/-- Sources that take part in the given terms of a definition. -/
def State.termSources (s : State) (d : Nat) (js : List Nat) : List Nat := which 64 fun k => js.any fun j => s.role d j k ≠ 0

/-- The end of a sequence's wait: a_A + SEQ_T. -/
def State.seqEnd (s : State) (d aA : Nat) : Nat := aA + s.cclkDur (s.td d R.TCOMB_SEQ_T)

/-- A sequence's wait ends without its trigger; its provisional trigger is cancelled under SEQ_ANCHOR = A. -/
def seqStop (d : Nat) : Prog :=
  .ask fun s =>
    match (s.tdef d).seqWait with
    | some (aA, srcA) =>
      .all [modDef d fun t => { t with seqWait := none },
        .when (s.td d R.TCOMB_SEQ_ANCHOR = 0) (defResolve d aA srcA false false)]
    | none => .nil

/-- A sequence takes the firing of term A, B or C at an anchor. -/
def seqTake (d term a src : Nat) : Prog :=
  .ask fun s =>
    match term with
    | 0 => .all [seqStop d, modDef d fun t => { t with seqWait := some (a, src) },
        .when (s.td d R.TCOMB_SEQ_ANCHOR = 0) (defEvent d a src true)]
    | 1 =>
      match (s.tdef d).seqWait with
      | some (aA, srcA) =>
        .when (decide (aA < a) && decide (a < s.seqEnd d aA)) (.all [
          modDef d fun t => { t with seqWait := none },
          if s.td d R.TCOMB_SEQ_ANCHOR = 0 then defResolve d aA srcA true false else defEvent d a src false])
      | none => .nil
    | _ => seqStop d

/-- The rank of a term among firings at one anchor: C first, then B, then A (R145; DEDUCED for A and B, log entry 15). -/
def termRank (term : Nat) : Nat := 2 - term

/-- A firing in anchor order. -/
def insertFiring (f : Nat × Nat × Nat) : List (Nat × Nat × Nat) → List (Nat × Nat × Nat)
  | [] => [f]
  | x :: xs =>
    if x.2.1 < f.2.1 || (x.2.1 = f.2.1 && termRank x.1 ≤ termRank f.1) then x :: insertFiring f xs else f :: x :: xs

/-- Whether every source of some terms of a sequence has been decided up to an anchor, and none of its events waits for a level (R145). -/
def State.seqReady (s : State) (d : Nat) (js : List Nat) (a : Nat) : Bool :=
  (s.termSources d js).all (fun k => s.settled k a) && !(s.trig.waiting.any fun w => w.1 = d && decide (w.2.anchor ≤ a))

/-- A sequence takes every firing, and the expiry of its wait, up to the anchors at which its sources are decided (R145). -/
def seqRunN (d : Nat) : Nat → Prog
  | 0 => .nil
  | k + 1 => .ask fun s =>
    let t := s.tdef d
    let expiry : Option Nat := t.seqWait.map fun w => s.seqEnd d w.1
    match t.firings with
    | (term, a, src) :: rest =>
      let first : Bool := match expiry with | some e => decide (a < e) | none => true
      if first then
        .when (s.seqReady d [0, 1, 2] a) (.all [
          modDef d fun t => { t with firings := rest, seqAt := a }, seqTake d term a src, seqRunN d k])
      else
        let e := expiry.getD 0
        .when (s.seqReady d [1, 2] e) (.all [seqStop d, modDef d fun t => { t with seqAt := max t.seqAt e }, seqRunN d k])
    | [] => .nil

/-- A sequence runs as far as it can. -/
def seqRun (d : Nat) : Prog := .ask fun s => seqRunN d (2 * (s.tdef d).firings.length + 1)

/-- A term of a sequence fires; an FL firing whose anchor the sequence has passed is discarded and counted (R145). -/
def seqFire (d term a src : Nat) : Prog :=
  .ask fun s =>
    if 48 ≤ src && decide (a < (s.tdef d).seqAt) then .all [.addi pgTcomb R.TCOMB_CNT_LATE d 1, raise pgTcomb 6]
    else modDef d fun t => { t with firings := insertFiring (term, a, src) t.firings }

/-- The wait of a sequence ends at a_A + SEQ_T, once every source of terms B and C is decided up to it (R145). -/
def seqWaitExpiry (d : Nat) : Prog :=
  .ask fun s =>
    match (s.tdef d).seqWait with
    | some (aA, _) =>
      let e := s.seqEnd d aA
      .all [seqRun d, .ask fun s => .when ((s.tdef d).seqWait.map (·.1) = some aA && decide (e ≤ max s.now s.nowQ) && s.seqReady d [1, 2] e)
        (.all [seqStop d, modDef d fun t => { t with seqAt := max t.seqAt e }])]
    | none => .nil

/-! ### Events of sources (R134, R140, R144) -/

/-- An event of a definition whose levels are known acts on it.  A sequence counts each event that it discards because it is disarmed (R146). -/
def takeEvent (d : Nat) (e : SrcEv) : Prog :=
  .ask fun s =>
    let js := (s.terms d).filter (fun j => s.termFires d j e.src e.anchor)
    if js.isEmpty then .nil
    else if s.td d R.TCOMB_MODE = 2 then
      if s.suspended d then .nil
      else if !s.armed d e.anchor then .addi pgTcomb R.TCOMB_CNT_ARM_DISCARD d 1
      else .each js (fun j => seqFire d j e.anchor e.src)
    else if (s.tdef d).taken.contains e.anchor then .nil
    else
      .all [modDef d fun t => { t with taken := e.anchor :: t.taken },
        defEvent d e.anchor e.src e.prov,
        match e.res with
        | some ok => .when e.prov (defResolve d e.anchor e.src ok e.late)
        | none => .nil]

/-- Waiting events whose levels are now known act on their definitions, of those at one anchor the lowest source index first, and
sequences run (R144, R145). -/
def settleN : Nat → Prog
  | 0 => .nil
  | k + 1 => .ask fun s =>
    let ready := fun (w : Nat × SrcEv) => s.levelsKnown w.1 w.2.src w.2.anchor &&
      !s.trig.waiting.any (fun v => v.1 = w.1 && v.2.anchor = w.2.anchor && decide (v.2.src < w.2.src))
    match s.trig.waiting.find? ready with
    | some w => .all [.trig fun t => { t with waiting := t.waiting.erase w }, takeEvent w.1 w.2, settleN k]
    | none => .each (which 16 fun d => s.td d R.TCOMB_MODE = 2) seqRun

/-- The combiner goes as far as it can. -/
def trigSettle : Prog := .ask fun s => settleN (s.trig.waiting.length + 1)

/-- Definitions of a mode in which a source has the EVENT role, for an event with an anchor. -/
def State.usersOf (s : State) (src mode a : Nat) : List Nat :=
  if s.srcOff src a || !s.en pgTcomb then []
  else which 16 fun d => s.td d R.TCOMB_MODE = mode && (s.terms d).any (fun j => s.role d j src = 1)

/-- An event of a source reaches the definitions that name it: a Boolean one at once, a sequence once it is confirmed (R144, R145). -/
def srcEvent (src a : Nat) (prov : Bool) : Prog :=
  .ask fun s =>
    let ev : SrcEv := { src := src, anchor := a, prov := prov, res := none, late := false }
    .all [.trig fun t => { t with
        waiting := t.waiting ++ (s.usersOf src 1 a).map (fun d => (d, ev)) ++
          (if prov then [] else (s.usersOf src 2 a).map (fun d => (d, ev))) },
      trigSettle]

/-- The provisional phase of a source's event ends (R144, R148). -/
def srcResolve (src a : Nat) (ok late : Bool) : Prog :=
  .ask fun s =>
    let ev : SrcEv := { src := src, anchor := a, prov := false, res := none, late := false }
    .all [.trig fun t => { t with
        waiting := t.waiting.map (fun w => if w.2.src = src && w.2.anchor = a && w.2.prov && w.2.res.isNone
            then (w.1, { w.2 with res := some ok, late := late }) else w) ++
          (if ok then (s.usersOf src 2 a).map (fun d => (d, ev)) else []) },
      .each (which 16 fun d => s.td d R.TCOMB_MODE = 1) (fun d => defResolve d a src ok late),
      trigSettle]

/-- 200 ps in 2^-48 s (R140). -/
def missWindow : Nat := 56295

/-- An event of a pin or event input, discarded less than 200 ps after the source's previous one (R140). -/
def pinEvent (src a : Nat) (missed : Prog) : Prog :=
  .ask fun s =>
    let near : Bool := match Tab.find s.trig.lastEv src with | some p => decide (a < p + missWindow) | none => false
    if near then missed
    else .all [.trig fun t => { t with lastEv := Tab.put t.lastEv src a }, srcEvent src a false]

/-! ### Trigger units (R136 to R142) -/

/-- A Schmitt comparator takes a sample: 2 is UNKNOWN (R136). -/
def cmpStep (q : Nat) (l h x : Int) : Nat :=
  if q = 2 then b2n (decide (l ≤ x))
  else if q = 0 && decide (l ≤ x) then 1
  else if q = 1 && decide (x < l - h) then 0
  else q

/-- The transition a comparator makes: true rising, false falling. -/
def transition (q q' : Nat) : Option Bool := if q = 0 && q' = 1 then some true else if q = 1 && q' = 0 then some false else none

/-- The cubic through four samples at -1, 0, 1 and 2, and its derivative (R142). -/
def cubic (ym y0 y1 y2 t : ℚ) : ℚ × ℚ :=
  let a1 := -ym / 3 - y0 / 2 + y1 - y2 / 6
  let a2 := ym / 2 - y0 + y1 / 2
  let a3 := -ym / 6 + y0 / 2 - y1 / 2 + y2 / 6
  (y0 + t * (a1 + t * (a2 + t * a3)), a1 + t * (2 * a2 + t * (3 * a3)))

/-- Newton steps from an estimate; none where it leaves [0, 1] or the slope is 0 (R142). -/
def newton (p : ℚ → ℚ × ℚ) (c : ℚ) : Nat → ℚ → Option ℚ
  | 0, f => some f
  | k + 1, f =>
    let v := p f
    if v.2 = 0 then none
    else
      let f' := f - (v.1 - c) / v.2
      if f' < 0 || 1 < f' then none else newton p c k f'

/-- A corrected sample the cubic refinement may use (R142). -/
def cubicUsable (w : Nat) : Bool := w ≠ 0x8000 && w ≠ 0x10000 && w ≠ 0x7FFF && w ≠ 0x8001

/-- Round half away from zero for a fraction that is not negative. -/
def roundRat (f : ℚ) : Int := (f + 1 / 2).floor

/-- The anchor of a transition at sample i through crossing level c, and whether the linear estimate stood in for the cubic for want of
samples (R142). -/
def crossing (s : State) (ch : Chan) (spc rate : Nat) (interp : Bool) (i : Nat) (c : Int) : Nat × Bool :=
  let w (k : Int) : Nat := ch.word (i + k)
  let v (k : Int) : ℚ := (sgn 16 (w k) : ℚ)
  let lin : ℚ := ((c : ℚ) - v (-1)) / (v 0 - v (-1))
  let ok := cubicUsable (w (-2)) && cubicUsable (w (-1)) && cubicUsable (w 0) && cubicUsable (w 1)
  let f : ℚ := if interp && ok then (newton (cubic (v (-2)) (v (-1)) (v 0) (v 1)) c 2 lin).getD lin else lin
  let fi := roundRat (f * 65536)
  ((s.instant spc ((i : Int) - 1) + divAway (fi * 2 ^ 48) (rate * 65536)).toNat, interp && !ok)

/-- What a transition at sample i does to a candidate: confirmed, cancelled, or neither (Table 5-3). -/
def candOutcome (cond dir qual t1 t2 i : Nat) (ta tb : Option Bool) (c : Cand) : Option Bool :=
  let w := i - c.i0
  if cond = 3 then
    if c.pos then (if tb = some true then some false else if ta = some false then some true else none)
    else (if ta = some false then some false else if tb = some true then some true else none)
  else
    let closing : Bool :=
      if cond = 2 then ta = some (!c.pos)
      else match ta with | some r => dir = 2 || (r = (dir = 0 : Bool)) | none => false
    match qual with
    | 0 => if closing && w < t1 then some true else if t1 ≤ w then some false else none
    | 1 => if t1 + 1 ≤ w then some true else if closing then some false else none
    | _ => if closing then some (decide (t1 ≤ w) && decide (w ≤ t2)) else if t2 + 1 ≤ w then some false else none

/-- A trigger unit's candidate is resolved and counted. -/
def candDone (n : Nat) (c : Cand) (ok : Bool) : Prog :=
  .all [modTu n fun t => { t with cands := t.cands.erase c },
    .inc (pgTu n) (if ok then R.TU_CNT_CONFIRMED else R.TU_CNT_CANCELLED), srcResolve n c.anchor ok false]

/-- A decision begins: discarded within 200 ps of the previous one, else confirmed at once or a candidate (R138, R140). -/
def decide' (n i a : Nat) (pos prov lin : Bool) : Prog :=
  .ask fun s =>
    let near : Bool := match (s.tu n).lastA with | some p => decide (a < p + missWindow) | none => false
    .all [.inc (pgTu n) R.TU_CNT_DECISIONS,
      .when lin (.inc (pgTu n) R.TU_CNT_INTERP_LIN),
      if near then incRaise (pgTu n) R.TU_CNT_MISSED 3
      else .all [modTu n fun t => { t with
            lastA := some a, cands := if prov then t.cands ++ [{ i0 := i, anchor := a, pos := pos }] else t.cands },
          .when (!prov) (.inc (pgTu n) R.TU_CNT_CONFIRMED),
          srcEvent n a prov]]

/-- The level of a unit: QA, or the inside state under WINDOW; 0 while a comparator is UNKNOWN (R137). -/
def tuLevel (cond qa qb : Nat) : Bool := qa ≠ 2 && qb ≠ 2 && qa = 1 && (cond ≠ 1 || qb = 0)

/-- A unit's level becomes v at an anchor: recorded for the combiner, and STUCK clears when it becomes inactive (R141, R144). -/
def tuSetLevel (n a cc : Nat) (v : Bool) : Prog :=
  .ask fun s => .all [setLevel n a v, modTu n fun t => { t with actAt := if v then some cc else none },
    .when (!v && s.get (pgTu n) R.TU_STUCK = 1) (.all [.set (pgTu n) R.TU_STUCK 0, raise (pgTu n) 2])]

/-- Status of a trigger unit (Table 5-10). -/
def tuStat (n : Nat) : Prog :=
  .ask fun s =>
    let t := s.tu n
    .all [.set (pgTu n) R.TU_QA (t.qa % 2), .set (pgTu n) R.TU_QB (t.qb % 2),
      .set (pgTu n) R.TU_KNOWN (b2n (t.qa ≠ 2 && t.qb ≠ 2)), .set (pgTu n) R.TU_CANDIDATE (b2n (!t.cands.isEmpty))]

/-- A unit's comparators become UNKNOWN and its candidates are cancelled (R139). -/
def tuUnknown (n a : Nat) : Prog :=
  .ask fun s =>
    let t := s.tu n
    .all [.when (s.levelNow n) (tuSetLevel n a 0 false),
      modTu n fun t => { t with qa := 2, qb := 2 },
      .each t.cands (fun c => candDone n c false), tuStat n]

/-- The decisions a pair of transitions opens: crossing level, direction, and whether there is a provisional phase (Table 5-3). -/
def openings (cond dir : Nat) (ta tb : Option Bool) (wasIn nowIn : Bool) (la lb h : Int) : List (Int × Bool × Bool) :=
  let levA := match ta with | some false => la - h | _ => la
  let levB := match tb with | some false => lb - h | _ => lb
  let sel (t : Option Bool) : Bool := match t with | some r => dir = 2 || (r = (dir = 0 : Bool)) | none => false
  match cond with
  | 0 => if sel ta then [(levA, ta = some true, false)] else []
  | 1 => if wasIn ≠ nowIn && (dir = 2 || (nowIn = (dir = 0 : Bool))) then
      [(if ta.isSome then levA else levB, nowIn, false)] else []
  | 3 => (if ta = some true && (dir = 0 || dir = 2) then [(levA, true, true)] else []) ++
      (if tb = some false && (dir = 1 || dir = 2) then [(levB, false, true)] else [])
  | _ => if sel ta then [(levA, ta = some true, true)] else []

/-- A trigger unit takes its next corrected sample, once the one after it is there for the interpolation (R136 to R142). -/
def tuSample (n : Nat) : Prog :=
  .ask fun s =>
    let t := s.tu n
    let c := s.tuChan n
    let ch := s.chan c
    let i := t.next
    .when (s.en (pgTu n) && decide (i + 1 < ch.top)) (
      let w := ch.word i
      let spc := s.spc c
      let cond := s.live (pgTu n) R.TU_COND
      let dir := s.live (pgTu n) R.TU_DIR
      let la := sgn 16 (s.live (pgTu n) R.TU_LEVEL_A)
      let lb := sgn 16 (s.live (pgTu n) R.TU_LEVEL_B)
      let h : Int := s.live (pgTu n) R.TU_HYST
      if w = 0x8000 || w = 0x10000 || bit (ch.marks i) 1 then
        .all [modTu n fun t => { t with next := i + 1 }, tuUnknown n (s.instant spc i), trigSettle]
      else
        let x := sgn 16 w
        let qa' := cmpStep t.qa la h x
        let qb' := cmpStep t.qb lb h x
        let ta := transition t.qa qa'
        let tb := transition t.qb qb'
        let wasIn := tuLevel 1 t.qa t.qb
        let nowIn := tuLevel 1 qa' qb'
        let cross (l : Int) : Nat × Bool := crossing s ch spc (s.chanRate c) (s.live (pgTu n) R.TU_INTERP = 1) i l
        let lev := tuLevel cond qa' qb'
        let levC : Int :=
          if ta.isSome then (if ta = some false then la - h else la) else (if tb = some false then lb - h else lb)
        let levA : Nat := if t.qa = 2 then s.instant spc i else (cross levC).1
        .all [
          modTu n fun t => { t with next := i + 1, qa := qa', qb := qb' },
          .when (lev != s.levelNow n) (tuSetLevel n levA (i / spc) lev),
          .each (t.cands.filterMap (fun c => (candOutcome cond dir (s.live (pgTu n) R.TU_QUAL) (s.live (pgTu n) R.TU_T1)
              (s.live (pgTu n) R.TU_T2) i ta tb c).map (fun ok => (c, ok)))) (fun p => candDone n p.1 p.2),
          .each (openings cond dir ta tb wasIn nowIn la lb h) (fun o =>
            let a := cross o.1
            .all [decide' n i a.1 o.2.1 o.2.2 a.2,
              .ask fun s => .each ((s.tu n).cands.filter (fun c => cond = 3 && c.i0 = i && c.pos = o.2.1 &&
                (if c.pos then tb = some true else ta = some false))) (fun c => candDone n c false)]),
          tuStat n, trigSettle])

/-- A trigger unit starts with the next sample of its channel, its comparators UNKNOWN (R139). -/
def tuRestart (n : Nat) : Prog :=
  .ask fun s => .all [tuUnknown n s.nowQ, modTu n fun t => { t with next := (s.chan (s.tuChan n)).top }]

/-! ### Suspension (Table 5-6, R285) -/

/-- Definitions that use trigger units of a die, in a term or to arm. -/
def State.defsOfDie (s : State) (die : Nat) : List Nat :=
  which 16 fun d => s.td d R.TCOMB_MODE ≠ 0 &&
    ((s.terms d).any (fun j => (List.range 4).any (fun k => s.role d j (4 * die + k) ≠ 0)) ||
      (s.td d R.TCOMB_ARM_EN = 1 && decide (s.td d R.TCOMB_ARM_SRC / 4 = die)))

/-- Definitions are suspended: their provisional triggers are cancelled and each suspension is counted. -/
def suspendDefs (ds : List Nat) : Prog :=
  .ask fun s => .each (ds.filter (fun d => !s.suspended d)) fun d =>
    .all [.setBit pgTcomb R.TCOMB_SUSPENDED d true, .addi pgTcomb R.TCOMB_CNT_SUSPENDED d 1, raise pgTcomb 3,
      modDef d fun t => { t with provs := t.provs.map (fun p => { p with done := some (p.done.getD false) }), seqWait := none, firings := [] },
      defSettle d]

/-- Definitions resume. -/
def resumeDefs (ds : List Nat) : Prog :=
  .ask fun s => .each (ds.filter s.suspended) fun d => .all [.setBit pgTcomb R.TCOMB_SUSPENDED d false, raise pgTcomb 4]

/-- A commit of a trigger page with no frame open discards candidates and provisional triggers unannounced; each candidate counts as
cancelled (Tables 5-6, 5-10). -/
def discardCands : Prog :=
  .all [
    .trig fun t => { t with waiting := [] },
    .each (List.range 16) (fun d => .all [modDef d fun t => { t with provs := [], seqWait := none, firings := [] }, provStat d]),
    .ask fun s => .each (List.range 8) fun n => .all [
      .each (s.tu n).cands (fun _ => .inc (pgTu n) R.TU_CNT_CANCELLED), modTu n fun t => { t with cands := [] }, tuStat n]]

/-! ### Remote triggers (R151, R152, R319, R542) -/

/-- The deadline of a remote trigger (R151). -/
def State.deadline (s : State) (a : Nat) : Nat := a + nsQ (s.live pgText R.TEXT_CONF_DEADLINE)

/-- The remote provisional trigger of a source device, line and anchor. -/
def Remote.is (r : Remote) (src line a : Nat) : Bool := r.src = src && r.line = line && r.anchor = a

/-- It, where it was delivered as a source. -/
def Remote.own (r : Remote) (src line a : Nat) : Bool := r.is src line a && r.st ≠ 3

/-- A TRIG_PROV with this source device, line and anchor has been received (R542). -/
def State.provSeen (s : State) (src line a : Nat) : Bool := s.trig.remotes.any fun r => r.is src line a && r.prov

/-- Whether a message on line k with an anchor is delivered as a source (R162, R319). -/
def State.flOn (s : State) (line a : Nat) : Bool := !s.srcOff (48 + line) a && bit (s.live pgText R.TEXT_FL_EN) line

/-- A late resolution: counted, for TEXT and for each definition that took the trigger.  The first one after the deadline puts a TRIG_LATE
LOG record into each stream that kept the request; any other is otherwise ignored (R152). -/
def lateResolution (r : Option Remote) (line a : Nat) (ok : Bool) : Prog :=
  .ask fun s =>
    .all [.inc pgText R.TEXT_CNT_LATE,
      match r with
      | none => .nil
      | some m => .all [
          .each m.defs.dedup (fun d => .all [.addi pgTcomb R.TCOMB_CNT_LATE d 1, raise pgTcomb 6]),
          .when (m.st = 2) (.all [
            .each m.kept (fun k => pushLog (logRec s k.2 2 0 0 s.now
              (leBytes 1 k.1 ++ leBytes 1 line ++ leBytes 1 (if ok then 1 else 2) ++ [0] ++ qBytes a ++ qBytes s.now ++ leBytes 4 0))),
            .trig fun t => { t with remotes := modFirst (fun x => x.own m.src line a) (fun x => { x with st := 1 }) t.remotes }])]]

/-- A confirmation or cancellation of a remote trigger arrives (R151, R152, R319). -/
def remoteResolve (src line a : Nat) (ok : Bool) : Prog :=
  .ask fun s =>
    let r := s.trig.remotes.find? (fun r => r.own src line a)
    match r with
    | some m =>
      if m.st = 0 then
        .all [.trig fun t => { t with remotes := modFirst (fun r => r.own src line a) (fun r => { r with st := 1 }) t.remotes },
          .inc pgText (if ok then R.TEXT_CNT_REMOTE_CONF else R.TEXT_CNT_REMOTE_CXL), srcResolve (48 + line) a ok false]
      else lateResolution r line a ok
    | none =>
      if ok then
        .all [.trig fun t => { t with remotes := { src := src, line := line, anchor := a, st := 1, prov := false, kept := [], defs := [] } :: t.remotes },
          .inc pgText R.TEXT_CNT_REMOTE_CONF, srcEvent (48 + line) a false]
      else lateResolution none line a ok

/-- A remote provisional trigger arrives and is no duplicate (R319, R542). -/
def remoteProv (src line a : Nat) : Prog :=
  .all [.trig fun t => { t with remotes := { src := src, line := line, anchor := a, st := 0, prov := true, kept := [], defs := [] } :: t.remotes },
    .inc pgText R.TEXT_CNT_REMOTE_PROV, srcEvent (48 + line) a true]

/-- A TRIG_PROV on a line that is not delivered as a source: remembered, so that its repeats are duplicates (R542). -/
def rememberProv (src line a : Nat) : Prog :=
  .trig fun t => { t with remotes := { src := src, line := line, anchor := a, st := 3, prov := true, kept := [], defs := [] } :: t.remotes }

/-- A remote provisional trigger reaches its deadline: cancelled for its definitions, kept by the streams that ask for it (R151).  The cycle
in which local Q-time reaches it is over, since a confirm that arrives in that cycle is accepted. -/
def remoteDeadline (src line a : Nat) : Prog :=
  .ask fun s => .when (s.trig.remotes.any (fun r => r.is src line a && r.st = 0) && decide (s.deadline a < s.nowQ)) (
    .all [.trig fun t => { t with
        remotes := modFirst (fun r => r.is src line a && r.st = 0) (fun r => { r with st := 2 }) t.remotes },
      .inc pgText R.TEXT_CNT_DEADLINE, raise pgTcomb 2, srcResolve (48 + line) a false true])

/-! ### Meanings -/

/-- A trigger unit takes a corrected sample (R136, R138). -/
def execTriggerUnitSample (tu : Nat) (s : State) : Host.Outcome State Fault Refusal := .next (run (tuSample tu) s)

/-- The level that a TRIG_IN input presents as a source changes at an anchor: STUCK counts from an active level, and clears with an inactive
one (R141, R144). -/
def tinLevel (i a : Nat) (v : Bool) : Prog :=
  .ask fun s => .all [setLevel (8 + i) a v,
    if v then .trig fun t => { t with tinAct := Tab.put t.tinAct i s.time.cc }
    else .all [.trig fun t => { t with tinAct := Tab.del t.tinAct i }, .seti pgText R.TEXT_STUCK i 0]]

/-- An active edge at a TRIG_IN ball (R134, R140, R162); while TEXT is disabled the input presents level 0.  Without a tie no edge is stamped
(R257), and the level changes at the present boundary. -/
def trigInEdge (i c j m : Nat) : Prog :=
  .ask fun s =>
    .all [.seti pgText R.TEXT_LEVEL i 1,
      .when (s.en pgText) (
        match s.pinStamp c j m with
        | none => tinLevel i s.nowQ true
        | some a => .all [tinLevel i a true, pinEvent (8 + i) a (.addi pgText R.TEXT_CNT_MISSED i 1)])]

/-- A TRIG_IN input returns to its inactive level (R141, R144). -/
def trigInInactive (i c j m : Nat) : Prog :=
  .ask fun s =>
    .all [.seti pgText R.TEXT_LEVEL i 0,
      .when (s.en pgText) (.all [tinLevel i ((s.pinStamp c j m).getD s.nowQ) false, trigSettle])]

/-- TEXT.BLK_CTRL.EN has been written: with 0 the TRIG_IN inputs present level 0, and with 1 their levels as they are now; events count that
are anchored after the write (R162). -/
def textEnWritten (v : Bool) : Prog :=
  .ask fun s => .all [
    .when v (.trig fun t => { t with textOn := some s.nowQ }),
    .each (which 4 fun i => s.geti pgText R.TEXT_LEVEL i = 1 && s.levelNow (8 + i) != v) fun i => tinLevel i s.nowQ v, trigSettle]

/-- A commit of TEXT has changed POL of some inputs: the active level of each is the other one from then on.  The ball has not moved, and this
is no event (DESIGN CHOICE, log entry 121). -/
def polChanged (old : State) : Prog :=
  .ask fun s => .each (which 4 fun i => decide (s.livei pgText R.TEXT_POL i ≠ old.livei pgText R.TEXT_POL i)) fun i =>
    let v : Bool := s.geti pgText R.TEXT_LEVEL i = 0
    .all [.seti pgText R.TEXT_LEVEL i (b2n v), .when (s.en pgText) (tinLevel i s.nowQ v)]

/-- An active edge at a TRIG_IN ball; it is ignored while the core domain is off (R525). -/
def execTrigInEdge (i c j m : Nat) (s : State) : Host.Outcome State Fault Refusal :=
  .next (run (.ask fun s => .when s.coreOn (trigInEdge i c j m)) s)

/-- A TRIG_IN input becomes inactive; this is ignored while the core domain is off (R525). -/
def execTrigInInactiveEdge (i c j m : Nat) (s : State) : Host.Outcome State Fault Refusal :=
  .next (run (.ask fun s => .when s.coreOn (trigInInactive i c j m)) s)

/-- A source's level has been active for longer than its STUCK_TIME (R141). -/
def stuck (src : Nat) : Prog :=
  .ask fun s =>
    if src < 8 then
      let lim := s.live (pgTu src) R.TU_STUCK_TIME
      match (s.tu src).actAt with
      | some c => .when (lim ≠ 0 && decide (c + lim < s.time.cc) && s.get (pgTu src) R.TU_STUCK = 0)
          (.all [.set (pgTu src) R.TU_STUCK 1, raise (pgTu src) 1])
      | none => .nil
    else
      let i := src - 8
      let lim := s.livei pgText R.TEXT_STUCK_TIME i
      match Tab.find s.trig.tinAct i with
      | some c => .when (lim ≠ 0 && decide (c + lim < s.time.cc) && s.geti pgText R.TEXT_STUCK i = 0)
          (.all [.seti pgText R.TEXT_STUCK i 1, raise pgText (1 + i)])
      | none => .nil

/-- A stuck source (R141). -/
def execStuck (src : Nat) (s : State) : Host.Outcome State Fault Refusal := .next (run (stuck src) s)

/-- A sequence's wait expires (R145). -/
def execSeqWaitExpiry (d : Nat) (s : State) : Host.Outcome State Fault Refusal := .next (run (seqWaitExpiry d) s)

/-- A remote provisional trigger reaches its deadline (R151). -/
def execDeadline (src line anchor : Nat) (s : State) : Host.Outcome State Fault Refusal := .next (run (remoteDeadline src line anchor) s)

/-- A TRIG_OUT or TRIG_CXL pulse ends, WIDTH periods of CCLK after its start (R154). -/
def pulseEnd (n : Nat) (cxl : Bool) : Prog :=
  .ask fun s =>
    if cxl then .when ((s.tout n).cxlOn && decide ((s.tout n).cxlEnd ≤ s.time.cc)) (.all [modTout n fun t => { t with cxlOn := false }, toutPin n (pinTrigCxl n) false])
    else .when ((s.tout n).outOn && decide ((s.tout n).outEnd ≤ s.time.cc)) (.all [modTout n fun t => { t with outOn := false }, toutPin n (pinTrigOut n) false])

/-- A pulse ends. -/
def execTrigOutPulseEnd (n : Nat) (cxl : Bool) (s : State) : Host.Outcome State Fault Refusal := .next (run (pulseEnd n cxl) s)

/-- A write of TEXT.SW_TRIG: an event of each software source written 1, anchored at the present Q-time (R134, R162). -/
def swTrig (mask : Nat) : Prog :=
  .ask fun s => .when (s.en pgText) (.each (which 4 fun j => bit mask j) (fun j => srcEvent (40 + j) s.nowQ false))

end Sys2Proof.Machine
end

