-- ==== Sys2Proof/Machine/CalOps.lean ====
section
/-! DEFINITION. Calibration parameters and their effective values, the legacy window, holds, rotation and the runs that commits start
(R96 to R121, R126 to R131). -/

namespace Sys2Proof.Machine

/-! ### Channels that stop (R139, R285, R512, R544) -/

/-- What stands in the equaliser's window of a channel that resumes after the sample clock was gated: no settling follows, and the spec gives
the samples before the first one no value (R78, R285; free values, log entry 118). -/
def freePipe (c : Nat) : Prog :=
  .each (List.range 15) fun k => withFree fun v => modChan c fun ch => { ch with
    pipe := ch.pipe.take k ++ [{ a := some (sgn 32 v), code := 0 }] ++ ch.pipe.drop (k + 1) }

/-- A channel stops, goes on stopped for another cause, or runs again, as its cause says (R285, R512, R544).  The trigger units that watch it
cancel their candidates when it stops, and make no decision until it runs again (R139). -/
def syncStop (c : Nat) : Prog :=
  .ask fun s =>
    let ch := s.chan c
    let x := s.posNow c
    match ch.stops.find? (fun p => p.upto.isNone), s.stopCause c with
    | none, some k => .all [modChan c fun ch => ch.stopNow k,
        .each (which 8 fun n => s.tuChan n = c) fun n => .all [modTu n fun t => { t with next := ch.top }, tuUnknown n s.nowQ]]
    | some p, some k => .when (decide (p.cause ≠ k)) (modChan c fun ch => (ch.resumed x).stopNow k)
    | some p, none => .all [modChan c fun ch => ch.resumed x, .when (p.cause = 4) (freePipe c)]
    | none, none => .nil

/-- Every channel that exists follows its cause to stop. -/
def syncStops : Prog := .ask fun s => .each (which 8 s.chanExists) syncStop

/-! ### Parameters (R96, Tables 4-1, 4-5 to 4-7)

A parameter is named by the legacy window word that shows it, its half of that word (0 low, 1 high) and the copy of it: the range, the mode
and filter for the equaliser, or 0.  Its key is (word * 2 + half) * 24 + copy. -/

/-- Key of a parameter. -/
def calKey (w half sel : Nat) : Nat := (w * 2 + half) * 24 + sel

/-- Word, half and copy of a key. -/
def keyWord (k : Nat) : Nat := k / 48
def keyHalf (k : Nat) : Nat := (k / 24) % 2
def keySel (k : Nat) : Nat := k % 24

/-- Window word of word j of slice s of bank b, of bank b, and of word j of channel n (Table 4-5). -/
def sliceWord (b s j : Nat) : Nat := 4 * (66 * b + s) + j
def bankWord (b : Nat) : Nat := 2112 + 4 * b
def chanWord (n j : Nat) : Nat := 2176 + 64 * n + j

/-- Whether a window word holds parameters (Tables 4-6, 4-7). -/
def isParamWord (w : Nat) : Bool :=
  decide (w < 2112) || (decide (2112 ≤ w ∧ w < 2144) && (w - 2112) % 4 = 0) ||
    (decide (2176 ≤ w ∧ w < 2688) && decide ((w - 2176) % 64 < 32))

/-- The bank of a slice or bank word; the channel of a channel word. -/
def wordUnit (w : Nat) : Nat :=
  if w < 2112 then w / 4 / 66 else if w < 2176 then (w - 2112) / 4 else (w - 2176) / 64

/-- The die that holds a parameter (R98). -/
def wordDie (w : Nat) : Nat := wordUnit w / 4

/-- Low bit, width and whether signed, of each half of a window word; width 0 where the half holds nothing (Tables 4-6, 4-7). -/
def halfField (w half : Nat) : Nat × Nat × Bool :=
  if w < 2112 then
    match w % 4, half with
    | 0, 0 => (0, 10, true) | 0, _ => (16, 10, true)
    | 1, 0 => (0, 10, true) | 1, _ => (16, 10, true)
    | 2, 0 => (0, 6, false) | 2, _ => (16, 9, true)
    | _, 0 => (0, 11, true) | _, _ => (0, 0, true)
  else if w < 2176 then (if half = 0 then (0, 10, true) else (16, 10, true))
  else if (w - 2176) % 64 = 0 then (if half = 0 then (0, 12, true) else (16, 12, true))
  else (if half = 0 then (0, 18, true) else (0, 0, true))

/-- How a parameter is kept: 0 once, 1 per range, 2 per mode and filter (Table 4-1). -/
def halfKept (w half : Nat) : Nat :=
  if w < 2112 then
    match w % 4, half with
    | 0, _ => 1
    | 2, 1 => 1
    | 3, 0 => 1
    | _, _ => 0
  else if w < 2176 then (if half = 0 then 1 else 0)
  else if (w - 2176) % 64 = 0 then 1 else 2

/-- The lead bank of the channel a parameter serves in the mode in effect. -/
def State.wordLead (s : State) (w : Nat) : Nat :=
  if w < 2176 then bankChan (s.mode (wordDie w)) (wordUnit w) else wordUnit w

/-- Start-up calibration of a die runs: its banks stand in M8 with RANGE 0 until it ends (R107). -/
def State.starting (s : State) (die : Nat) : Bool := (Tab.find s.cal.startup die).isSome

/-- The mode that the banks of a die stand in, and the RANGE of a lead bank, as start-up calibration sets them or as committed (R107).  The
channels stay those of the committed mode throughout (DEDUCED, log entry 115). -/
def State.bankMode (s : State) (die : Nat) : Nat := if s.starting die then 0 else s.mode die
def State.bankRange (s : State) (b : Nat) : Nat := if s.starting (dieOf b) then 0 else s.live (pgBank b) R.BANK_RANGE

/-- The copy of a parameter that is in effect (R129). -/
def State.selNow (s : State) (w half : Nat) : Nat :=
  match halfKept w half with
  | 0 => 0
  | 1 => s.bankRange (s.wordLead w)
  | _ => s.bankMode (wordDie w) * 8 + s.live (pgBank (s.wordLead w)) R.BANK_BW

/-- A value held within the span of its parameter (R98). -/
def clampParam (w half : Nat) (v : Int) : Int :=
  let (_, width, signed) := halfField w half
  if signed then clampS width v else if v < 0 then 0 else min v (2 ^ width - 1 : Nat)

/-! ### Temperature sets (R101, R102) -/

/-- The value of a parameter in a set half; the factory values are not listed in the spec. -/
def SetHalf.val (h : SetHalf) (k : Nat) : Int := if h.factory then Config.factoryTrim h.set h.die k else Tab.get h.vals 0 k

/-- The valid halves of a die. -/
def State.halves (s : State) (die : Nat) : List SetHalf := s.cal.sets.filter fun h => h.die = die && h.valid

/-- The better of two halves for the lower place: the highest set point. -/
def hotter (a b : SetHalf) : SetHalf := if a.point < b.point then b else a
def colder (a b : SetHalf) : SetHalf := if b.point < a.point then b else a

/-- The lower and upper sets for a temperature; both the nearest one outside the set points (R102). -/
def State.pair (s : State) (die : Nat) (t : Int) : Option (SetHalf × SetHalf) :=
  match s.halves die with
  | [] => none
  | h :: hs =>
    let best (f : SetHalf → SetHalf → SetHalf) (p : SetHalf → Bool) : Option SetHalf :=
      match (h :: hs).filter p with
      | [] => none
      | x :: xs => some (xs.foldl f x)
    match best hotter (fun x => decide (x.point ≤ t)), best colder (fun x => decide (t ≤ x.point)) with
    | some a, some b => some (a, b)
    | some a, none => some (a, a)
    | none, some b => some (b, b)
    | none, none => none

/-- The interpolated value of a parameter at a temperature (R102); 0 where no half is valid (R105). -/
def State.interp (s : State) (k : Nat) (t : Int) : Int :=
  match s.pair (wordDie (keyWord k)) t with
  | none => 0
  | some (a, b) =>
    let va := a.val k
    let vb := b.val k
    if a.point = b.point then va else va + divAway ((vb - va) * (t - a.point)) (b.point - a.point).toNat

/-- T_die of a die whose values are in use, and as last measured (R98, R99). -/
def State.tUsed (s : State) (die : Nat) : Int := Tab.get s.cal.temp 0 die
def State.tDie (s : State) (die : Nat) : Int := sgn 12 (s.geti pgCal R.CAL_TEMP_NOW die)

/-- A field of an overridden window word. -/
def ovrField (w half : Nat) (v : Word) : Int :=
  let (lo, width, signed) := halfField w half
  if signed then sgn width (v.toNat >>> lo) else ((v.toNat >>> lo) % 2 ^ width : Nat)

/-- The effective value of a parameter (R98). -/
def State.effKey (s : State) (k : Nat) : Int :=
  match Tab.find s.cal.ovr (keyWord k) with
  | some v => ovrField (keyWord k) (keyHalf k) v
  | none => clampParam (keyWord k) (keyHalf k) (s.interp k (s.tUsed (wordDie (keyWord k))) + Tab.get s.cal.delta 0 k)

/-- The effective value of the copy of a parameter that is in effect. -/
def State.eff (s : State) (w half : Nat) : Int := s.effKey (calKey w half (s.selNow w half))

/-- A word of the legacy window as it reads (R129, R130): the written value while overridden, else the values in effect; 0 for a channel
that does not exist, and where no parameter lies. -/
def State.legacyWord (s : State) (w : Nat) : Nat :=
  if !(isParamWord w) then 0
  else if 2176 ≤ w && !(s.chanExists (wordUnit w)) then 0
  else match Tab.find s.cal.ovr w with
    | some v => v.toNat
    | none =>
      let part (half : Nat) : Nat :=
        let (lo, width, _) := halfField w half
        if width = 0 then 0 else unsgn width (s.eff w half) * 2 ^ lo
      part 0 + part 1

/-- The bits of a window word that hold parameters. -/
def legacyMask (w v : Nat) : Nat :=
  let part (half : Nat) : Nat :=
    let (lo, width, _) := halfField w half
    if width = 0 then 0 else ((v >>> lo) % 2 ^ width) * 2 ^ lo
  part 0 + part 1

/-! ### What each measurement updates (Table 4-2) -/

/-- Whether a parameter belongs to a channel, its banks or their slices. -/
def State.ofChan (s : State) (c k : Nat) : Bool := isParamWord (keyWord k) && decide (s.wordLead (keyWord k) = c)

/-- Whether a measurement of a kind updates a parameter: 0 background rotation, 1 DELTA, 2 FULL, 3 RECOVERY or start-up (Table 4-2). -/
def State.updates (s : State) (kind k : Nat) : Bool :=
  let w := keyWord k
  let half := keyHalf k
  let inEffect : Bool := decide (keySel k = s.selNow w half)
  let exists_ : Bool := decide ((halfField w half).2.1 ≠ 0) && halfKept w half ≠ 2 &&
    decide (keySel k < (if halfKept w half = 1 then 3 else 1))
  exists_ && (match kind with
    | 0 => inEffect && (if w < 2112 then !(w % 4 = 2 && half = 0) else decide (w < 2176) && half = 0)
    | 1 => inEffect && (if w < 2112 then (w % 4 = 1 && half = 0) || (w % 4 = 2 && half = 0)
                        else if w < 2176 then half = 1 else true)
    | _ => true)

/-- Deltas that make the effective values equal to measured ones at T_die (R100), for the parameters a measurement updates. -/
def State.deltasOf (s : State) (kind : Nat) (keep : Nat → Bool) (vals : List (Nat × Int)) : Tab Int :=
  (vals.filter (fun e => keep e.1 && s.updates kind e.1)).foldl
    (fun t e => Tab.put t e.1 (e.2 - s.interp e.1 (s.tDie (wordDie (keyWord e.1))))) []

/-- Every pair of one table put into another. -/
def Tab.merge {α : Type} (t u : Tab α) : Tab α := u.foldl (fun t e => Tab.put t e.1 e.2) t

/-! ### What the CAL page shows -/

/-- Whether a parameter of a channel, its banks or their slices is overridden. -/
def State.overridden (s : State) (c : Nat) : Bool := s.cal.ovr.any fun e => decide (s.wordLead e.1 = c)

/-- OVERRIDE bits follow the overrides; event 9 when one changes (Tables 4-13, 4-16). -/
def showOverride : Prog :=
  .ask fun s =>
    let m := maskOf 8 fun c => s.chanExists c && s.overridden c
    .all [.when (decide (m ≠ s.get pgCal R.CAL_OVERRIDE)) (raise pgCal 9), .set pgCal R.CAL_OVERRIDE m]

/-- SET_VALID and SET_POINT follow the loaded sets and the temperatures in use (Table 4-14). -/
def showSets : Prog :=
  .ask fun s =>
    let has (d k : Nat) : Option SetHalf := (s.halves d).find? fun h => h.set = k
    let point (d k : Nat) : Nat := match has d k with | some h => unsgn 16 h.point | none => 0x8000
    let lo (d : Nat) : Nat := match s.pair d (s.tUsed d) with | some (a, _) => a.set | none => 0
    let up (d : Nat) : Nat := match s.pair d (s.tUsed d) with | some (_, b) => b.set | none => 0
    .all [
      .set pgCal R.CAL_VALID_FE0 (maskOf 8 fun k => (has 0 k).isSome), .set pgCal R.CAL_VALID_FE1 (maskOf 8 fun k => (has 1 k).isSome),
      .set pgCal R.CAL_LOWER_FE0 (lo 0), .set pgCal R.CAL_UPPER_FE0 (up 0),
      .set pgCal R.CAL_LOWER_FE1 (lo 1), .set pgCal R.CAL_UPPER_FE1 (up 1),
      .each (List.range 8) fun k => .all [.seti pgCal R.CAL_SET_POINT_FE0 k (point 0 k), .seti pgCal R.CAL_SET_POINT_FE1 k (point 1 k)]]

/-- RUN_ACTIVE, RUN_KIND, RUN_IN_FRAME and RUN_CHAN follow the runs in progress; of several, the lowest-numbered is shown (Table 4-12). -/
def showRuns : Prog :=
  .ask fun s =>
    match s.cal.runs with
    | (_, r) :: _ => .all [.set pgCal R.CAL_RUN_ACTIVE 1, .set pgCal R.CAL_RUN_KIND r.kind,
        .set pgCal R.CAL_RUN_IN_FRAME (b2n (s.fstate = 2)), .set pgCal R.CAL_RUN_CHAN (r.chans.headD 0)]
    | [] => .all [.set pgCal R.CAL_RUN_ACTIVE 0, .set pgCal R.CAL_RUN_KIND 0, .set pgCal R.CAL_RUN_IN_FRAME 0]

/-! ### Rotation (R111, R114, R127) -/

/-- Whether a run measures a channel. -/
def State.measuring (s : State) (c : Nat) : Bool := s.cal.runs.any fun e => decide (e.2.chans.head? = some c)

/-- A run of a die is active, or its start-up calibration is (R115, R128). -/
def State.dieRuns (s : State) (die : Nat) : Bool :=
  s.starting die || s.cal.runs.any fun e => e.2.named.any fun c => dieOf c = die

/-- Whether a channel belongs to a run in progress, now or later. -/
def State.inRun (s : State) (c : Nat) : Bool := s.cal.runs.any fun e => e.2.chans.contains c

/-- CAL_BAD of a channel. -/
def State.calBad (s : State) (c : Nat) : Bool := bit (s.get pgCal R.CAL_CAL_BAD) c

/-- SETTLING of a bank. -/
def State.settling (s : State) (b : Nat) : Bool := s.get (pgBank b) R.BANK_SETTLING = 1

/-- ROT_STATE of a bank: STOPPED, RUNNING or HELD (R111, R114, R127). -/
def State.rotState (s : State) (b : Nat) : Nat :=
  let c := bankChan (s.mode (dieOf b)) b
  if s.live pgCal R.CAL_ROT_EN = 0 || s.settling b || s.get (pgBank b) R.BANK_POWERED = 0 then 0
  else if s.measuring c || s.calBad c then 2 else 1

/-- ROT_STATE follows on every bank. -/
def showRot : Prog := .ask fun s => .each (List.range 8) fun b => .set (pgBank b) R.BANK_ROT_STATE (s.rotState b)

/-- The slice at a position of a bank (SLICE_MAP). -/
def sliceRow (p : Nat) : Row :=
  match p % 4 with | 0 => R.BANK_SLICE_0 | 1 => R.BANK_SLICE_1 | 2 => R.BANK_SLICE_2 | _ => R.BANK_SLICE_3
def State.sliceAt (s : State) (b p : Nat) : Nat := s.geti (pgBank b) (sliceRow p) (p / 4)

/-- One handover of a bank (R111). -/
def handover (b : Nat) : Prog :=
  .ask fun s =>
    let p := Tab.get s.conv.rotPos 0 b
    let w := s.get (pgBank b) R.BANK_WAIT_SLICE
    let x := s.get (pgBank b) R.BANK_OUT_SLICE
    let n := Tab.get s.conv.rotCnt 0 b + 1
    .all [
      .seti (pgBank b) (sliceRow p) (p / 4) w,
      .set (pgBank b) R.BANK_OUT_SLICE (s.sliceAt b p), .set (pgBank b) R.BANK_OUT_POS p,
      .set (pgBank b) R.BANK_WAIT_SLICE (if x = 0x7F then 64 else x),
      .inc (pgBank b) R.BANK_CNT_HANDOVER,
      .conv fun c => { c with
        rotPos := Tab.put c.rotPos b ((p + 1) % 64), rotCnt := Tab.put c.rotCnt b (n % 66), rotDue := Tab.put c.rotDue b false,
        rotMeas := Tab.del c.rotMeas b },
      .when (n = 66) (.all [.set (pgBank b) R.BANK_ROT_COUNT ((s.get (pgBank b) R.BANK_ROT_COUNT + 1) % 2 ^ 32), raise (pgBank b) 4])]

/-! ### Holds (R117, R118, R120) -/

/-- A channel is to be switched to the tone: its held span begins at the present CCLK boundary, which the sample at that position stands at
(R117). -/
def holdBegin (c kind : Nat) (hard : Bool) : Prog :=
  .ask fun s => modChan c fun ch =>
    if ch.hold.isSome then ch
    else { ch with hold := some {
      first := s.spc c * s.time.cc, started := false, upto := none, value := ch.last, kind := kind, hard := hard, inFrame := s.fstate = 2 } }

/-- The first CCLK boundary at least 16 samples after the present one, in positions of a channel (R117). -/
def State.holdUpto (s : State) (c : Nat) : Nat := s.spc c * (s.time.cc + (16 + s.spc c - 1) / s.spc c)

/-- A channel is switched back from the tone, which fixes the end of its held span (R116, R117). -/
def holdBack (c : Nat) : Prog :=
  .ask fun s => modChan c fun ch => { ch with hold := ch.hold.map fun h => { h with upto := some (h.upto.getD (s.holdUpto c)) } }

/-- The bytes of a CAL_HOLD body (Tables 4-3, 8-8). -/
def holdBody (c : Nat) (h : HoldSt) (len : Nat) (first : Int) (q : Nat) : List Byte :=
  leBytes 1 c ++ leBytes 1 (h.kind + 2 ^ 7 * b2n h.hard) ++ leBytes 2 h.value ++ leBytes 4 (min len 0xFFFFFFFF) ++
    leBytes 8 (unsgn 64 first) ++ qBytes q ++ leBytes 4 0

/-- A held span ends, at its end or where the channel has come to: it is kept among the last 16, and one inside a frame is reported to every
enabled stream of the channel by a CAL_HOLD LOG record (R117, R119, R120).  A span after NO-DATA was put out as NO-DATA and was no hold. -/
def holdEnd (c : Nat) : Prog :=
  .ask fun s =>
    let ch := s.chan c
    match ch.hold with
    | none => .nil
    | some h =>
      let real : Bool := h.started && decide (h.value ≠ noData)
      let len := (match h.upto with | some e => min e ch.top | none => ch.top) - h.first
      let first := s.index c h.first
      let q := s.instant (s.spc c) h.first
      let body := holdBody c h len first q
      .all [
        modChan c fun ch => { ch with
          hold := none, holds := if real then ({ first := h.first, len := len } :: ch.holds).take 16 else ch.holds },
        .when real (.all [.setBit pgCal R.CAL_CHOLD c false, raise pgCal 7]),
        .when (real && h.inFrame)
          (.each (which 256 fun n => s.get (pgSt n) R.ST_IN_FRAME = 1 && s.st n R.ST_SRC_KIND = 0 && s.srcChan n = c)
            fun n => pushLog (logRec s n 1 first (min len 0xFFFFFFFF) q body))]

/-! ### Runs (R115, R116, R123, R126, R128) -/

/-- A run's record. -/
def State.run? (s : State) (r : Nat) : Option CalRun := Tab.find s.cal.runs r

/-- The first of a run's channels is switched to the tone, or nothing where none is left. -/
def measureNext (r : Nat) : Prog :=
  .ask fun s =>
    match s.run? r with
    | some x =>
      .all [.cal fun c => { c with runs := Tab.put c.runs r { x with step := 0, meas := [], stepAt := s.now, chanAt := s.now } },
        (match x.chans with
         | n :: _ => .when (!(s.settling n)) (holdBegin n x.kind x.hard)
         | [] => .nil), showRuns, showRot]
    | none => .nil

/-- A run starts (R115, R123). -/
def startRun (r kind : Nat) (chans : List Nat) (hard : Bool) (cmd : Option Nat) : Prog :=
  .ask fun s => .all [
    .cal fun c => { c with
      runs := Tab.put c.runs r {
        kind := kind, named := chans, chans := chans, step := 0, hard := hard, cmd := cmd, temps := [s.tDie 0, s.tDie 1],
        stepAt := s.now, chanAt := s.now, meas := [] } },
    raise pgCal 3, measureNext r]

/-- The channels of a die that an automatic run measures: enabled, not settling, without CAL_BAD (R115, R127). -/
def State.dueChans (s : State) (die : Nat) : List Nat :=
  which 8 fun c => dieOf c = die && s.chanOn c && !(s.settling c) && !(s.calBad c)

/-- The banks of a channel in the mode in effect. -/
def State.banksOf (s : State) (c : Nat) : List Nat := (List.range (modeBanks (s.mode (dieOf c)))).map (c + ·)

/-- A bank begins to settle, for what a later code of Conv.settle says; a longer settling in progress goes on (R84). -/
def startSettle (b code : Nat) : Prog :=
  .ask fun s => .all [.set (pgBank b) R.BANK_SETTLING 1,
    .conv fun c => { c with settle := Tab.put c.settle b (if s.settling b then max code (Tab.get c.settle 0 b) else code) }]

/-- A bank stops settling (Table 3-20, source 2). -/
def endSettle (b : Nat) : Prog :=
  .ask fun s => .when (s.settling b) (.all [.set (pgBank b) R.BANK_SETTLING 0,
    .conv fun c => { c with settle := Tab.del c.settle b }, raise (pgBank b) 2])

/-- The channels whose settling waited for a run take data again, since it has measured them or has ended (R108, R125, R460). -/
def runSettled (chans : List Nat) : Prog :=
  .ask fun s => .each ((chans.flatMap s.banksOf).filter fun b =>
    let k := Tab.get s.conv.settle 0 b
    k = 1 || k = 2 || k = 4) endSettle

/-- A run ends without a result: previous values are kept, no CAL_BAD (R128, R405).  Its channels are switched back, and take data again,
but for those of a die that settles anew. -/
def abortRunFor (newly : Option Nat) (r : Nat) : Prog :=
  .ask fun s =>
    match s.run? r with
    | none => .nil
    | some x => .all [
        .cal fun c => { c with runs := Tab.del c.runs r }, .each x.chans holdBack,
        runSettled (x.chans.filter fun c => decide (newly ≠ some (dieOf c))),
        .inc pgCal R.CAL_CNT_RUNS, raise pgCal 4,
        (match x.cmd with
         | some k => endCmd (k / 8) (k % 8) 4 stResetAbort 0xF1
         | none => .nil), showRuns, showRot]

/-- A run ends without a result. -/
def abortRun (r : Nat) : Prog := abortRunFor none r

/-- The runs that measure channels of a die are aborted, since the die is reset or changes its mode (R128). -/
def abortRunsOf (die : Nat) : Prog :=
  .ask fun s => .each (s.cal.runs.filter fun e => e.2.chans.any fun c => dieOf c = die) fun e => abortRunFor (some die) e.1

/-- A channel that is disabled leaves the runs that were to measure it; a run that is left without a channel ends without a result (R86;
DESIGN CHOICE, log entry 116). -/
def leaveRuns (c : Nat) : Prog :=
  .ask fun s => .each (s.cal.runs.filter fun e => e.2.chans.contains c) fun e =>
    if e.2.chans = [c] then abortRun e.1
    else .all [
      .cal fun x => { x with runs := Tab.put x.runs e.1 { e.2 with chans := e.2.chans.filter (· ≠ c) } },
      .when (decide (e.2.chans.head? = some c)) (.all [holdBack c, measureNext e.1])]

/-- A channel has taken a CAL_BAD timeout, or lost it by a successful run (R126, R127). -/
def setBad (c : Nat) (v : Bool) : Prog :=
  .ask fun s =>
    .all [
      .when (v && !(s.calBad c)) (.all [raise pgCal 5, logFault 0x0F Kind.cal.ty c]),
      .setBit pgCal R.CAL_CAL_BAD c v,
      modChan c fun ch =>
        if v then (if ch.bad.isNone then { ch with bad := some (s.spc c * s.time.cc) } else ch)
        else match ch.bad with
          | some p => { ch with bad := none, bads := ({ first := p, len := s.spc c * s.time.cc - p } :: ch.bads).take 16 }
          | none => ch]

/-- The interval of a die without a valid set begins or ends for its channels (R105). -/
def setNoSet (die : Nat) (v : Bool) : Prog :=
  .ask fun s => .all [
    .setBit pgCal R.CAL_NO_SET die v,
    .when (v && !(bit (s.get pgCal R.CAL_NO_SET) die)) (capture pgCal 0x23 die),
    .each (which 8 fun c => dieOf c = die) fun c => modChan c fun ch =>
      if v then (if ch.noSet.isNone then { ch with noSet := some (s.spc c * s.time.cc) } else ch)
      else match ch.noSet with
        | some p => { ch with noSet := none, noSets := { first := p, len := s.spc c * s.time.cc - p } :: ch.noSets }
        | none => ch]

/-- A die that has no valid half begins an interval without a set (R105). -/
def noSetIfNone (die : Nat) : Prog := .ask fun s => .when (s.halves die).isEmpty (setNoSet die true)

/-- A list of set halves with another put in the place of the one it replaces. -/
def putHalf (hs : List SetHalf) (h : SetHalf) : List SetHalf := hs.filter (fun x => !(x.set = h.set && x.die = h.die)) ++ [h]

/-- Copies of a region that failed their check are counted (R504, R509). -/
def checkFail (region n : Nat) : Prog :=
  .each (List.range n) fun _ => .all [.inc pgFlash R.FLASH_CNT_CHECK_FAIL, raise pgFlash 5, capture pgFlash 0x21 region]

/-- A set half as flash gives it: not valid where its check code fails (R104). -/
def State.readHalf (s : State) (h : SetHalf) : SetHalf := if s.sys.halfBad.contains (h.set, h.die) then { h with valid := false } else h

/-- A set half whose check code failed is counted, captured and logged (R104, R504). -/
def halfFails (h : SetHalf) : Prog :=
  let at_ := h.set % 8 + (h.die % 2) * 2 ^ 8
  .all [checkFail 3 1, capture pgCal 0x20 at_, logFault 0x05 Kind.cal.ty at_]

/-- A set half is read again from flash, and comes into use at the next step boundary (R104, R517). -/
def reloadHalf (set die : Nat) : Prog :=
  .ask fun s => .each (s.sys.halves.filter fun h => h.set = set && h.die = die) fun h => .all [
    .cal fun c => { c with setWait := c.setWait ++ [s.readHalf h] }, .when (s.sys.halfBad.contains (set, die)) (halfFails h)]

/-- The sets of the flash store are loaded into SRAM (R104): a half that fails its check code is marked not valid and captured, every delta
starts at 0 (R100), and a die left without a valid half has none (R105). -/
def loadSets : Prog :=
  .ask fun s =>
    .all [
      .cal fun c => { c with
        sets := s.sys.halves.map s.readHalf, setWait := [], delta := [] },
      raise pgCal 8,
      .each (s.sys.halves.filter fun h => s.sys.halfBad.contains (h.set, h.die)) halfFails,
      showSets, noSetIfNone 0, noSetIfNone 1]

/-! ### Boundaries (R98, R109) -/

/-- Pending set halves, window writes, releases, measured deltas and temperatures apply (R98, R109).  A window write to a parameter measured for the same
boundary stands, and the measured value is discarded (R128). -/
def applyCalValues : Prog :=
  .ask fun old => .all [
    .cal fun c =>
      let ovr := c.ovrWait.foldl (fun t e => match e with
        | (some w, some v) => Tab.put t w v
        | (some w, none) => Tab.del t w
        | (none, _) => []) c.ovr
      let meas := c.meas.filter (fun e => (Tab.find ovr (keyWord e.1)).isNone)
      { c with ovr := ovr, ovrWait := [], delta := Tab.merge c.delta meas, meas := [], sets := c.setWait.foldl putHalf c.sets, setWait := [] },
    .ask fun s => .cal fun c => { c with temp := [(0, s.tDie 0), (1, s.tDie 1)] },
    showSets, showOverride, .when (!old.cal.setWait.isEmpty) (.all [noSetIfNone 0, noSetIfNone 1])]

/-- LAST_RUN of a die (R115). -/
def setLastRun (die : Nat) (t : Int) : Prog := .seti pgCal R.CAL_LAST_RUN die (unsgn 12 t)

end Sys2Proof.Machine
end

