-- ==== Sys2Proof/Machine/Converter.lean ====
section
/-! DEFINITION. The converter array: the correction pipeline and history writers, die links, settling after changes, enables, and the reset
of a front-end die (R67 to R95, R164, R512, R544). -/

namespace Sys2Proof.Machine

/-! ### Settling (R84, R107, R108) -/

/-- What BANK_STAT shows of the mode, range and filter in effect on the banks of a die (Table 3-15, R107). -/
def showBanks (die : Nat) : Prog :=
  .ask fun s => .each (List.range 4) fun i =>
    let b := 4 * die + i
    let m := s.bankMode die
    let l := bankChan m b
    .all [.set (pgBank b) R.BANK_LEAD (b2n (decide (l = b))), .set (pgBank b) R.BANK_CHANNEL l, .set (pgBank b) R.BANK_EFF_MODE m,
      .set (pgBank b) R.BANK_EFF_RANGE (s.bankRange l), .set (pgBank b) R.BANK_EFF_BW (s.live (pgBank l) R.BANK_BW),
      .set (pgBank b) R.BANK_EFF_EQ_PASS (s.live (pgBank l) R.BANK_EQ_PASS)]

/-- Start-up calibration of a die starts (R107): its set halves come into use with every delta 0 (R100), its banks settle in M8 with RANGE 0,
and rotation stops. -/
def startCal (die : Nat) : Prog :=
  .ask fun s => .all [
    .each (List.range 4) fun i => startSettle (4 * die + i) 3,
    .setBit pgCal R.CAL_START_DONE die false,
    .cal fun c => { c with
      sets := (c.setWait.filter fun h => h.die = die).foldl putHalf c.sets, setWait := c.setWait.filter fun h => h.die ≠ die,
      delta := c.delta.filter fun e => wordDie (keyWord e.1) ≠ die, meas := c.meas.filter fun e => wordDie (keyWord e.1) ≠ die,
      startup := Tab.put c.startup die 0, startAt := Tab.put c.startAt die (s.now, s.now), startTemp := Tab.put c.startTemp die (s.tDie die) },
    showSets, noSetIfNone die, showBanks die, showRot]

/-- Start-up calibration is owed, by a change of fSB or a power-up, on every powered die (R73, R107). -/
def startCalAll : Prog := .ask fun s => .each (which 2 fun _ => s.diesOn) startCal

/-! ### Enables (R86) -/

/-- The banks of a channel are powered, or not. -/
def powerChan (c : Nat) (v : Bool) : Prog := .ask fun s => .each (s.banksOf c) fun b => .set (pgBank b) R.BANK_POWERED (b2n v)

/-- Whether the banks of a die are powered, those of enabled channels: the die is on, and in no reset (R79, R512). -/
def State.dieUp (s : State) (die : Nat) : Bool := s.diesOn && !(Tab.get s.conv.dieRst false die)

/-- A run of the device's own that a change calls for starts, where the die is up and no start-up calibration will follow (R108, R460). -/
def startOwnRun (r kind die : Nat) (chans : List Nat) : Prog :=
  .ask fun s => .when (s.dieUp die && !(s.starting die) && !chans.isEmpty) (startRun r kind chans false none)

/-- BLK_CTRL.EN of a lead bank takes effect, from an old to a new value (R86, R108): a channel that is enabled settles through a FULL run of
its own, and one that is disabled is powered down and stops. -/
def applyEn (b : Nat) (old new : Bool) : Prog :=
  .ask fun s => .when (s.chanExists b && (old != new)) (.all [
    .when (s.dieUp (dieOf b)) (
      if new then .all [powerChan b true, .each (s.banksOf b) fun x => startSettle x 1, startOwnRun (8 + b) 2 (dieOf b) [b]]
      else .all [powerChan b false, leaveRuns b, holdEnd b, .when (!(s.starting (dieOf b))) (.each (s.banksOf b) endSettle)]),
    syncStop b, showRot])

/-- A write of BLK_CTRL.EN on a BANK page has set the bit; while a frame is open the old value holds until the frame boundary (R86). -/
def bankEnWritten (b : Nat) (old new : Bool) : Prog :=
  .ask fun s =>
    if s.fstate = 2 || s.fstate = 3 then
      .conv fun c => { c with enHeld := if (Tab.find c.enHeld b).isSome then c.enHeld else Tab.put c.enHeld b old }
    else applyEn b old new

/-- Enables that waited for the frame boundary take effect (R86). -/
def applyEnHeld : Prog :=
  .ask fun s => .each s.conv.enHeld fun e => .all [
    .conv fun c => { c with enHeld := Tab.del c.enHeld e.1 }, applyEn e.1 e.2 (s.en (pgBank e.1))]

/-! ### The correction pipeline (R72, R76 to R78) -/

/-- A sample as it enters the equaliser: the value a of R76. -/
def State.corrA (s : State) (b p code : Nat) : Int :=
  let sl := s.sliceAt b p
  let v : Int := ((code : Int) - 2048) * 16
  (v - s.eff (sliceWord b sl 2) 1) * (32768 + s.eff (sliceWord b sl 3) 0)

/-- The equaliser coefficients of a channel (R76, R77). -/
def State.eqTaps (s : State) (c : Nat) : List Int :=
  if s.live (pgBank c) R.BANK_EQ_PASS = 1 then (List.range 31).map (fun t => if t = 15 then 65536 else 0)
  else (List.range 31).map (fun t => s.eff (chanWord c (1 + t)) 0)

/-- The sum of products of two lists, or none where a factor is NO-DATA or missing. -/
def dot : List Int → List PipeEnt → Option Int
  | [], _ => some 0
  | _ :: _, [] => none
  | h :: hs, e :: es =>
    match e.a, dot hs es with
    | some a, some r => some (h * a + r)
    | _, _ => none

/-- The corrected sample at the middle of the window (R76, R78), as a 16-bit word. -/
def corrected (taps : List Int) (pipe : List PipeEnt) : Nat :=
  match dot taps pipe with
  | none => noData
  | some e =>
    let c := (pipe.getD 15 { a := none, code := 0 }).code
    let v := divAway e (2 ^ 31)
    if c = 4095 then unsgn 16 32767
    else if c = 0 then unsgn 16 (-32767)
    else if 32767 ≤ v then unsgn 16 32767
    else if v ≤ -32767 then unsgn 16 (-32767)
    else unsgn 16 v

/-- Samples of one CCLK period go through a pipeline, oldest first; the answer is the pipeline and the samples put out, newest first.  A sample
is put out once the 15 after it are in the window. -/
def pipeGo (taps : List Int) : List PipeEnt → List PipeEnt → List Nat → List PipeEnt × List Nat
  | [], pipe, out => (pipe, out)
  | e :: es, pipe, out =>
    let pipe := (e :: pipe).take 31
    pipeGo taps es pipe (if 31 ≤ pipe.length then corrected taps pipe :: out else out)

/-- The samples a channel takes in one CCLK period, in the order of Table 3-4. -/
def State.cclkIn (s : State) (words : List (List Nat)) (c : Nat) : List PipeEnt :=
  let nb := modeBanks (s.mode (dieOf c))
  (List.range (8 * nb)).map fun k =>
    let b := c + k % nb
    let w := words.getD b []
    let code := w.getD (k / nb) 0
    if s.settling b || s.get (pgBank b) R.BANK_LINK_OK = 0 || w.isEmpty then { a := none, code := code % 4096 }
    else { a := some (s.corrA b ((8 * s.time.coarse + k / nb) % 64) (code % 4096)), code := code % 4096 }

/-- The counters of a bank follow the samples it supplied (R93, R94): over-range, NO-DATA, and the peaks. -/
def bankCounts (b : Nat) (vs : List Nat) : Prog :=
  let high := (vs.filter (fun v => v = 0x7FFF || v = 0x8001)).length
  let none_ := (vs.filter (fun v => v = noData)).length
  let real := (vs.filter (fun v => v ≠ noData)).map (sgn 16)
  .all [
    .when (decide (high ≠ 0)) (.all [.add (pgBank b) R.BANK_CNT_OVR high, raise (pgBank b) 1]),
    .when (decide (none_ ≠ 0)) (.add (pgBank b) R.BANK_CNT_NODATA none_),
    .ask fun s => .all [
      .set (pgBank b) R.BANK_PEAK_MAX (unsgn 16 (real.foldl max (sgn 16 (s.get (pgBank b) R.BANK_PEAK_MAX)))),
      .set (pgBank b) R.BANK_PEAK_MIN (unsgn 16 (real.foldl min (sgn 16 (s.get (pgBank b) R.BANK_PEAK_MIN))))]]

/-- Corrected samples of consecutive positions, oldest first, with those of a held span replaced by the last one before it (R117).  The answer
is the hold and the samples put out, newest first, each with whether it is held. -/
def holdGo : Option HoldSt → Nat → Nat → List Nat → List (Nat × Bool) → Option HoldSt × List (Nat × Bool)
  | h, _, _, [], acc => (h, acc)
  | none, x, _, v :: vs, acc => holdGo none (x + 1) v vs ((v, false) :: acc)
  | some h, x, last, v :: vs, acc =>
    if h.covers x then
      let h := if h.started then h else { h with started := true, value := last }
      holdGo (some h) (x + 1) h.value vs ((h.value, true) :: acc)
    else holdGo (some h) (x + 1) v vs ((v, false) :: acc)

/-- The first sample of a held span has been put out (R117): HOLD, the count and the event, unless the span repeats NO-DATA and is no hold. -/
def holdStarts (c : Nat) (old : Option HoldSt) : Prog :=
  .ask fun s => match (s.chan c).hold with
    | some h => .when (h.started && !(old.any (·.started)) && decide (h.value ≠ noData)) (.all [
        .setBit pgCal R.CAL_CHOLD c true, .inc pgCal R.CAL_CNT_HOLDS, raise pgCal 6])
    | none => .nil

/-- One CCLK period of a channel: its corrected samples, held ones during a hold, are written to its history (R76, R117, R164); the writers of
a stopped channel advance without writing (R544).  Held samples do not count in the BANK counters (R119). -/
def chanCclk (words : List (List Nat)) (c : Nat) : Prog :=
  .ask fun s =>
    let ch := s.chan c
    let spc := s.spc c
    if ch.stopped then
      let top := spc * (s.time.cc + 1)
      modChan c fun ch => { ch with
        hist := (List.replicate (top - ch.top) 0x10000 ++ ch.hist).take (s.histDepth c), top := max top ch.top }
    else
      let (pipe, out) := pipeGo (s.eqTaps c) (s.cclkIn words c) ch.pipe []
      let (hold, marked) := holdGo ch.hold ch.top ch.last out.reverse []
      let put := marked.map (·.1)
      let nb := modeBanks (s.mode (dieOf c))
      .all [
        modChan c fun ch => { ch with
          pipe := pipe, top := ch.top + put.length, hist := (put ++ ch.hist).take (s.histDepth c), last := put.headD ch.last, hold := hold },
        holdStarts c ch.hold,
        .each (List.range nb) fun j =>
          bankCounts (c + j) ((marked.reverse.mapIdx (fun i e => (i, e))).filter (fun e => (ch.top + e.1) % nb = j &&
            !(e.2.2 && decide (e.2.1 ≠ noData))) |>.map (·.2.1)),
        .when (bit (s.get pgHist R.HIST_FILLING) c && decide (s.histDepth c ≤ ch.top + put.length - ch.base))
          (.setBit pgHist R.HIST_FILLING c false)]

/-- Bank words that arrive with a detected error are counted (R78). -/
def linkErrors (words : List (List Nat)) : Prog :=
  .ask fun s => .each (which 8 fun b => (words.getD b []).isEmpty && s.get (pgBank b) R.BANK_LINK_OK = 1 && s.diesOn) fun b => incRaise (pgBank b) R.BANK_CNT_LINK_ERR 3

/-! ### Front-end-die reset (R79, R512) -/

/-- LINK_OK of a bank falls, with LINK_ERR where it was 1 (Table 3-20). -/
def linkOff (b : Nat) : Prog :=
  .ask fun s => .all [.set (pgBank b) R.BANK_LINK_OK 0, .when (s.get (pgBank b) R.BANK_LINK_OK = 1) (raise (pgBank b) 3)]

/-- A reset of a front-end die starts: at a CCLK boundary its channels stop, its runs end, its overrides end (R131, R512).  One that falls due
while a reset of the same die is in progress is absorbed by it and does nothing more (DESIGN CHOICE, log entry 119: Table 19-6 speaks of wider
and narrower resets only). -/
def feReset (die : Nat) : Prog :=
  .ask fun s => .when (!(Tab.get s.conv.dieRst false die)) (.all [
    abortRunsOf die,
    .each (which 8 fun c => dieOf c = die) holdEnd,
    .conv fun c => { c with dieRst := Tab.put c.dieRst die true, retrains := Tab.put c.retrains die 0 },
    .cal fun c => { c with
      ovr := c.ovr.filter (fun e => wordDie e.1 ≠ die), startup := Tab.del c.startup die,
      ovrWait := c.ovrWait.filter (fun e => match e.1 with | some w => decide (wordDie w ≠ die) | none => true) },
    .each (List.range 4) fun i => .all [startSettle (4 * die + i) 3, .set (pgBank (4 * die + i)) R.BANK_POWERED 0,
      linkOff (4 * die + i)],
    .each (which 8 fun c => dieOf c = die && s.chanExists c) syncStop,
    .setBit pgCal R.CAL_START_DONE die false, .setBit pgTop R.TOP_FE_RST die true, .set pgPwr R.PWR_RETAIN_OK 0,
    suspendDefs (s.defsOfDie die), showOverride, showRot, raise pgTop 6])

/-- The link of a die trains (R79): its words are good again, and its attempts count for R95; the first training after a reset of the die is
that of its power-up and counts nothing, the stopped span ends, and start-up calibration follows (R512). -/
def dieTrained (die attempts : Nat) : Prog :=
  .ask fun s => .all [
    .conv fun c => { c with
      lostAt := Tab.del c.lostAt die,
      retrains := if Tab.get c.dieRst false die then c.retrains
        else Tab.put c.retrains die (min 0xFFFFFF (Tab.get c.retrains 0 die + attempts)) },
    .each (List.range 4) fun i => .set (pgBank (4 * die + i)) R.BANK_LINK_OK 1,
    .when (Tab.get s.conv.dieRst false die) (.all [
      .each (which 8 fun c => dieOf c = die && s.chanExists c) syncStop, startCal die])]

/-! ### SYNC_OUT (R280, R290) -/

/-- Whether a tick lies in the present CCLK period: the tick is an integer division of the sample clock (R280, Table 10-1). -/
def State.tickNow (s : State) : Bool :=
  decide (s.fsbSet ≠ 0) && (List.range 8).any fun i => decide ((8 * s.time.cc + i) % s.fsbSet = s.time.tick0 % s.fsbSet)

/-- SYNC_OUT in mode TICK: a pulse of 8 sample periods, a CCLK period, at each tick (R290). -/
def tickOut : Prog :=
  .ask fun s =>
    let on : Bool := s.live pgClk R.CLK_SYNC_OUT_MODE = 1 && s.tickNow
    .when (on != s.time.tickOn) (.all [
      .time fun t => { t with tickOn := on }, .out (.pin pinSyncOut (on != (s.live pgClk R.CLK_SYNC_OUT_POL = 1 : Bool)))])

/-! ### Meanings -/

/-- One CCLK period: every bank's eight codes (an empty list is a word with a detected error) go through the pipeline, and the corrected
samples into history; a stopped channel's writers advance (R72, R76, R164, R544); events that waited for a level may be decided (R144).  Nothing happens while the sample clock does not run, and
no sample is written while the dies are off. -/
def execHistoryWrite (words : List (List Nat)) (s : State) : Host.Outcome State Fault Refusal :=
  .next (run (.ask fun s => .when s.scsRun (.all [
    linkErrors words, .each (which 8 fun c => s.diesOn && s.chanExists c) (chanCclk words),
    .time fun t => { t with cc := t.cc + 1, coarse := (t.coarse + 1) % 2 ^ 48 },
    .when (!s.trig.waiting.isEmpty) trigSettle, stampRelease, tickOut])) s)

/-- A die link loses training (R79). -/
def execDieLinkLost (die : Nat) (s : State) : Host.Outcome State Fault Refusal :=
  .next (run (.ask fun s => .when (decide (die < 2) && s.get (pgBank (4 * die)) R.BANK_LINK_OK = 1) (.all [
    .conv fun c => { c with lostAt := Tab.put c.lostAt die s.now },
    .each (List.range 4) fun i => .all [.set (pgBank (4 * die + i)) R.BANK_LINK_OK 0, raise (pgBank (4 * die + i)) 3],
    capture (pgBank (4 * die)) 0x20 (Tab.get s.conv.retrains 0 die),
    logFault 0x0A Kind.bank.ty (Tab.get s.conv.retrains 0 die)])) s)

/-- A die link trains, after a number of attempts (R79, R512). -/
def execDieLinkRetrained (die attempts : Nat) (s : State) : Host.Outcome State Fault Refusal :=
  .next (run (.ask fun s => .when (decide (die < 2) && s.get (pgBank (4 * die)) R.BANK_LINK_OK = 0 &&
    ((Tab.find s.conv.lostAt die).isSome || Tab.get s.conv.dieRst false die)) (dieTrained die attempts)) s)

end Sys2Proof.Machine
end

