-- ==== Sys2Proof/Machine/Fabric.lean ====
section
/-! DEFINITION. The fabric: arbitration points, reservations, ranks, turn hints, withdrawal and the fabric timeout (spec/15). -/

namespace Sys2Proof.Machine

/-! ### Reservations (R426, R427) -/

/-- A writer's reservation in MB/s: 16 bytes a CCLK period while its bank is enabled (R426). -/
def State.bankRes (s : State) (b : Nat) : Nat := if s.chanOn (bankChan (s.mode (dieOf b)) b) then 2 * s.fsbSet else 0

/-- Bytes per pixel of a format (Table 18-2). -/
def fmtBytes (f : Nat) : Nat := if f = 0 then 2 else if f = 1 then 3 else 4

/-- The display's reservation from its layer and timing fields, as a fraction in bytes per second (R493): the fields are given by a
reader of entry i of a row, so that shadows and live values are treated alike. -/
def dispRate (g : Row → Nat → Nat) : Nat × Nat :=
  let bytes := (List.range 4).foldl (fun a l =>
    if g R.DISP_L_EN l = 1 then a + g R.DISP_L_W l * g R.DISP_L_H l * fmtBytes (g R.DISP_L_FMT l) else a) 0
  (bytes * 20000000000, g R.DISP_PCLK_DIV 0 * g R.DISP_VMIN 0 * g R.DISP_HTOTAL 0)

/-- A display's reservation in MB/s, rounded up. -/
def dispMB (g : Row → Nat → Nat) : Nat :=
  let (n, d) := dispRate g
  (n + d * 1000000 - 1) / (d * 1000000)

/-- RES_GUAR and RES_FIRM as they read (Table 15-7). -/
def State.resGuar (s : State) : Nat := (List.range 8).foldl (fun a b => a + s.bankRes b) 0
def State.resFirm (s : State) : Nat := dispMB (fun r i => s.livei pgDisp r i)

/-- A requester's reservation in bytes per second; 0 for BEST (R426). -/
def State.reservation (s : State) (r : Nat) : Nat :=
  if r < 8 then s.bankRes r * 1000000
  else if r = 43 then (let (n, d) := dispRate (fun r i => s.livei pgDisp r i); n / d)
  else 0

/-- What a requester's bucket of 4 KiB holds, in 2^-48 bytes (R426). -/
def State.bucket (s : State) (r : Nat) : Nat :=
  let (n, q) := Tab.get s.fab.tokens (4096 * 2 ^ 48, s.now) r
  min (4096 * 2 ^ 48) (n + s.reservation r * (s.now - q))

/-- The tokens in a requester's bucket, in whole bytes. -/
def State.tokens (s : State) (r : Nat) : Nat := s.bucket r / 2 ^ 48

/-! ### The arbitration cycle (R428, R429) -/

/-- A request of the renderer stands under number 171: it has the priority of DISP and spends no tokens (R495). -/
def unitOf (num : Nat) : Nat := if num = 171 then 43 else num
def FabReq.unit (r : FabReq) : Nat := unitOf r.num

/-- Whether a requester is admitted at a point (Table 15-1). -/
def admitted (point r : Nat) : Bool :=
  if point < 64 then decide (r < 78)
  else if point < 192 then decide (24 ≤ r) && decide (r ≤ 42)
  else if point < 320 then decide (43 ≤ r) && decide (r ≤ 76) || r = 78
  else decide (44 ≤ r) && decide (r ≤ 77)

/-- Data cycles of a transfer: 32 bytes a cycle at a pseudo-channel (Table 15-1). -/
def FabReq.cycles (point : Nat) (r : FabReq) : Nat := if point < 64 && 32 < r.bytes then 2 else 1

/-- The priority of a requester (R430). -/
def State.prio (s : State) (r : Nat) : Nat := s.geti pgArb R.ARB_PRIO r

/-- The rank of a waiting request (R429): it was presented at Q-time q. -/
def State.rank (s : State) (r : FabReq) (q : Nat) : Nat :=
  let tok : Bool := r.num ≠ 171 && decide (r.bytes ≤ s.tokens r.unit)
  if reqClass r.unit = 0 && tok then 1
  else if reqClass r.unit = 1 && tok then 2
  else if reqClass r.unit = 2 && decide (q + nsQ (10 * s.get pgArb R.ARB_AGE_LIMIT) ≤ s.now) then 3
  else 4

/-- When a request was presented: fabric cycle and Q-time. -/
def State.since (s : State) (point : Nat) (r : FabReq) (cyc : Nat) : Nat × Nat := Tab.get s.fab.waits (cyc, s.now) (point * 256 + r.num)

/-- The order in which a request is granted: rank, priority, then circular order after the last number granted (R429). -/
def State.grantKey (s : State) (point cyc last : Nat) (r : FabReq) : Nat :=
  (s.rank r (s.since point r cyc).2 * 8 + (7 - s.prio r.unit)) * 128 + (r.unit + 127 - last % 128) % 128

/-- The request granted among those present. -/
def State.winner (s : State) (point cyc last : Nat) (rs : List FabReq) : Option FabReq :=
  rs.foldl (fun (b : Option FabReq) r => match b with
    | none => some r
    | some x => if s.grantKey point cyc last r < s.grantKey point cyc last x then some r else b) none

/-- The hints to the losers (R431): cycles to the arbitration expected to grant each, with the requests present as they now rank. -/
def State.hints (s : State) (point cyc : Nat) : Nat → Nat → Nat → List FabReq → List (FabReq × Nat)
  | 0, _, _, _ => []
  | k + 1, t, last, rs =>
    match s.winner point cyc last rs with
    | none => []
    | some g => (g, min 255 t) :: s.hints point cyc k (t + g.cycles point) g.unit (rs.filter fun r => r.num ≠ g.num)

/-- WAITING of a requester, and HINT_NOW, follow what waits (Table 15-7). -/
def fabStat (r : Nat) : Prog :=
  .ask fun s => .all [
    .when (decide (r < 79)) (.seti pgArb R.ARB_WAITING r (b2n (s.fab.waits.any fun e => unitOf (e.1 % 256) = r))),
    .when (s.get pgArb R.ARB_HINT_SEL = r) (.set pgArb R.ARB_HINT_NOW
      (((s.fab.hints.filter fun e => unitOf (e.1 % 256) = r).map (·.2)).foldl min 255))]

/-- A request that was not granted is delayed for some cycles from the present one, counted once whatever the points (R434). -/
def countDelay (r cyc n : Nat) : Prog :=
  .ask fun s =>
    let upto := Tab.get s.fab.counted cyc r
    .all [.addi pgArb R.ARB_CNT_DELAY r (cyc + n - max cyc upto),
      .fab fun f => { f with counted := Tab.put f.counted r (max upto (cyc + n)) }]

/-- 64-byte units moved through a pseudo-channel are counted by its controller (Table 15-6), and its stack is in use (R461). -/
def countUnits (point : Nat) (r : FabReq) : Prog :=
  .ask fun s => .when (decide (point < 64)) (.all [
    if r.write then .add64 (pgMc (point / 16)) R.MC_CNT_WR_LO R.MC_CNT_WR_HI ((r.bytes + 63) / 64)
    else .add64 (pgMc (point / 16)) R.MC_CNT_RD_LO R.MC_CNT_RD_HI ((r.bytes + 63) / 64),
    .pwr fun p => { p with used := Tab.put p.used (point / 32) s.now },
    .when (s.get (pgMc (point / 16)) R.MC_MODE = 1) (.each [point / 32 * 2, point / 32 * 2 + 1] fun m => .set (pgMc m) R.MC_MODE 2)])

/-! ### Aborts (R435) -/

/-- An access of a sequencer is aborted: the command whose step made it sets FAULT and ends so at its boundary; with no step in progress the
access is that of a DMA transfer, and the first command that waits for one ends (R404, R409, R415, Table 14-7). -/
def sqAborted (q : Nat) (reset : Bool) : Prog :=
  .ask fun s =>
    let (status, result) := if reset then (stResetAbort, 0xF2) else (stTimeout, 0)
    match s.current q with
    | some (k, _) => modHeld q k fun h => { h with flags := h.flags ||| 4, ends := h.ends ++ [(5, status, result)] }
    | none => match (s.seqr q).held.find? fun e => match e.2.wait with | .dma _ => true | _ => false with
      | some e => .all [endCmd q e.1 5 status result, .cmd fun c => { c with dmas := c.dmas.filter fun d => !(d.sq = q && d.slot = e.1) }]
      | none => .nil

/-- An abort is reported, and the sequencer whose access it was goes on as R409 says. -/
def abortReport (r : Nat) (reset : Bool) : Prog :=
  .all [capture pgArb (if reset then 6 else 5) r, .inc pgArb R.ARB_CNT_TIMEOUT,
    .when (!reset) (.all [raise pgArb 1, logFault 0x0E 0x301 r]),
    .when (decide (44 ≤ r) && decide (r < 76)) (sqAborted (r - 44) reset)]

/-- A request is aborted: answered RESET_ABORT by a part under reset, or unanswered for 10 µs (R435).  A BAR0 read of the host (requester 76)
that it was made for, of a function at an offset, then completes and returns 0 (R39). -/
def fabricAbort (r : Nat) (reset : Bool) (read : Option (Nat × Nat)) : Prog :=
  .all [abortReport r reset,
    .fab fun f => { f with
      waits := f.waits.filter (fun e => e.1 % 256 ≠ r), hints := f.hints.filter (fun e => e.1 % 256 ≠ r) },
    fabStat r,
    match read with
    | some (fn, off) => .when (r = 76) (.out (.readData fn off 0))
    | none => .nil]

/-- Requests to a part under reset, as a pseudo-channel that has left training, are answered RESET_ABORT at once (R435, R517). -/
def abortAt (point : Nat) (rs : List FabReq) : Prog :=
  .all [
    .fab fun f => { f with
      waits := f.waits.filter (fun e => e.1 / 256 ≠ point), hints := f.hints.filter (fun e => e.1 / 256 ≠ point), granted := Tab.del f.granted point },
    .each rs fun r => .all [abortReport r.unit true, fabStat r.unit]]

/-- One arbitration at a point among the requests present (R428 to R431). -/
def arbitrate (point cyc : Nat) (full : Bool) (present : List FabReq) : Prog :=
  .ask fun s =>
    let rs := present.filter fun r => admitted point r.unit
    if (Tab.find s.sys.pcTries point).isSome then abortAt point rs else
    let last := Tab.get s.fab.last 127 point
    let keep := s.fab.waits.filter fun e => e.1 / 256 ≠ point || rs.any (fun r => r.num = e.1 % 256)
    let waits := rs.foldl (fun w r => if (Tab.find w (point * 256 + r.num)).isSome then w
      else Tab.put w (point * 256 + r.num) (cyc, s.now)) keep
    let old := s.fab.waits.filter fun e => e.1 / 256 = point
    match (if full then none else s.winner point cyc last rs) with
    | none => .all [
        .fab fun f => { f with
          waits := waits, granted := Tab.del f.granted point,
          hints := rs.foldl (fun h r => Tab.put h (point * 256 + r.num) 255) (f.hints.filter fun e => e.1 / 256 ≠ point) },
        .each rs (fun r => .all [.out (.grant point r.num 255), countDelay r.unit cyc 1]),
        .each (old.map fun e => unitOf (e.1 % 256)) fabStat, .each (rs.map (·.unit)) fabStat]
    | some g =>
      let hs := (s.hints point cyc (rs.length + 1) 0 last rs).drop 1
      let (cyc0, q0) := s.since point g cyc
      let rank := s.rank g q0
      let spent := if reqClass g.unit ≤ 1 && g.num ≠ 171 then min g.bytes (s.tokens g.unit) else 0
      .all [
        .fab fun f => { f with
          waits := Tab.del waits (point * 256 + g.num), last := Tab.put f.last point g.unit, granted := Tab.put f.granted point (g, spent),
          tokens := if spent = 0 then f.tokens else Tab.put f.tokens g.unit (s.bucket g.unit - spent * 2 ^ 48, s.now),
          hints := hs.foldl (fun h r => Tab.put h (point * 256 + r.1.num) r.2) (f.hints.filter fun e => e.1 / 256 ≠ point) },
        .addi pgArb R.ARB_CNT_GRANT g.unit 1,
        .when (rank = 3) (.inc pgArb R.ARB_CNT_AGED),
        .when (rank = 2 && decide (32 < cyc - cyc0)) (incRaise pgArb R.ARB_CNT_FIRM_LATE 2),
        countUnits point g,
        .each hs (fun h => .all [.out (.grant point h.1.num h.2), countDelay h.1.unit cyc (g.cycles point)]),
        .out (.grant point g.num 0),
        .each (old.map fun e => unitOf (e.1 % 256)) fabStat, .each (rs.map (·.unit)) fabStat]

/-- The requester granted at a point withdraws in its first data cycle: the point arbitrates again in that cycle (R432). -/
def withdraw (point cyc : Nat) (full : Bool) (present : List FabReq) : Prog :=
  .ask fun s =>
    match Tab.find s.fab.granted point with
    | none => .nil
    | some (g, spent) =>
      let n := (g.bytes + 63) / 64
      let m := pgMc (point / 16)
      .all [.inc pgArb R.ARB_CNT_WITHDRAW,
        .fab fun f => { f with
          granted := Tab.del f.granted point,
          tokens := if spent = 0 then f.tokens else Tab.put f.tokens g.unit (min (4096 * 2 ^ 48) (s.bucket g.unit + spent * 2 ^ 48), s.now) },
        .when (decide (point < 64)) (
          if g.write then .set64 m R.MC_CNT_WR_LO R.MC_CNT_WR_HI (s.get64 m R.MC_CNT_WR_LO R.MC_CNT_WR_HI - n)
          else .set64 m R.MC_CNT_RD_LO R.MC_CNT_RD_HI (s.get64 m R.MC_CNT_RD_LO R.MC_CNT_RD_HI - n)),
        arbitrate point cyc full present]

/-! ### Meanings -/

/-- A granted requester withdraws (R432). -/
def execWithdrawal (point cyc : Nat) (full : Bool) (reqs : List (Nat × Nat × Bool)) (s : State) : Host.Outcome State Fault Refusal :=
  .next (run (withdraw point cyc full (reqs.map fun r => { num := r.1, bytes := r.2.1, write := r.2.2 })) s)

/-- A request left unanswered for 10 µs, or to a part under reset, is aborted (R435); the host's read that it was made for is answered (R39). -/
def execFabricTimeout (req : Nat) (how : Bool × Option (Nat × Nat)) (s : State) : Host.Outcome State Fault Refusal :=
  .next (run (.when (decide (req < 79)) (fabricAbort req how.1 how.2)) s)

end Sys2Proof.Machine
end

