-- ==== Sys2Proof/Machine/Net.lean ====
section
/-! DEFINITION. The network data service: sub-ports, queue pairs and flows, placement, admission, scheduling and shedding, congestion
reaction, failover and link loss (spec/13). -/

namespace Sys2Proof.Machine

/-! ### Sub-ports (R364 to R367) -/

/-- Sub-port number port * 4 + sub-port of a PORT field (Table 13-4). -/
def subOf (f : Nat) : Nat := (f % 2) * 4 + f / 2

/-- Line rate of a sub-port in MB/s, and what can be reserved on it; 0 where the mode has no such sub-port (Table 13-1). -/
def State.lineRate (s : State) (x : Nat) : Nat :=
  match s.get (pgEnet (x / 4)) R.ENET_MODE with
  | 0 => if x % 4 = 0 then 50000 else 0
  | 1 => if x % 4 < 2 then 25000 else 0
  | _ => 12500

/-- The capacity of a sub-port that can be reserved: nine tenths of its line rate (Table 13-1). -/
def State.reservable (s : State) (x : Nat) : Nat := s.lineRate x * 9 / 10

/-- Whether a sub-port is up. -/
def State.subUp (s : State) (x : Nat) : Bool := bit (s.get (pgEnet (x / 4)) R.ENET_LINK) (x % 4)

/-- Whether a priority is paused on a sub-port (R366). -/
def State.isPaused (s : State) (x prio : Nat) : Bool := (Tab.find s.net.paused (x * 8 + prio)).isSome

/-- The PAUSED bits of a port: a priority paused on any of its sub-ports (Table 13-8). -/
def showPaused (port : Nat) : Prog :=
  .ask fun s => .set (pgEnet port) R.ENET_PAUSED (maskOf 8 fun p => (List.range 4).any fun k => s.isPaused (port * 4 + k) p)

/-- A frame leaves a sub-port, or waits while its priority is paused (R366): source address, tag with VLAN_ID and priority, the path and the
content (R365, R368). -/
def sendFrame (x kind prio : Nat) (path body : List Byte) : Prog :=
  .ask fun s =>
    let e := pgEnet (x / 4)
    let frame := leBytes 4 (s.geti e R.ENET_MAC_LO (x % 4)) ++ leBytes 2 (s.geti e R.ENET_MAC_HI (x % 4)) ++
      leBytes 2 (prio * 2 ^ 13 + s.get e R.ENET_VLAN_ID) ++ path ++ body
    if s.isPaused x prio then .net fun n => { n with waiting := n.waiting ++ [(x * 8 + prio, kind, frame)] }
    else .all [.out (.packet x kind frame), .inc e R.ENET_CNT_TX_FRAMES]

/-- The pause of a priority of a sub-port ends, and the frames that waited for it leave (R366). -/
def resume (key : Nat) : Prog :=
  .ask fun s => .all [
    .net fun n => { n with paused := Tab.del n.paused key, waiting := n.waiting.filter fun f => f.1 ≠ key },
    .each (s.net.waiting.filter fun f => f.1 = key) fun f =>
      .all [.out (.packet (key / 8) f.2.1 f.2.2), .inc (pgEnet (key / 32)) R.ENET_CNT_TX_FRAMES],
    showPaused (key / 32)]

/-- PFC_EN has been written: pauses of priorities that it no longer names are not honoured (R366, Table 13-8). -/
def pfcWritten (port : Nat) : Prog :=
  .ask fun s => .each ((s.net.paused.map (·.1)).filter fun k => k / 32 = port && !(bit (s.get (pgEnet port) R.ENET_PFC_EN) (k % 8))) resume

/-! ### Contexts (R368) -/

/-- The working state of a context. -/
def State.ctx (s : State) (c : Nat) : Ctx := Tab.get s.net.ctxs Ctx.reset c

/-- The working state of a context changes. -/
def modCtx (c : Nat) (f : Ctx → Ctx) : Prog := .net fun n => { n with ctxs := Tab.mod n.ctxs Ctx.reset c f }

/-- Fields of a context. -/
def State.qp (s : State) (c : Nat) (r : Row) : Nat := s.get (pgQpc c) r

/-- Key of a context as a destination: kind 2 a queue pair, 3 a UDP flow (Table 6-10). -/
def State.ctxKey (s : State) (c : Nat) : Nat := (if s.get (pgQpc c) R.QPC_KIND = 3 then 3 else 2) * 65536 + c

/-- A context that is not FREE. -/
def State.ctxLive (s : State) (c : Nat) : Bool := decide (s.qp c R.QPC_STATE ≠ 0)

/-- The contexts that are not FREE. -/
def State.ctxList (s : State) : List Nat := (s.net.ctxs.map (·.1)).filter s.ctxLive

/-- A context is a UDP flow. -/
def State.isUdp (s : State) (c : Nat) : Bool := s.qp c R.QPC_KIND = 3

/-- Sub-port of the path in use, and of the other path. -/
def State.pathSub (s : State) (c : Nat) : Nat := subOf (if s.qp c R.QPC_ON_ALT = 1 then s.qp c R.QPC_ALT_PORT else s.qp c R.QPC_PORT)

/-- Sub-port of the path not in use, where there is a secondary path. -/
def State.otherSub (s : State) (c : Nat) : Option Nat :=
  if s.qp c R.QPC_ALT_EN = 1 then some (subOf (if s.qp c R.QPC_ON_ALT = 1 then s.qp c R.QPC_PORT else s.qp c R.QPC_ALT_PORT)) else none

/-- The path block in use. -/
def State.pathBlock (s : State) (c : Nat) : List Byte := if s.qp c R.QPC_ON_ALT = 1 then (s.ctx c).alt else (s.ctx c).path

/-- The streams bound to a destination. -/
def State.boundTo (s : State) (key : Nat) : List Nat := which 256 fun n => s.dest n = key

/-- Path MTU in bytes (Table 13-2). -/
def State.pmtu (s : State) (c : Nat) : Nat := 1024 * 2 ^ s.qp c R.QPC_PMTU

/-- Bytes of a record in one datagram: the largest multiple of 8 that fits after the fragment header (R242, R375). -/
def State.fragSize (s : State) (c : Nat) : Nat := ((s.qp c R.QPC_DQPN % 2 ^ 16 - 16) / 8) * 8

/-- Region length and slot size of a context (R372). -/
def State.regionLen (s : State) (c : Nat) : Nat := s.get64 (pgQpc c) R.QPC_REGION_LO R.QPC_REGION_HI
def State.slotSize (s : State) (c : Nat) : Nat := 2 ^ s.qp c R.QPC_LOG2_SLOT
def State.head (s : State) (c : Nat) : Nat := s.get64 (pgQpc c) R.QPC_HEAD_LO R.QPC_HEAD_HI
def State.limit (s : State) (c : Nat) : Nat := s.get64 (pgQpc c) R.QPC_LIMIT_LO R.QPC_LIMIT_HI

/-! ### Admission (R376 to R378) -/

/-- Max payload size of a function: Device Control bits [7:5] (R335, Table 13-5). -/
def State.maxPayload (s : State) (fn : Nat) : Nat := 128 * 2 ^ bits (Tab.get s.host.devCtl 0 fn) 7 5

/-- P and H of a destination (Table 13-5). -/
def State.chargeParams (s : State) (key : Nat) : Nat × Nat :=
  if 2 ≤ key / 65536 then
    let c := key % 65536
    let v6 := bit (field (s.ctx c).path 6 1) 0
    if s.isUdp c then (s.qp c R.QPC_DQPN % 2 ^ 16 - 16, if v6 then 106 else 86) else (s.pmtu c, if v6 then 122 else 102)
  else (s.maxPayload (s.shellFunc (s.owner (pgRing (key % 65536)).ownReg)), 24)

/-- The charge of a declared rate on a destination: C = ⌈R · (P + H) / P⌉ (R376). -/
def State.chargeOf (s : State) (key rate : Nat) : Nat :=
  let (p, h) := s.chargeParams key
  (rate * (p + h) + p - 1) / p

/-- The reserved sums a destination is charged on: sub-ports 0 to 7, and 8 for PCIe (R377). -/
def State.chargedOn (s : State) (key : Nat) : List Nat :=
  match key / 65536 with
  | 0 => []
  | 1 => [8]
  | _ =>
    let c := key % 65536
    subOf (s.qp c R.QPC_PORT) :: (if s.qp c R.QPC_ALT_EN = 1 then [subOf (s.qp c R.QPC_ALT_PORT)] else [])

/-- A reserved sum, and what it may reach. -/
def State.sumOn (s : State) (x : Nat) : Nat :=
  if x = 8 then s.get pgRdma R.RDMA_SUM_PCIE else s.geti pgRdma (if x < 4 then R.RDMA_SUM_E0 else R.RDMA_SUM_E1) (x % 4)

/-- What a reserved sum may reach. -/
def State.capOn (s : State) (x : Nat) : Nat := if x = 8 then s.get pgRdma R.RDMA_PCIE_CAP else s.reservable x

/-- A reserved sum takes a value. -/
def setSum (x v : Nat) : Prog :=
  if x = 8 then .set pgRdma R.RDMA_SUM_PCIE v else .seti pgRdma (if x < 4 then R.RDMA_SUM_E0 else R.RDMA_SUM_E1) (x % 4) v

/-- Whether a stream's charge is in a reserved sum. -/
def State.summed (s : State) (n : Nat) : Bool := s.geti pgRdma R.RDMA_ADM_SUMMED n = 1

/-- What a stream now takes of a reserved sum, on its present destination. -/
def State.takes (s : State) (n x : Nat) : Nat :=
  if s.summed n && (s.chargedOn (s.dest n)).contains x then s.geti pgRdma R.RDMA_ADM_CHARGE n else 0

/-- Whether charging a stream on a destination at a rate keeps every reserved sum within its capacity (R377). -/
def State.admits (s : State) (n key rate : Nat) : Bool :=
  (s.chargedOn key).all fun x => decide (s.sumOn x - s.takes n x + s.chargeOf key rate ≤ s.capOn x)

/-- MIN_RATE of a context: the charges of its PRIMARY streams (Table 13-4). -/
def minRate (c : Nat) : Prog :=
  .ask fun s => .set (pgQpc c) R.QPC_MIN_RATE (min 0xFFFF
    (((s.boundTo (s.ctxKey c)).filter fun n => s.st n R.ST_CLASS = 0).foldl (fun a n => a + s.geti pgRdma R.RDMA_ADM_CHARGE n) 0))

/-- A stream's charge leaves the reserved sums (R378). -/
def releaseCharge (n : Nat) : Prog :=
  .ask fun s => .all [
    .when (s.summed n) (.each (s.chargedOn (s.dest n)) fun x =>
      .ask fun t => setSum x (t.sumOn x - t.geti pgRdma R.RDMA_ADM_CHARGE n)),
    .seti pgRdma R.RDMA_ADM_SUMMED n 0]

/-- A stream is charged on its destination: OPPORTUNISTIC streams are shown their charge but stand in no sum (R377). -/
def makeCharge (n : Nat) : Prog :=
  .all [releaseCharge n, .ask fun s =>
    let c := s.chargeOf (s.dest n) (Tab.get s.net.rate 0 n)
    let inSum : Bool := s.st n R.ST_CLASS ≠ 2
    .all [.seti pgRdma R.RDMA_ADM_CHARGE n c, .seti pgRdma R.RDMA_ADM_SUMMED n (b2n inSum),
      .when inSum (.each (s.chargedOn (s.dest n)) fun x => .ask fun t => setSum x (t.sumOn x + c)),
      .when (decide (2 ≤ s.dest n / 65536)) (minRate (s.dest n % 65536))]]

/-- An admission is refused (R378). -/
def admissionRefused (n : Nat) : Prog :=
  .all [incRaise pgRdma R.RDMA_CNT_REFUSED 5, capture pgRdma 0x21 n]

/-- A stream is bound to a destination with a declared rate (R376, R543): what is queued for an earlier destination stays with it. -/
def bindStream (n key rate : Nat) : Prog :=
  .ask fun s => .all [releaseCharge n,
    .set (pgSt n) R.ST_DEST_KIND (key / 65536), .set (pgSt n) R.ST_DEST_INDEX (key % 65536),
    .net fun t => { t with rate := Tab.put t.rate n rate },
    .when (decide (2 ≤ s.dest n / 65536)) (minRate (s.dest n % 65536)),
    makeCharge n]

/-- A stream is unbound, and its charge released. -/
def unbindStream (n : Nat) : Prog :=
  .ask fun s => .all [releaseCharge n,
    .set (pgSt n) R.ST_DEST_KIND 0, .set (pgSt n) R.ST_DEST_INDEX 0,
    .seti pgRdma R.RDMA_ADM_CHARGE n 0,
    .net fun t => { t with rate := Tab.del t.rate n },
    .when (decide (2 ≤ s.dest n / 65536)) (minRate (s.dest n % 65536))]

/-- CTX_USED counts the contexts that are not FREE (Table 13-9). -/
def ctxUsed : Prog := .ask fun s => .set pgRdma R.RDMA_CTX_USED s.ctxList.length

/-- A context is freed: its streams are unbound, and every field but OWNER returns to reset (QP_DESTROY, R457, R514). -/
def freeCtx (c : Nat) : Prog :=
  .ask fun s => .all [.each (s.boundTo (s.ctxKey c)) unbindStream,
    .net fun t => { t with ctxs := Tab.del t.ctxs c },
    .each (List.range 15) (fun k => .one (.wr ((pgQpc c).base + 4 * k) (resetWord ((pgQpc c).base + 4 * k)))),
    .set (pgQpc c) R.QPC_ERR_CAUSE 0, ctxUsed]

/-! ### Sending (R370 to R375, R379) -/

/-- The messages of a record at a position: remote address and bytes.  A record that crosses the end of the region is two messages
(R370, R372). -/
def State.messages (s : State) (c head : Nat) (bs : List Byte) : List (Nat × List Byte) :=
  match s.qp c R.QPC_KIND with
  | 2 => [(0, bs)]
  | k =>
    let va := s.get64 (pgQpc c) R.QPC_VA_LO R.QPC_VA_HI
    let x := (if k = 0 then head * s.slotSize c else head) % s.regionLen c
    let room := s.regionLen c - x
    if bs.length ≤ room then [(va + x, bs)] else [(va + x, bs.take room), (va, bs.drop room)]

/-- One packet of a queue pair: transport opcode, the RDMA header of a first packet, immediate, payload. -/
structure Packet where
  op : Nat
  /-- Remote address and message length in the first packet of a WRITE. -/
  reth : Option (Nat × Nat)
  imm : Option Nat
  data : List Byte

/-- The packets of one message; the opcodes are those of the reliable-connected transport (PRESUMED, log entry 31). -/
def State.msgPackets (s : State) (c : Nat) (m : Nat × List Byte) (imm : Option Nat) : List Packet :=
  let send : Bool := s.qp c R.QPC_KIND = 2
  let parts := chunks (s.pmtu c) (m.2.length + 1) m.2
  let last := parts.length - 1
  parts.zipIdx.map fun (d, i) =>
    let op : Nat :=
      if send then (if last = 0 then 4 else if i = 0 then 0 else if i = last then 2 else 1)
      else if last = 0 then (if imm.isSome then 11 else 10)
      else if i = 0 then 6 else if i = last then (if imm.isSome then 9 else 8) else 7
    { op := op, reth := if !send && i = 0 then some (m.1, m.2.length) else none, imm := if i = last then imm else none, data := d }

/-- The packets of a record; only its last message carries the immediate (R370). -/
def State.recPackets (s : State) (c head : Nat) (bs : List Byte) (imm : Option Nat) : List Packet :=
  let ms := s.messages c head bs
  ms.zipIdx.flatMap fun (m, i) => s.msgPackets c m (if i + 1 = ms.length then imm else none)

/-- The positions a record takes: slots, bytes, or one message (Table 13-3). -/
def State.headStep (s : State) (c len : Nat) : Nat :=
  match s.qp c R.QPC_KIND with
  | 0 => (len + s.slotSize c - 1) / s.slotSize c
  | 1 => len
  | 2 => 1
  | _ => (len + s.fragSize c - 1) / s.fragSize c

/-- The immediate of a record, if it carries one (R373). -/
def State.immOf (s : State) (c : Nat) (r : Rec) (head : Nat) : Option Nat :=
  let kind := if r.ty = 0x0F then 2 else if (s.ctx c).frame = some r.frame then 0 else 1
  let pos := (if s.qp c R.QPC_KIND = 1 then head / 8 else head) % 2 ^ 30
  if s.qp c R.QPC_KIND ≥ 2 then none
  else if kind = 2 || s.qp c R.QPC_IMM = 2 || (s.qp c R.QPC_IMM = 1 && kind = 1) then some (kind * 2 ^ 30 + pos) else none

/-- A packet of a queue pair leaves its sub-port (R369). -/
def sendPacket (c psn : Nat) (p : Packet) : Prog :=
  .ask fun s =>
    let x := s.pathSub c
    let q := if s.qp c R.QPC_ON_ALT = 1 then s.qp c R.QPC_ALT_DQPN else s.qp c R.QPC_DQPN
    sendFrame x 0 (s.get (pgEnet (x / 4)) R.ENET_PCP_ROCE) (s.pathBlock c)
      (leBytes 1 p.op ++ leBytes 3 q ++ leBytes 3 psn ++
       (match p.reth with
        | some (va, len) => leBytes 8 va ++ leBytes 4 (s.qp c R.QPC_RKEY) ++ leBytes 4 len
        | none => []) ++
       (match p.imm with | some i => leBytes 4 i | none => []) ++ p.data)

/-- A record is charged against RATE: the next may begin once its bytes on the line have passed at RATE (R379). -/
def pace (c len : Nat) : Prog :=
  .ask fun s =>
    let (p, h) := s.chargeParams (s.ctxKey c)
    let b := (len * (p + h) + p - 1) / p
    modCtx c fun x => { x with freeAt := s.now + b * 2 ^ 48 / (s.qp c R.QPC_RATE * 1000000) }

/-- The rest of a record that has been put out in part, or is to be put out again, leaves (R369, R383). -/
def resend (c : Nat) (x : Sent) : Prog :=
  .ask fun s =>
    let ps := (s.recPackets c x.head x.item.bytes x.imm).drop x.put
    .all [.each ps.zipIdx (fun (p, i) => sendPacket c ((x.psn + x.put + i) % 2 ^ 24) p),
      .when x.again (.add pgRdma R.RDMA_CNT_RETX ps.length),
      modCtx c fun t => { t with
        sent := modFirst (fun y => y.head = x.head) (fun y => { y with put := y.packets, again := true }) t.sent, timerAt := s.now },
      pace c x.item.bytes.length]

/-- The datagrams of a record (R242, R375). -/
def sendDatagrams (c : Nat) (r : Rec) : Prog :=
  .ask fun s =>
    let x := s.pathSub c
    let parts := chunks (s.fragSize c) (r.bytes.length + 1) r.bytes
    let ver := if field r.bytes 2 1 = 1 then 1 else 2
    .all [.each parts.zipIdx (fun (d, i) =>
        sendFrame x 1 (s.get (pgEnet (x / 4)) R.ENET_PCP_UDP) (s.pathBlock c)
          (leBytes 2 0xE59B ++ leBytes 1 ver ++ leBytes 1 (b2n (i = 0) + 2 * b2n (i + 1 = parts.length) + 4 * b2n (i ≠ 0)) ++
           leBytes 4 (s.head c + i) ++ leBytes 4 (i * s.fragSize c) ++ leBytes 4 r.bytes.length ++ d)),
      .set64 (pgQpc c) R.QPC_HEAD_LO R.QPC_HEAD_HI ((s.head c + parts.length) % 2 ^ 64), pace c r.bytes.length]

/-- A record counts as written on a network destination (R370, R375). -/
def netWritten (c : Nat) (r : Rec) : Prog :=
  .ask fun s => .all [podCount r, .when (r.ty = 0x0F) (.seg fun g => { g with podWait := g.podWait.filter (· ≠ s.ctxKey c) })]

/-- The next record of a context in class order, oldest first: class and source (R379); pods come with the first class. -/
def State.nextOf (s : State) (key : Nat) : Option (Nat × Nat) :=
  let pods := (s.seg.podQ.filter (fun r => r.dest = key)).map fun r => (0, r.queuedAt, 256)
  let cands := pods ++ (which 256 fun n => (s.strm n).queue.any (fun r => r.dest = key)).filterMap fun n =>
    (s.nextRec key n).map fun r => (s.st n R.ST_CLASS, r.queuedAt, n)
  (cands.foldl (fun (b : Option (Nat × Nat × Nat)) x =>
    match b with
    | none => some x
    | some y => if x.1 < y.1 || (x.1 = y.1 && x.2.1 < y.2.1) then some x else b) none).map fun x => (x.1, x.2.2)

/-- A LOG record may be sent only when its last byte lies below LIMIT (Table 13-3). -/
def State.fitsLimit (s : State) (c : Nat) (r : Rec) : Bool :=
  s.qp c R.QPC_KIND ≠ 1 || decide (s.head c + r.bytes.length ≤ s.limit c)

/-- The class of what a context would send now on its path, if it can send (R366, R379). -/
def State.ctxClass (s : State) (c : Nat) : Option Nat :=
  let x := s.pathSub c
  let e := pgEnet (x / 4)
  let t := s.ctx c
  if s.qp c R.QPC_STATE ≠ 1 || !(s.subUp x) || decide (s.now < t.freeAt) || t.rnrAt.isSome ||
      s.isPaused x (s.get e (if s.isUdp c then R.ENET_PCP_UDP else R.ENET_PCP_ROCE)) then none
  else match t.sent.find? (fun y => decide (y.put < y.packets)) with
    | some y => some (if y.src = 256 then 0 else s.st y.src R.ST_CLASS)
    | none =>
      match s.nextOf (s.ctxKey c) with
      | some (k, n) =>
        match s.nextRec (s.ctxKey c) n with
        | some r => if s.fitsLimit c r then some k else none
        | none => none
      | none => none

/-- A context sends one record (R370, R375). -/
def ctxSend (c : Nat) : Prog :=
  .ask fun s =>
    match (s.ctx c).sent.find? (fun y => decide (y.put < y.packets)) with
    | some y => resend c y
    | none =>
      match s.nextOf (s.ctxKey c) with
      | none => .nil
      | some (_, n) =>
        match s.nextRec (s.ctxKey c) n with
        | none => .nil
        | some r =>
          if s.isUdp c then .all [dropRec (s.ctxKey c) n, sendDatagrams c r, netWritten c r]
          else
            let imm := s.immOf c r (s.head c)
            let k := (s.recPackets c (s.head c) r.bytes imm).length
            let x : Sent := {
              item := { r with begun := true }, src := n, head := s.head c, psn := s.qp c R.QPC_NEXT_PSN,
              packets := k, put := 0, again := false, imm := imm }
            .all [dropRec (s.ctxKey c) n,
              modCtx c fun t => { t with sent := t.sent ++ [x], frame := if r.ty = 0x0F then t.frame else some r.frame },
              .set (pgQpc c) R.QPC_NEXT_PSN ((x.psn + k) % 2 ^ 24),
              .set64 (pgQpc c) R.QPC_HEAD_LO R.QPC_HEAD_HI ((s.head c + s.headStep c r.bytes.length) % 2 ^ 64),
              resend c x]

/-- The first of a list of numbers after a given one, in circular order. -/
def nextAfter (last : Nat) (l : List Nat) : Option Nat :=
  match l.filter (fun k => decide (last < k)) with
  | k :: _ => some k
  | [] => l.head?

/-- The data rings that hold or could open a buffer and have something to write: ring and class. -/
def State.ringClass (s : State) (n : Nat) : Option Nat :=
  if s.get (pgRing n) R.RING_RUNNING = 1 && s.get (pgRing n) R.RING_TYPE = 2 &&
      (s.ring n).ents.any (fun e => (e.st = .ready && e.code = 0) || e.st = .opened)
  then (s.nextOf (65536 + n)).map (·.1) else none

/-- A free sub-port (0 to 7) or the PCIe engine (8) takes the next record: the first class that has one, and within it one record per
context or ring in turn (R379). -/
def egressSchedule (x : Nat) : Prog :=
  .ask fun s =>
    let all : List (Nat × Nat) :=
      if x = 8 then (s.host.rings.map (·.1)).filterMap fun n => (s.ringClass n).map fun k => (k, n)
      else (s.ctxList.filter fun c => s.pathSub c = x).filterMap fun c => (s.ctxClass c).map fun k => (k, c)
    match (List.range 3).find? (fun k => all.any fun e => e.1 = k) with
    | none => .nil
    | some k =>
      match nextAfter (Tab.get s.net.turn 8192 (x * 4 + k)) ((all.filter fun e => e.1 = k).map (·.2)) with
      | none => .nil
      | some c => .all [.net fun n => { n with turn := Tab.put n.turn (x * 4 + k) c },
          if x = 8 then
            match (s.ring c).part with
            | some (n, _) => recordPlace c n
            | none => match s.nextOf (65536 + c) with
              | some (_, n) => recordPlace c n
              | none => .nil
          else ctxSend c]

/-! ### Acknowledgements, retries, errors (R369, R371) -/

/-- A queue pair or flow enters ERROR: every record of its streams unsent or unacknowledged becomes a LINK_DOWN pip (R371). -/
def qpError (c cause : Nat) : Prog :=
  .ask fun s =>
    let lost := (s.ctx c).sent
    .all [.set (pgQpc c) R.QPC_STATE 3, .set (pgQpc c) R.QPC_ERR_CAUSE cause,
      modCtx c fun t => { t with sent := [], rnrAt := none, holdEnd := none },
      .inc pgRdma R.RDMA_CNT_QP_ERR, raise pgRdma 1, capture pgRdma 0x20 (c + cause * 65536), logFault 0x13 0x430 (c + cause * 65536),
      .each (List.range 256) (fun n => dropData n (s.ctxKey c) 8 ((lost.filter (fun x => x.src = n)).map (·.item)))]

/-- Everything from the oldest unacknowledged packet is to be sent again (R369, R384). -/
def goBack (c psn : Nat) : Prog :=
  modCtx c fun t => { t with sent := t.sent.map fun x =>
    { x with put := min x.put (if (psn + 2 ^ 24 - x.psn) % 2 ^ 24 < x.packets then (psn + 2 ^ 24 - x.psn) % 2 ^ 24 else 0) } }

/-- A context enters WAIT_LINK; LINK_HOLD in force now bounds it (R384, Table 13-9). -/
def waitLink (c : Nat) : Prog :=
  .ask fun s => .all [.set (pgQpc c) R.QPC_STATE 2,
    modCtx c fun t => { t with holdEnd := some (s.now + msQ (s.get pgRdma R.RDMA_LINK_HOLD)) }]

/-- A context changes its path: everything unacknowledged is sent again whole on the other path, with that path's PSNs, and each bound
stream receives a FAILOVER LOG record (R383). -/
def switchPath (c : Nat) (back : Bool) : Prog :=
  .ask fun s =>
    let left := if s.qp c R.QPC_ON_ALT = 1 then s.qp c R.QPC_ALT_PORT else s.qp c R.QPC_PORT
    let taken := if s.qp c R.QPC_ON_ALT = 1 then s.qp c R.QPC_PORT else s.qp c R.QPC_ALT_PORT
    let t := s.ctx c
    let p0 := t.other.1
    let (sent, next) := t.sent.foldl (fun (a : List Sent × Nat) x =>
      (a.1 ++ [{ x with psn := a.2, put := 0 }], (a.2 + x.packets) % 2 ^ 24)) ([], p0)
    let line := s.lineRate (subOf taken)
    .all [.set (pgQpc c) R.QPC_ON_ALT (1 - s.qp c R.QPC_ON_ALT), .set (pgQpc c) R.QPC_STATE 1,
      modCtx c fun t => { t with
        sent := sent, other := (s.qp c R.QPC_NEXT_PSN, s.qp c R.QPC_ACK_PSN), retries := 0, rnr := 0, rnrAt := none, holdEnd := none,
        timerAt := s.now },
      .set (pgQpc c) R.QPC_NEXT_PSN next, .set (pgQpc c) R.QPC_ACK_PSN p0,
      .set (pgQpc c) R.QPC_RATE (if s.isUdp c then line else min line (s.qp c R.QPC_RATE)),
      if back then incRaise pgRdma R.RDMA_CNT_FAILBACK 3 else incRaise pgRdma R.RDMA_CNT_FAILOVER 2,
      .each (s.boundTo (s.ctxKey c)) (fun n => .ask fun u => pushLog (logRec u n 3 0 0 s.now
        (leBytes 2 c ++ leBytes 1 left ++ leBytes 1 taken ++ leBytes 4 0 ++ qBytes s.now ++ leBytes 4 0)))]

/-- The path in use has failed: the other path is taken where it is up; otherwise the context waits for a link (R383, R384). -/
def pathFailed (c : Nat) : Prog :=
  .ask fun s =>
    match s.otherSub c with
    | some x => if s.subUp x then switchPath c false else waitLink c
    | none => waitLink c

/-- Retries are exhausted on the path in use: failover where there is a secondary path, else ERROR (R371). -/
def exhausted (c cause : Nat) : Prog :=
  .ask fun s => if s.qp c R.QPC_ALT_EN = 1 then pathFailed c else qpError c cause

/-- Packets before a PSN are acknowledged: records acknowledged whole count as written (R369, R370). -/
def ackBefore (c psn : Nat) : Prog :=
  .ask fun s =>
    let base := s.qp c R.QPC_ACK_PSN
    let n := (psn + 2 ^ 24 - base) % 2 ^ 24
    let whole (x : Sent) : Bool := decide ((x.psn + x.packets + 2 ^ 24 - base) % 2 ^ 24 ≤ n) && decide (x.put = x.packets)
    let done := (s.ctx c).sent.takeWhile whole
    .all [.set (pgQpc c) R.QPC_ACK_PSN psn,
      modCtx c fun t => { t with sent := t.sent.drop done.length, timerAt := s.now, retries := 0, rnr := 0 },
      .each done (fun x => netWritten c x.item)]

/-- A PSN lies between ACK_PSN and NEXT_PSN. -/
def State.psnOpen (s : State) (c psn : Nat) : Bool :=
  decide ((psn + 2 ^ 24 - s.qp c R.QPC_ACK_PSN) % 2 ^ 24 < (s.qp c R.QPC_NEXT_PSN + 2 ^ 24 - s.qp c R.QPC_ACK_PSN) % 2 ^ 24)

/-- Whether a frame for a context is accepted (R367). -/
def State.accepts (s : State) (c : Nat) : Bool := (s.qp c R.QPC_STATE = 1 || s.qp c R.QPC_STATE = 2) && !s.isUdp c

/-- A received frame is accepted or discarded, and counted (R367, Table 13-8). -/
def rxFrame (x : Nat) (ok : Bool) : Prog := .inc (pgEnet (x / 4)) (if ok then R.ENET_CNT_RX_FRAMES else R.ENET_CNT_RX_DISCARD)

/-- An acknowledgement of every packet up to a PSN. -/
def roceAck (c psn : Nat) : Prog :=
  .ask fun s => .all [rxFrame (s.pathSub c) (s.accepts c),
    .when (s.accepts c && s.psnOpen c psn) (ackBefore c ((psn + 1) % 2 ^ 24))]

/-- A NAK of a PSN: 0 sequence error, 1 receiver not ready with its delay in ns, 2 remote access, 3 invalid request (R369, R371). -/
def roceNak (c psn kind delay : Nat) : Prog :=
  .ask fun s => .all [rxFrame (s.pathSub c) (s.accepts c),
    .when (s.accepts c && s.psnOpen c psn) (
      match kind with
      | 0 => .all [ackBefore c psn, goBack c psn]
      | 1 =>
        .all [.inc pgRdma R.RDMA_CNT_RNR, .ask fun t =>
          let k := (t.ctx c).rnr
          .all [ackBefore c psn, goBack c psn, .ask fun u =>
            if t.qp c R.QPC_RNR_RETRY ≠ 7 && decide (t.qp c R.QPC_RNR_RETRY ≤ (if t.qp c R.QPC_ACK_PSN = psn then k else 0))
            then exhausted c 2
            else modCtx c fun y => { y with rnr := (if t.qp c R.QPC_ACK_PSN = psn then k else 0) + 1, rnrAt := some (u.now + nsQ delay) }]]
      | 2 => qpError c 3
      | 3 => qpError c 4
      | _ => .nil)]

/-- RETRY_TMO of a context in 2^-48 s: 4.096 µs × 2^value (Table 13-4). -/
def State.retryTmo (s : State) (c : Nat) : Nat := nsQ (4096 * 2 ^ s.qp c R.QPC_RETRY_TMO)

/-- The retransmission timer of a context expires (R369, R371). -/
def retryTmo (c : Nat) : Prog :=
  .ask fun s =>
    let t := s.ctx c
    .when (s.qp c R.QPC_STATE = 1 && !t.sent.isEmpty && t.rnrAt.isNone && decide (t.timerAt + s.retryTmo c ≤ s.now)) (
      .all [.inc pgRdma R.RDMA_CNT_TIMEOUT,
        if s.qp c R.QPC_RETRY_CNT ≤ t.retries then exhausted c 1
        else .all [modCtx c fun y => { y with retries := y.retries + 1, timerAt := s.now }, goBack c (s.qp c R.QPC_ACK_PSN)]])

/-- The receiver-not-ready delay of a context has passed: its message is sent again (R369). -/
def rnrDelay (c : Nat) : Prog :=
  .ask fun s =>
    match (s.ctx c).rnrAt with
    | some q => .when (decide (q ≤ s.now)) (modCtx c fun y => { y with rnrAt := none, timerAt := s.now })
    | none => .nil

/-! ### Congestion reaction (R382) -/

/-- A congestion notification. -/
def cnp (c : Nat) : Prog :=
  .ask fun s =>
    let t := s.ctx c
    let rate := s.qp c R.QPC_RATE
    let floor := s.qp c R.QPC_MIN_RATE
    let guarded : Bool := match t.cnpAt with
      | some q => decide (s.now < q + usQ (s.get pgRdma R.RDMA_RP_GUARD))
      | none => false
    .all [rxFrame (s.pathSub c) (s.accepts c), .when (s.accepts c) (.all [
      .inc pgRdma R.RDMA_CNT_CNP,
      .when (rate = floor) (incRaise pgRdma R.RDMA_CNT_RATE_FLOOR 7),
      modCtx c fun y => { y with incAt := s.now },
      .when (!guarded && decide (rate ≠ floor)) (.all [
        .set (pgQpc c) R.QPC_RATE (max floor (rate - rate / 2 ^ s.get pgRdma R.RDMA_RP_DEC)),
        modCtx c fun y => { y with cnpAt := some s.now }])])]

/-- An RP_PERIOD has passed without a notification. -/
def rpPeriod (c : Nat) : Prog :=
  .ask fun s =>
    let t := s.ctx c
    .when (s.accepts c && decide (t.incAt + usQ (s.get pgRdma R.RDMA_RP_PERIOD) ≤ s.now)) (.all [
      .set (pgQpc c) R.QPC_RATE (max (s.qp c R.QPC_RATE)
        (min (s.lineRate (s.pathSub c)) (s.qp c R.QPC_RATE + s.get pgRdma R.RDMA_RP_AI))),
      modCtx c fun y => { y with incAt := t.incAt + usQ (s.get pgRdma R.RDMA_RP_PERIOD) }])

/-! ### Links going down and coming up (R365, R383, R384) -/

/-- A sub-port goes down: its contexts take their other path or wait (R383, R384). -/
def subportDown (x : Nat) : Prog :=
  .ask fun s =>
    .when (decide (x < 8) && s.subUp x) (.all [
      .setBit (pgEnet (x / 4)) R.ENET_LINK (x % 4) false,
      .net fun n => { n with
        upAt := Tab.del n.upAt x, downAt := Tab.put n.downAt x s.now,
        paused := n.paused.filter fun e => decide (e.1 / 8 ≠ x),
        waiting := n.waiting.filter fun f => decide (f.1 / 8 ≠ x) },
      showPaused (x / 4),
      incRaise (pgEnet (x / 4)) R.ENET_CNT_LINK_DOWN 2,
      .each (s.ctxList.filter fun c => s.qp c R.QPC_STATE = 1 && s.pathSub c = x) pathFailed])

/-- A sub-port comes up, 10 ms after its loss at the earliest (R365): contexts that wait for it resume, from ACK_PSN on the path they used, or on
the other path (R384). -/
def subportUp (x : Nat) : Prog :=
  .ask fun s =>
    let free : Bool := match Tab.find s.net.downAt x with | some q => decide (q + msQ 10 ≤ s.now) | none => true
    .when (decide (x < 8) && decide (0 < s.lineRate x) && !s.subUp x && free) (.all [
      .setBit (pgEnet (x / 4)) R.ENET_LINK (x % 4) true,
      .net fun n => { n with upAt := Tab.put n.upAt x s.now },
      raise (pgEnet (x / 4)) 1,
      .each (s.ctxList.filter fun c => s.qp c R.QPC_STATE = 2) fun c =>
        if s.pathSub c = x then
          .all [.set (pgQpc c) R.QPC_STATE 1, goBack c (s.qp c R.QPC_ACK_PSN),
            modCtx c fun y => { y with holdEnd := none, timerAt := s.now, retries := 0 }]
        else if s.otherSub c = some x then switchPath c false
        else .nil])

/-- A context returns to its primary path, up for 1 s, at a record boundary (R383). -/
def failback (c : Nat) : Prog :=
  .ask fun s =>
    let x := subOf (s.qp c R.QPC_PORT)
    let long : Bool := match Tab.find s.net.upAt x with
      | some q => decide (q + secQ 1 ≤ s.now)
      | none => false
    .when (s.qp c R.QPC_STATE = 1 && s.qp c R.QPC_ON_ALT = 1 && s.get pgRdma R.RDMA_FAILBACK = 1 && s.subUp x && long &&
      (s.ctx c).sent.all (fun y => decide (y.put = y.packets ∨ y.put = 0))) (switchPath c true)

/-- A context has waited for a link beyond LINK_HOLD (R384). -/
def linkHold (c : Nat) : Prog :=
  .ask fun s =>
    match (s.ctx c).holdEnd with
    | some q => .when (s.qp c R.QPC_STATE = 2 && decide (q ≤ s.now)) (.all [incRaise pgRdma R.RDMA_CNT_LINK_HOLD 6, qpError c 5])
    | none => .nil

/-! ### Shedding (R380) and pauses (R366) -/

/-- The shedding age in 2^-48 s for a record queued at an instant (Table 13-9: SHED_AGE holds for records queued after its write). -/
def State.shedAge (s : State) (q : Nat) : Nat :=
  usQ (((s.net.shedAge.find? fun e => decide (e.1 ≤ q)).map (·.2)).getD 100)

/-- The oldest unsent data record of an OPPORTUNISTIC stream has stood longer than SHED_AGE: an EGRESS_SHED pip takes its place. -/
def shed (n : Nat) : Prog :=
  .ask fun s =>
    match (s.strm n).queue.find? (fun r => r.isData && !r.begun) with
    | some r => .when (s.st n R.ST_CLASS = 2 && decide (r.queuedAt + s.shedAge r.queuedAt < s.now)) (
        let t := s.strm n
        let (q, pend, new) := match t.pend with
          | some p => (delFirst (fun x => x.isData && !x.begun) t.queue,
              some (s.sealPip (p.absorb (lossOf r 1) (!p.adjoins (lossOf r 1)))), false)
          | none => match discardOldest 1 s.sealPip [] t.queue with
            | some (q, _, new) => (q, none, new)
            | none => (t.queue, none, false)
        .all [modStrm n fun t => { t with queue := markGap none q, pend := pend },
          .when new (.all [.inc (pgSt n) R.ST_CNT_PIP, .inc (pgSt n) R.ST_CNT_REC]),
          countLoss n 1 r.len, eqStat n, incRaise pgRdma R.RDMA_CNT_SHED 4])
    | none => .nil

/-- A PFC frame names priorities and quanta, each of 512 bit times: (priority, quanta) (R366). -/
def pfcFrame (x : Nat) (ps : List (Nat × Nat)) : Prog :=
  .ask fun s =>
    let e := pgEnet (x / 4)
    let on := ps.filter fun p => decide (p.1 < 8) && bit (s.get e R.ENET_PFC_EN) p.1
    .when (decide (x < 8)) (.all [rxFrame x true,
      .when (!on.isEmpty) (.inc e R.ENET_CNT_PFC_RX),
      .each on (fun p => if p.2 = 0 then resume (x * 8 + p.1) else .net fun n => { n with
        paused := Tab.put n.paused (x * 8 + p.1) (s.now + p.2 * 64 * 2 ^ 48 / (s.lineRate x * 1000000)) }),
      showPaused (x / 4)])

/-- The pause of a priority runs out. -/
def pauseEnd (x prio : Nat) : Prog :=
  .ask fun s =>
    match Tab.find s.net.paused (x * 8 + prio) with
    | some q => .when (decide (q ≤ s.now)) (resume (x * 8 + prio))
    | none => .nil

/-- Codewords the FEC of a port has corrected, and could not correct, since the last report (Table 13-8). -/
def fecCounts (x corr uncorr : Nat) : Prog :=
  .all [.add (pgEnet (x / 4)) R.ENET_CNT_FEC_CORR corr, .add (pgEnet (x / 4)) R.ENET_CNT_FEC_UNCORR uncorr,
    .when (decide (0 < uncorr)) (raise (pgEnet (x / 4)) 4)]

/-! ### Meanings -/

/-- A sub-port goes down (R365), with the codewords its FEC reported and whether auto-negotiation failed (R388). -/
def execSubportDown (sub corr uncorr : Nat) (anFail : Bool) (s : State) : Host.Outcome State Fault Refusal :=
  .next (run (.when (decide (sub < 8)) (.all [fecCounts sub corr uncorr, subportDown sub,
    .when anFail (capture (pgEnet (sub / 4)) 0x20 (sub % 4))])) s)

/-- A sub-port comes up (R365). -/
def execSubportUp (sub : Nat) (s : State) : Host.Outcome State Fault Refusal := .next (run (subportUp sub) s)

/-- A context returns to its primary path (R383). -/
def execFailback (ctx : Nat) (s : State) : Host.Outcome State Fault Refusal := .next (run (failback ctx) s)

/-- LINK_HOLD expires for a context (R384). -/
def execLinkHold (ctx : Nat) (s : State) : Host.Outcome State Fault Refusal := .next (run (linkHold ctx) s)

/-- A free sub-port, or the PCIe engine, picks the next record and sends it (R379). -/
def execEgressSchedule (engine : Nat) (s : State) : Host.Outcome State Fault Refusal := .next (run (egressSchedule engine) s)

/-- A RoCEv2 acknowledgement arrives (R369). -/
def execRoceAck (ctx psn : Nat) (s : State) : Host.Outcome State Fault Refusal := .next (run (roceAck ctx psn) s)

/-- A NAK arrives (R371): its PSN, kind and, for receiver-not-ready, its delay in ns. -/
def execRoceNak (ctx psn kind delay : Nat) (s : State) : Host.Outcome State Fault Refusal := .next (run (roceNak ctx psn kind delay) s)

/-- A retransmission timeout (R369). -/
def execRetryTmo (ctx : Nat) (s : State) : Host.Outcome State Fault Refusal := .next (run (retryTmo ctx) s)

/-- The receiver-not-ready delay expires (R369). -/
def execRnrDelay (ctx : Nat) (s : State) : Host.Outcome State Fault Refusal := .next (run (rnrDelay ctx) s)

/-- A congestion notification packet arrives (R382). -/
def execCnp (ctx : Nat) (s : State) : Host.Outcome State Fault Refusal := .next (run (cnp ctx) s)

/-- An RP_PERIOD passes (R382). -/
def execRpPeriod (ctx : Nat) (s : State) : Host.Outcome State Fault Refusal := .next (run (rpPeriod ctx) s)

/-- A record is shed (R380). -/
def execShed (stream : Nat) (s : State) : Host.Outcome State Fault Refusal := .next (run (shed stream) s)

/-- A PFC frame arrives (R366). -/
def execPfcFrame (sub : Nat) (prios : List (Nat × Nat)) (s : State) : Host.Outcome State Fault Refusal := .next (run (pfcFrame sub prios) s)

/-- A pause runs out (R366). -/
def execPfcPauseEnd (sub prio : Nat) (s : State) : Host.Outcome State Fault Refusal := .next (run (pauseEnd sub prio) s)

/-- A received frame is not accepted; a clause 31 PAUSE frame is also counted as such (R366, R367). -/
def execRxDiscard (sub : Nat) (pause : Bool) (corr uncorr : Nat) (s : State) : Host.Outcome State Fault Refusal :=
  .next (run (.when (decide (sub < 8)) (.all [fecCounts sub corr uncorr, rxFrame sub false,
    .when pause (.inc (pgEnet (sub / 4)) R.ENET_CNT_PAUSE_GLOBAL)])) s)

end Sys2Proof.Machine
end

