-- ==== Sys2Proof/Machine/Commit.lean ====
section
/-! DEFINITION. Commits: the checks of every shadowed page, the limits that commits share, what applying them does, and where history
buffers and egress queues are placed (R25, R31, R47, R52 to R55, R82, R158, R160, R169, R191, R194, R197, R210, R215, R216, R221, R266, R269,
R272, R278, R378, R427, R448). -/

namespace Sys2Proof.Machine

/-! ### Pages and copies (R52, R53) -/

/-- The pages that commit at a FRAME_OPEN, in ascending BAR0 offset (Table 2-14). -/
def framePages : List Pg :=
  (List.range 8).map pgBank ++ (List.range 8).map pgTu ++ [pgTcomb, pgText] ++ (List.range 16).map pgTdc ++
    [pgHist, pgAcc, pgDen, pgDiff] ++ (List.range 256).map pgSt

/-- A frame is open for the purpose of commits from its opening to its return to IDLE or ARMED (R54; DEDUCED, log entry 40). -/
def State.frameOpen (s : State) : Bool := decide (2 ≤ s.fstate)

/-- Every live copy of a page takes its shadow (R53). -/
def copyLive (p : Pg) : Prog :=
  .ask fun s => .each (p.kind.rows.filter fun r => r.acc = .rws) fun r =>
    .each (List.range r.count) fun i => .setLivei p r i (s.geti p r i)

/-- The machine as it would be with the shadows of some pages applied. -/
def State.with (s : State) (ps : List Pg) : State := run (.each ps copyLive) s

/-- COMMIT and COMMIT_PEND of a page. -/
def setPend (p : Pg) (v : Bool) : Prog :=
  .all [.one (.fld (p.base + 0x00C) 4 4 (b2n v)), .one (.fld (p.base + 0x010) 4 4 (b2n v))]

/-- HELD reads 1 while HOLD keeps a commit waiting (Table 2-15a). -/
def showHeld : Prog :=
  .ask fun s => .set pgTop R.TOP_HELD
    (b2n (s.get pgTop R.TOP_HOLD = 1 && !s.frameOpen && framePages.any s.commitPend))

/-! ### Single checks

Each answers the offset of the first field that fails, over the machine as it would be. -/

/-- The offset that goes with the first condition that holds. -/
def firstBad (l : List (Bool × Nat)) : Option Nat := (l.find? (·.1)).map (·.2)

/-- Largest number of SEG units and their bytes: twelve-bit codes go in groups of 16 (R172, R229, R230). -/
def unitBytes (format n : Nat) : Nat :=
  match format with
  | 1 => (n + 15) / 16 * 24
  | 2 => n * 3
  | 3 => n * 4
  | 4 => n * 4
  | 5 => n * 8
  | 6 => n * 2
  | 7 => n * 4
  | 8 => n * 16
  | _ => n * 2

/-- Bytes of a complete record with a payload. -/
def recordSize (payload : Nat) : Nat := 64 + (payload + 7) / 8 * 8

/-- The density slot with USE = 1 that names a stream. -/
def State.slotFor (s : State) (n : Nat) : Option Nat :=
  (which 16 fun m => s.livei pgDen R.DEN_USE m = 1 && s.livei pgDen R.DEN_STREAM m = n).head?

/-- Cells of a density slot. -/
def State.mapCells (s : State) (m : Nat) : Nat := s.livei pgDen R.DEN_X_BINS m * s.livei pgDen R.DEN_Y_BINS m

/-- The largest record a stream can make with its live settings (R176). -/
def State.largest (s : State) (n : Nat) : Nat :=
  let part := s.st n R.ST_PART_LEN
  match s.st n R.ST_SRC_KIND with
  | 0 =>
    let mode := s.st n R.ST_DEC_MODE
    let k := max 1 (s.st n R.ST_DEC_N)
    let units := if mode = 0 then min part (s.segLen n) else min part (s.segLen n) / k
    let seg := if mode = 4 then 0
      else if s.st n R.ST_ACC_EN = 1 then (if s.st n R.ST_SEG_OUT = 1 then unitBytes 0 units else 0)
      else unitBytes (s.st n R.ST_FORMAT) units
    let acc := if s.binned n then unitBytes (s.st n R.ST_FORMAT) (if mode = 0 then s.segLen n else s.segLen n / k) else 0
    let den := match (if s.st n R.ST_DEN_EN = 1 then s.slotFor n else none) with
      | some m => 32 + unitBytes (if s.st n R.ST_DEN_W32 = 1 then 7 else 6) (s.mapCells m)
      | none => 0
    recordSize (max seg (max acc den))
  | 2 => recordSize (if bit (s.st n R.ST_SRC) 12 then 32 + 4096 * 4 else part * 16)
  | 3 => recordSize (part * 2)
  | _ => recordSize (part * 16)

/-- Whether a FORMAT is permitted for the settings (Table 7-1). -/
def formatOk (mode acc norm format : Nat) : Bool :=
  if acc = 0 then
    match mode with
    | 0 | 1 => format = 0 || format = 1
    | 2 => format = 2 || format = 3
    | _ => format = 4
  else decide (mode ≤ 2) && (if norm = 0 then format = 5 else format = 3)

/-- The first and last pair a DIFF stream names, and whether it takes the histogram (R272): SRC[9:4], [15:10] and [16] of the word. -/
def State.diffPairs (s : State) (n : Nat) : Nat × Nat × Bool :=
  let src := s.st n R.ST_SRC
  (bits src 5 0, bits src 11 6, bit src 12)

/-- An ST page (R169, R176, R191, R194, R197, R210, R266, R272, R474). -/
def State.stBad (s : State) (n : Nat) : Option Nat :=
  let f (r : Row) := s.st n r
  let eq : List (Bool × Nat) :=
    [(decide (f R.ST_EQ_SIZE < 4) || decide (65536 < f R.ST_EQ_SIZE) ||
        decide (s.eqBytes n < 2 * s.largest n + 65536), 0x054)]
  let dest : List (Bool × Nat) := [(s.en (pgSt n) && s.get (pgSt n) R.ST_DEST_KIND = 0, 0x00C)]
  let part : Bool := decide (f R.ST_PART_LEN < 64) || decide (2 ^ 24 < f R.ST_PART_LEN)
  match f R.ST_SRC_KIND with
  | 0 =>
    let c := s.srcChan n
    let spc := s.spc c
    let mode := f R.ST_DEC_MODE
    let dec : Bool := mode = 1 || mode = 2 || mode = 3
    let k := f R.ST_DEC_N
    firstBad ([
      (!s.chanOn c, 0x040),
      (f R.ST_TRIG_MODE = 0 && s.livei pgTcomb R.TCOMB_MODE (f R.ST_TDEF) = 0, 0x044),
      (!formatOk mode (f R.ST_ACC_EN) (f R.ST_NORM) (f R.ST_FORMAT), 0x044),
      (decide (s.segLen n < 64) || decide (s.segLen n % spc ≠ 0) || (dec && decide (s.segLen n % k ≠ 0)), 0x048),
      (f R.ST_TRIG_MODE = 0 && (decide (s.segLen n < f R.ST_PRE_LEN) ||
        decide ((s.histDepth c : Int) - s.histMargin c < f R.ST_PRE_LEN)), 0x04C),
      (part || decide (f R.ST_PART_LEN % spc ≠ 0) || (dec && decide (f R.ST_PART_LEN % k ≠ 0)), 0x050)] ++ eq ++ [
      (decide (mode ≠ 0) && (decide (k < 2) || decide (2 ^ 24 < k)), 0x060),
      (f R.ST_DEN_EN = 1 && (s.slotFor n).isNone, 0x064)] ++ dest)
  | k =>
    let (first, last, hist) := s.diffPairs n
    firstBad ([
      (k = 1 && f R.ST_SRC = 0, 0x040),
      (k = 2 && ((hist && decide (first ≠ last)) ||
        (List.range 64).any (fun p => decide (first ≤ p) && decide (p ≤ last) &&
          (s.livei pgDiff R.DIFF_USE p = 0 || decide (s.livei pgDiff R.DIFF_OUT p ≠ b2n hist)))), 0x040),
      (decide (f R.ST_FORMAT ≠ (if k = 3 then 0 else if k = 2 && hist then 7 else 8)), 0x044),
      (part, 0x050)] ++ eq ++ [
      (decide (f R.ST_DEC_MODE ≠ 0), 0x060),
      (f R.ST_ACC_EN = 1 || f R.ST_DEN_EN = 1, 0x064)] ++ dest)

/-- A TU page (R158). -/
def State.tuBad (s : State) (n : Nat) : Option Nat :=
  let f (r : Row) := s.live (pgTu n) r
  let a := sgn 16 (f R.TU_LEVEL_A)
  let b := sgn 16 (f R.TU_LEVEL_B)
  let two : Bool := f R.TU_COND = 1 || f R.TU_COND = 3
  let timed : Bool := f R.TU_COND = 2 || f R.TU_COND = 4
  firstBad [
    (decide (a - f R.TU_HYST < -32766), 0x044),
    ((two && decide (b ≤ a)) || decide (b - f R.TU_HYST < -32766), 0x048),
    (timed && f R.TU_T1 = 0, 0x050),
    (f R.TU_QUAL = 2 && decide (f R.TU_T2 < f R.TU_T1), 0x054)]

/-- Whether a source has a level (Table 5-1). -/
def hasLevel (src : Nat) : Bool := decide (src < 32)

/-- The TCOMB page (R160): the offset of the definition's mode word, or of the term word that fails. -/
def State.tcombBad (s : State) : Option Nat :=
  firstBad ((List.range 16).flatMap fun d =>
    let base := 0x040 + 0x50 * d
    let evs (j : Nat) : Bool := (List.range 64).any fun k => s.role d j k = 1
    let m := s.td d R.TCOMB_MODE
    [(m = 1 && !((List.range 4).any evs), base),
     (s.td d R.TCOMB_ARM_EN = 1 && !hasLevel (s.td d R.TCOMB_ARM_SRC), base),
     (m = 2 && !evs 0, base + 0x10), (m = 2 && !evs 1, base + 0x20)] ++
    (List.range 4).flatMap fun j => (List.range 64).map fun k =>
      (decide (2 ≤ s.role d j k) && !hasLevel k, base + 0x10 + 16 * j + 4 * (k / 16)))

/-- A BANK page whose bank leads a channel (R82): whether its filter is permitted in the mode. -/
def bwOk (mode bw : Nat) : Bool :=
  match bw with
  | 1 => mode = 2
  | 2 => decide (1 ≤ mode)
  | 7 => false
  | _ => true

/-- A bank that leads a channel with a filter its mode does not permit (R82). -/
def State.bwBad (s : State) (b : Nat) : Bool :=
  bankChan (s.mode (dieOf b)) b = b && !bwOk (s.mode (dieOf b)) (s.live (pgBank b) R.BANK_BW)

/-- An enabled CHANNEL stream names a channel of a die that does not exist (R191). -/
def State.orphan (s : State) (die : Nat) : Bool :=
  (List.range 256).any fun n => s.en (pgSt n) && s.st n R.ST_SRC_KIND = 0 && decide (dieOf (s.srcChan n) = die) &&
    !s.chanExists (s.srcChan n)

/-- The DEN page (R210, R221).  A slot that a stream with DEN_EN = 1 used to feed must still name it. -/
def State.denBad (s old : State) : Option Nat :=
  let u (m : Nat) : Bool := s.livei pgDen R.DEN_USE m = 1
  firstBad ((List.range 16).flatMap fun m =>
    let base := 0x040 + 0x20 * m
    [(u m && (List.range m).any (fun k => u k && s.livei pgDen R.DEN_STREAM k = s.livei pgDen R.DEN_STREAM m), base),
     ((match (if old.livei pgDen R.DEN_USE m = 1 then some (old.livei pgDen R.DEN_STREAM m) else none) with
       | some n => s.st n R.ST_DEN_EN = 1 && s.st n R.ST_SRC_KIND = 0 && (s.slotFor n).isNone
       | none => false), base),
     (u m && (s.livei pgDen R.DEN_X_BINS m = 0 || decide (4096 < s.livei pgDen R.DEN_X_BINS m) ||
       s.livei pgDen R.DEN_Y_BINS m = 0 || decide (1024 < s.livei pgDen R.DEN_Y_BINS m)), base + 4),
     (u m && s.livei pgDen R.DEN_X_DIV m = 0, base + 0x0C)])

/-- The DIFF page (R269, R270, R278). -/
def State.diffBad (s : State) : Option Nat :=
  firstBad ((List.range 64).flatMap fun p =>
    let base := 0x100 + 0x10 * p
    let f (r : Row) := s.livei pgDiff r p
    let on : Bool := f R.DIFF_USE = 1
    [(on && f R.DIFF_MODE = 2 && decide (f R.DIFF_A ≠ f R.DIFF_B), base),
     (on && f R.DIFF_MODE = 2 && (f R.DIFF_WIN_LO = 0 || decide (2 ^ 31 ≤ f R.DIFF_WIN_LO)), base + 4),
     (on && decide (f R.DIFF_MODE ≠ 2) && decide (f R.DIFF_A = f R.DIFF_B) && decide (sgn 32 (f R.DIFF_WIN_LO) ≤ 0), base + 4),
     (f R.DIFF_OUT = 1 && f R.DIFF_BIN_W = 0, base + 0x0C)])

/-- A TDC page: an input cannot arm itself (R261, Table 9-6). -/
def State.tdcBad (s : State) (n : Nat) : Option Nat :=
  firstBad [(decide (s.live (pgTdc n) R.TDC_ARM_SRC = 16 + n), 0x040)]

/-- The CAL page (R132). -/
def State.calBadCfg (s : State) : Option Nat :=
  firstBad [
    (decide (s.live pgCal R.CAL_DTEMP_HARD ≤ s.live pgCal R.CAL_DTEMP), 0x044),
    (decide (s.live pgCal R.CAL_CAL_STEP_TMO < 50), 0x048),
    (decide (s.live pgCal R.CAL_CAL_RUN_TMO < 10000), 0x04C)]

/-- The CLK page (R73, R294). -/
def State.clkBad (s : State) : Option Nat :=
  firstBad [
    (decide (s.live pgClk R.CLK_SCS_REF ≠ 0) && s.live pgClk R.CLK_REF_NOM = 0, 0x040),
    (decide (s.fsbSet < 8000) || decide (10000 < s.fsbSet), 0x040)]

/-- The check of one frame-committed page over the machine as it would be: the page that captures and the offset (R47). -/
def State.pageBad (s old : State) (p : Pg) : Option (Pg × Nat) :=
  let here (o : Option Nat) : Option (Pg × Nat) := o.map fun x => (p, x)
  match p.kind with
  | .bank =>
    let die := dieOf p.inst
    if s.bwBad p.inst then some (p, 0x040)
    else if p.inst % 4 = 0 && decide (s.mode die ≠ old.mode die) then
      match which 8 (fun b => dieOf b = die && s.bwBad b && decide (s.live (pgBank b) R.BANK_BW = old.live (pgBank b) R.BANK_BW)) with
      | b :: _ => some (pgBank b, 0x040)
      | [] => if s.orphan die then some (p, 0x040) else none
    else none
  | .tu => here (s.tuBad p.inst)
  | .tcomb => here s.tcombBad
  | .tdc => here (s.tdcBad p.inst)
  | .den => here (s.denBad old)
  | .diff => here s.diffBad
  | .st => here (s.stBad p.inst)
  | _ => none

/-! ### Shared limits (R25, R31, R216, R378, R427, R448) -/

/-- HBM that a channel's history buffer and a stream's egress queue need: bytes by key of Sec.placed. -/
def State.hbmWants (s : State) : Tab Nat :=
  ((List.range 8).filter s.chanExists).map (fun c => (c, s.livei pgHist R.HIST_DEPTH c * 2 ^ 26)) ++
    (which 256 fun n => s.en (pgSt n)).map (fun n => (8 + n, s.eqBytes n))

/-- Bytes of the display's enabled layers (R25, R491): H x STRIDE of each; the second buffer BASE_B of a density L0 is not counted.  R25
counts 'display layers' and does not say which bytes (DESIGN CHOICE, log entry 113). -/
def dispBytes (g : Row → Nat → Nat) : Nat :=
  (List.range 4).foldl (fun a l => if g R.DISP_L_EN l = 1 then a + g R.DISP_L_H l * g R.DISP_L_STRIDE l else a) 0

/-- Bytes that valid windows cover, once each (R448: windows count against the 31.75 GiB and may overlap one another). -/
def State.winBytes (s : State) : Nat :=
  (((s.sec.wins.filter fun e => decide (e.2.size ≠ 0)).foldl
      (fun (t : Tab Nat) e => Tab.put t e.2.base (max e.2.size (Tab.get t 0 e.2.base))) []).foldl
    (fun (a : Nat × Nat) e => (a.1 + (e.1 + e.2 - max a.2 e.1), max a.2 (e.1 + e.2))) (0, 0)).1

/-- HBM a configuration takes (R25, R448), of which 31.75 GiB may be taken. -/
def State.hbmDemand (s : State) : Nat :=
  s.hbmWants.foldl (fun a e => a + e.2) 0 + dispBytes (fun r i => s.livei pgDisp r i) + s.winBytes

/-- The bin-pool demand of a user: streams 0 to 255, then slots 256 to 271: bins and 4 KiB blocks (Table 7-5). -/
def State.poolDemand (s : State) (u : Nat) : Nat × Nat :=
  let of (bins bytes : Nat) : Nat × Nat := (bins, (bins * bytes + 4095) / 4096)
  if u < 256 then
    if s.st u R.ST_SRC_KIND = 0 && s.binned u then of (s.binsOf u) (if s.st u R.ST_ACC_EN = 1 then 8 else 4) else (0, 0)
  else
    let m := u - 256
    if s.livei pgDen R.DEN_USE m = 1 then
      of (s.mapCells m) (if s.st (s.livei pgDen R.DEN_STREAM m) R.ST_DEN_W32 = 1 then 4 else 2)
    else (0, 0)

/-- The first user whose allocation fails: the users whose demand carries over keep theirs, and the others are taken in ascending order
(R216). -/
def State.poolFail (s old : State) : Option Nat :=
  let users := List.range 272
  let kept := users.filter fun u => s.poolDemand u = old.poolDemand u
  let used := kept.foldl (fun (a : Nat × Nat) u => (a.1 + (s.poolDemand u).1, a.2 + (s.poolDemand u).2)) (0, 0)
  ((users.filter fun u => decide (s.poolDemand u ≠ old.poolDemand u)).foldl (fun (a : Nat × Nat × Option Nat) u =>
    match a.2.2 with
    | some _ => a
    | none =>
      let b := a.1 + (s.poolDemand u).1
      let k := a.2.1 + (s.poolDemand u).2
      if 8388608 < b || 14336 < k then (a.1, a.2.1, some u) else (b, k, none)) (used.1, used.2, none)).2.2

/-- Whether two ranges of HBM meet. -/
def meets (a b : Nat × Nat) : Bool := decide (a.1 < b.1 + b.2) && decide (b.1 < a.1 + a.2)

/-- The ranges a buffer may not take: the valid windows in force, and the buffers already placed (R448). -/
def State.taken (s : State) (placed : Tab (Nat × Nat)) : List (Nat × Nat) :=
  (s.sec.wins.filter (fun e => decide (e.2.size ≠ 0))).map (fun e => (e.2.base, e.2.size)) ++ placed.map (·.2)

/-- Whether a buffer may lie at a base. -/
def fits (taken : List (Nat × Nat)) (base size : Nat) : Bool :=
  base % 65536 = 0 && decide (base + size ≤ hbmReserved) && !(taken.any fun t => meets t (base, size))

/-- The lowest place for a buffer: 0, or the end of a range that is taken. -/
def lowest (taken : List (Nat × Nat)) (size : Nat) : Option Nat :=
  ((0 :: taken.map (fun t => (t.1 + t.2 + 65535) / 65536 * 65536)).filter fun b => fits taken b size).foldl
    (fun (a : Option Nat) b => match a with | none => some b | some x => some (min x b)) none

/-- Buffers that stay: still wanted at the same size, or queues that still hold records (R448). -/
def State.staying (s : State) (wants : Tab Nat) : Tab (Nat × Nat) :=
  s.sec.placed.filter fun e => Tab.find wants e.1 = some e.2.2 ||
    (decide (8 ≤ e.1) && (Tab.find wants e.1).isNone && !(s.strm (e.1 - 8)).queue.isEmpty)

/-- The first buffer that finds no place. -/
def State.placeFail (s : State) : Option Nat :=
  let wants := s.hbmWants
  let stay := s.staying wants
  ((wants.filter fun e => (Tab.find stay e.1).isNone).foldl (fun (a : Tab (Nat × Nat) × Option Nat) e =>
    match a.2 with
    | some _ => a
    | none => match lowest (s.taken a.1) e.2 with
      | some b => (Tab.put a.1 e.1 (b, e.2), none)
      | none => (a.1, some e.1)) (stay, none)).2

/-- Buffers are placed: one that stays keeps its place, and any other lies where the device chooses, at a place of its own outside every
valid window (R448).  The choice is a free value where it is possible, and else the lowest place (log entry 41). -/
def placeAll : Prog :=
  .ask fun s =>
    let wants := s.hbmWants
    .all [
      .sec fun x => { x with placed := s.staying wants },
      .each wants fun e => .ask fun t => .when (Tab.find t.sec.placed e.1).isNone (
        withFree fun v =>
          let taken := t.taken t.sec.placed
          match (if fits taken v e.2 then some v else lowest taken e.2) with
          | some b => .sec fun x => { x with placed := Tab.put x.placed e.1 (b, e.2) }
          | none => .nil)]

/-- The page whose commit adds to a demand that a limit bounds: the first in ascending order (R47). -/
def firstAdder (s : State) (ps : List Pg) (f : State → Nat) : Option Pg :=
  (ps.foldl (fun (a : State × Option Pg) p =>
    let t := a.1.with [p]
    (t, if a.2.isSome then a.2 else if f a.1 < f t then some p else none)) (s, none)).2

/-- The offset a page captures for a limit on HBM. -/
def hbmField (s t : State) (p : Pg) : Nat :=
  match p.kind with
  | .hist => 0x040 + 4 * ((which 8 fun c => decide (s.livei pgHist R.HIST_DEPTH c < t.livei pgHist R.HIST_DEPTH c)).headD 0)
  | .st => 0x054
  | _ => 0x040

/-- The limits shared by a set of commits: the page that captures with its offset, a bandwidth refusal, and a pool failure (R47). -/
structure Joint where
  /-- Page and offset captured. -/
  at_ : Option (Pg × Nat)
  /-- RES_REFUSED is raised (R427). -/
  res : Bool
  /-- The user whose pool allocation failed (R216). -/
  pool : Option Nat

/-- The shared limit that a set of commits breaks, if any. -/
def State.jointBad (s : State) (ps : List Pg) : Option Joint :=
  let t := s.with ps
  if decide (hbmReserved < t.hbmDemand) && decide (s.hbmDemand < t.hbmDemand) then
    some { at_ := (firstAdder s ps State.hbmDemand).map fun p => (p, hbmField s t p), res := false, pool := none }
  else if decide (1146800 < t.resGuar + t.resFirm) && decide (s.resGuar + s.resFirm < t.resGuar + t.resFirm) then
    some { at_ := (firstAdder s ps fun x => x.resGuar + x.resFirm).map fun p => (p, 0x040), res := true, pool := none }
  else match t.poolFail s with
  | some u => some { at_ := some (if u < 256 then (pgSt u, 0x048) else (pgDen, 0x044 + 0x20 * (u - 256))), res := false, pool := some u }
  | none => match (if t.hbmWants = s.hbmWants then none else t.placeFail) with
    | some _ => some { at_ := (firstAdder s ps State.hbmDemand).map fun p => (p, hbmField s t p), res := false, pool := none }
    | none => none

/-- The streams whose commits must be admitted: bound, not OPPORTUNISTIC, and in no reserved sum (R378). -/
def State.toAdmit (s : State) (ps : List Pg) : List Nat :=
  (ps.filter fun p => p.kind = .st).map (·.inst) |>.filter fun n =>
    decide (s.st n R.ST_CLASS ≠ 2) && decide (s.dest n ≠ 0) && !s.summed n

/-- Charges that a commit to OPPORTUNISTIC releases (R378). -/
def releaseAll (ps : List Pg) : Prog :=
  .ask fun s => .each ((ps.filter fun p => p.kind = .st).map (·.inst) |>.filter fun n => s.st n R.ST_CLASS = 2 && s.summed n) fun n =>
    .all [releaseCharge n, .when (decide (2 ≤ s.dest n / 65536)) (minRate (s.dest n % 65536))]

/-- The first stream, in ascending order, whose charge does not fit beside the others' (R377, R378). -/
def State.admitFail (s : State) (ps : List Pg) : Option Nat :=
  ((s.toAdmit ps).foldl (fun (a : State × Option Nat) n =>
    if a.2.isSome then a
    else if a.1.admits n (a.1.dest n) (Tab.get a.1.net.rate 0 n) then (run (makeCharge n) a.1, none)
    else (a.1, some n)) (run (releaseAll ps) s, none)).2

/-! ### What applying a commit does -/

/-- A die takes a new mode (R84, R85, R108, R128, R166): its channels are replaced, their buffers hold nothing from before, every bank
settles, and a DELTA run measures the new channels. -/
def modeChanged (die : Nat) : Prog :=
  .all [
    .each (which 8 fun c => dieOf c = die) holdEnd,
    abortRunsOf die,
    .ask fun s => .each (which 8 fun c => dieOf c = die) fun c =>
      let top := s.spc c * s.time.cc
      .all [
        modChan c fun ch => { Chan.reset with
          top := top, base := top, bad := ch.bad.map (fun _ => top), noSet := ch.noSet.map (fun _ => top) },
        .setBit pgHist R.HIST_FILLING c (s.chanExists c)],
    raise pgHist 2,
    .ask fun s => .when (s.fstate = 2) (.seg fun g => { g with rateChg := (g.rateChg ++ which 8 fun c => dieOf c = die).dedup }),
    .ask fun s => .when (s.dieUp die) (.each (which 8 fun c => dieOf c = die) fun b =>
      let on : Bool := s.chanOn (bankChan (s.mode die) b)
      .all [startSettle b (if on then 2 else 0), .set (pgBank b) R.BANK_POWERED (b2n on)]),
    .ask fun s => .all [startOwnRun (16 + die) 1 die (which 8 fun c => dieOf c = die && s.chanOn c),
      .each (which 8 fun c => dieOf c = die && s.chanExists c) syncStop],
    showBanks die, .each (which 8 fun n => dieOf n = die) tuRestart, showRot, showOverride]

/-- A run that measures a channel begins its measurement again once the channel has settled (R128). -/
def remeasure (c : Nat) : Prog :=
  .ask fun s => .each (s.cal.runs.filter fun e => decide (e.2.chans.head? = some c)) fun e =>
    .all [holdEnd c, .cal fun x => { x with
      runs := Tab.put x.runs e.1 { e.2 with step := 0, meas := [], stepAt := s.now, chanAt := s.now } }]

/-- What follows on the BANK pages (R68, R84). -/
def bankEffects (old : State) : Prog :=
  .ask fun s => .each [0, 1] fun die =>
    if s.mode die ≠ old.mode die then modeChanged die
    else .all [
      .each (which 8 fun c => dieOf c = die && s.chanExists c &&
          (decide (s.live (pgBank c) R.BANK_RANGE ≠ old.live (pgBank c) R.BANK_RANGE) ||
           decide (s.live (pgBank c) R.BANK_BW ≠ old.live (pgBank c) R.BANK_BW))) fun c =>
        .all [.when (s.dieUp die) (.each (s.banksOf c) fun b => startSettle b 0), remeasure c, showRot],
      showBanks die]

/-- What follows on the trigger pages: a unit whose configuration changed starts again, candidates and provisional triggers are dropped, changed
definitions start afresh, and the inputs and the idle level of the output pins follow their polarity (R139, R156, R154). -/
def trigEffects (old : State) (ps : List Pg) : Prog :=
  .ask fun s => .all [
    .when (ps.any fun p => p.kind = .tu || p.kind = .tcomb || p.kind = .text) discardCands,
    .each (ps.filter fun p => p.kind = .tu &&
      (List.range 7).any fun i => decide (s.cell (p.base + 0x840 + 4 * i) ≠ old.cell (p.base + 0x840 + 4 * i))) fun p => tuRestart p.inst,
    .when (ps.contains pgTcomb) (.each (which 16 fun d =>
        (List.range 5).any fun k => (List.range 4).any fun i =>
          decide (s.cell (pgTcomb.base + 0x840 + 0x50 * d + 16 * k + 4 * i) ≠ old.cell (pgTcomb.base + 0x840 + 0x50 * d + 16 * k + 4 * i)))
      fun d => .all [modDef d fun _ => TDef.reset, provStat d]),
    polChanged old,
    .each (which 4 fun n => decide (s.livei pgText R.TEXT_OPOL n ≠ old.livei pgText R.TEXT_OPOL n)) fun n =>
      .all [toutPin n (pinTrigOut n) (s.tout n).outOn, toutPin n (pinTrigCxl n) (s.tout n).cxlOn]]

/-- What follows on the stream, map and pair pages: new pool regions are clear, and charges follow the class (R216, R377). -/
def streamEffects (old : State) (ps : List Pg) : Prog :=
  .ask fun s => .all [
    .each (which 272 fun u => decide (s.poolDemand u ≠ old.poolDemand u)) fun u =>
      if u < 256 then modStrm u fun t => { t with bins := [], ep := Epoch.reset }
      else .all [modMap (u - 256) fun _ => { cells := [], ep := Epoch.reset }, .seti pgDen R.DEN_SAT (u - 256) 0],
    .each (List.range 16) fun m => .seti pgDen R.DEN_ALLOC m (s.livei pgDen R.DEN_USE m),
    releaseAll ps,
    .each (s.toAdmit ps) makeCharge,
    .each ((ps.filter fun p => p.kind = .st).map (·.inst)) fun n => .all [eqStat n,
      .when (decide (2 ≤ s.dest n / 65536)) (minRate (s.dest n % 65536))],
    .when (ps.contains pgDiff) (.each (which 64 fun p =>
        (List.range 4).any fun i => decide (s.cell (pgDiff.base + 0x900 + 16 * p + 4 * i) ≠ old.cell (pgDiff.base + 0x900 + 16 * p + 4 * i)))
      fun p => .time fun t => { t with pairs := Tab.del t.pairs p })]

/-- POOL_USED and BINS_USED follow the allocations (Table 7-7), and HBM_USED the buffers (Table 7-6). -/
def showPool : Prog :=
  .ask fun s =>
    let sum := (List.range 272).foldl (fun (a : Nat × Nat) u => (a.1 + (s.poolDemand u).1, a.2 + (s.poolDemand u).2)) (0, 0)
    .all [.set pgAcc R.ACC_BINS_USED sum.1, .set pgAcc R.ACC_POOL_USED sum.2,
      .set pgHist R.HIST_HBM_USED ((which 8 s.chanExists).foldl (fun a c => a + s.livei pgHist R.HIST_DEPTH c) 0)]

/-- Some pages' commits apply in one cycle (R53). -/
def applyPages (ps : List Pg) : Prog :=
  .ask fun old => .when (!ps.isEmpty) (.all [
    .each ps copyLive, .each ps fun p => setPend p false,
    .ask fun s => .each (which 8 fun c => s.chanExists c && decide (s.livei pgHist R.HIST_DEPTH c ≠ old.livei pgHist R.HIST_DEPTH c)) emptyHist,
    bankEffects old, trigEffects old ps, streamEffects old ps, placeAll, showPool])

/-! ### The commit point (R47, R54, R55) -/

/-- What commits come to: those that apply, those that are refused with what each page captures, whether the refusals rest on bandwidth alone,
and a shared limit that refuses all. -/
structure Verdict where
  good : List Pg
  /-- Pages refused, the page that captures and its offset. -/
  bad : List (Pg × Pg × Nat)
  /-- Streams refused by admission. -/
  adm : List Nat
  joint : Option Joint

/-- One look at the commits of a cycle: pages that fail by themselves, else one that admission refuses, else the shared limits. -/
def State.verdictN (s : State) : Nat → Verdict → Verdict
  | 0, v => v
  | k + 1, v =>
    let t := s.with v.good
    let bads := v.good.filterMap fun p => (t.pageBad s p).map fun (q, o) => (p, q, o)
    match bads with
    | _ :: _ => s.verdictN k { v with
        good := v.good.filter fun p => !(bads.any fun e => e.1 = p), bad := v.bad ++ bads }
    | [] => match t.admitFail v.good with
      | some n => s.verdictN k { v with
          good := v.good.filter fun p => p ≠ pgSt n, bad := v.bad ++ [(pgSt n, pgSt n, 0x044)], adm := v.adm ++ [n] }
      | none => { v with joint := s.jointBad v.good }

/-- The outcome of the commits of one cycle. -/
def State.verdict (s : State) (ps : List Pg) : Verdict :=
  s.verdictN (ps.length + 1) { good := ps, bad := [], adm := [], joint := none }

/-- Refusals are captured and counted (R47, R216, R378, R427). -/
def refuse (v : Verdict) : Prog :=
  .all [
    .each v.bad fun e => .all [setPend e.1 false, capture e.2.1 0x03 e.2.2],
    .each v.adm admissionRefused,
    match v.joint with
    | none => .nil
    | some j => .all [
        .each v.good fun p => setPend p false,
        (match j.at_ with | some (p, o) => capture p 0x03 o | none => .nil),
        .when j.res (raise pgArb 3),
        (match j.pool with
         | some u => .all [incRaise pgAcc R.ACC_CNT_ALLOC_FAIL 2,
             .ask fun s => capture pgAcc 0x20
               (if u < 256 then u else (s.with v.good).livei pgDen R.DEN_STREAM (u - 256) + (u - 256) * 256 + 2 ^ 16)]
         | none => .nil)]]

/-- Commits of some pages fall due outside a frame open: those that are sound apply together, and the others are refused. -/
def commitNow (ps : List Pg) : Prog :=
  .ask fun s =>
    let v := s.verdict ps
    .all [refuse v, .when v.joint.isNone (applyPages v.good), showHeld]

/-- The pages whose frame commits are pending. -/
def State.pendingPages (s : State) : List Pg := framePages.filter s.commitPend

/-- What commits that are refused complete with: BAD_PARAM where any fails for validity or space, else REFUSED_BANDWIDTH (Tables 14-3,
14-4). -/
def Verdict.status (v : Verdict) : Option Nat :=
  let invalid : Bool := decide (v.adm.length < v.bad.length) || v.joint.any fun j => !j.res
  if v.bad.isEmpty && v.joint.isNone then none else if invalid then some stBadParam else some stBandwidth

/-- A frame open would be refused: the status it completes with (R47, R378). -/
def State.openRefused (s : State) : Option Nat := (s.verdict s.pendingPages).status

/-- A frame open meets the pending commits: all of them apply, or the refusals are captured and nothing applies (R47).  What would not be
refused stays pending (log entry 42). -/
def commitAtOpen : Prog :=
  .ask fun s =>
    let v := s.verdict s.pendingPages
    .all [if v.bad.isEmpty && v.joint.isNone then applyPages v.good else refuse v, showHeld]

/-- A write of 1 to COMMIT of a frame-committed page (R54, R55). -/
def commitWritten (p : Pg) : Prog :=
  .ask fun s => .all [setPend p true,
    if s.frameOpen || s.get pgTop R.TOP_HOLD = 1 then showHeld else commitNow [p]]

/-- HOLD goes from 1 to 0: every held commit applies in one cycle (R55). -/
def holdReleased : Prog := .ask fun s => .when (!s.frameOpen) (commitNow s.pendingPages)

/-- A CAL commit applies at a step boundary, or is refused there (R54, R132). -/
def commitCal : Prog :=
  .ask fun s => .when (s.commitPend pgCal) (
    match (s.with [pgCal]).calBadCfg with
    | some o => .all [setPend pgCal false, capture pgCal 0x03 o]
    | none => .all [copyLive pgCal, setPend pgCal false, showRot])

end Sys2Proof.Machine
end

