-- ==== Sys2Proof/Machine/TimeBase.lean ====
section
/-! DEFINITION. The time base: crystal steering, discipline sources, steps of Q-time, PPS and the tie of CCLK to Q-time (R246 to R258). -/

namespace Sys2Proof.Machine

/-! ### Sources (R249, R250) -/

/-- An integer held within plus or minus a bound. -/
def within (b : Nat) (x : Int) : Int := if (b : Int) < x then b else if x < -(b : Int) then -(b : Int) else x

/-- The source codes in the priority slots, highest first; an empty slot is left out (R250). -/
def State.prios (s : State) : List Nat :=
  [s.get pgTime R.TIME_PRIO0, s.get pgTime R.TIME_PRIO1, s.get pgTime R.TIME_PRIO2, s.get pgTime R.TIME_PRIO3].filter (· ≠ 0)

/-- Whether a source is qualified. -/
def State.qualified (s : State) (src : Nat) : Bool := (Tab.find s.time.qual src).isSome

/-- The qualified source in the highest slot; 0 where there is none (R250). -/
def State.bestSource (s : State) : Nat := ((s.prios.filter s.qualified).head?).getD 0

/-- Place of a source among the slots; past them where it stands in none. -/
def State.slotOfSource (s : State) (src : Nat) : Nat := s.prios.idxOf src

/-- STATE of the discipline takes a value, with the event of LOCKED and HOLDOVER (R252, R275). -/
def discState (v : Nat) : Prog :=
  .ask fun s => .all [
    .when (decide (v ≠ s.get pgTime R.TIME_STATE) && v = 2) (raise pgTime 2),
    .when (decide (v ≠ s.get pgTime R.TIME_STATE) && v = 3) (incRaise pgTime R.TIME_CNT_HOLDOVER 3),
    .set pgTime R.TIME_STATE v]

/-- STEP_THRESH in 2^-48 s. -/
def State.stepThresh (s : State) : Nat := nsQ (s.get pgTime R.TIME_STEP_THRESH)

/-- An instant on the scale that a step by an error in 2^-48 s makes. -/
def shifted (err : Int) (q : Nat) : Nat := ((q : Int) + err).toNat

/-- Q-time is on a new scale, by an error in 2^-48 s: every instant attributed afterwards is on it, those of samples and edges recorded
before too (R251), and the intervals of the time base keep their length; those that other units have begun are measured on the new scale
(DEDUCED, log entry 133). -/
def shiftTimes (err : Int) : Prog :=
  let f := shifted err
  .all [
    .time fun t => { t with
      ties := t.ties.map fun x => { x with qref := ((x.qref : Int) + err * 2 ^ 16).toNat },
      meas := t.meas.map fun m => (m.1, ((m.2 : Int) + err * 2 ^ 16).toNat),
      qual := t.qual.map fun e => (e.1, f e.2), ppsLast := t.ppsLast.map f, ppsOff := t.ppsOff.map f,
      refSince := t.refSince.map f, gatedAt := t.gatedAt.map f, cpllAt := f t.cpllAt },
    .trig fun t => { t with
      levels := t.levels.map fun e => (e.1, e.2.map fun l => (f l.1, l.2)), lastEv := t.lastEv.map fun e => (e.1, f e.2),
      textOn := t.textOn.map f }]

/-- Q-time jumps by an error in 2^-48 s (R251); a step that takes its seconds from a source of TAI makes them valid (R253). -/
def stepBy (err : Int) : Prog :=
  .all [
    shiftTimes err,
    .time fun t => { t with q := ((t.q : Int) + err * 2 ^ 32).toNat % 2 ^ 128, err := 0, theta := t.theta - err },
    .ask fun s => .when s.time.stepTai (.set pgTime R.TIME_TAI_VALID 1),
    .set pgTime R.TIME_STEP_PEND 0, incRaise pgTime R.TIME_CNT_STEP 5]

/-- A step waits for the frame controller to be IDLE, or is made at once where it is (R251). -/
def stepSoon (err : Int) : Prog :=
  .ask fun s =>
    if s.fstate = 0 then stepBy err
    else .all [.time fun t => { t with err := err }, .set pgTime R.TIME_STEP_PEND 1, raise pgTime 4]

/-- A source has been selected with a phase error: slewed, stepped, or slewed with a step pending (R251).  REF_IN gives no phase, and PARENT the theta
of the last accepted exchange (R315).  The seconds
of Q-time come from PARENT or a PTP source, at once where they agree, and else with the step (R253). -/
def meetError (src : Nat) (phase : Int) : Prog :=
  .ask fun s =>
    let e : Int := if src = 5 then 0 else if src = 1 then s.time.theta else phase
    let tai : Bool := src = 1 || src = 2 || src = 3
    .all [
      .time fun t => { t with stepTai := tai },
      if e.natAbs ≤ s.stepThresh then .all [.time fun t => { t with err := e }, .set pgTime R.TIME_STEP_PEND 0,
        .when tai (.set pgTime R.TIME_TAI_VALID 1)]
      else stepSoon e]

/-- The mean of the servo's corrections of the last 10 s (R252). -/
def State.servoMean (s : State) : Int :=
  if s.time.servos.isEmpty then 0 else divAway (s.time.servos.foldl (· + ·) 0) s.time.servos.length

/-- The selected source becomes another one, or none (R250 to R252). -/
def selectSource (src : Nat) (phase : Int) : Prog :=
  .ask fun s => .when (decide (src ≠ s.get pgTime R.TIME_SEL)) (.all [
    .set pgTime R.TIME_SEL src, incRaise pgTime R.TIME_CNT_SWITCH 1,
    if src = 0 then .all [discState 3, .set pgTime R.TIME_STEP_PEND 0, .time fun t => { t with err := 0, stepTai := false, servo := s.servoMean }]
    else .all [discState 1, meetError src phase]])

/-- QUAL shows the qualified sources (Table 9-5). -/
def showQual : Prog := .ask fun s => .set pgTime R.TIME_QUAL (maskOf 5 fun k => s.qualified (k + 1))

/-- A port's PTP clock. -/
def State.ptp (s : State) (port : Nat) : Ptp := Tab.get s.net.ptp Ptp.reset port

/-- It changes. -/
def modPtp (port : Nat) (f : Ptp → Ptp) : Prog := .net fun n => { n with ptp := Tab.mod n.ptp Ptp.reset port f }

/-- A command that changes which sources are qualified.  Those that wait in the queue belong to the present XCLK period, since Q-time advances
only while none waits. -/
def changesSource (i : Instr) : Bool :=
  match i with
  | .sourceQualify _ _ | .sourceLost _ _ => true
  | _ => false

/-- The selection follows a change of the qualified sources: at once, and once for all the changes of one XCLK period, after the last of them
(R250; log entry 129).  The phase error of a source that no command has told is free. -/
def settleSource : Prog :=
  .ask fun s => .when (!(s.pending.any changesSource)) (
    let sel := s.get pgTime R.TIME_SEL
    let best := s.bestSource
    .all [
      .when ((decide (sel ≠ 0) && !(s.qualified sel)) || (sel = 0 && decide (best ≠ 0)))
        (match Tab.find s.time.phases best with
         | some v => selectSource best v
         | none => withFree fun v => selectSource best (signedOf v)),
      .time fun t => { t with phases := [] }])

/-- A source becomes qualified, with its phase error: it is selected at once where none is (R250). -/
def sourceQualify (src : Nat) (phase : Int) : Prog :=
  .ask fun s => .when (!s.qualified src) (.all [
    .time fun t => { t with qual := Tab.put t.qual src s.now, phases := Tab.put t.phases src phase }, showQual, settleSource])

/-- A source is no longer qualified: where it was selected, the next qualified one is taken at once, with the phase error given, or the time
base enters HOLDOVER (R250, R252).  A PTP source begins its 16 exchanges again (R249). -/
def sourceLost (src : Nat) (phase : Int) : Prog :=
  .ask fun s => .when (s.qualified src) (.all [
    .time fun t => { t with qual := Tab.del t.qual src }, showQual,
    .when (s.get pgTime R.TIME_SEL = src) (capture pgTime 0x20 src),
    .when (src = 2 || src = 3) (modPtp (src - 2) fun p => { p with syncs := 0 }),
    .ask fun t => .time fun x => { x with phases := Tab.put x.phases t.bestSource phase },
    settleSource])

/-- A source is no longer qualified by what the device itself finds: the phase error of the source taken next is free. -/
def sourceGone (src : Nat) : Prog :=
  .ask fun s => .when (s.qualified src) (withFree fun v => sourceLost src (signedOf v))

/-- A write of DISC_CFG: a source that stands in no slot is not used (R250).  The phase error of a source selected here is measured by the
device, and no operand of the write gives it: it is free. -/
def discWritten : Prog :=
  .ask fun s => .when (decide (s.get pgTime R.TIME_SEL ≠ 0) && !(s.prios.contains (s.get pgTime R.TIME_SEL)) ||
      s.get pgTime R.TIME_SEL = 0 && decide (s.bestSource ≠ 0)) (withFree fun v => selectSource s.bestSource (signedOf v))

/-- The source of the highest slot that has stayed qualified for 10 s; 0 where there is none (R250). -/
def State.longSource (s : State) : Nat :=
  (s.prios.find? fun b => match Tab.find s.time.qual b with | some q => decide (q + secQ 10 ≤ s.now) | none => false).getD 0

/-- A higher source has stayed qualified for 10 s with REVERT set (R250). -/
def revertTimer (phase : Int) : Prog :=
  .ask fun s =>
    let b := s.longSource
    .when (s.get pgTime R.TIME_REVERT = 1 && decide (b ≠ 0) && decide (s.slotOfSource b < s.slotOfSource (s.get pgTime R.TIME_SEL)))
      (selectSource b phase)

/-- Whether Table 9-2 lets a source qualify: PARENT by what it reports, PTP after 16 consecutive Sync exchanges in SLAVE, PPS_IN after four good
edges, REF_IN after 10 ms in band. -/
def State.mayQualify (s : State) (src : Nat) : Bool :=
  match src with
  | 1 => s.parentTrained && s.link.parent.2.1 && (s.link.parent.1 = 2 || s.link.parent.1 = 3)
  | 2 | 3 => s.get (pgEnet (src - 2)) R.ENET_PTP_EN = 1 && s.get (pgEnet (src - 2)) R.ENET_PTP_STATE = 5 && decide (s.pstate ≠ 0) &&
      decide (16 ≤ (s.ptp (src - 2)).syncs)
  | 4 => decide (4 ≤ s.time.ppsGood)
  | 5 => decide (s.live pgClk R.CLK_REF_NOM ≠ 0) && decide (s.pstate ≠ 0) &&
      (match s.time.refSince with | some q => decide (q + msQ 10 ≤ s.now) | none => false)
  | _ => false

/-- Whether Table 9-2 lets a source be lost.  That 4 Sync intervals of the master have passed without a Sync, and that REF_IN has left its band,
are the device's own measurements, which the command tells. -/
def State.mayLose (s : State) (src : Nat) : Bool :=
  match src with
  | 1 => !(s.mayQualify 1)
  | 2 | 3 | 5 => true
  | 4 => match s.time.ppsLast with
    | some p => decide (p + secQ 1 + usQ 1 ≤ s.now)
    | none => true
  | _ => false

/-- What disqualifies PARENT, in what it reports or the port, is found (R249, R316). -/
def parentCheck : Prog := .ask fun s => .when (!(s.mayQualify 1)) (sourceGone 1)

/-! ### Steering (R247, R248, R252) -/

/-- The discipline servo's correction in force: a bounded slew while an error is removed, the mean of the last 10 s in HOLDOVER. -/
def State.servoNow (s : State) (servo : Int) : Int :=
  match s.get pgTime R.TIME_STATE with
  | 0 => 0
  | 3 => s.time.servo
  | 1 => within (1000 * s.get pgTime R.TIME_SLEW_MAX) servo
  | _ => servo

/-- What the device measures of the loops and of REF_IN, where there is something to measure: PHASE_ERR of the SCS, and REF_OFFSET once in each 1 ms
(Table 10-6, R284).  The values are free. -/
def measureClocks : Prog :=
  .ask fun s => .when (decide (s.pstate ≠ 0)) (.all [
    .when (decide (2 ≤ s.get pgClk R.CLK_STATE) && decide (s.get pgClk R.CLK_STATE ≤ 4)) (withFree fun v => .set pgClk R.CLK_PHASE_ERR v),
    .when (decide (s.live pgClk R.CLK_REF_NOM ≠ 0)) (withFree fun v => .set pgClk R.CLK_REF_OFFSET v)])

/-- The steering word is computed again (R247): the temperature compensation, the servo's correction, the phase error against the selected
source in 2^-48 s and the frequency error in 10^-12 are what the device measures; against PARENT the phase error is theta (R315). -/
def steerUpdate (comp servo phase freq : Int) : Prog :=
  .ask fun s =>
    let age := s.time.age + within 1000000 (sgn 24 (s.get pgTime R.TIME_XO_AGE) - s.time.age)
    let v := s.servoNow servo
    let st := s.get pgTime R.TIME_STATE
    let phase : Int := if s.get pgTime R.TIME_SEL = 1 then s.time.theta else phase
    let held : Bool := if s.get pgTime R.TIME_SEL = 5 then decide (freq.natAbs < 100) else decide (phase.natAbs * 10 ^ 8 < 2 ^ 48)
    .all [
      .time fun t => { t with
        age := age, servo := v, servos := if st = 0 then t.servos else (v :: t.servos).take 10000,
        err := if st = 1 then phase else t.err },
      .set pgTime R.TIME_STEER (unsgn 32 (within 60000000 (comp - age + v))),
      .when (st = 1 || st = 2) (.set pgTime R.TIME_PHASE_ERR (unsgn 32 (clampS 32 (divAway (phase * 10 ^ 12) (2 ^ 48))))),
      measureClocks,
      .when (st = 1 && held && s.get pgTime R.TIME_STEP_PEND = 0) (discState 2),
      .when (st = 2 && !held) (discState 1)]

/-! ### PPS (R249, R253, Table 9-5) -/

/-- The nearest whole second to a Q-time. -/
def nearestSecond (q : Nat) : Nat := (q + 2 ^ 47) / 2 ^ 48

/-- An edge of PPS_IN with its stamp (R249, R253): only active edges count. -/
def ppsInEdge (rising : Bool) (q : Nat) (phase : Int) : Prog :=
  .ask fun s => .when (rising != (s.get pgTime R.TIME_PPS_IN_POL = 1 : Bool)) (
    let near (a b : Nat) : Bool := decide (a ≤ b + usQ 1) && decide (b ≤ a + usQ 1)
    let good : Bool := match s.time.ppsLast with | some p => near q (p + secQ 1) | none => false
    .all [
      .time fun t => { t with ppsLast := some q, ppsGood := if good then t.ppsGood + 1 else 1 },
      .when (s.get pgTime R.TIME_SEL = 4 && s.get pgTime R.TIME_STATE = 2 && !(near q (secQ (nearestSecond q)))) (sourceLost 4 phase),
      (match s.time.ppsSet with
       | some sec => .all [
           .time fun t => { t with ppsSet := none, stepTai := true },
           stepSoon (((sec : Int) - nearestSecond q) * 2 ^ 48)]
       | none => .nil)])

/-- No PPS_IN edge within 1.000001 s of the previous one (R249). -/
def ppsMiss (phase : Int) : Prog :=
  .ask fun s => match s.time.ppsLast with
    | some p => .when (decide (p + secQ 1 + usQ 1 ≤ s.now)) (.all [
        .time fun t => { t with ppsLast := none, ppsGood := 0 }, incRaise pgTime R.TIME_CNT_PPS_MISS 6, sourceLost 4 phase])
    | none => .nil

/-- A whole Q-time second (R275): PPS_OUT follows its settings, which take effect here (Table 9-5). -/
def second : Prog :=
  .ask fun s =>
    let w := s.cell (pgTime.base + 0x050)
    .all [raise pgTime 7,
      .time fun t => { t with ppsOut := w.toNat },
      .when (s.get pgTime R.TIME_PPS_OUT_EN = 1) (.all [
        .out (.pin pinPpsOut (s.get pgTime R.TIME_PPS_OUT_POL = 0)),
        .time fun t => { t with ppsOff := some (s.now + usQ (s.get pgTime R.TIME_PPS_OUT_WIDTH)) }])]

/-- The PPS_OUT pulse ends when its width has passed. -/
def ppsOutEnd : Prog :=
  .ask fun s => match s.time.ppsOff with
    | some q => .when (decide (q ≤ s.now)) (.all [
        .out (.pin pinPpsOut (!(decide (bits s.time.ppsOut 1 1 = 0)))), .time fun t => { t with ppsOff := none }])
    | none => .nil

/-! ### The tie (R255, R258) -/

/-- SCLK_OFFSET: y_s in 10^-12 (R258). -/
def State.sclkOffset (s : State) : Int :=
  if s.live pgClk R.CLK_SCS_REF = 0 || s.get pgTime R.TIME_SEL = 5 then 0
  else match s.tie with
  | some t => if t.per = 0 then 0 else
      divAway ((8 * 2 ^ 64 - (t.per * (s.fsbSet * 1000000) : Nat) : Int) * 10 ^ 12) (t.per * (s.fsbSet * 1000000))
  | none => 0

/-- A tie takes effect: TIE_P and SCLK_OFFSET show it. -/
def setTie (t : Tie) : Prog :=
  .all [.time fun x => { x with ties := t :: x.ties }, .set64 pgTime R.TIME_TIE_P_LO R.TIME_TIE_P_HI (t.per % 2 ^ 48),
    .ask fun s => .set pgTime R.TIME_SCLK_OFFSET (unsgn 32 (clampS 32 s.sclkOffset))]

/-- A CCLK edge is measured against the Q-time counter, in 2^-64 s, and the line through the last 64 measurements gives the tie (R255).  The
spec does not say how the line is fitted: it is a function that nothing constrains (log entry 43). -/
def tieMeasure (q : Nat) : Prog :=
  .ask fun s => .when (s.scsRun && s.time.cc % 1024 = 0) (
    let ms := ((s.time.cc, q) :: s.time.meas).take 64
    let (qref, per) := Config.fitTie ms
    .all [.time fun t => { t with meas := ms }, setTie { qref := qref, cref := s.time.cc, per := per % 2 ^ 48 }])

/-! ### TIME_SET (R253) -/

/-- What TIME_SET comes to: its status, and its effect where it is OK. -/
def timeSet (q : Nat) : Prog :=
  .ask fun s =>
    if s.get pgTime R.TIME_SEL = 4 then .time fun t => { t with ppsSet := some (q / 2 ^ 48) }
    else .all [
      shiftTimes ((q : Int) - s.now),
      .time fun t => { t with q := q * 2 ^ 32 % 2 ^ 128, ppsLast := none, ppsGood := 0, theta := t.theta - ((q : Int) - s.now) },
      .set pgTime R.TIME_TAI_VALID 1]

/-- The status of a TIME_SET (R253). -/
def State.timeSetStatus (s : State) : Nat :=
  let sel := s.get pgTime R.TIME_SEL
  if sel = 1 || sel = 2 || sel = 3 then stNotPermitted else if decide (s.fstate ≠ 0) then stBusy else stOK

/-! ### Meanings -/

/-- Every 1 ms the steering word is computed again (R247). -/
def execSteerUpdate (comp servo phase freq : Int) (s : State) : Host.Outcome State Fault Refusal :=
  .next (run (steerUpdate comp servo phase freq) s)

/-- A discipline source becomes qualified, with its phase error in 2^-48 s (R249 to R251). -/
def execSourceQualify (src : Nat) (phase : Int) (s : State) : Host.Outcome State Fault Refusal :=
  .next (run (.ask fun s => if s.mayQualify src then .all [sourceQualify src phase, settleSource] else settleSource) s)

/-- A discipline source is disqualified; the phase error is that of the source taken next (R249, R250). -/
def execSourceLost (src : Nat) (phase : Int) (s : State) : Host.Outcome State Fault Refusal :=
  .next (run (.ask fun s => if s.mayLose src then .all [sourceLost src phase, settleSource] else settleSource) s)

/-- A source of a higher slot has stayed qualified for 10 s (R250). -/
def execRevertTimer (phase : Int) (s : State) : Host.Outcome State Fault Refusal := .next (run (revertTimer phase) s)

/-- An edge of PPS_IN, with its stamp (R249). -/
def execPpsInEdge (rising : Bool) (q : Nat) (phase : Int) (s : State) : Host.Outcome State Fault Refusal :=
  .next (run (ppsInEdge rising q phase) s)

/-- No PPS_IN edge has come in time (R249). -/
def execPpsMiss (phase : Int) (s : State) : Host.Outcome State Fault Refusal := .next (run (ppsMiss phase) s)

/-- Q-time reaches a whole second (R275). -/
def execSecond (s : State) : Host.Outcome State Fault Refusal := .next (run second s)

/-- A CCLK edge is measured against Q-time (R255). -/
def execTieMeasure (q : Nat) (s : State) : Host.Outcome State Fault Refusal := .next (run (tieMeasure q) s)

end Sys2Proof.Machine
end

