-- ==== Sys2Proof/Machine/Tdc.lean ====
section
/-! DEFINITION. Event inputs, stamps, the code-density test and the differences engine (R257, R259 to R273). -/

namespace Sys2Proof.Machine

/-! ### Event inputs (R259 to R263, R267) -/

/-- The level of an arming source at the start of CCLK period c (R261): of a pin, or of an event input's comparator. -/
def State.armLevel (s : State) (src c : Nat) : Bool :=
  if src < 8 then s.levelAt (12 + src % 4) (if c = s.time.cc then s.nowQ else s.cclkQ c)
  else match (s.tdc (src % 16)).lvls.find? fun e => decide (e.1 ≤ c * 2 ^ 19) with
    | some e => e.2
    | none => false

/-- Whether an input is armed in CCLK period c (R261). -/
def State.tdcArmed (s : State) (k c : Nat) : Bool :=
  s.tdcOpen k c &&
    (s.td0 k R.TDC_ARM_SRC = 0 || (s.armLevel (s.td0 k R.TDC_ARM_SRC) c == (s.td0 k R.TDC_ARM_POL = 1 : Bool)))

/-- FIFO_FILL and EVCOUNT follow (Table 9-6). -/
def tdcStat (k : Nat) : Prog :=
  .ask fun s => .all [.set (pgTdc k) R.TDC_FIFO_FILL (s.tdc k).fifo.length,
    .set64 (pgTdc k) R.TDC_EVCOUNT_LO R.TDC_EVCOUNT_HI ((s.tdc k).count % 2 ^ 64)]

/-- A detected edge of the selected kind reaches the counting stage (R261, R262, R267). -/
def countEdge (k : Nat) (falling presc : Bool) (j m : Nat) : Prog :=
  .ask fun s =>
    let t := s.tdc k
    let c := s.time.cc
    let raw : RawStamp := { c := c, j := j, m := m, falling := falling, presc := presc, cnt := t.count + 1, ovf := t.ovf }
    let q := s.stampQ k raw
    let before : Bool := match s.seg.tClose with | some u => decide (q < u) | none => true
    if 100 < m then .inc (pgTdc k) R.TDC_CNT_CODE_RANGE
    else if !(s.tdcArmed k c) || decide (q < s.seg.tOpen) || !before then .inc (pgTdc k) R.TDC_CNT_UNARMED
    else .all [
      if 64 ≤ t.fifo.length then .all [
        modTdc k fun x => { x with count := x.count + 1, ovf := true }, incRaise (pgTdc k) R.TDC_CNT_FIFO_LOST 1]
      else .all [
        modTdc k fun x => { x with count := x.count + 1, ovf := false, fifo := x.fifo ++ [raw] }, .inc (pgTdc k) R.TDC_CNT_STAMPS],
      tdcStat k]

/-- An edge of a code-density test is recorded (R264). -/
def cdRecord (k j m : Nat) : Prog :=
  modTdc k fun t => match t.cd with
    | some (n, h, p) => if n = 0 then t else { t with cd := some (n - 1, Tab.mod h 0 m (· + 1), Tab.mod p 0 j (· + 1)) }
    | none => t

/-- An edge at an event input (R259 to R264): its comparator level changes, for the trigger engine at the edge's stamp (R144); the prescaler or EDGE selects it; the dead time, the delay-line
lock and the arming decide what becomes of it. -/
def evEdge (k : Nat) (falling : Bool) (j m : Nat) : Prog :=
  .ask fun s => .when (decide (k < 16) && decide (j < 8) && decide (m < 128)) (
    let t := s.tdc k
    let p := s.td0 k R.TDC_PRESC
    let cycles := t.presc + 1
    let sel : Bool := if p = 0 then
        (match s.td0 k R.TDC_EDGE with | 0 => !falling | 1 => falling | _ => true)
      else !falling && cycles = 2 ^ p
    let u := s.edgePos k s.time.cc j m
    let per := match s.tie with | some x => x.per | none => 0
    let dead : Bool := match t.last with
      | some l => decide ((u - l) * per < (2 ^ 19 * ((16 * 2 ^ 64) / 10 ^ 10) : Nat))
      | none => false
    let internal : Bool := t.cd.isSome && s.td0 k R.TDC_CD_SRC = 0
    let raw : RawStamp := { c := s.time.cc, j := j, m := m, falling := falling, presc := decide (p ≠ 0), cnt := 0, ovf := false }
    .all [
      modTdc k fun x => { x with
        level := !falling, lvls := insertLevel u.toNat (!falling) x.lvls,
        presc := if p = 0 || falling then x.presc else cycles % 2 ^ p },
      .set (pgTdc k) R.TDC_LEVEL (b2n (!falling)),
      setLevel (16 + k) (if s.scsRun && s.tie.isSome then s.stampQ k raw else s.nowQ) (!falling),
      .when (sel && !internal) (
        if s.get (pgTdc k) R.TDC_LOCKED = 0 || s.tie.isNone || !s.scsRun then .inc (pgTdc k) R.TDC_CNT_UNLOCKED
        else if dead then .inc (pgTdc k) R.TDC_CNT_DEAD
        else .all [
          modTdc k fun x => { x with last := some u.toNat },
          .when (t.cd.isSome && s.tdcArmed k s.time.cc) (cdRecord k j m),
          countEdge k falling (decide (p ≠ 0)) j m]),
      trigSettle])

/-- The delay-line loop of an input locks, or loses lock (R263, R277). -/
def tdcLock (k : Nat) (v : Bool) : Prog :=
  .ask fun s => .when (decide (s.get (pgTdc k) R.TDC_LOCKED ≠ b2n v)) (.all [
    .set (pgTdc k) R.TDC_LOCKED (b2n v), .when (!v) (raise (pgTdc k) 2)])

/-! ### Code density (R264) -/

/-- The criterion a test fails: 1 phases, 2 widths, 3 codes above 96; 0 where it passes. -/
def cdFail (h p : Tab Nat) : Nat :=
  let total := h.foldl (fun a e => a + e.2) 0
  let base := (List.range 96).foldl (fun a i => a + Tab.get h 0 i) 0
  if (List.range 8).any fun j => decide (800 * Tab.get p 0 j < 99 * total) || decide (101 * total < 800 * Tab.get p 0 j) then 1
  else if (List.range 96).any fun i => decide (4 * 96 * Tab.get h 0 i < base) || decide (3 * base < 96 * Tab.get h 0 i) then 2
  else if total ≤ 1000000 * (h.filter fun e => 96 < e.1).foldl (fun a e => a + e.2) 0 then 3
  else 0

/-- The centres a histogram gives (R264). -/
def cdCentre (h : Tab Nat) (m : Nat) : Nat :=
  let total := h.foldl (fun a e => a + e.2) 0
  let below := (List.range m).foldl (fun a i => a + Tab.get h 0 i) 0
  (divAway (65536 * (2 * below + Tab.get h 0 m) : Nat) (2 * total)).toNat

/-- A code-density test starts (R264). -/
def cdStart (k : Nat) : Prog :=
  .ask fun s => .all [
    modTdc k fun t => { t with cd := some (2 ^ s.get (pgTdc k) R.TDC_LOG2_EDGES, [], []), cdWait := false },
    .set (pgTdc k) R.TDC_CD_BUSY 1]

/-- A write of 1 to START on TDC0 or TDC1 (R264): while the input is armed, a test with the internal source waits for the frame's pod. -/
def cdWritten (k : Nat) : Prog :=
  .ask fun s =>
    if 2 ≤ k then .nil
    else .all [.set (pgTdc k) R.TDC_START 1,
      if s.td0 k R.TDC_CD_SRC = 0 && s.tdcArmed k s.time.cc then modTdc k fun t => { t with cdWait := true }
      else .when (s.tdc k).cd.isNone (cdStart k)]

/-- A test ends: with the internal source its histogram of codes and counts of phases are what the device recorded, and with the input's
own edges those counted (R264).  Its table is taken, or CD_REJECT keeps the previous one. -/
def cdDone (k : Nat) (codes phases : List Nat) : Prog :=
  .ask fun s => match (s.tdc k).cd with
    | none => .nil
    | some (n, h, p) =>
      let int : Bool := s.td0 k R.TDC_CD_SRC = 0
      .when (int || n = 0) (
        let h := if int then codes.mapIdx (fun i v => (i, v)) else h
        let p := if int then phases.mapIdx (fun i v => (i, v)) else p
        let bad := cdFail h p
        .all [
          modTdc k fun t => { t with cd := none }, .set (pgTdc k) R.TDC_CD_BUSY 0, .set (pgTdc k) R.TDC_START 0,
          if bad = 0 then .all [.each (List.range 128) (fun m => .seti (pgTdc k) R.TDC_CENTRE m (cdCentre h m)),
            .set (pgTdc k) R.TDC_CD_VALID 1]
          else .all [capture (pgTdc k) 0x20 bad, raise (pgTdc k) 4],
          raise (pgTdc k) 3])

/-! ### The differences engine (R269 to R273) -/

/-- A pair's hidden state. -/
def State.pair' (s : State) (p : Nat) : Pair := Tab.get s.time.pairs Pair.reset p

/-- A pair's hidden state changes. -/
def modPair (p : Nat) (f : Pair → Pair) : Prog := .time fun t => { t with pairs := Tab.mod t.pairs Pair.reset p f }

/-- Live fields of a pair. -/
def State.df (s : State) (p : Nat) (r : Row) : Nat := s.livei pgDiff r p

/-- WIN_LO and WIN_HI in 2^-48 s. -/
def State.winLo (s : State) (p : Nat) : Int := sgn 32 (s.df p R.DIFF_WIN_LO) * 2 ^ 12
def State.winHi (s : State) (p : Nat) : Int := sgn 32 (s.df p R.DIFF_WIN_HI) * 2 ^ 12

/-- Some differences are not evaluated (R270, R273). -/
def diffDrop (n : Nat) : Prog := .when (decide (0 < n)) (.all [.add pgDiff R.DIFF_CNT_DROP n, raise pgDiff 1])

/-- The streams that take a pair's differences as entries, or its histogram (R271, R272). -/
def State.diffStreams (s : State) (p : Nat) (hist : Bool) : List Nat :=
  which 256 fun n =>
    let (first, last, h) := s.diffPairs n
    s.get (pgSt n) R.ST_IN_FRAME = 1 && s.st n R.ST_SRC_KIND = 2 && h == hist && decide (first ≤ p) && decide (p ≤ last)

/-- The DIFF record of a closed histogram epoch (Tables 8-3, 8-6). -/
def histRecord (s : State) (p n : Nat) : Rec :=
  let t := s.pair' p
  let seq := s.nextSeq n - 1
  let axis := leBytes 8 (unsgn 64 (s.winLo p)) ++ leBytes 4 (s.df p R.DIFF_BIN_W) ++ leBytes 2 4096 ++ leBytes 1 p ++ leBytes 1 0 ++
    leBytes 8 t.n ++ leBytes 4 (min t.below 0xFFFFFFFF) ++ leBytes 4 (min t.above 0xFFFFFFFF)
  { ty := 5, stream := n, dest := s.dest n, frame := s.frameNum, seq := seq, segs := 0, first := 0, len := 4096, cause := 0,
    merged := false, inRes := false, begun := false, queuedAt := s.now, code := 0xFFFF, qt := s.now, qFirst := s.now,
    bytes := mkRecord
      { ver := s.strmVer n, ty := 5, stream := n, flags := flFIRST + flLAST, frame := s.frameNum, seq := seq, first := 0, qt := s.now,
        trig := 0xFFFF, format := 7, decMode := 0, count := 4096, factor := 1, ext := 1 + 2 * t.epoch }
      (axis ++ (List.range 4096).flatMap fun b => leBytes 4 (Tab.get t.hist 0 b)) }

/-- A histogram epoch closes (R271): its record goes to the streams that take it, and the histogram clears. -/
def closeHist (p : Nat) : Prog :=
  .ask fun s => .when (s.df p R.DIFF_USE = 1 && s.df p R.DIFF_OUT = 1) (.all [
    .each ((s.diffStreams p true).filter fun n => s.strmVer n ≠ 1) fun n => pushData (histRecord s p n),
    .inc pgDiff R.DIFF_CNT_HEPOCH,
    modPair p fun t => { t with hist := [], below := 0, above := 0, n := 0, epoch := t.epoch + 1 }])

/-- A write of EPOCH_GO; ignored while no frame is open (Table 9-7). -/
def diffEpochGo (p : Nat) : Prog := .ask fun s => .when (s.fstate = 2) (closeHist p)

/-- One difference is emitted: an entry to the streams, or a count in the histogram (R271, R233). -/
def emitDiff (p : Nat) (a b : Stamp) : Prog :=
  .ask fun s =>
    let d : Int := (b.q : Int) - a.q
    .all [.inc pgDiff R.DIFF_CNT_DIFFS,
      if s.df p R.DIFF_OUT = 0 then
        let e := leBytes 8 (unsgn 64 d) ++ leBytes 1 p ++ leBytes 1 (b2n b.falling + 2 * b2n b.presc + 4 * b2n (a.ovf || b.ovf)) ++
          leBytes 2 0 ++ leBytes 4 (a.cnt % 2 ^ 32)
        .each (s.diffStreams p false) fun n => addEntry n e a.q
      else
        let k := (d - s.winLo p) / (s.df p R.DIFF_BIN_W : Int)
        let bin := k.toNat
        let full : Bool := decide (0 ≤ k) && decide (k < 4096) && decide (0xFFFFFFFF ≤ Tab.get (s.pair' p).hist 0 bin + 1)
        .all [
          modPair p fun t =>
            if k < 0 then { t with n := t.n + 1, below := t.below + 1 }
            else if 4096 ≤ k then { t with n := t.n + 1, above := t.above + 1 }
            else { t with n := t.n + 1, hist := Tab.mod t.hist 0 bin (· + 1) },
          .ask fun t =>
            if full then .all [closeHist p, raise pgDiff 2]
            else .when (decide (s.live pgDiff R.DIFF_HEPOCH_N ≠ 0) && decide (s.live pgDiff R.DIFF_HEPOCH_N ≤ (t.pair' p).n)) (closeHist p)]]

/-- The differences engine evaluates n differences, of one A stamp or one group, at most 2 in a CCLK period: where earlier ones occupy it for the
present period they cannot be evaluated and are dropped (R273; how the engine spreads them is a DESIGN CHOICE, log entry 131). -/
def diffRate (n : Nat) (p : Prog) : Prog :=
  .ask fun s =>
    if 2 * s.time.cc + 2 ≤ s.time.diffSlot && s.scsRun then diffDrop n
    else .all [.time fun t => { t with diffSlot := max t.diffSlot (2 * t.cc) + n }, p]

/-- A stamp reaches a pair in MODE FREQ: a group is two stamps whose counts are multiples of N, N apart (R270).  The first group begins with
count N, since no edge has count 0. -/
def freqStamp (p : Nat) (x : Stamp) : Prog :=
  .ask fun s =>
    let n := s.df p R.DIFF_WIN_LO
    .when (decide (n ≠ 0) && decide (x.cnt % n = 0)) (
      let k := x.cnt / n
      .all [
        (match (s.pair' p).as.head? with
         | some a => if a.cnt + n = x.cnt then diffRate 1 (emitDiff p a x) else diffDrop (k - a.cnt / n)
         | none => diffDrop (k - 1)),
        modPair p fun t => { t with as := [x] }])

/-- The Q-time before which no A stamp of a pair can lie: its oldest one that waits, in the pair or in the FIFO of A, or the earliest edge to
come. -/
def State.nextA (s : State) (p : Nat) : Nat :=
  let k := s.df p R.DIFF_A
  match (s.pair' p).as, (s.tdc k).fifo with
  | a :: _, _ => a.q
  | [], r :: _ => s.stampQ k r
  | [], [] => s.stampQ k { c := s.time.cc, j := 0, m := 100, falling := false, presc := false, cnt := 0, ovf := false }

/-- A stamp reaches a pair as its B: those outside every window to come are let go, and at most 256 are kept, the newest ones (R273; which ones
is a DESIGN CHOICE, log entry 131). -/
def bStamp (p : Nat) (x : Stamp) : Prog :=
  .ask fun s =>
    let from_ : Int := (s.nextA p : Int) + s.winLo p
    let bs := ((s.pair' p).bs.filter fun b => decide (from_ ≤ b.q)) ++ [x]
    let extra := bs.length - 256
    modPair p fun t => { t with
      bs := bs.drop extra, gone := (t.gone.filter fun q : Nat => decide (from_ ≤ (q : Int))) ++ (bs.take extra).map fun b => b.q }

/-- A converted stamp goes to the streams, in order, the pairs and the trigger engine (R134, R266, R269). -/
def deliverStamp (k : Nat) (x : Stamp) : Prog :=
  .ask fun s =>
    .all [
      .time fun t => { t with held := insertStamp k x t.held }, stampRelease,
      .each (which 64 fun p => s.df p R.DIFF_USE = 1) fun p =>
        if s.df p R.DIFF_MODE = 2 then .when (s.df p R.DIFF_A = k) (freqStamp p x)
        else .all [
          .when (s.df p R.DIFF_A = k) (modPair p fun t => { t with as := t.as ++ [x] }),
          .when (s.df p R.DIFF_B = k) (bStamp p x)],
      srcEvent (16 + k) x.q false]

/-- The order in which stamps leave the FIFOs: ascending Q-time, then input (R266). -/
def State.firstStamp (s : State) (k q : Nat) : Bool :=
  (List.range 16).all fun i => match (s.tdc i).fifo.head? with
    | some r => decide (i = k) || decide (q < s.stampQ i r) || (q = s.stampQ i r && decide (k < i))
    | none => true

/-- The oldest stamp of a FIFO is converted, once no other FIFO holds an earlier one (R256, R262, R266). -/
def stampConvert (k : Nat) : Prog :=
  .ask fun s => match (s.tdc k).fifo with
    | r :: rest =>
      let q := s.stampQ k r
      .when (s.tie.isSome && s.firstStamp k q) (.all [
        modTdc k fun t => { t with fifo := rest }, tdcStat k,
        deliverStamp k { q := q, cnt := r.cnt, falling := r.falling, presc := r.presc, ovf := r.ovf }])
    | [] => .nil

/-- Whether a B stamp at q lies in the window of an A stamp, as far as t_close (R269). -/
def State.inWindow (s : State) (p : Nat) (a : Stamp) (q : Nat) : Bool :=
  decide ((a.q : Int) + s.winLo p ≤ q) && decide ((q : Int) ≤ a.q + s.winHi p) &&
    (match s.seg.tClose with | some u => decide (q < u) | none => true)

/-- The differences of a pair's oldest A stamp (R269), within what the engine can evaluate in a CCLK period or, at the drain, without that limit;
one to a B stamp that found no room is dropped (R273). -/
def diffOf (p : Nat) (limit : Bool) (a : Stamp) : Prog :=
  .ask fun s =>
    let lost := ((s.pair' p).gone.filter (s.inWindow p a)).length
    let hits := (s.pair' p).bs.filter fun b => s.inWindow p a b.q
    let wanted := if s.df p R.DIFF_MODE = 0 then 1 else 16
    let go := hits.take (wanted - lost)
    .all [
      modPair p fun t => { t with as := t.as.drop 1, bs := t.bs.filter fun b => decide ((a.q : Int) + s.winLo p ≤ b.q) },
      if lost + hits.length = 0 then .inc pgDiff R.DIFF_CNT_NO_MATCH
      else .all [
        diffDrop (min lost wanted),
        .when (!go.isEmpty) (if limit then diffRate go.length (.each go (emitDiff p a)) else .each go (emitDiff p a)),
        .when (decide (s.df p R.DIFF_MODE ≠ 0)) (.add pgDiff R.DIFF_CNT_ALL_EXCESS (lost + hits.length - 16))]]

/-- A pair's oldest A stamp is evaluated, once its window has passed, or has reached t_close, and the stamps of its B input are converted
(R269). -/
def diffEvaluate (p : Nat) : Prog :=
  .ask fun s => match (s.pair' p).as with
    | a :: _ =>
      let passed : Bool := decide ((a.q : Int) + s.winHi p < s.now) ||
        (match s.seg.tClose with | some u => decide (u ≤ s.now) | none => false)
      .when (decide (s.df p R.DIFF_MODE ≠ 2) && passed && (s.tdc (s.df p R.DIFF_B)).fifo.isEmpty) (diffOf p true a)
    | [] => .nil

/-- Every A stamp that still waits is evaluated, and the groups that lost their last stamps are counted (the flush of R184, R270). -/
def diffFlush (p : Nat) : Prog :=
  .ask fun s => .when (s.df p R.DIFF_USE = 1) (
    if s.df p R.DIFF_MODE = 2 then
      let n := s.df p R.DIFF_WIN_LO
      let last := (s.tdc (s.df p R.DIFF_A)).count / n
      .when (decide (n ≠ 0)) (diffDrop (last - (match (s.pair' p).as.head? with | some a => a.cnt / n | none => 1)))
    else .each (s.pair' p).as (diffOf p false))

/-! ### Meanings -/

/-- An edge at an event input, in the present CCLK period, with its phase and fine code (R260 to R262); it is ignored while the core domain
is off (R525). -/
def execEvEdge (input : Nat) (falling : Bool) (j m : Nat) (s : State) : Host.Outcome State Fault Refusal :=
  .next (run (.ask fun s => .when s.coreOn (evEdge input falling j m)) s)

/-- The oldest stamp of an event input's FIFO is converted (R262). -/
def execStampConvert (input : Nat) (s : State) : Host.Outcome State Fault Refusal := .next (run (stampConvert input) s)

/-- The differences engine evaluates a pair's oldest A stamp (R269). -/
def execDiffEvaluate (pair : Nat) (s : State) : Host.Outcome State Fault Refusal := .next (run (diffEvaluate pair) s)

/-- An event input's delay-line loop locks, once the SCS is in RUN (R263). -/
def execTdcLocked (input : Nat) (s : State) : Host.Outcome State Fault Refusal :=
  .next (run (.ask fun s => .when (s.scsRun && s.tie.isSome) (tdcLock input true)) s)

/-- A code-density test ends, with the codes and phases an internal-source test recorded (R264). -/
def execCdDone (input : Nat) (codes phases : List Nat) (s : State) : Host.Outcome State Fault Refusal :=
  .next (run (cdDone input codes phases) s)

end Sys2Proof.Machine
end

