-- ==== Sys2Proof/Machine/Frames.lean ====
section
/-! DEFINITION. The frame controller: arming, opening, closing, the drain, the pods, and the clearing of per-frame state (R30, R86, R115,
R121, R167, R181 to R189, R237, R251, R264, R285). -/

namespace Sys2Proof.Machine

/-! ### Runs that are due (R115) -/

/-- DUE and HARD of a die. -/
def State.due (s : State) (die : Nat) : Bool := bit (s.get pgCal R.CAL_DUE) die
def State.hardDue (s : State) (die : Nat) : Bool := bit (s.get pgCal R.CAL_HARD) die

/-- A due run of a die starts, where AUTO_EN is 1, no run of the die is active, and it has a channel to measure (R115, R127). -/
def startDue (die : Nat) (hard : Bool) : Prog :=
  .ask fun s => .when (s.due die && s.live pgCal R.CAL_AUTO_EN = 1 && !(s.dieRuns die) && !(s.dueChans die).isEmpty)
    (startRun die 1 (s.dueChans die) hard none)

/-! ### Opening (R121, R167, R181, R183, R285) -/

/-- PWR.STATE takes a value, with STATE_CHANGE where it is another (R480); HBM is off in DORMANT, in self-refresh in STANDBY, and active above
(R461, Table 15-6). -/
def setPower (v : Nat) : Prog :=
  .ask fun s => .all [.set pgPwr R.PWR_STATE v, .when (decide (s.pstate ≠ v)) (raise pgPwr 1),
    .set pgClk R.CLK_SQ_HALF (b2n (decide (v = 1))), .each (List.range 4) fun m => .set (pgMc m) R.MC_MODE (min v 2)]

/-- A transition to a power state starts (Table 17-9). -/
def beginTransit (target : Nat) : Prog := .all [.set pgPwr R.PWR_TRANSIT 1, .set pgPwr R.PWR_TARGET target]

/-- The number the next frame takes (R181). -/
def State.nextFrame (s : State) : Nat := if s.frameNum = 0xFFFFFFFF then 1 else s.frameNum + 1

/-- A FRAME_OPEN waits for its completion. -/
def State.openAsked (s : State) : Bool := !(s.waiters fun h => h.op = 0x10).isEmpty

/-- Whether a calibration run keeps a frame from opening (R121): a FULL or RECOVERY run always, a DELTA run unless BOUNDARY_YIELD is 1. -/
def State.runHolds (s : State) : Bool :=
  s.cal.runs.any fun e => decide (e.2.kind ≠ 1) || s.live pgCal R.CAL_BOUNDARY_YIELD = 0

/-- The channels present at t_open, with their mode and bank rate (R237). -/
def State.presentNow (s : State) : Tab (Nat × Nat) :=
  ((List.range 8).filter s.chanOn).map fun c => (c, s.mode (dieOf c), s.chanRate c)

/-- A stream is enabled in the frame and takes requests from a Q-time on (R187, R190), unless its shell is closed (R441). -/
def joinFrame (n since : Nat) (contK : Nat) : Prog :=
  .ask fun s => .when (s.shellOpen (s.owner (pgSt n).ownReg)) (.all [
    modStrm n fun t => { t with
      inPod := true, since := since, contK := contK, bound := if s.dest n = 0 then t.bound else (t.bound ++ [s.dest n]).dedup },
    .set (pgSt n) R.ST_IN_FRAME 1])

/-- The frame opens at a CCLK boundary with Q-time q, the end of the cycle of its commit (R167): pending commits have applied, and definitions
arm (R146, R181).  LATE_OPEN sets where a TIME open finds that an earlier boundary stood at or after OPEN_AT (R189). -/
def frameOpens (q : Nat) : Prog :=
  .ask fun s =>
    .all [
      .when (bits s.seg.cfg 1 0 = 2 && decide (s.seg.openAt ≤ s.nowQ) && decide (s.nowQ < q)) (.set pgTop R.TOP_LATE_OPEN 1),
      .set pgTop R.TOP_FRAME_NUM s.nextFrame, .set pgTop R.TOP_STATE 2, setPower 3,
      .set pgTop R.TOP_TRIG_COUNT 0, .setQ pgTop R.TOP_OPEN_TIME q,
      .seg fun g => { g with
        tOpen := q, tClose := none, openWait := false, drain := 0, rateChg := [], present := s.presentNow,
        pos0 := (List.range 8).map fun c => (c, s.posAt (s.spc c) q) },
      .trig fun t => { t with armFrom := some q, armUpto := none },
      .each (List.range 8) fun c => modChan c fun ch => { ch with hold := ch.hold.map fun h => { h with inFrame := true } },
      .time fun t => { t with tdcs := t.tdcs.map fun e => (e.1, { e.2 with count := 0, ovf := false, presc := 0 }) },
      .each (List.range 16) tdcStat,
      .each (which 256 fun n => s.en (pgSt n)) fun n => .all [joinFrame n q 0, .set (pgSt n) R.ST_DRAINED 0],
      raise pgTop 1]

/-- Commits apply and the frame opens at a boundary, or a refused commit keeps it from opening: then the state is IDLE, a FRAME_OPEN completes with the
status of the refusal, and an open that no command waits for sets FRAME_REPEAT to 0 (R47, R181, Table 6-5). -/
def openNow (q : Nat) : Prog :=
  .ask fun s =>
    match s.openRefused with
    | some st => .all [commitAtOpen, .set pgTop R.TOP_STATE 0, .seg fun g => { g with openWait := false },
        if s.openAsked then finishWaiters 0x10 st 0 else .set pgTop R.TOP_FRAME_REPEAT 0]
    | none => .all [commitAtOpen, frameOpens q, finishWaiters 0x10 stOK s.nextFrame]

/-- The open condition holds: the frame opens, or the open waits for RUN of the SCS (and is then late) or for a run (R121, R285). -/
def tryOpen : Prog :=
  .ask fun s =>
    if !s.scsRun then .all [.seg fun g => { g with openWait := true }, .set pgTop R.TOP_LATE_OPEN 1]
    else if s.runHolds then .seg fun g => { g with openWait := true }
    else openNow s.nextQ

/-- The open condition of FRAME_CFG is armed, its settings read (R181, R189).  Every arming clears LATE_OPEN, which GATE opens may set too (R285);
the spec does not say when it clears (DESIGN CHOICE, log entry 127). -/
def armOpen : Prog :=
  .ask fun s =>
    let cfg := (s.cell (pgTop.base + 0x060)).toNat
    let q := s.sys.openSet
    .all [
      .seg fun g => { g with
        cfg := cfg, closeCount := s.get pgTop R.TOP_CLOSE_COUNT,
        dur := s.get64 pgTop R.TOP_FRAME_DUR_LO R.TOP_FRAME_DUR_HI, openAt := q, openWait := false },
      .set pgTop R.TOP_STATE 1, .set pgTop R.TOP_LATE_OPEN 0,
      match bits cfg 1 0 with
      | 1 => finishWaiters 0x10 stOK s.nextFrame
      | 2 => if q ≤ s.now then .all [.set pgTop R.TOP_LATE_OPEN 1, tryOpen] else finishWaiters 0x10 stOK s.nextFrame
      | _ => tryOpen]

/-- A FRAME_OPEN begins (R181, R251, R285, R456): REFUSED_BUSY away from READY, while the frame controller is not IDLE or an open waits, and
while the sample clock is gated; it waits for a pending step of Q-time. -/
def State.openBusy (s : State) : Bool :=
  decide (s.pstate ≠ 2) || s.get pgPwr R.PWR_TRANSIT = 1 || decide (s.fstate ≠ 0) || s.seg.openWait || !s.scsRun

/-- The effect of a FRAME_OPEN that is not refused; its command waits. -/
def frameOpenCmd : Prog :=
  .ask fun s => if s.get pgTime R.TIME_STEP_PEND = 1 then .seg fun g => { g with openWait := true } else armOpen

/-- What an open waited for has ended: it goes on, at a boundary (R121, R251, R285). -/
def openPendingAt (q : Nat) : Prog :=
  .ask fun s => .when s.seg.openWait (
    if s.fstate = 0 then .when (s.get pgTime R.TIME_STEP_PEND = 0) armOpen
    else .when (s.fstate = 1 && s.scsRun && !s.runHolds) (openNow q))

/-- An open that waited goes on, at the end of the present cycle. -/
def openPending : Prog := .ask fun s => openPendingAt s.nextQ

/-- FRAME_CLOSE: an open frame closes, an armed open is cancelled (R182).  A FRAME_OPEN that still waits for the open so cancelled completes
REFUSED_BUSY (log entry 44). -/
def frameCloseCmd : Prog :=
  .ask fun s =>
    if s.fstate = 1 || s.seg.openWait then .all [.set pgTop R.TOP_STATE 0, .seg fun g => { g with openWait := false },
      finishWaiters 0x10 stBusy 0]
    else closeFrame 0 s.nowQ

/-! ### Gates (R134, R181, R182, Table 6-5) -/

/-- The GATEg signal takes a level: it is trigger source 12 + g, it opens and closes frames, and TDC arming reads it (R134, R261). -/
def gateLevel (g : Nat) (v : Bool) : Prog :=
  .ask fun s =>
    let q := s.nowQ
    .all [
      setLevel (12 + g) q v,
      .when v (pinEvent (12 + g) q .nil),
      .when (v && bits s.seg.cfg 1 0 = 1 && s.fcfg R.TOP_OPEN_GATE = g) (
        if s.fstate = 1 then .when (!s.seg.openWait) tryOpen
        else .when (decide (2 ≤ s.fstate)) (incRaise pgTop R.TOP_CNT_GATE_MISSED 5)),
      .when (!v && s.fcfg R.TOP_CLOSE_GATE_EN = 1 && s.fcfg R.TOP_CLOSE_GATE = g) (closeFrame 3 q)]

/-! ### The drain (R153, R184) -/

/-- Nothing that began before t_close is still provisional or undecided (R153). -/
def State.provsResolved (s : State) : Bool :=
  match s.seg.tClose with
  | none => false
  | some u =>
    s.trig.waiting.all (fun e => decide (u ≤ e.2.anchor)) &&
    (List.range 16).all fun d =>
      s.td d R.TCOMB_MODE = 0 ||
        ((s.tdef d).provs.all (fun p => decide (u ≤ p.anchor)) && (s.tdef d).firings.all (fun f => decide (u ≤ f.2.1)) &&
          (s.termSources d (s.terms d)).all fun k => decide (48 ≤ k) || s.settled k (u - 1))

/-- Every request of the frame is extracted or reported, and every stamp converted and in its streams (R184). -/
def State.requestsDone (s : State) : Bool :=
  s.seg.reqs.isEmpty && s.seg.extrs.isEmpty && s.time.held.isEmpty && (List.range 16).all (fun k => (s.tdc k).fifo.isEmpty)

/-- A stream's open accumulation, map and entry records are flushed (R184). -/
def flushStream (n : Nat) : Prog :=
  .ask fun s => .all [
    .when (s.st n R.ST_SRC_KIND = 0 && s.binned n) (closeEpoch n 4),
    (match s.slotOf n with | some m => closeMap m 4 | none => .nil),
    closeEntries n]

/-- Nothing of a stream is still to be built, queued, or written at a destination (R184, R347). -/
def State.streamWritten (s : State) (n : Nat) : Bool :=
  let t := s.strm n
  t.ep.closing = 0 && t.built.isEmpty && t.queue.isEmpty && t.pend.isNone &&
    (match s.slotOf n with | some m => (s.map m).ep.closing = 0 | none => true) &&
    !(s.host.rings.any fun e => (match e.2.part with | some (x, _) => x = n | none => false) ||
        e.2.ents.any fun x => x.held.any fun r => r.stream = n) &&
    !(s.net.ctxs.any fun e => e.2.sent.any fun x => x.src = n)

/-- The destinations that receive a pod (R184, R187): bound to a stream while it was enabled in the frame, or sent something of the frame. -/
def State.podDests (s : State) : List Nat :=
  ((((List.range 256).flatMap fun n => (s.strm n).bound) ++
      (s.seg.pods.filter fun e => decide (e.frame = s.frameNum)).map (·.dest)).dedup).filter fun d => !(s.seg.stopped.contains d)

/-- DRAINED of the streams that are written (R192). -/
def showDrained : Prog :=
  .ask fun s => .each (which 256 fun n => (s.strm n).inPod && s.get (pgSt n) R.ST_DRAINED = 0 && s.streamWritten n) fun n =>
    .all [.set (pgSt n) R.ST_DRAINED 1, raise (pgSt n) 3]

/-- The pods of some destinations are queued (R184, R187). -/
def queuePods (ds : List Nat) (abandoned : Bool) : Prog :=
  .ask fun s => .seg fun g => { g with
    podWait := ds, podQ := g.podQ ++ ds.map fun d => podRecord s d abandoned }

/-- Per-frame state is cleared (R188); an abandoned stream keeps what is left in its queue, and a pending pip (R178, R186). -/
def clearFrame : Prog :=
  .all [
    .seg fun g => { g with
      reqs := [], extrs := [], pods := [], maps := [], drain := 0, podWait := [], stopped := [],
      strms := g.strms.map fun e => (e.1, { Strm.reset with queue := e.2.queue, pend := e.2.pend }) },
    .each (List.range 256) fun n => .all [
      .set (pgSt n) R.ST_IN_FRAME 0, .set64 (pgSt n) R.ST_NEXT_SEQ_LO R.ST_NEXT_SEQ_HI 0, eqStat n],
    .each (List.range 16) fun m => .seti pgDen R.DEN_SAT m 0,
    .trig fun t => { t with defs := [], waiting := [], armFrom := none },
    .set pgTcomb R.TCOMB_PROV 0,
    .time fun t => { t with pairs := [], held := [], tdcs := t.tdcs.map fun e => (e.1, { e.2 with fifo := [] }) },
    .each (List.range 16) tdcStat, engineStat,
    .set pgTop R.TOP_TRIG_COUNT 0]

/-- The controller returns to IDLE: per-frame state clears, enables and runs that waited for the boundary take effect, and a repeated open is
armed once no step of Q-time is pending, or the device goes to STANDBY because of SHUT (R28, R86, R115, R183, R188, R264, R465). -/
def frameEnds (status : Nat) : Prog :=
  .all [
    finishWaiters 0x11 status 0,
    .set pgTop R.TOP_STATE 4, clearFrame, setPower 2, applyEnHeld,
    .each [0, 1] fun d => .ask fun s => startDue d (s.hardDue d),
    .each [0, 1] fun k => .ask fun s => .when (s.tdc k).cdWait (cdStart k),
    .set pgTop R.TOP_STATE 0, showHeld,
    .ask fun s => .when (decide (s.get pgTop R.TOP_FRAME_REPEAT ≠ 0) && !s.pwr.shutPend) (.all [
      .set pgTop R.TOP_FRAME_REPEAT (s.get pgTop R.TOP_FRAME_REPEAT - 1), frameOpenCmd]),
    .ask fun s => .when s.pwr.shutPend (beginTransit 1)]

/-- FRAME_CLOSE completes with the number of the frame that has ended. -/
def finishClose (status : Nat) : Prog := .ask fun s => finishWaiters 0x11 status s.frameNum

/-- The drain's first wait ends (R184). -/
def drainProvs : Prog :=
  .ask fun s => .when (s.fstate = 3 && s.seg.drain = 0 && s.provsResolved) (.seg fun g => { g with drain := 1 })

/-- The drain's second wait ends, and what is partly filled is flushed (R184). -/
def drainRequests : Prog :=
  .all [stampRelease, .ask fun s => .when (s.fstate = 3 && s.seg.drain = 1 && s.requestsDone) (.all [
    .each (List.range 64) diffFlush,
    .each (which 64 fun p => s.df p R.DIFF_USE = 1 && s.df p R.DIFF_OUT = 1) closeHist,
    .each (List.range 256) flushStream,
    .seg fun g => { g with drain := 2 }])]

/-- The drain's third wait: open data buffers complete once nothing follows for them (R355), streams that are written show DRAINED, and
when all are, the pods are queued (R184). -/
def drainRecords : Prog :=
  .ask fun s => .when (s.fstate = 3 && s.seg.drain = 2) (.all [
    .each (s.host.rings.map (·.1)) fun n => .ask fun t => .when (t.get (pgRing n) R.RING_TYPE = 2) (drainRing n),
    showDrained,
    .ask fun t => .when ((List.range 256).all t.streamWritten) (.all [
      queuePods t.podDests false, .seg fun g => { g with drain := 3 }])])

/-- Every pod of the frame is written (R184): POD_DONE, and the controller returns to IDLE. -/
def podDone : Prog :=
  .ask fun s => .when (s.fstate = 3 && s.seg.drain = 3 && s.seg.podWait.isEmpty) (.all [
    .set pgTop R.TOP_ABANDONED 0, raise pgTop 3, finishClose stOK, frameEnds stOK])

/-- Whether the path of a destination is down (R186): no link of its context is usable, or the PCIe link is down. -/
def State.pathDown (s : State) (d : Nat) : Bool :=
  if 2 ≤ d / 65536 then s.destDown d || !(s.subUp (s.pathSub (d % 65536))) else s.get pgPcie R.PCIE_SPEED = 0

/-- Whether a stream has left something of the frame undone: a request, an open record or epoch, or stamps that may become entries of it. -/
def State.streamDone (s : State) (n : Nat) : Bool :=
  let kind := s.st n R.ST_SRC_KIND
  !((s.seg.extrs.map (·.2.req) ++ s.seg.reqs).any fun r => r.stream = n) && (s.strm n).openRec.isNone && (s.strm n).ep.segs = 0 &&
    (match s.slotOf n with | some m => (s.map m).ep.segs = 0 | none => true) && s.streamWritten n &&
    !((s.strm n).inPod && (kind = 1 || kind = 2) && (!s.time.held.isEmpty || (List.range 16).any fun k => !(s.tdc k).fifo.isEmpty))

/-- Whether a destination is still blocked when a drain runs out of time (R186): its pod is not written, or a stream bound to it in the frame
has something left to write. -/
def State.blocked (s : State) (d : Nat) : Bool :=
  if s.seg.drain = 3 then s.seg.podWait.contains d
  else (List.range 256).any fun n =>
    (s.strm n).queue.any (fun r => decide (r.dest = d)) || (((s.strm n).bound.contains d || s.dest n = d) && !(s.streamDone n))

/-- What a stream of an abandoned drain has not yet queued: its confirmed requests, the data records it has built, and its open epochs.  Each
is a loss with a cause, so that no loss is dropped (R35); requests of triggers that are still provisional were never requested (R149), and
stamps that are not converted cover no samples (DESIGN CHOICE, log entry 128). -/
def State.unqueued (s : State) (n cause : Nat) : List Rec :=
  let c := s.srcChan n
  let reqs := (s.seg.extrs.map (·.2.req) ++ s.seg.reqs).filter fun r => r.stream = n && decide (r.st ≠ 0)
  ((s.strm n).built.flatMap fun e => (e.2.filter (·.isData)).map fun r => lossOf r cause) ++
    reqs.map (fun r => pipRec s n cause (r.seq.getD 0) 1 (s.index c r.first) r.len (s.instant (s.spc c) r.first) r.code) ++
    (if s.binned n && decide (0 < (s.strm n).ep.segs) then [lossOf (accRecord s n) cause] else []) ++
    (match s.slotOf n with
     | some m => if 0 < (s.map m).ep.segs then [lossOf (denRecord s m n) cause] else []
     | none => [])

/-- The drain of a stream is abandoned at a destination: its unsent data there, and what it has not queued, become one pip (R186). -/
def abandonStream (n d cause : Nat) : Prog :=
  .all [
    .when (decide (n < 256)) (closeEntries n),
    .ask fun s =>
      let here : Bool := decide (s.dest n = d)
      .all [
        .when here (.each ((s.strm n).built.flatMap fun e => e.2.filter fun r => !r.isData) pushPip),
        dropMore n d cause [] (if here then (s.unqueued n cause).map fun r => { r with dest := d } else []),
        .when here (.all [
          .seg fun g => { g with
            reqs := g.reqs.filter fun r => r.stream ≠ n, extrs := g.extrs.filter fun e => e.2.req.stream ≠ n },
          modStrm n fun t => { t with built := [], bins := [], ep := Epoch.reset },
          (match s.slotOf n with | some m => modMap m fun _ => { cells := [], ep := Epoch.reset } | none => .nil),
          flushPend n])]]

/-- What is on its way to a destination, or stays queued for it ahead of its pod: records that wait in its ring or context, then those of the
streams' queues. -/
def State.onItsWay (s : State) (d : Nat) : List Rec :=
  (if d / 65536 = 1 then (s.ring (d % 65536)).ents.flatMap (·.held) else (s.ctx (d % 65536)).sent.map (·.item)) ++
    (List.range 256).flatMap fun n => (s.strm n).queue.filter fun r => decide (r.dest = d)

/-- The pod of a destination whose drain is abandoned: it is written after what is queued ahead of it, and counts that too (R186, R187). -/
def abandonedPod (s : State) (d : Nat) : Rec :=
  podRecord { s with seg := { s.seg with pods := (s.onItsWay d).foldl countIn s.seg.pods } } d true

/-- The destinations an abandoned drain looks at: those that receive a pod, and those of streams with something left to write. -/
def State.drainDests (s : State) : List Nat :=
  (s.podDests ++ ((List.range 256).filter fun n => !(s.streamDone n) && decide (s.dest n ≠ 0) && !(s.seg.stopped.contains (s.dest n))).map s.dest).dedup

/-- The drain is abandoned after DRAIN_TMO for the destinations that are still blocked (R186): their unsent data becomes one pip per stream,
and their pods, marked abandoned, stay queued.  The pods of the others are queued unmarked, and are not waited for (DESIGN CHOICE, log entry
128). -/
def drainAbandoned : Prog :=
  .ask fun s =>
    let late : Bool := match s.seg.tClose with
      | some u => decide (u + msQ s.seg.drainTmo ≤ s.now)
      | none => false
    .when (s.fstate = 3 && late) (
      let bad := s.drainDests.filter s.blocked
      let lost := which 256 fun n => !(s.streamDone n) && !(s.drainDests.contains (s.dest n))
      .all [
        .when (decide (s.seg.drain ≠ 3)) (.all [
          .each bad fun d => .each (which 256 fun n => (s.strm n).bound.contains d || (s.strm n).queue.any (fun r => decide (r.dest = d)))
            fun n => abandonStream n d (if s.pathDown d then 8 else 2),
          .each lost fun n => .ask fun t =>
            let cause := if t.seg.stopped.contains (t.dest n) then 6 else 2
            .each (t.unqueued n cause) fun r => countLoss n cause r.len,
          queuePods (s.podDests.filter fun d => !(s.blocked d)) false,
          .ask fun t => .seg fun g => { g with podQ := g.podQ ++ bad.map (abandonedPod t) }]),
        .when (s.seg.drain = 3) (.ask fun t => .seg fun g => { g with
          podQ := g.podQ.map fun r => if t.seg.podWait.contains r.dest && !r.begun then podRecord t r.dest true else r }),
        .set pgTop R.TOP_ABANDONED 1, incRaise pgTop R.TOP_CNT_ABANDONED 4, finishClose stTimeout, frameEnds stTimeout])

/-! ### Meanings -/

/-- An armed TIME open reaches OPEN_AT (R181). -/
def execTimeOpen (s : State) : Host.Outcome State Fault Refusal :=
  .next (run (.ask fun s => .when (s.fstate = 1 && bits s.seg.cfg 1 0 = 2 && !s.seg.openWait && decide (s.seg.openAt ≤ s.nextQ)) tryOpen) s)

/-- Every provisional trigger anchored before t_close is resolved (R184), what can be decided by now among them. -/
def execDrainProvisionalResolved (s : State) : Host.Outcome State Fault Refusal := .next (run (.all [trigSettle, drainProvs]) s)

/-- Every request of the frame is extracted or reported (R184). -/
def execDrainRequestsDone (s : State) : Host.Outcome State Fault Refusal := .next (run drainRequests s)

/-- Every record of the frame is written on every destination (R184). -/
def execDrainRecordsWritten (s : State) : Host.Outcome State Fault Refusal := .next (run drainRecords s)

/-- Every pod of the frame is written (R184). -/
def execPodDone (s : State) : Host.Outcome State Fault Refusal := .next (run podDone s)

/-- A drain has not finished within DRAIN_TMO (R186). -/
def execDrainAbandoned (s : State) : Host.Outcome State Fault Refusal := .next (run drainAbandoned s)

/-- A pending step of Q-time is made, with the frame controller IDLE; a FRAME_OPEN that waited goes on (R251). -/
def execStepDone (s : State) : Host.Outcome State Fault Refusal :=
  .next (run (.ask fun s => .when (s.get pgTime R.TIME_STEP_PEND = 1 && s.fstate = 0) (.all [stepBy s.time.err, openPending])) s)

end Sys2Proof.Machine
end

