-- ==== Sys2Proof/Machine/Calib.lean ====
section
/-! DEFINITION. The calibration controller: die temperature and due runs, step and idle boundaries, runs and start-up calibration and their
timeouts, background rotation, and the legacy window (R97 to R133). -/

namespace Sys2Proof.Machine

/-! ### Temperature (R99, R115) -/

/-- T_die from the last housekeeping codes of the die's three sensors, in 0.125 °C: the mean of c / 2 - 400, rounded once (R99, R469,
Table 17-6). -/
def State.dieTemp (s : State) (die : Nat) : Int :=
  let c (k : Nat) : Int := (Tab.get s.pwr.house 0 (3 * die + k) : Nat)
  divAway (c 0 + c 1 + c 2 - 2400) 6

/-- The drift of a die from its LAST_RUN (R115). -/
def State.drift (s : State) (die : Nat) : Nat := (s.tDie die - sgn 12 (s.geti pgCal R.CAL_LAST_RUN die)).natAbs

/-- DUE and HARD follow the drift (R115): never before the first start-up calibration, nor while a run sets a new LAST_RUN (R128). -/
def dueCheck (die : Nat) : Prog :=
  .ask fun s => .when (bit (s.get pgCal R.CAL_START_DONE) die && !(s.dieRuns die)) (.all [
    .when (decide (s.live pgCal R.CAL_DTEMP < s.drift die) && s.live pgCal R.CAL_AUTO_EN = 1 && !(s.due die))
      (.all [.setBit pgCal R.CAL_DUE die true, raise pgCal 1]),
    .ask fun t => .when (t.due die && t.fstate = 2 && decide (t.live pgCal R.CAL_DTEMP_HARD < t.drift die) &&
        t.live pgCal R.CAL_HARD_EN = 1 && !(t.hardDue die))
      (.all [.setBit pgCal R.CAL_HARD die true, raise pgCal 2])])

/-- The temperature of a die is taken from its sensors, and DUE and HARD follow (R99, R115). -/
def tDieUpdate (die : Nat) : Prog :=
  .ask fun s => .all [.seti pgCal R.CAL_TEMP_NOW die (unsgn 12 (s.dieTemp die)), dueCheck die]

/-! ### Boundaries (R98, R109, R114) -/

/-- A handover of a bank is made, with the deltas measured on the slice that has been out of service and whether the input had slope
(R111, R112). -/
def handoverWith (b : Nat) (meas : Tab Int) (slope : Bool) : Prog :=
  .ask fun s => .all [
    .cal fun c => { c with meas := Tab.merge c.meas meas },
    .when (!slope && decide (s.get (pgBank b) R.BANK_OUT_SLICE ≠ 0x7F)) (.inc pgCal R.CAL_CNT_SKEW_SKIP),
    handover b]

/-- Handovers that fell due while their bank was held are made (R114). -/
def dueHandovers : Prog :=
  .ask fun s => .each (which 8 fun b => Tab.get s.conv.rotDue false b && s.rotState b = 1) fun b =>
    let m := Tab.get s.conv.rotMeas ([], true) b
    handoverWith b m.1 m.2

/-- The channel a run measures is switched to the tone again where nothing holds it, after a settling (R128). -/
def resumeHolds : Prog :=
  .ask fun s => .each s.cal.runs fun e => match e.2.chans with
    | c :: _ => .when ((s.chan c).hold.isNone && !(s.settling c)) (holdBegin c e.2.kind e.2.hard)
    | [] => .nil

/-- What every boundary does: pending values, temperatures and the CAL commit apply, and what waited for the boundary goes on (R54, R98,
R109, R114, R121). -/
def boundary : Prog := .all [applyCalValues, commitCal, resumeHolds, showRot, dueHandovers, openPending]

/-- A step of a run has ended with some measured values; with `last`, the measurement of its channel has ended too, and its deltas apply
(R100, R109, R116, R126, R127). -/
def runStep (r : Nat) (vals : List (Nat × Int)) (last : Bool) : Prog :=
  .ask fun s =>
    match s.run? r with
    | none => .nil
    | some x =>
      let meas := Tab.merge x.meas vals
      match x.chans with
      | [] => .nil
      | c :: cs =>
        if last then .all [
          .cal fun y => { y with
            meas := Tab.merge y.meas (s.deltasOf x.kind (s.ofChan c) meas),
            runs := Tab.put y.runs r { x with chans := cs } },
          setBad c false, holdBack c,
          runSettled [c],
          boundary, measureNext r]
        else .all [
          .cal fun y => { y with
            runs := Tab.put y.runs r { x with step := min 0xFFFF (x.step + 1), stepAt := s.now, meas := meas } },
          boundary]

/-- A step of the start-up calibration of a die has ended (R107, R109). -/
def startStep (die : Nat) : Prog :=
  .ask fun s =>
    match Tab.find s.cal.startup die with
    | none => .nil
    | some n => .all [
        .cal fun c => { c with
          startup := Tab.put c.startup die (min 0xFFFF (n + 1)),
          startAt := Tab.put c.startAt die ((Tab.get c.startAt (0, 0) die).1, s.now) },
        boundary]

/-! ### Ends of runs (R110, R123, R126, R127) -/

/-- A run leaves the controller: counted, RUN_DONE raised, its command completed, and an open that waited for it goes on (R121, R132).
CAL_LOAD completes OK where a channel timed out: CAL_BAD is a status of CAL_RUN alone (R125, R395). -/
def runEnds (r status result : Nat) : Prog :=
  .ask fun s =>
    match s.run? r with
    | none => .nil
    | some x => .all [
        .cal fun c => { c with runs := Tab.del c.runs r },
        .inc pgCal R.CAL_CNT_RUNS, raise pgCal 4,
        (match x.cmd with
         | some k =>
           let load : Bool := (s.heldAt (k / 8) (k % 8)).any fun h => h.op = 0x1A
           if load && status = stCalBad then finishCmd (k / 8) (k % 8) stOK 0 else finishCmd (k / 8) (k % 8) status result
         | none => .nil),
        showRuns, showRot, openPending]

/-- Whether a run named every enabled channel of a die. -/
def State.wholeDie (s : State) (x : CalRun) (die : Nat) : Bool :=
  (which 8 fun c => dieOf c = die && s.chanOn c).all x.named.contains

/-- A run in which every channel succeeded ends: LAST_RUN is the temperature at its start, DUE and HARD clear, and a FULL run ends the
condition of R105 where the die has a valid half again (R105, R126). -/
def runDone (r : Nat) : Prog :=
  .ask fun s =>
    match s.run? r with
    | none => .nil
    | some x => .when x.chans.isEmpty (.all [
        .each (which 2 fun d => x.named.any fun c => dieOf c = d) fun d => .all [
          setLastRun d (x.temps.getD d 0), .setBit pgCal R.CAL_DUE d false, .setBit pgCal R.CAL_HARD d false,
          .when (x.kind = 2 && !(s.halves d).isEmpty && s.wholeDie x d) (setNoSet d false)],
        runEnds r stOK 0])

/-- The channel a run measures has timed out: it carries CAL_BAD, the error is captured, and the run ends (R126).  Start-up calibration has
no run, and marks every channel of its die. -/
def runTimeout (r code : Nat) (counter : Row) : Prog :=
  .ask fun s =>
    match s.run? r with
    | none => .nil
    | some x =>
      match x.chans with
      | [] => .nil
      | c :: _ => .all [setBad c true, .inc pgCal counter, capture pgCal code (c + x.step * 2 ^ 8),
          .each x.chans holdBack, runSettled x.chans,
          runEnds r stCalBad (2 ^ c)]

/-- The start-up calibration of a die is over: the committed settings apply, its banks stop settling (R107), a reset of the die ends, and the
definitions that it suspended resume (R156). -/
def startEnds (die : Nat) : Prog :=
  .all [
    .cal fun c => { c with startup := Tab.del c.startup die, startAt := Tab.del c.startAt die },
    showBanks die,
    .each (List.range 4) fun i => endSettle (4 * die + i),
    .ask fun s => .when (Tab.get s.conv.dieRst false die) (.all [
      .conv fun c => { c with dieRst := Tab.put c.dieRst die false },
      .each (which 8 fun c => dieOf c = die && s.chanOn c) fun c => powerChan c true]),
    .ask fun t => resumeDefs ((t.defsOfDie die).filter fun d =>
      t.scsRun && !((Tab.get t.conv.dieRst false (1 - die)) && (t.defsOfDie (1 - die)).contains d)),
    showRot]

/-- The start-up calibration of a die has timed out (R110, R126): each of its channels carries CAL_BAD and puts out measurements with the
previous values (R122), so that a CAL_RUN can clear it (R127).  FE_RST of the die stays set, as START_DONE does not set (R512). -/
def startTimeout (die code : Nat) (counter : Row) : Prog :=
  .ask fun s =>
    match Tab.find s.cal.startup die with
    | none => .nil
    | some n => .all [
        .each (which 8 fun c => dieOf c = die && s.chanExists c) fun c => setBad c true,
        .inc pgCal counter, capture pgCal code (4 * die + n * 2 ^ 8),
        startEnds die]

/-- A limit in µs after a Q-time has been reached. -/
def State.pastUs (s : State) (q us : Nat) : Bool := decide (q + usQ us ≤ s.now)

/-! ### The legacy window (R129 to R131) -/

/-- A word is written to the window: a parameter word of an existing channel is overridden from the next boundary on (R129, R130). -/
def legacyWrite (w : Nat) (v : Word) : Prog :=
  .ask fun s => .when (isParamWord w && (decide (w < 2176) || s.chanExists (wordUnit w)))
    (.cal fun c => { c with ovrWait := c.ovrWait ++ [(some w, some (BitVec.ofNat 32 (legacyMask w v.toNat)))] })

/-- LEG_RELEASE is written (Table 4-8). -/
def legacyRelease (v : Word) : Prog :=
  .cal fun c => { c with ovrWait := c.ovrWait ++ [(if v.toNat.testBit 31 then none else some (v.toNat % 4096), none)] }

/-- A word of the window as it reads: a value written and not yet in force reads as written (R130). -/
def State.legacyRead (s : State) (w : Nat) : Nat :=
  let old : Option Word := some (BitVec.ofNat 32 (s.legacyWord w))
  let new := s.cal.ovrWait.foldl (fun t e => match e with
    | (some x, some v) => if x = w then some v else t
    | _ => t) old
  (new.getD 0).toNat

/-- A word of OVR_MAP: bit k is 1 while window word 32 i + k is overridden (Table 4-5). -/
def State.ovrMap (s : State) (i : Nat) : Nat :=
  if i < 84 then maskOf 32 fun k => (Tab.find s.cal.ovr (32 * i + k)).isSome else 0

/-! ### Meanings -/

/-- Every 1 ms: T_die of a die is updated, and the run-due checks follow (R99, R115). -/
def execTDieUpdate (die : Nat) (s : State) : Host.Outcome State Fault Refusal :=
  .next (run (.when (decide (die < 2)) (tDieUpdate die)) s)

/-- A calibration step ends, of a run, or with number 3 or 4 of the start-up calibration of FE0 or FE1 (R109). -/
def execCalStepBoundary (r : Nat) (vals : List (Nat × Int)) (last : Bool) (s : State) : Host.Outcome State Fault Refusal :=
  .next (run (if r = 3 ∨ r = 4 then startStep (r - 3) else runStep r vals last) s)

/-- No step runs, and the controller makes an idle boundary (R109). -/
def execIdleBoundary (s : State) : Host.Outcome State Fault Refusal :=
  .next (run (.ask fun s => .when (s.cal.runs.isEmpty && s.cal.startup.isEmpty) boundary) s)

/-- A due run of a die starts at a step boundary: outside a frame, or inside one beyond DTEMP_HARD (R115). -/
def execRunStart (die : Nat) (s : State) : Host.Outcome State Fault Refusal :=
  .next (run (.ask fun s => .when (decide (die < 2) && (decide (s.fstate < 2) || (s.fstate = 2 && s.hardDue die)))
    (startDue die (s.hardDue die))) s)

/-- A run ends, all its channels measured (R126). -/
def execRunDone (r : Nat) (s : State) : Host.Outcome State Fault Refusal := .next (run (runDone r) s)

/-- A step has not ended within CAL_STEP_TMO (R110, R126); number 3 + die is start-up calibration. -/
def execStepTmo (r : Nat) (s : State) : Host.Outcome State Fault Refusal :=
  .next (run (.ask fun s =>
    let tmo := s.live pgCal R.CAL_CAL_STEP_TMO
    if r = 3 ∨ r = 4 then .when (s.pastUs (Tab.get s.cal.startAt (0, 0) (r - 3)).2 tmo) (startTimeout (r - 3) 0x21 R.CAL_CNT_STEP_TMO)
    else match s.run? r with
      | some x => .when (s.pastUs x.stepAt tmo) (runTimeout r 0x21 R.CAL_CNT_STEP_TMO)
      | none => .nil) s)

/-- The measurement of a channel has not ended within CAL_RUN_TMO (R110, R126). -/
def execRunTmo (r : Nat) (s : State) : Host.Outcome State Fault Refusal :=
  .next (run (.ask fun s =>
    match s.run? r with
    | some x => .when (s.pastUs x.chanAt (s.live pgCal R.CAL_CAL_RUN_TMO)) (runTimeout r 0x22 R.CAL_CNT_RUN_TMO)
    | none => .nil) s)

/-- The start-up calibration of a die has not ended within 700 ms (R110, R126). -/
def execStartupCalTimeout (die : Nat) (s : State) : Host.Outcome State Fault Refusal :=
  .next (run (.ask fun s => .when (decide (die < 2) && s.pastUs (Tab.get s.cal.startAt (0, 0) die).1 700000)
    (startTimeout die 0x22 R.CAL_CNT_RUN_TMO)) s)

/-- The start-up calibration of a die completes with its measured values: deltas, LAST_RUN, the end of settling, START_DONE, and the end of
a reset of the die (R107, R115, R512). -/
def execStartDone (die : Nat) (vals : List (Nat × Int)) (s : State) : Host.Outcome State Fault Refusal :=
  .next (run (.ask fun s => .when (decide (die < 2) && (Tab.find s.cal.startup die).isSome) (.all [
    .cal fun c => { c with
      delta := Tab.merge c.delta
        (s.deltasOf 3 (fun k => wordDie (keyWord k) = die && (Tab.find c.ovr (keyWord k)).isNone) vals) },
    setLastRun die (Tab.get s.cal.startTemp 0 die),
    .setBit pgCal R.CAL_DUE die false, .setBit pgCal R.CAL_HARD die false,
    .setBit pgCal R.CAL_START_DONE die true,
    .when (bit (s.get pgTop R.TOP_FE_RST) die) (.all [.setBit pgTop R.TOP_FE_RST die false, raise pgTop 7]),
    startEnds die])) s)

/-- A bank's handover falls due (R111), with what was measured on the slice that has been out of service, and whether the input had slope
(R112).  It waits while the bank is held (R114); several that fall due in one hold are one handover after it, with what was measured last
(DESIGN CHOICE, log entry 50). -/
def execHandover (bank : Nat) (vals : List (Nat × Int)) (slope : Bool) (s : State) : Host.Outcome State Fault Refusal :=
  .next (run (.ask fun s =>
    let out := s.get (pgBank bank) R.BANK_OUT_SLICE
    let mine (k : Nat) : Bool :=
      (keyWord k < 2112 && decide (keyWord k / 4 = 66 * bank + out) && (slope || decide (keyWord k % 4 ≠ 1))) ||
        decide (keyWord k = bankWord bank)
    .when (decide (bank < 8) && s.scsRun) (
      match s.rotState bank with
      | 1 => handoverWith bank (s.deltasOf 0 mine vals) slope
      | 2 => .conv fun c => { c with
          rotDue := Tab.put c.rotDue bank true, rotMeas := Tab.put c.rotMeas bank (s.deltasOf 0 mine vals, slope) }
      | _ => .nil)) s)

/-- Whether the samples of a channel have reached the end of its held span (R117). -/
def State.holdOver (s : State) (c : Nat) : Bool :=
  match (s.chan c).hold with
  | some h => (match h.upto with | some e => decide (e ≤ s.top c) | none => false)
  | none => false

/-- The held span of a channel ends, at the first CCLK boundary at least 16 samples after its run has switched the channel back (R117,
R120). -/
def execHoldEnd (chan : Nat) (s : State) : Host.Outcome State Fault Refusal :=
  .next (run (.ask fun s => .when (decide (chan < 8) && s.holdOver chan) (holdEnd chan)) s)

/-- The run that the settling of a channel waits for: the FULL run of an enable, or the DELTA run of its die (R108, R460). -/
def State.ownRun (s : State) (c : Nat) : Option (Nat × CalRun) :=
  s.cal.runs.find? fun e => (e.1 = 8 + c || e.1 = 16 + dieOf c) && e.2.chans.contains c

/-- The settling of a bank ends (R84).  Where it waits for a run, the measurement of its channel ends with it, when the run has come to it, with
what was measured (R108, R460). -/
def execSettled (bank : Nat) (vals : List (Nat × Int)) (s : State) : Host.Outcome State Fault Refusal :=
  .next (run (.ask fun s =>
    let c := bankChan (s.mode (dieOf bank)) bank
    .when (decide (bank < 8) && s.settling bank && decide (Tab.get s.conv.settle 0 bank < 3)) (
      match s.ownRun c with
      | some e => .when (decide (e.2.chans.head? = some c)) (runStep e.1 vals true)
      | none => .all [endSettle bank, showRot])) s)

/-- A die link has not trained within 1 ms of its loss: the die is reset (R79). -/
def execDieLinkTimeout (die : Nat) (s : State) : Host.Outcome State Fault Refusal :=
  .next (run (.ask fun s => match Tab.find s.conv.lostAt die with
    | some q => .when (decide (q + msQ 1 ≤ s.now)) (.all [feReset die, openPending])
    | none => .nil) s)

end Sys2Proof.Machine
end

