-- ==== Sys2Proof/Machine/Clock.lean ====
section
/-! DEFINITION. Clock synthesis: the locks of the two loops, loss of reference and of lock, the gated interval, SYNC_IN, and CLK commits
(R280 to R290, R294, R295). -/

namespace Sys2Proof.Machine

/-! ### Gating (R285) -/

/-- FSB of every bank shows a rate in MHz, 0 while the SCS is not locked; FSB_CHANGE where it is another (Table 3-17). -/
def showFsb (v : Nat) : Prog :=
  .ask fun s => .each ((List.range 8).filter fun b => decide (s.get (pgBank b) R.BANK_FSB ≠ v)) fun b =>
    .all [.set (pgBank b) R.BANK_FSB v, raise (pgBank b) 5]

/-- The SCS outputs are gated: the channels stop, TDCs unlock and trigger definitions are suspended (R257, R285). -/
def scsGate : Prog :=
  .ask fun s => .when (s.get pgClk R.CLK_GATED = 0) (.all [
    .set pgClk R.CLK_GATED 1, raise pgClk 8, showFsb 0,
    .time fun t => { t with gatedAt := some s.now },
    .when s.time.tickOn (.all [.time fun t => { t with tickOn := false }, .out (.pin pinSyncOut (s.live pgClk R.CLK_SYNC_OUT_POL = 1))]),
    syncStops,
    .each (List.range 16) fun k => tdcLock k false,
    suspendDefs (which 16 fun d => decide (s.td d R.TCOMB_MODE ≠ 0))])

/-- The SCS starts a lock: SEARCH, with the outputs gated until RUN (R281, R288).  Dividers that a SYNC_IN edge has moved stay moved (R289). -/
def startLock : Prog :=
  .all [scsGate, .set pgClk R.CLK_STATE 1, .set pgClk R.CLK_SYNCED 0, .time fun t => { t with lockTry := 0, meas := [] }]

/-- The CPLL starts a lock: SEARCH (R281). -/
def cpllSearch : Prog := .ask fun s => .all [.set pgClk R.CLK_CPLL_STATE 1, .time fun t => { t with cpllAt := s.now }]

/-- The tie that a lock builds from the CCLK edge and the period the device has measured, at a CCLK count (R282).  Where the grid is restored,
that edge lies where the last tie predicts: exactly with XCLK as reference, else within 1 ps and what the reference departs by in the gap, and
the measured edge is taken as far as it lies there. -/
def State.lockTie (s : State) (cc qref per : Nat) : Tie :=
  let free : Tie := { qref := qref, cref := cc, per := per % 2 ^ 48 }
  match s.tie with
  | none => free
  | some t =>
    if s.time.moved || decide (s.time.lockCfg ≠ s.fsbSet) then free
    else
      let old := t.qref + (cc - t.cref) * t.per
      if s.live pgClk R.CLK_SCS_REF = 0 then { qref := old, cref := cc, per := t.per }
      else
        let gap := (s.now - s.time.gatedAt.getD s.now) * 2 ^ 16
        let off := (s.sclkOffset.natAbs * gap + 2 ^ 64) / 10 ^ 12
        { qref := min (max qref (old - off)) (old + off), cref := cc, per := per % 2 ^ 48 }

/-- The SCS enters RUN (R281, R282, R285, R289).  The CCLK count goes on as the last tie predicts, so that sample indices count through the
gate (R167).  The 1 MHz tick begins anew at a CCLK edge with a new rate, or where SYNC_IN has moved the dividers (R289; at a new rate a DESIGN CHOICE,
log entry 132). -/
def scsRuns (qref per : Nat) : Prog :=
  .ask fun s =>
    let same : Bool := decide (s.time.lockCfg = s.fsbSet)
    let cc := if s.tie.isSome then max s.time.cc (s.cclkAt s.now).toNat else s.time.cc
    let us := match s.time.gatedAt with | some q => (s.now - q) * 10 ^ 6 / 2 ^ 48 | none => 0
    .all [
      .set pgClk R.CLK_STATE 4, .set pgClk R.CLK_GATED 0, .set pgClk R.CLK_RELOCK 0, showFsb s.fsbSet, raise pgClk 1, raise pgClk 9, .add pgClk R.CLK_CNT_GATED_US us,
      .time fun t => { t with
        cc := cc, coarse := 0, lockTry := 0, gatedAt := none, moved := false, lockCfg := s.fsbSet, meas := [],
        tick0 := if s.time.moved || !same then 8 * cc else t.tick0 },
      setTie (s.lockTie cc qref per),
      syncStops,
      .when (s.time.moved || (!same && decide (s.time.lockCfg ≠ 0))) (.each (which 8 s.chanExists) emptyHist),
      .when (!same && decide (s.time.lockCfg ≠ 0)) (.all [
        .when (s.fstate = 2) (.seg fun g => { g with rateChg := List.range 8 }),
        .each (s.cal.runs.map (·.1)) abortRun, startCalAll]),
      .ask fun t => resumeDefs ((List.range 16).filter fun d =>
        !([0, 1].any fun die => Tab.get t.conv.dieRst false die && (t.defsOfDie die).contains d)),
      .ask fun t => openPendingAt (t.cclkQ t.time.cc)]

/-- The SCS is switched off, or on again without a grid to restore (R288, Table 10-1). -/
def scsOff : Prog := .all [scsGate, .set pgClk R.CLK_STATE 0, .time fun t => { t with lockCfg := 0 }]
def scsOn : Prog := .all [startLock, .time fun t => { t with lockCfg := 0 }]

/-! ### CLK commits (R54, R288, R294) -/

/-- A CLK commit: refused, or applied at once, with a lock where it changes what the loop follows, and from LOST_REF or during a lock (R286,
Tables 10-2 and 10-6). -/
def commitClk : Prog :=
  .ask fun s =>
    match (s.with [pgClk]).clkBad with
    | some o => .all [setPend pgClk false, capture pgClk 0x03 o]
    | none =>
      let lockCfg (t : State) : Nat × Nat × Nat :=
        (t.live pgClk R.CLK_SCS_REF, t.live pgClk R.CLK_N,
          if t.live pgClk R.CLK_SCS_REF = 1 then t.live pgClk R.CLK_REF_NOM else 0)
      .all [copyLive pgClk, setPend pgClk false,
        .ask fun t => .all [
          .when (decide (t.fsbSet ≠ s.fsbSet)) (.set pgPwr R.PWR_RETAIN_OK 0),
          .when (decide (t.live pgClk R.CLK_REF_NOM ≠ s.live pgClk R.CLK_REF_NOM))
            (.all [.set pgClk R.CLK_REF_OK 0, .time fun x => { x with refSince := none }, sourceGone 5]),
          .when (decide (t.live pgClk R.CLK_SYNC_OUT_POL ≠ s.live pgClk R.CLK_SYNC_OUT_POL))
            (.out (.pin pinSyncOut (t.live pgClk R.CLK_SYNC_OUT_POL = 1))),
          .when (decide (s.get pgClk R.CLK_STATE ≠ 0) && (decide (lockCfg t ≠ lockCfg s) || decide (s.get pgClk R.CLK_STATE ≠ 4))) startLock]]

/-- A write of RELOCK: a full lock from RUN, or from LOST_REF, and nothing elsewhere (R286, R288).  RELOCK reads 1 until the lock ends (R49). -/
def relock : Prog :=
  .ask fun s => .when (s.get pgClk R.CLK_STATE = 4 || s.get pgClk R.CLK_STATE = 5) (.all [.set pgClk R.CLK_RELOCK 1, startLock])

/-- A write of SYNC_ARM (R289). -/
def syncArm : Prog := .set pgClk R.CLK_SYNC_ARM 1

/-! ### SYNC_IN (R289, R290) -/

/-- An edge of SYNC_IN sampled at a REF_IN edge, which finds the dividers in phase or not. -/
def syncEdge (rising inPhase : Bool) : Prog :=
  .ask fun s =>
    let mode := s.live pgClk R.CLK_SYNC_MODE
    let active : Bool := rising != (s.live pgClk R.CLK_SYNC_POL = 1 : Bool)
    let may : Bool := decide (mode = 2) || (decide (mode = 1) && s.get pgClk R.CLK_SYNC_ARM = 1)
    .when (active && may && s.live pgClk R.CLK_SCS_REF = 1) (
      if s.scsRun && decide (s.fstate = 0) then .all [
        .set pgClk R.CLK_SYNC_ARM 0, .set pgClk R.CLK_SYNCED 1, incRaise pgClk R.CLK_CNT_SYNC_ACT 5,
        .when (s.live pgClk R.CLK_SYNC_OUT_MODE = 2) (.all [
          .out (.pin pinSyncOut (s.live pgClk R.CLK_SYNC_OUT_POL = 0)), .out (.pin pinSyncOut (s.live pgClk R.CLK_SYNC_OUT_POL = 1))]),
        .when (!inPhase) (.all [
          incRaise pgClk R.CLK_CNT_SYNC_MOVED 6, scsGate, .set pgClk R.CLK_STATE 3,
          .time fun t => { t with moved := true, coarse := 0, meas := [] }])]
      else .inc pgClk R.CLK_CNT_SYNC_IGNORED)

/-! ### Losses (R284, R286) -/

/-- REF_IN is lost, and with it the discipline source (R249): where the SCS follows it, the SCS is in LOST_REF with its outputs gated (R284, R285). -/
def lostRef : Prog :=
  .ask fun s => .all [
    .set pgClk R.CLK_REF_OK 0, .time fun t => { t with refSince := none }, sourceGone 5,
    .when (s.live pgClk R.CLK_SCS_REF = 1 && decide (s.get pgClk R.CLK_STATE ≠ 0) && decide (s.get pgClk R.CLK_STATE ≠ 5)) (.all [
      .set pgClk R.CLK_STATE 5, .set pgClk R.CLK_RELOCK 0, incRaise pgClk R.CLK_CNT_LOSS_REF 3, logFault 0x0C Kind.clk.ty 0, scsGate])]

/-! ### What XCLK drives (R281, R283) -/

/-- Of 16 XCLK periods, those for which a lock indication is high, by the state of its loop (R283). -/
def lockDensity (st : Nat) : Nat := match st with | 4 => 15 | 1 | 2 | 3 => 8 | _ => 1

/-- One XCLK period of the clock loops: LOCKF_S and LOCKF_C show the loops (R283; which of the 16 periods are high is a DESIGN CHOICE, log entry
132), and the CPLL's search, which no command ends, has ended after 12 µs (R281). -/
def clockTick : Prog :=
  .ask fun s =>
    let k := (s.time.lockf + 1) % 16
    let hs : Bool := decide (k < lockDensity (s.get pgClk R.CLK_STATE))
    let hc : Bool := decide (k < lockDensity (s.get pgClk R.CLK_CPLL_STATE))
    .all [
      .time fun t => { t with lockf := k, lockS := hs, lockC := hc },
      .when (hs != s.time.lockS) (.out (.pin pinLockfS hs)), .when (hc != s.time.lockC) (.out (.pin pinLockfC hc)),
      .when (s.get pgClk R.CLK_CPLL_STATE = 1 && decide (s.time.cpllAt + usQ 12 ≤ s.now)) (.set pgClk R.CLK_CPLL_STATE 2)]

/-! ### Meanings -/

/-- The band search ends with a band, after a time in 0.1 µs (R281). -/
def execScsSearchDone (band t : Nat) (s : State) : Host.Outcome State Fault Refusal :=
  .next (run (.ask fun s => .when (s.get pgClk R.CLK_STATE = 1) (.all [
    .set pgClk R.CLK_STATE 2, .set pgClk R.CLK_BAND band, .set pgClk R.CLK_SEARCH_T (min 0xFFFF t)])) s)

/-- The SCS has pulled in, after a time in 0.1 µs and with a filtered phase error in fs; SETTLE begins (R281). -/
def execScsLockingDone (t : Nat) (err : Int) (s : State) : Host.Outcome State Fault Refusal :=
  .next (run (.ask fun s => .when (s.get pgClk R.CLK_STATE = 2) (.all [
    .set pgClk R.CLK_STATE 3, .set pgClk R.CLK_LOCK_T (min 0xFFFF t), .set pgClk R.CLK_PHASE_ERR (unsgn 32 (clampS 32 err)),
    .time fun x => { x with coarse := 0 }])) s)

/-- LOCKING of a loop, 0 SCS or 1 CPLL, has not ended within 40 µs: back to SEARCH (R281). -/
def execLockingTimeout (loop : Nat) (s : State) : Host.Outcome State Fault Refusal :=
  .next (run (.ask fun s =>
    if loop = 0 then .when (s.get pgClk R.CLK_STATE = 2) (.all [
      .set pgClk R.CLK_STATE 1, .time fun t => { t with lockTry := t.lockTry + 1 }])
    else .when (s.get pgClk R.CLK_CPLL_STATE = 1 || s.get pgClk R.CLK_CPLL_STATE = 2) (.all [
      cpllSearch, .time fun t => { t with cpllTry := t.cpllTry + 1 }])) s)

/-- Three attempts of a loop have failed: captured, and the loop tries again (R281). -/
def execLockFail (loop : Nat) (s : State) : Host.Outcome State Fault Refusal :=
  .next (run (.ask fun s =>
    if loop = 0 then .when (decide (3 ≤ s.time.lockTry)) (.all [
      capture pgClk 0x20 (s.get pgClk R.CLK_BAND * 2 ^ 8), logFault 0x08 Kind.clk.ty (s.get pgClk R.CLK_BAND * 2 ^ 8),
      .time fun t => { t with lockTry := 0 }])
    else .when (decide (3 ≤ s.time.cpllTry)) (.all [
      capture pgClk 0x20 (1 + s.get pgClk R.CLK_CPLL_BAND * 2 ^ 8), logFault 0x08 Kind.clk.ty (1 + s.get pgClk R.CLK_CPLL_BAND * 2 ^ 8),
      .time fun t => { t with cpllTry := 0 }])) s)

/-- The SCS ends SETTLE and enters RUN, with the tie it has built: the Q-time of a CCLK edge in 2^-64 s and the CCLK period (R281, R282). -/
def execScsLocked (qref per : Nat) (s : State) : Host.Outcome State Fault Refusal :=
  .next (run (.ask fun s => .when (s.get pgClk R.CLK_STATE = 3) (scsRuns qref per)) s)

/-- The CPLL locks in a band (R281). -/
def execCpllLocked (band : Nat) (s : State) : Host.Outcome State Fault Refusal :=
  .next (run (.ask fun s => .when (s.get pgClk R.CLK_CPLL_STATE = 1 || s.get pgClk R.CLK_CPLL_STATE = 2) (.all [
    .set pgClk R.CLK_CPLL_STATE 4, .set pgClk R.CLK_CPLL_BAND band, .time fun t => { t with cpllTry := 0 }])) s)

/-- REF_IN is lost (R284, R285). -/
def execScsLostRef (s : State) : Host.Outcome State Fault Refusal := .next (run lostRef s)

/-- The SCS loses lock, gates its outputs, and starts SEARCH at once (R284 to R286). -/
def execScsLostLock (s : State) : Host.Outcome State Fault Refusal :=
  .next (run (.ask fun s => .when s.scsRun (.all [
    .set pgClk R.CLK_STATE 6, incRaise pgClk R.CLK_CNT_LOSS_LOCK 2, logFault 0x0C Kind.clk.ty 0, startLock])) s)

/-- REF_IN has stayed in band for 10 ms, with an offset in 10^-9 (R286). -/
def execRefReturn (offset : Int) (s : State) : Host.Outcome State Fault Refusal :=
  .next (run (.ask fun s => .when (decide (s.live pgClk R.CLK_REF_NOM ≠ 0) && decide (s.get pgClk R.CLK_REF_OK = 0)) (.all [
    .set pgClk R.CLK_REF_OK 1, .set pgClk R.CLK_REF_OFFSET (unsgn 32 (clampS 32 offset)), raise pgClk 4,
    .time fun t => { t with refSince := some (s.now - msQ 10) },
    .when (s.get pgClk R.CLK_STATE = 5 && s.live pgClk R.CLK_AUTO_RELOCK = 1) startLock])) s)

/-- An edge of SYNC_IN (R289). -/
def execSyncInEdge (rising inPhase : Bool) (s : State) : Host.Outcome State Fault Refusal := .next (run (syncEdge rising inPhase) s)

end Sys2Proof.Machine
end

