-- ==== Sys2Proof/Machine/Ptp.lean ====
section
/-! DEFINITION. The PTP ordinary clocks of the two Ethernet ports (R385).  IEEE 1588-2019 itself is outside the spec: the state its
algorithm reaches is an operand. -/

namespace Sys2Proof.Machine

/-- The sub-port (port * 4 + sub-port) a port's clock uses. -/
def State.ptpSub (s : State) (port : Nat) : Nat := 4 * port + s.get (pgEnet port) R.ENET_PTP_SUB

/-- PTP_STATE takes a value, with its event (R388); SLAVE_ONLY keeps the clock out of MASTER (R385), and one that leaves SLAVE is no longer qualified
(R249). -/
def ptpState (port v : Nat) : Prog :=
  .ask fun s =>
    let v := if v = 2 && s.get (pgEnet port) R.ENET_SLAVE_ONLY = 1 then s.get (pgEnet port) R.ENET_PTP_STATE else v
    .when (decide (v ≠ s.get (pgEnet port) R.ENET_PTP_STATE)) (.all [
      .set (pgEnet port) R.ENET_PTP_STATE v, raise (pgEnet port) 3, modPtp port fun p => { p with syncs := 0 },
      .when (s.get (pgEnet port) R.ENET_PTP_STATE = 5) (sourceGone (2 + port))])

/-- The clock starts again: a change of PTP_EN, PTP_SUB, TRANSPORT or DOMAIN. -/
def ptpRestart (port : Nat) : Prog :=
  .ask fun s => .all [modPtp port fun _ => Ptp.reset,
    ptpState port (if s.get (pgEnet port) R.ENET_PTP_EN = 1 then 0 else 7)]

/-- The offset from the master of a complete exchange, in 2^-48 s, corrected by PTP_ASYM (R385). -/
def State.ptpOffset (s : State) (port : Nat) (t1 t2 t3 t4 : Nat) : Int :=
  divAway (((t2 : Int) - t1) - ((t4 : Int) - t3)) 2 - divAway (sgn 32 (s.get (pgEnet port) R.ENET_PTP_ASYM) * 2 ^ 48) (10 ^ 12)

/-- Source address of a clock's frames under Annex C; Annex E has none (Table 13-8). -/
def State.ptpPath (s : State) (port : Nat) : List Byte :=
  if s.get (pgEnet port) R.ENET_TRANSPORT = 0 then leBytes 4 (s.get (pgEnet port) R.ENET_PTP_IPV4) else []

/-- A PTP message for the clock arrives (R385); while no clock runs it is discarded (R367).  Kinds: 0 Sync, stamped on arrival; 1 Follow_Up, carrying t1, after which the clock sends a
Delay_Req that leaves at the stamp; 2 Delay_Resp, carrying t4; 3 Announce, carrying the TAI-UTC offset; 4 Delay_Req, which a master
answers with its arrival stamp.  A Sync with its Follow_Up is a Sync exchange of R249, and a Sync that has none breaks the count (DEDUCED, log
entry 134). -/
def ptpMessage (port kind stamp origin : Nat) (utc : Int) (st : Nat) : Prog :=
  .ask fun s =>
    let e := pgEnet port
    let x := s.ptpSub port
    let slave : Bool := s.get e R.ENET_PTP_STATE = 4 || s.get e R.ENET_PTP_STATE = 5
    .when (decide (port < 2) && s.subUp x) (if s.get e R.ENET_PTP_EN = 0 then rxFrame x false else .all [
      rxFrame x true,
      (match kind with
       | 0 => modPtp port fun p => {
           p with t1 := none, t2 := some stamp, t3 := none, t4 := none, syncs := if p.t2.isSome && p.t1.isNone then 0 else p.syncs }
       | 1 => .when slave (.all [modPtp port fun p => { p with
             t1 := some origin, t3 := some stamp,
             syncs := if s.get e R.ENET_PTP_STATE = 5 && p.t2.isSome && p.t1.isNone then p.syncs + 1 else p.syncs },
           sendFrame x 4 (s.get e R.ENET_PCP_PTP) (s.ptpPath port) (leBytes 1 1 ++ leBytes 1 (s.get e R.ENET_DOMAIN))])
       | 2 => .when slave (match (s.ptp port).t1, (s.ptp port).t2, (s.ptp port).t3 with
           | some t1, some t2, some t3 => .all [modPtp port fun p => { p with t4 := some origin },
               .set e R.ENET_PTP_OFFSET (unsgn 32 (clampS 32 (divAway (s.ptpOffset port t1 t2 t3 origin * 10 ^ 12) (2 ^ 48))))]
           | _, _, _ => .nil)
       | 3 => .when (s.get pgTime R.TIME_SEL = 2 + port) (.set pgTime R.TIME_UTC_OFFSET (unsgn 16 utc))
       | 4 => .when (s.get e R.ENET_PTP_STATE = 2)
           (sendFrame x 4 (s.get e R.ENET_PCP_PTP) (s.ptpPath port) (leBytes 1 9 ++ leBytes 1 (s.get e R.ENET_DOMAIN) ++ qBytes stamp))
       | _ => .nil),
      ptpState port (st % 8)])

/-- The Sync interval of a master, 2^LOG_SYNC s (R385). -/
def State.syncPeriod (s : State) (port : Nat) : Nat :=
  let k := sgn 8 (s.get (pgEnet port) R.ENET_LOG_SYNC)
  if 0 ≤ k then 2 ^ (48 + k.toNat) else 2 ^ (48 - k.natAbs)

/-- As master, the clock sends Sync and its Follow_Up at 2^LOG_SYNC s, which carry Q-time and UTC_OFFSET (R385); a pause of their priority holds them
back (R366). -/
def ptpSync (port stamp : Nat) : Prog :=
  .ask fun s =>
    let e := pgEnet port
    let x := s.ptpSub port
    let due : Bool := match (s.ptp port).syncDue with | some q => decide (q ≤ s.now) | none => true
    .when (decide (port < 2) && s.get e R.ENET_PTP_EN = 1 && s.subUp x && s.get e R.ENET_PTP_STATE = 2 && due &&
        !s.isPaused x (s.get e R.ENET_PCP_PTP)) (.all [
      modPtp port fun p => { p with syncDue := some (s.now + s.syncPeriod port) },
      sendFrame x 4 (s.get e R.ENET_PCP_PTP) (s.ptpPath port) (leBytes 1 0 ++ leBytes 1 (s.get e R.ENET_DOMAIN)),
      sendFrame x 4 (s.get e R.ENET_PCP_PTP) (s.ptpPath port)
        (leBytes 1 8 ++ leBytes 1 (s.get e R.ENET_DOMAIN) ++ qBytes stamp ++ leBytes 2 (s.get pgTime R.TIME_UTC_OFFSET))])

/-! ### Meanings -/

/-- A PTP message for a port's clock, with its stamp, the Q-time it carries, the TAI-UTC offset of an Announce, and the state the clock
reaches (R385). -/
def execPtpMessage (port kind stamp origin : Nat) (utc : Int) (st : Nat) (s : State) : Host.Outcome State Fault Refusal :=
  .next (run (ptpMessage port kind stamp origin utc st) s)

/-- A Sync is due; it leaves at a stamp (R385). -/
def execPtpSyncSend (port stamp : Nat) (s : State) : Host.Outcome State Fault Refusal := .next (run (ptpSync port stamp) s)

end Sys2Proof.Machine
end

