-- ==== Sys2Proof/Machine/Link.lean ====
section
/-! DEFINITION. The Filmund link: training, topology, time transfer, trigger and gate messages, remote responses and the loss of a port
(R296 to R334, R542). -/

namespace Sys2Proof.Machine

/-! ### Ports -/

/-- This device's identifier. -/
def State.devId (s : State) : Nat := s.get pgFlink R.FLINK_DEV_ID

/-- Whether a port faces upstream (R303). -/
def State.facesUp (s : State) (n : Nat) : Bool := s.get pgFlink R.FLINK_UP_PORT = n

/-- A control block leaves a port (Table 11-2). -/
def sendBlock (n ty content : Nat) : Prog := .out (.link n ty (leBytes 7 content))

/-- A message this device originates. -/
def ownMsg (s : State) (ty line route dst tag : Nat) (data : List Nat) : Msg :=
  { ty := ty, line := line, route := route, src := s.devId, dst := dst, hops := 0, tag := tag, data := data }

/-! ### Topology (R303, R305, R306) -/

/-- TOPO ROOT leaves a downstream port (R305). -/
def sendRoot (n : Nat) : Prog :=
  .ask fun s => sendLink n (ownMsg s 0xB 2 0 0 0 [s.get pgFlink R.FLINK_ROOT_ID + s.get pgFlink R.FLINK_DEPTH * 2 ^ 16])

/-- The root identifier and depth take values, and go to the children where they change (R305). -/
def setRoot (id depth : Nat) : Prog :=
  .ask fun s => .when (decide (id ≠ s.get pgFlink R.FLINK_ROOT_ID) || decide (depth ≠ s.get pgFlink R.FLINK_DEPTH)) (.all [
    .set pgFlink R.FLINK_ROOT_ID id, .set pgFlink R.FLINK_DEPTH depth,
    .each (which 4 fun p => !(s.facesUp p) && s.portCarries p 0xB) sendRoot])

/-- IS_ROOT, the root identifier and the depth follow the upstream port: a device is a root, at depth 0, exactly while it has no trained parent,
and else takes what the parent's last TOPO ROOT gives (R303, R305, R306). -/
def showRoot : Prog :=
  .ask fun s =>
    let v : Bool := !s.parentTrained
    .all [
      .when (decide (b2n v ≠ s.get pgFlink R.FLINK_IS_ROOT)) (.all [.set pgFlink R.FLINK_IS_ROOT (b2n v), raise pgFlink 1]),
      if v then setRoot s.devId 0
      else match s.link.up with
        | some r => setRoot r.1 r.2
        | none => .nil]

/-- The upstream port, where it carries TOPO messages: from IDENTIFY on (Table 11-3, R305). -/
def State.topoUp (s : State) : Option Nat :=
  let u := s.get pgFlink R.FLINK_UP_PORT
  if u < 4 && s.portCarries u 0xB then some u else none

/-- An ANNOUNCE names its identifier as the device it comes from (R305, Table 11-7). -/
def announceMsg (s : State) (id hops : Nat) : Msg := { ownMsg s 0xB 0 2 0 0 [0] with src := id, hops := hops }

/-- An ANNOUNCE of an identifier goes up (R305). -/
def announceUp (id : Nat) : Prog :=
  .ask fun s => match s.topoUp with
    | some p => sendLink p (announceMsg s id 0)
    | none => .nil

/-- A WITHDRAW of an identifier goes up (R305). -/
def withdrawUp (id : Nat) : Prog :=
  .ask fun s => match s.topoUp with
    | some p => sendLink p (ownMsg s 0xB 1 2 0 0 [id])
    | none => .nil

/-- What a port sends on reaching IDENTIFY (R305, R321). -/
def identify (n : Nat) : Prog :=
  .ask fun s => .all [
    if s.facesUp n then
      .each (s.devId :: s.link.ids.map (·.1)) fun id => sendLink n (announceMsg s id 0)
    else .all [sendRoot n,
      .when (s.portPermits n 4) (.each (List.range 4) fun g =>
        sendLink n (anchorMsg s 4 (g + 4 * b2n (Tab.get s.link.lineLvl false g)) s.nowQ))]]

/-! ### Losing a port (R327, R328) -/

/-- Remote requests that left by a port complete with LINK_DOWN (R325). -/
def dropRequests (n : Nat) : Prog :=
  .ask fun s => .all [
    .each (s.link.reqs.filter fun r => r.port = n) fun r => finishCmd (r.cmd / 8) (r.cmd % 8) stLinkDown 0,
    .link fun l => { l with reqs := l.reqs.filter fun r => r.port ≠ n },
    .ask fun t => .set pgFlink R.FLINK_REMOTE_OUT t.link.reqs.length]

/-- A DEV_ID that waited for REMOTE_OUT to reach 0 takes effect and is announced (Table 11-10). -/
def devIdReady : Prog :=
  .ask fun s => match s.link.devIdWait with
    | some v => .when s.link.reqs.isEmpty (.all [
        .link fun l => { l with devIdWait := none }, .set pgFlink R.FLINK_DEV_ID v, announceUp v, showRoot])
    | none => .nil

/-- A port leaves ACTIVE or keep-alive for good: its identifiers are withdrawn, its requests complete, PARENT is lost on the upstream
port (Table 11-9). -/
def portGone (n : Nat) : Prog :=
  .ask fun s =>
    let gone := (s.link.ids.filter fun e => e.2 = n).map (·.1)
    .all [
      modPort n fun p => { p with fromKa := false, t1 := none, exch := 0 },
      .link fun l => { l with ids := l.ids.filter fun e => e.2 ≠ n },
      .when (!(s.facesUp n)) (.each gone withdrawUp),
      dropRequests n, devIdReady,
      .when (s.facesUp n) (sourceGone 1), showRoot]

/-- A port takes a state, with the event of entering ACTIVE (R334), and keeps of what it has to send what the state carries. -/
def setPort (n v : Nat) : Prog :=
  .ask fun s =>
    let old := s.portState n
    .all [
      .set (pgFport n) R.FPORT_STATE v, txState n v, modPort n fun p => { p with askAt := none },
      .when (decide (old ≠ 6) && v = 6) (raise (pgFport n) 1)]

/-- What the parent's TOPO ROOT gave no longer holds, where the port is the upstream one. -/
def forgetRoot (n : Nat) : Prog := .ask fun s => .when (s.facesUp n) (.link fun l => { l with up := none })

/-- Whether a port is in, or on its way back to, traffic. -/
def State.portUp (s : State) (n : Nat) : Bool := s.portState n = 6 || s.portState n = 7 || (s.port n).fromKa

/-- A port returns to DETECT and counts it (R299, R327). -/
def toDetect (n : Nat) : Prog :=
  .ask fun s =>
    let up := s.portUp n
    .all [
      setPort n 1, .set (pgFport n) R.FPORT_VER 0, .inc (pgFport n) R.FPORT_CNT_RETRAIN,
      modPort n fun p => { p with advSame := 0, adv := 0, fast := false, fromKa := false, exch := 0, delays := [] },
      forgetRoot n, .when up (.all [raise (pgFport n) 2, portGone n])]

/-- A port goes DOWN: disabled, or in DORMANT without keep-alive (Table 11-3, R322). -/
def portDown (n : Nat) (event : Bool) : Prog :=
  .ask fun s =>
    let up := s.portUp n
    .all [setPort n 0, .set (pgFport n) R.FPORT_VER 0,
      modPort n fun p => { p with advSame := 0, adv := 0, fast := false, fromKa := false, fails := 0 },
      forgetRoot n, .when up (.all [.when event (raise (pgFport n) 2), portGone n])]

/-- A port is lost, by its signal or by a RETRAIN (R327). -/
def portLost (n : Nat) : Prog := .ask fun s => .when (decide (2 ≤ s.portState n) && decide (s.portState n ≤ 7)) (toDetect n)

/-! ### Training (R299 to R301) -/

/-- The ADVERT this port sends (Table 11-4). -/
def State.advert (s : State) (n : Nat) : Nat :=
  s.get pgFlink R.FLINK_VER_MIN + s.get pgFlink R.FLINK_VER_MAX * 2 ^ 4 + s.get pgFlink R.FLINK_FEAT_EN * 2 ^ 8 + s.devId * 2 ^ 24 +
    b2n (!(s.facesUp n)) * 2 ^ 38 + n * 2 ^ 39 + b2n (decide (3 ≤ (s.port n).advSame)) * 2 ^ 41

/-- Lanes are locked and deskewed (Table 11-3): on to NEGOTIATE, or to IDENTIFY where the version is known. -/
def trainDone (n : Nat) : Prog :=
  .ask fun s =>
    if (s.port n).fast || (s.port n).fromKa then .all [setPort n 4, identify n]
    else .all [setPort n 3, modPort n fun p => { p with advSame := 0, adv := 0 }, .ask fun t => sendBlock n 0x2D (t.advert n)]

/-- A version is agreed with the peer whose ADVERT is given, or none is (R301, R303). -/
def negotiated (n adv : Nat) : Prog :=
  .ask fun s =>
    let v := min (s.get pgFlink R.FLINK_VER_MAX) (bits adv 7 4)
    let v := if s.get (pgFport n) R.FPORT_FALLBACK = 1 then min v 1 else v
    if v < s.get pgFlink R.FLINK_VER_MIN || v < bits adv 3 0 || v = 0 then
      .all [setPort n 8, capture (pgFport n) 0x21 (bits adv 7 0), raise (pgFport n) 3]
    else if bits adv 38 38 = s.get (pgFport n) R.FPORT_ROLE then .all [setPort n 9, capture (pgFport n) 0x22 0]
    else .all [
      .set (pgFport n) R.FPORT_VER v, .when (v = 1) (raise (pgFport n) 3),
      if v = 2 then .all [sendBlock n 0x78 2, modPort n fun p => { p with fast := true }, setPort n 2]
      else .all [setPort n 4, identify n]]

/-- An ADVERT arrives in NEGOTIATE (R300): it counts towards three identical ones, ACK apart, and is answered. -/
def advertIn (n adv : Nat) : Prog :=
  .ask fun s => .when (s.portState n = 3) (
    let core := putBits adv 41 41 0
    let same := if (s.port n).advSame ≠ 0 && (s.port n).adv = core then (s.port n).advSame + 1 else 1
    .all [
      modPort n fun p => { p with advSame := same, adv := core },
      .set (pgFport n) R.FPORT_PEER_ID (bits adv 37 24), .set (pgFport n) R.FPORT_PEER_MIN (bits adv 3 0),
      .set (pgFport n) R.FPORT_PEER_MAX (bits adv 7 4), .set (pgFport n) R.FPORT_PEER_FEAT (bits adv 23 8),
      .set (pgFport n) R.FPORT_PEER_PORT (bits adv 40 39),
      .ask fun t => sendBlock n 0x2D (t.advert n),
      .when (decide (3 ≤ same) && bit adv 41) (negotiated n adv)])

/-- A RATE block arrives (R298, R322): in NEGOTIATE the peer has left it with version 2 agreed, and this port does so too (Table 11-3); in
keep-alive it starts the return to ACTIVE. -/
def rateIn (n ver : Nat) : Prog :=
  .ask fun s =>
    if s.portState n = 3 && decide (3 ≤ (s.port n).advSame) && ver = 2 then negotiated n (s.port n).adv
    else .when (s.portState n = 7) (.all [modPort n fun p => { p with fast := decide (ver = 2), fromKa := true }, setPort n 2])

/-- A state has not completed within its limit (R299, R301).  From the third failure in a row on the port waits in DOWN for each retry. -/
def stateTimeout (n : Nat) : Prog :=
  .ask fun s =>
    let st := s.portState n
    .when (decide (2 ≤ st) && decide (st ≤ 5)) (
      let p := s.port n
      let fails := p.fails + 1
      let fast := if p.fast && st = 2 then p.fastFails + 1 else 0
      let both1 : Bool := s.get pgFlink R.FLINK_VER_MIN = 1 && s.get (pgFport n) R.FPORT_PEER_MIN = 1
      .all [
        toDetect n,
        modPort n fun p => { p with fails := min fails 4, fastFails := if 3 ≤ fast then 0 else fast },
        .when (decide (3 ≤ fast) && both1 && s.get (pgFport n) R.FPORT_FALLBACK = 0)
          (.all [.set (pgFport n) R.FPORT_FALLBACK 1, raise (pgFport n) 3]),
        .when (fails = 3) (capture (pgFport n) 0x20 st), .when (decide (3 ≤ fails)) (setPort n 0)])

/-- A port retries (R299, Table 11-3). -/
def portRetry (n : Nat) : Prog :=
  .ask fun s =>
    let st := s.portState n
    .when (decide (n < 4) && s.en (pgFport n) && decide (s.pstate ≠ 0) && (st = 0 || st = 8 || st = 9 || st = 10)) (setPort n 1)

/-- RETRAIN is written (R301, R327). -/
def retrain (n : Nat) : Prog :=
  .ask fun s => .all [.set (pgFport n) R.FPORT_FALLBACK 0, .set (pgFport n) R.FPORT_RETRAIN 0,
    if s.portState n = 0 || 8 ≤ s.portState n then portRetry n else portLost n]

/-- BLK_CTRL.EN of a port page is written. -/
def portEnWritten (n : Nat) (v : Bool) : Prog := if v then portRetry n else portDown n true

/-- A port enters ACTIVE. -/
def portActive (n : Nat) : Prog :=
  .all [setPort n 6, modPort n fun p => { p with fails := 0, fastFails := 0, fromKa := false }, showRoot]

/-! ### Identifiers (R303 to R305) -/

/-- A write of DEV_ID (Table 11-10). -/
def devIdWritten (v : Nat) : Prog := .all [.link fun l => { l with devIdWait := some v }, devIdReady]

/-- UP_PORT has been written: where it changes FALLBACK clears, roles follow, and each port whose role changes retrains (R301, R303). -/
def upPortWritten (old new : Nat) : Prog :=
  .when (decide (old ≠ new)) (.all [
    .link fun l => { l with up := none },
    .each (List.range 4) fun n => .all [.set (pgFport n) R.FPORT_FALLBACK 0, .set (pgFport n) R.FPORT_ROLE (b2n (decide (n ≠ new)))],
    .each (which 4 fun n => decide ((n = old) ≠ (n = new))) portLost, showRoot])

/-- A write of RQ_ID looks up the port recorded (Table 11-12). -/
def rqLookup : Prog :=
  .ask fun s => .set pgFlink R.FLINK_RQ_PORT ((Tab.find s.link.ids (s.get pgFlink R.FLINK_RQ_ID)).getD 7)

/-! ### Receiving (R307, R313) -/

/-- A message arrives on a port: it is discarded where its CRC fails, or the port does not carry its type (R313). -/
def rxMsg (n ty : Nat) (crc : Bool) (p : Prog) : Prog :=
  .ask fun s => .when (decide (n < 4)) (
    if !crc then .all [.inc (pgFport n) R.FPORT_CNT_CRC, .inc (pgFport n) R.FPORT_CNT_RX_DROP]
    else if !(s.portCarries n ty) then .inc (pgFport n) R.FPORT_CNT_RX_DROP
    else p)

/-- A message that is discarded was already being forwarded by cut-through: each copy ends with ABORT after the data blocks given, in place of
its last one at the latest (R307). -/
def abortCopies (ports : List Nat) (m : Msg) (blocks : Nat) : Prog :=
  .each ports fun p => sendLink p { m with hops := m.hops + 1, cut := some (min blocks (m.data.length - 1)) }

/-- A message arrives that goes on by the ports given, on none of them with HOPS at 63 (R307, R313). -/
def rxForward (n ty hops : Nat) (crc : Bool) (m : Msg) (ports : State → List Nat) (p : Prog) : Prog :=
  .all [rxMsg n ty crc p,
    .ask fun s => .when (decide (n < 4) && s.portCarries n ty && !crc && decide (hops < 63)) (abortCopies (ports s) m m.data.length)]

/-- The port by which a unicast for another device goes on. -/
def State.unicastPorts (s : State) (dst : Nat) : List Nat := if dst = s.devId then [] else (s.routeTo dst).toList

/-- An RRESP leaves (Table 11-7, R325). -/
def sendResponse (dst tag status data : Nat) : Prog :=
  .ask fun s => match s.routeTo dst with
    | some p => sendLink p (ownMsg s 9 0 0 dst tag [status + data * 2 ^ 32, 0])
    | none => incRaise pgFlink R.FLINK_CNT_NO_ROUTE 6

/-- A unicast that is not for this device goes on, or is unroutable (R305, R313, R325). -/
def forwardUnicast (n : Nat) (m : Msg) : Prog :=
  .ask fun s =>
    if 63 ≤ m.hops then .inc (pgFport n) R.FPORT_CNT_RX_DROP
    else match s.routeTo m.dst with
    | some p => sendLink p { m with hops := m.hops + 1 }
    | none => .all [incRaise pgFlink R.FLINK_CNT_NO_ROUTE 6, .when (m.ty = 8) (sendResponse m.src m.tag 2 0)]

/-! ### Trigger messages (R318, R319, R542) -/

/-- A trigger message is forwarded, with HOPS advanced; at 63 it is not (R313, R318). -/
def forwardTrig (n : Nat) (m : Msg) : Prog :=
  if 63 ≤ m.hops then .inc (pgFport n) R.FPORT_CNT_RX_DROP else floodTrig { m with hops := m.hops + 1 } (some n)

/-- The ports a flooded trigger message leaves by. -/
def State.trigPorts (s : State) (m : Msg) (but : Nat) : List Nat :=
  which 4 fun p => decide (p ≠ but) && s.portState p = 6 && bit (s.get (pgFport p) R.FPORT_FWD_MASK) m.line && s.portPermits p m.ty

/-- A trigger message arrives: forwarded, and where its CRC holds delivered by the program given. -/
def trigIn (n ty line src hops anchor : Nat) (crc : Bool) (local_ : Prog) : Prog :=
  .ask fun s =>
    let m : Msg := { anchorMsg s ty (line % 16) anchor with src := src, hops := hops }
    rxForward n ty hops crc m (fun t => t.trigPorts m n) (.all [forwardTrig n m, local_])

/-- A TRIG_PROV is delivered, unless it is a duplicate or past its deadline (R319, R542). -/
def provIn (n line src anchor : Nat) : Prog :=
  .ask fun s =>
    if s.deadline anchor < s.now || s.provSeen src line anchor then .inc (pgFport n) R.FPORT_CNT_RX_DROP
    else if s.flOn line anchor then remoteProv src line anchor else rememberProv src line anchor

/-! ### Gate lines (R321) -/

/-- The GATEg signal: the line's level while GATE_SRC takes it from the line, else the ball's. -/
def State.gateSig (s : State) (g : Nat) : Bool :=
  if bit (s.get pgFlink R.FLINK_GATE_SRC) g then Tab.get s.link.lineLvl false g else Tab.get s.link.ball false g

/-- A line takes a level: GATEg follows where it comes from the line, and a level equal to the present one changes nothing. -/
def lineApply (g : Nat) (v : Bool) : Prog :=
  .ask fun s => .all [
    .link fun l => { l with lineLvl := Tab.put l.lineLvl g v },
    .when (bit (s.get pgFlink R.FLINK_GATE_SRC) g && decide (Tab.get s.link.lineLvl false g ≠ v)) (gateLevel g v)]

/-- A level received for a line takes effect at the CCLK boundary at or after anchor + GATE_LAT, or at once where that is past. -/
def gateMsg (g : Nat) (v : Bool) (anchor : Nat) : Prog :=
  .ask fun s =>
    let q := anchor + nsQ (s.get pgFlink R.FLINK_GATE_LAT)
    if !(bit (s.get pgFlink R.FLINK_GATE_SRC) g) then lineApply g v
    else if q < s.nowQ then .all [incRaise pgFlink R.FLINK_CNT_GATE_LATE 5, lineApply g v]
    else .link fun l => { l with gateWait := l.gateWait ++ [(g, v, q)] }

/-- The ACTIVE ports whose GATE_FWD includes a message's line, but one (R321). -/
def State.gatePorts (s : State) (m : Msg) (but : Option Nat) : List Nat :=
  which 4 fun p => decide (some p ≠ but) && s.portState p = 6 && bit (s.get (pgFport p) R.FPORT_GATE_FWD) (m.line % 4) && s.portPermits p 4

/-- A GATE message leaves by them. -/
def floodGate (m : Msg) (but : Option Nat) : Prog := .ask fun s => .each (s.gatePorts m but) fun p => sendLink p m

/-- The levels that have come due take effect, oldest first. -/
def gateDue : Prog :=
  .ask fun s =>
    let due := s.link.gateWait.filter fun e => decide (e.2.2 ≤ s.nowQ)
    .all [.link fun l => { l with gateWait := l.gateWait.filter fun e => decide (s.nowQ < e.2.2) },
      .each due fun e => lineApply e.1 e.2.1]

/-- GATE_SRC has been written: the signals that change their source take its level. -/
def gateSrcWritten (old : State) : Prog :=
  .ask fun s => .each (which 4 fun g => s.gateSig g != old.gateSig g) fun g => gateLevel g (s.gateSig g)

/-! ### Time transfer (R314 to R316) -/

/-- A short stamp (R310). -/
def shortStamp (q : Nat) : Nat := q % 2 ^ 48 + ((q / 2 ^ 48) % 2 ^ 16) * 2 ^ 48

/-- A TIME_REQ is answered with the stamps of its arrival and of the answer's departure (R314, R316). -/
def timeReq (n t2 t3 : Nat) : Prog :=
  .ask fun s => .when (!(s.facesUp n)) (sendLink n (ownMsg s 7 0 0 0 0 [
    shortStamp t2, shortStamp t3,
    (t3 / 2 ^ 64) % 2 ^ 32 + s.get pgTime R.TIME_UTC_OFFSET * 2 ^ 32 + s.get pgTime R.TIME_STATE * 2 ^ 48 +
      s.get pgTime R.TIME_TAI_VALID * 2 ^ 50,
    s.get pgFlink R.FLINK_ROOT_ID + s.get pgFlink R.FLINK_DEPTH * 2 ^ 16]))

/-- The mean of some delays, rounded half away from zero. -/
def meanDelay (l : List Int) : Int := if l.isEmpty then 0 else divAway (l.foldl (· + ·) 0) l.length

/-- A TIME_RESP completes an exchange (R315, R316). -/
def timeResp (n t2 t3 t4 utc st : Nat) (tai : Bool) : Prog :=
  .ask fun s =>
    match (s.port n).t1 with
    | none => .nil
    | some t1 => .when (s.facesUp n) (
        let delay := divAway (((t4 : Int) - t1) - ((t3 : Int) - t2)) 2
        let theta := divAway (((t2 : Int) - t1) - ((t4 : Int) - t3) - sgn 32 (s.get (pgFport n) R.FPORT_ASYM)) 2
        let far : Bool := !((s.port n).delays.isEmpty) &&
          decide (50 * 2 ^ 48 * (s.port n).delays.length <
            (delay * (s.port n).delays.length - (s.port n).delays.foldl (· + ·) 0).natAbs * 10 ^ 12)
        let delays := (delay :: (s.port n).delays).take 256
        .all [
          modPort n fun p => { p with t1 := none, exch := p.exch + 1 },
          .link fun l => { l with parent := (st, tai, utc, t3 / 2 ^ 48) },
          .when (s.get pgTime R.TIME_SEL = 1) (.set pgTime R.TIME_UTC_OFFSET utc),
          if far then .inc (pgFport n) R.FPORT_CNT_TIME_REJ
          else .all [
            modPort n fun p => { p with delays := delays },
            .set (pgFport n) R.FPORT_DELAY (unsgn 32 (clampS 32 (divAway (meanDelay delays * 10 ^ 12) (2 ^ 48)))),
            .set (pgFport n) R.FPORT_THETA (unsgn 32 (clampS 32 theta)), .inc (pgFport n) R.FPORT_CNT_TIME_EXCH,
            .time fun t => { t with theta := theta, err := if s.get pgTime R.TIME_SEL = 1 then theta else t.err }],
          parentCheck])

/-- The exchange period of a port in 2^-48 s: TT_PERIOD in ACTIVE, 4 µs in CALIBRATE and 10 ms in KEEPALIVE (R314). -/
def State.askPeriod (s : State) (n : Nat) : Nat :=
  match s.portState n with
  | 5 => usQ 4
  | 7 => msQ 10
  | _ => usQ (s.get (pgFport n) R.FPORT_TT_PERIOD)

/-- A TIME_REQ leaves the upstream port, once in each period of its state (R314). -/
def timeAsk (t1 : Nat) : Prog :=
  .ask fun s =>
    let u := s.get pgFlink R.FLINK_UP_PORT
    let due : Bool := match (s.port u).askAt with | some q => decide (q + s.askPeriod u ≤ s.now) | none => true
    .when (decide (u < 4) && s.portCarries u 6 && due) (.all [
      modPort u fun p => { p with t1 := some t1, askAt := some s.now }, sendLink u (ownMsg s 6 0 0 0 0 [0])])

/-! ### Topology messages (R305, R306) -/

/-- An ANNOUNCE arrives: discarded where it must go on and cannot (R313), a duplicate, or recorded and passed up (R305). -/
def announceIn (n src hops : Nat) : Prog :=
  .ask fun s =>
    let dup : Bool := src = s.devId || (match Tab.find s.link.ids src with | some p => decide (p ≠ n) | none => false)
    if s.topoUp.isSome && decide (63 ≤ hops) then .inc (pgFport n) R.FPORT_CNT_RX_DROP
    else if dup then .all [capture pgFlink 0x20 (src + n * 2 ^ 16), raise pgFlink 2]
    else .all [
      .link fun l => { l with ids := Tab.put l.ids src n },
      (match s.topoUp with
       | some p => sendLink p (announceMsg s src (hops + 1))
       | none => .nil)]

/-- A WITHDRAW arrives (R305, R313). -/
def withdrawIn (n src id hops : Nat) : Prog :=
  .ask fun s =>
    if s.topoUp.isSome && decide (63 ≤ hops) then .inc (pgFport n) R.FPORT_CNT_RX_DROP
    else .all [
      .when (Tab.find s.link.ids id = some n) (.link fun l => { l with ids := Tab.del l.ids id }),
      (match s.topoUp with
       | some p => sendLink p { ownMsg s 0xB 1 2 0 0 [id] with src := src, hops := hops + 1 }
       | none => .nil)]

/-- A TOPO ROOT arrives on the upstream port (R305, R306): what it gives is taken as soon as the parent is trained (R303). -/
def rootIn (n root depth : Nat) : Prog :=
  .ask fun s => .when (s.facesUp n) (
    if 63 < depth + 1 then .all [
      .link fun l => { l with up := none }, setPort n 10, capture (pgFport n) 0x23 (depth + 1),
      .when (s.portUp n) (.all [raise (pgFport n) 2, portGone n])]
    else .all [.link fun l => { l with up := some (root, depth + 1) }, showRoot])

/-! ### Events and responses (R325, R326) -/

/-- An event of another device is for this one (R326). -/
def eventIn (src num : Nat) : Prog :=
  .ask fun s =>
    if 64 ≤ s.link.evFifo.length then incRaise pgFlink R.FLINK_CNT_EVT_LOST 4
    else .all [.link fun l => { l with evFifo := l.evFifo ++ [(src, num)] }, raise pgFlink 3]

/-- The outstanding request with a tag is over. -/
def reqOver (tag status result : Nat) : Prog :=
  .ask fun s => match s.link.reqs.find? fun r => r.tag = tag with
    | some r => .all [
        .link fun l => { l with reqs := l.reqs.filter fun x => x.tag ≠ tag },
        .ask fun t => .set pgFlink R.FLINK_REMOTE_OUT t.link.reqs.length,
        finishCmd (r.cmd / 8) (r.cmd % 8) status result, devIdReady]
    | none => .inc pgFlink R.FLINK_CNT_LATE_RESP

/-- The status a response completes LINK_REMOTE with (R325). -/
def respStatus : Nat → Nat
  | 0 => stOK
  | 1 => stNotPermitted
  | 2 => stLinkDown
  | _ => stTimeout

/-- A LINK_REMOTE sends its RREQ, with the lowest tag that is free; with no port to leave by it completes LINK_DOWN (R324, R325). -/
def remoteRequest (q k dst op off data : Nat) : Prog :=
  .ask fun s =>
    match (List.range 16).find? (fun t => !(s.link.reqs.any fun r => r.tag = t)) with
    | none => .nil
    | some tag =>
      match s.routeTo dst with
      | none => .all [incRaise pgFlink R.FLINK_CNT_NO_ROUTE 6, finishCmd q k stLinkDown 0]
      | some p =>
        if !(s.portCarries p 8) then .all [.inc (pgFport p) R.FPORT_CNT_TX_DROP, finishCmd q k stLinkDown 0]
        else .all [
          .link fun l => { l with reqs := l.reqs ++ [{
            tag := tag, target := dst, port := p, cmd := q * 8 + k, due := s.now + usQ (s.get pgFlink R.FLINK_REMOTE_TMO) }] },
          .ask fun t => .set pgFlink R.FLINK_REMOTE_OUT t.link.reqs.length,
          sendLink p (ownMsg s 8 0 0 dst tag [off % 2 ^ 26 + op * 2 ^ 26 + data * 2 ^ 32, 0])]

/-! ### Keep-alive (R322) -/

/-- A port leaves ACTIVE for keep-alive: requests that left by it complete with LINK_DOWN (R322, R325). -/
def toKeepAlive (n : Nat) : Prog := .all [setPort n 7, dropRequests n, devIdReady]

/-- Entry to DORMANT: ports that can go to keep-alive, the others DOWN. -/
def enterKeepAlive : Prog :=
  .ask fun s => .each (List.range 4) fun n =>
    if s.portState n = 6 && s.portFeat n 3 && s.get pgFlink R.FLINK_KA_EN = 1 then .all [sendBlock n 0x66 1, toKeepAlive n]
    else portDown n false

/-- STANDBY is reached from DORMANT: keep-alive ports return to their rate, the others train again. -/
def leaveKeepAlive : Prog :=
  .ask fun s => .each (List.range 4) fun n =>
    if s.portState n = 7 then .all [sendBlock n 0x78 (s.portVer n),
      modPort n fun p => { p with fast := decide (s.portVer n = 2), fromKa := true }, setPort n 2]
    else portRetry n

/-! ### Meanings -/

/-- Both lanes of a port in DETECT show signal (R299). -/
def execPortSignalDetect (n : Nat) (s : State) : Host.Outcome State Fault Refusal :=
  .next (run (.ask fun s => .when (decide (n < 4) && s.portState n = 1) (setPort n 2)) s)

/-- A port has block lock and is deskewed, with its internal delays in 0.1 ps (R299, R314). -/
def execTrainDone (n txDly rxDly : Nat) (s : State) : Host.Outcome State Fault Refusal :=
  .next (run (.ask fun s => .when (decide (n < 4) && s.portState n = 2) (.all [
    .set (pgFport n) R.FPORT_TX_DLY txDly, .set (pgFport n) R.FPORT_RX_DLY rxDly, trainDone n])) s)

/-- An ADVERT block arrives, with its 56-bit content (R300, R301). -/
def execAdvert (n content : Nat) (s : State) : Host.Outcome State Fault Refusal :=
  .next (run (.when (decide (n < 4)) (advertIn n (content % 2 ^ 56))) s)

/-- A RATE block arrives, naming a version (R298). -/
def execRate (n ver : Nat) (s : State) : Host.Outcome State Fault Refusal := .next (run (.when (decide (n < 4)) (rateIn n ver)) s)

/-- A port has exchanged TOPO messages and gate levels; one that comes back from keep-alive skips CALIBRATE (R299, R322). -/
def execIdentifyDone (n : Nat) (s : State) : Host.Outcome State Fault Refusal :=
  .next (run (.ask fun s => .when (decide (n < 4) && s.portState n = 4) (
    if (s.port n).fromKa then portActive n else .all [setPort n 5, modPort n fun p => { p with exch := 0 }])) s)

/-- A port has made its 256 time exchanges, which an upstream port counts (R299). -/
def execCalibrateDone (n : Nat) (s : State) : Host.Outcome State Fault Refusal :=
  .next (run (.ask fun s => .when (decide (n < 4) && s.portState n = 5 && (!(s.facesUp n) || decide (256 ≤ (s.port n).exch)))
    (portActive n)) s)

/-- A port state has not completed within its limit (R299). -/
def execPortStateTimeout (n : Nat) (s : State) : Host.Outcome State Fault Refusal :=
  .next (run (.when (decide (n < 4)) (stateTimeout n)) s)

/-- A port that failed or found no common version tries again (R299). -/
def execPortRetry (n : Nat) (s : State) : Host.Outcome State Fault Refusal := .next (run (portRetry n) s)

/-- A port loses block lock, or receives no valid message in time (R327). -/
def execPortLost (n : Nat) (s : State) : Host.Outcome State Fault Refusal := .next (run (.when (decide (n < 4)) (portLost n)) s)

/-- A KA_ENTER block arrives (R322). -/
def execKaEnter (n : Nat) (s : State) : Host.Outcome State Fault Refusal :=
  .next (run (.ask fun s => .when (decide (n < 4) && s.portState n = 6 && s.portFeat n 3) (toKeepAlive n)) s)

/-- A TRIG_PROV arrives (R318, R319, R542). -/
def execTrigProv (n line src hops anchor : Nat) (crc : Bool) (s : State) : Host.Outcome State Fault Refusal :=
  .next (run (trigIn n 1 line src hops anchor crc (provIn n (line % 16) src anchor)) s)

/-- A TRIG_CONF arrives (R318, R319). -/
def execTrigConf (n line src hops anchor : Nat) (crc : Bool) (s : State) : Host.Outcome State Fault Refusal :=
  .next (run (trigIn n 2 line src hops anchor crc
    (.ask fun t => .when (t.flOn (line % 16) anchor) (remoteResolve src (line % 16) anchor true))) s)

/-- A TRIG_CXL arrives (R318, R319). -/
def execTrigCxl (n line src hops anchor : Nat) (crc : Bool) (s : State) : Host.Outcome State Fault Refusal :=
  .next (run (trigIn n 3 line src hops anchor crc
    (.ask fun t => .when (t.flOn (line % 16) anchor) (remoteResolve src (line % 16) anchor false))) s)

/-- A GATE message arrives for a gate line, with a level (R321). -/
def execGate (n g : Nat) (level : Bool) (src hops anchor : Nat) (crc : Bool) (s : State) : Host.Outcome State Fault Refusal :=
  .next (run (.ask fun s =>
    let m : Msg := { anchorMsg s 4 (g % 4 + 4 * b2n level) anchor with src := src, hops := hops }
    rxForward n 4 hops crc m (fun t => t.gatePorts m (some n)) (.all [
      if 63 ≤ hops then .inc (pgFport n) R.FPORT_CNT_RX_DROP else floodGate { m with hops := hops + 1 } (some n),
      gateMsg (g % 4) level anchor])) s)

/-- Gate levels that waited take effect (R321). -/
def execGateLevelApply (s : State) : Host.Outcome State Fault Refusal := .next (run gateDue s)

/-- A TIME_REQ arrives, at t2; its answer leaves at t3 (R314). -/
def execTimeReq (n t2 t3 : Nat) (crc : Bool) (s : State) : Host.Outcome State Fault Refusal :=
  .next (run (rxMsg n 6 crc (timeReq n t2 t3)) s)

/-- A TIME_RESP arrives at t4, with the parent's stamps, UTC_OFFSET, time state and TAI_VALID (R315, R316). -/
def execTimeResp (n t2 t3 t4 utc st : Nat) (tai crc : Bool) (s : State) : Host.Outcome State Fault Refusal :=
  .next (run (rxMsg n 7 crc (timeResp n t2 t3 t4 utc st tai)) s)

/-- The exchange period of the upstream port ends; the TIME_REQ leaves at t1 (R314). -/
def execTtPeriod (t1 : Nat) (s : State) : Host.Outcome State Fault Refusal := .next (run (timeAsk t1) s)

/-- An RRESP arrives (R325). -/
def execRresp (n src dst hops tag status data : Nat) (crc : Bool) (s : State) : Host.Outcome State Fault Refusal :=
  .next (run (.ask fun s =>
    let m : Msg := { ownMsg s 9 0 0 dst tag [status + data * 2 ^ 32, 0] with src := src, hops := hops }
    rxForward n 9 hops crc m (fun t => t.unicastPorts dst) (
      if dst = s.devId then reqOver tag (respStatus status) (if status = 0 then data else 0) else forwardUnicast n m)) s)

/-- A remote request has had no response within REMOTE_TMO (R325). -/
def execRemoteTmo (tag : Nat) (s : State) : Host.Outcome State Fault Refusal :=
  .next (run (.ask fun s => .when (s.link.reqs.any fun r => r.tag = tag && decide (r.due ≤ s.now)) (reqOver tag stTimeout 0)) s)

/-- A KEEPALIVE arrives: nothing but the port's liveness rests on it (R327). -/
def execKeepalive (n : Nat) (crc : Bool) (s : State) : Host.Outcome State Fault Refusal := .next (run (rxMsg n 0xA crc .nil) s)

/-- A port sends a KEEPALIVE (R322, R327). -/
def execKeepaliveSend (n : Nat) (s : State) : Host.Outcome State Fault Refusal :=
  .next (run (.ask fun s => .when (decide (n < 4) && (s.portState n = 6 || s.portState n = 7))
    (sendLink n (ownMsg s 0xA 0 0 0 0 [s.pstate]))) s)

/-- A TOPO ANNOUNCE arrives (R305). -/
def execTopoAnnounce (n src hops : Nat) (crc : Bool) (s : State) : Host.Outcome State Fault Refusal :=
  .next (run (.ask fun s =>
    rxForward n 0xB hops crc (announceMsg s src hops) (fun t => t.topoUp.toList)
      (announceIn n src hops)) s)

/-- A TOPO WITHDRAW arrives, naming an identifier (R305). -/
def execTopoWithdraw (n src id hops : Nat) (crc : Bool) (s : State) : Host.Outcome State Fault Refusal :=
  .next (run (.ask fun s =>
    rxForward n 0xB hops crc { ownMsg s 0xB 1 2 0 0 [id] with src := src, hops := hops } (fun t => t.topoUp.toList)
      (withdrawIn n src id hops)) s)

/-- A TOPO ROOT arrives (R305, R306). -/
def execTopoRoot (n root depth : Nat) (crc : Bool) (s : State) : Host.Outcome State Fault Refusal :=
  .next (run (rxMsg n 0xB crc (rootIn n root depth)) s)

/-- An EVENT message arrives: for this device by its DST, or at a root by route UP, else it goes on (R326). -/
def execEvent (n src dst route hops num : Nat) (crc : Bool) (s : State) : Host.Outcome State Fault Refusal :=
  .next (run (.ask fun s =>
    let m : Msg := { ownMsg s 0xC 0 route dst 0 [num] with src := src, hops := hops }
    rxForward n 0xC hops crc m (fun t => if route = 2 then t.upPort.toList else t.unicastPorts dst) (
    if route = 2 then
      match s.upPort with
      | some p => if 63 ≤ hops then .inc (pgFport n) R.FPORT_CNT_RX_DROP else sendLink p { m with hops := hops + 1 }
      | none => eventIn src num
    else if dst = s.devId then eventIn src num
    else forwardUnicast n m)) s)

/-- The ports by which a WAKE goes on: a flooded one by every other port that carries it, a unicast by its route. -/
def State.wakePorts (s : State) (n dst route : Nat) : List Nat :=
  if route = 1 then which 4 fun p => decide (p ≠ n) && s.portCarries p 5 else s.unicastPorts dst

/-- The message that a header announces (Table 11-5), with the data blocks that have come and zero for the others. -/
def headerMsg (hdr : Nat) (got : List Nat) : Msg :=
  { ty := bits hdr 3 0, line := bits hdr 7 4, route := bits hdr 9 8, src := bits hdr 23 10, dst := bits hdr 37 24, hops := bits hdr 43 38,
    tag := bits hdr 50 47, data := (got ++ List.replicate 7 0).take (bits hdr 46 44) }

/-- The ports by which a message received on a port goes on (Table 11-6). -/
def State.onward (s : State) (n : Nat) (m : Msg) : List Nat :=
  match m.ty with
  | 1 | 2 | 3 => s.trigPorts m n
  | 4 => s.gatePorts m (some n)
  | 5 => s.wakePorts n m.dst m.route
  | 8 | 9 => s.unicastPorts m.dst
  | 11 => if m.line = 2 then [] else s.topoUp.toList
  | 12 => if m.route = 2 then s.upPort.toList else s.unicastPorts m.dst
  | _ => []

/-- The copies of a message that ends with ABORT end with ABORT too, where its header has come and it goes on (R307). -/
def abortOnward (n hdr : Nat) (got : List Nat) : Prog :=
  .ask fun s =>
    let m := headerMsg hdr got
    .when (s.portCarries n m.ty && decide (m.hops < 63) && decide (0 < m.data.length)) (abortCopies (s.onward n m) m got.length)

/-- An ABORT or a block of a reserved type ends a message, whose header and data blocks so far are given where they have come, or a message of
a reserved type arrives (R298, R307, R313). -/
def execAbort (n : Nat) (block : Option (Option Nat × List Nat)) (s : State) : Host.Outcome State Fault Refusal :=
  .next (run (.when (decide (n < 4)) (.all [
    .when block.isSome (.inc (pgFport n) R.FPORT_CNT_ABORT), .inc (pgFport n) R.FPORT_CNT_RX_DROP,
    (match block with
     | some (some h, got) => abortOnward n h got
     | _ => .nil)])) s)

end Sys2Proof.Machine
end

