-- ==== Sys2Proof/Machine/Shells.lean ====
section
/-! DEFINITION. Shells and protection: what a command needs, the end of commands, streams, rings and contexts that lose their shell, and
the publication of generations (R396, R404, R405, R441 to R455, R513, R514). -/

namespace Sys2Proof.Machine

/-! ### What a command needs (R396, Table 14-4) -/

/-- The right of an opcode: its bit in Table 14-5, 16 for the supervisor alone, none where no right is needed. -/
def opRight (op : Nat) : Option Nat :=
  if op = 0x10 ∨ op = 0x11 then some 0
  else if op = 0x12 ∨ op = 0x13 ∨ op = 0x14 then some 1
  else if op = 0x18 ∨ op = 0x19 ∨ op = 0x1A then some 2
  else if op = 0x20 ∨ op = 0x21 then some 3
  else if op = 0x22 then some 12
  else if op = 0x28 ∨ op = 0x29 then some 4
  else if op = 0x30 then some 5
  else if op = 0x31 then some 6
  else if op = 0x32 then some 7
  else if op = 0x33 then some 8
  else if op = 0x40 ∨ op = 0x41 ∨ op = 0x42 then some 16
  else if 0x80 ≤ op ∧ op < 0xC0 then some 9
  else none

/-- Whether a shell owns a page, ring slot or context; the supervisor owns everything. -/
def State.owns (s : State) (shell : Nat) (p : Pg) : Bool := shell = supervisor || s.pgOwner p = shell

/-- The words a TRIG_SET writes, by offset in its page: of the TU page, of the definition, or of one term (Table 14-4). -/
def trigWords (h : Held) : List (Nat × Nat) :=
  let num := h.pf 0 11 8
  let (base, n) := match h.pf 0 1 0 with
    | 0 => (0x040, 7)
    | 1 => (0x040 + 0x50 * num, 4)
    | _ => (0x050 + 0x50 * num + 16 * h.pf 0 13 12, 4)
  ((List.range n).filter fun w => bit (h.pf 1 6 0) w).map fun w => (base + 4 * w, h.p (2 + w))

/-- The trigger units a definition would name after a TRIG_SET: as sources in any term, or as the source that arms it. -/
def State.unitsNamed (s : State) (h : Held) : List Nat :=
  let word (rel : Nat) : Nat := match (trigWords h).find? fun e => e.1 = rel with
    | some e => e.2
    | none => (s.cell (pgTcomb.base + rel)).toNat
  let def_ := 0x040 + 0x50 * h.pf 0 11 8
  which 8 fun k => ((List.range 4).any fun j => decide (bits (word (def_ + 16 + 16 * j)) (2 * k + 1) (2 * k) ≠ 0)) ||
    (bit (word def_) 14 && bits (word def_) 13 8 = k)

/-- Whether the words of an object a command names lie outside its shell. -/
def State.objDenied (s : State) (h : Held) : Bool :=
  let n := h.pf 0 7 0
  match h.op with
  | 0x12 => !(s.owns h.shell (pgSt n))
  | 0x13 =>
    !(s.owns h.shell (pgSt n)) ||
      (match h.pf 0 9 8 with
       | 1 => !(s.owns h.shell (pgRing (h.pf 1 12 0)))
       | 2 => !(s.owns h.shell (pgQpc (h.pf 1 11 0)))
       | _ => false)
  | 0x14 =>
    (match h.pf 0 1 0 with
     | 0 => decide (h.pf 0 11 8 < 8) && !(s.owns h.shell (pgTu (h.pf 0 11 8)))
     | 3 => false
     | _ => h.shell ≠ supervisor && !((s.unitsNamed h).all fun k => s.owns h.shell (pgTu k)))
  | 0x28 | 0x29 => !(s.owns h.shell (pgQpc (h.pf 0 11 0)))
  | _ => false

/-- The LOCAL address of a command that lies outside its shell's windows (R397, R447). -/
def State.addrBad (s : State) (h : Held) : Option Nat :=
  let bad (a len : Nat) (w : Bool) : Option Nat := if (s.resolve h.shell a len w).isNone then some a else none
  match h.op with
  | 0x20 => bad (h.p64 0) (h.p64 2) true
  | 0x21 =>
    if h.isLocal then (bad (h.p64 0) (h.p64 4) false).or (bad (h.p64 2) (h.p64 4) true)
    else if h.pf 6 0 0 = 0 then bad (h.p64 2) (h.p64 4) true else bad (h.p64 0) (h.p64 4) false
  | 0x22 => if h.isLocal then bad (h.p64 0) (h.p 2) false else none
  | 0x28 => if h.isLocal then bad (h.p64 1) 128 false else none
  | _ => none

/-- Whether a command's shell lacks the right or the object it needs (R396, R416). -/
def State.rightDenied (s : State) (h : Held) : Bool :=
  (match opRight h.op with
   | some 16 => decide (h.shell ≠ supervisor)
   | some b => !(bit (s.rights h.shell) b)
   | none => false) ||
    (h.op = 0x22 && h.shell ≠ supervisor && !(4 ≤ h.pf 3 3 0 && h.pf 3 3 0 ≤ 7)) || s.objDenied h

/-- Whether a command's shell lacks the right, the object or the window it needs (R396). -/
def State.cmdDenied (s : State) (h : Held) : Bool := s.rightDenied h || (s.addrBad h).isSome

/-! ### Ending a command from outside (R404, R405) -/

/-- What a command that ends leaves behind: its run, request, conversion or flash write ends with it (R405). -/
def cmdCleanup (k : Nat) : Prog :=
  .ask fun s => .all [
    .each (s.cal.runs.filter fun e => e.2.cmd = some k) fun e => .all [
      .cal fun c => { c with runs := Tab.put c.runs e.1 { e.2 with cmd := none } }, abortRun e.1],
    .link fun l => { l with reqs := l.reqs.filter fun r => r.cmd ≠ k },
    .ask fun t => .set pgFlink R.FLINK_REMOTE_OUT t.link.reqs.length,
    .pwr fun p => { p with reqs := p.reqs.filter fun r => r.cmd ≠ some k },
    .sys fun y => { y with jobs := y.jobs.filter fun j => j.cmd ≠ some k },
    devIdReady]

/-- A held command ends with an outcome: at once, or at the end of the step it runs (R404). -/
def abortCmd (q k rank status result : Nat) : Prog :=
  .ask fun s =>
    match s.heldAt q k with
    | none => .nil
    | some h =>
      if h.wait = .running then modHeld q k fun x => { x with ends := x.ends ++ [(rank, status, result)] }
      else .all [endCmd q k rank status result, cmdCleanup (q * 8 + k)]

/-- Every command that satisfies a test ends with an outcome, those in the dispatch queue when they are dispatched (R404, R450). -/
def abortWhere (p : Held → Bool) (rank status result : Nat) : Prog :=
  .ask fun s => .all [
    .cmd fun c => { c with queue := c.queue.map fun h => if p h then { h with ends := h.ends ++ [(rank, status, result)] } else h },
    .each (s.allHeld.filter fun e => p e.2.2) fun e => abortCmd e.1 e.2.1 rank status result]

/-! ### Streams, destinations and contexts that stop (R450, R513, R514) -/

/-- A stream stops: its outstanding requests, its built records and its unsent data records become pips with a cause, its charge is
released and its bins are free (R216, R378, R450, R513). -/
def streamStop (n cause : Nat) : Prog :=
  .ask fun s =>
    let c := s.srcChan n
    let reqs := (s.seg.extrs.map (·.2.req) ++ s.seg.reqs).filter fun r => r.stream = n && decide (r.st ≠ 0)
    .all [
      .one (.fld ((pgSt n).base + 0x00C) 0 0 0),
      closeEntries n,
      .each reqs fun r => match r.seq with
        | some q => addBuilt n q [pipRec s n cause q 1 (s.index c r.first) r.len (s.instant (s.spc c) r.first) r.code]
        | none => .nil,
      .seg fun g => { g with
        reqs := g.reqs.filter fun r => r.stream ≠ n, extrs := g.extrs.filter fun e => e.2.req.stream ≠ n },
      modStrm n fun t => { t with
        built := t.built.map fun e => (e.1, e.2.map fun r => if r.isData then lossOf r cause else r),
        bins := [], ep := Epoch.reset },
      pump n,
      .ask fun t => .each ((t.strm n).queue.map (·.dest)).dedup fun d => dropData n d cause [],
      releaseCharge n, eqStat n]

/-- A destination receives nothing further in this frame, and no pod: what waits for it is counted on its streams' pages and discarded
(R450, R514). -/
def destStop (d cause : Nat) : Prog :=
  .ask fun s => .all [
    .each (which 256 fun n => (s.strm n).queue.any fun r => decide (r.dest = d)) fun n => .all [
      dropData n d cause [],
      modStrm n fun t => { t with queue := t.queue.filter fun r => r.dest ≠ d || r.begun }, eqStat n],
    .seg fun g => { g with
      stopped := if s.fstate = 0 then g.stopped else (d :: g.stopped).dedup,
      podWait := g.podWait.filter (· ≠ d), podQ := g.podQ.filter fun r => r.dest ≠ d || r.begun }]

/-! ### Publications (R447 to R450) -/

/-- Word k of a window, as written. -/
def State.winWord (s : State) (w k : Nat) : Nat := (s.cell ((pgWin w).base + 4 * k)).toNat

/-- A window as written (Table 16-4). -/
def State.winWritten (s : State) (w : Nat) : Win :=
  { base := s.winWord w 0 + s.winWord w 1 * 2 ^ 32, size := s.winWord w 2 + s.winWord w 3 * 2 ^ 32,
    off := s.winWord w 4 + s.winWord w 5 * 2 ^ 32, rd := bit (s.winWord w 6) 0, wr := bit (s.winWord w 6) 1,
    host := bit (s.winWord w 6) 2 }

/-- The windows after a publication. -/
def State.winsNext (s : State) : Tab Win := s.sec.pendWin.foldl (fun t w => Tab.put t w (s.winWritten w)) s.sec.wins

/-- The open shells of the table. -/
def State.openShells (s : State) : List Nat :=
  (s.regs.filter fun e => decide (Kind.shell.base ≤ e.1) && decide (e.1 < Kind.shell.base + 64 * 4095) &&
    decide ((e.1 - Kind.shell.base) % 64 = 0) && e.2.toNat.testBit 0).map fun e => (e.1 - Kind.shell.base) / 64

/-- Whether two spans of bytes meet. -/
def meets' (a n b m : Nat) : Bool := decide (a < b + m) && decide (b < a + n)

/-- The first of a shell's windows that overlaps another of them in offset space. -/
def offClash : List (Nat × Win) → Option Nat
  | [] => none
  | e :: es => if es.any fun f => meets' e.2.off e.2.size f.2.off f.2.size then some e.1 else offClash es

/-- What makes a publication be refused: a shell, or the supervisor, and the offending window (R449). -/
def State.pubBad (s : State) : Option (Nat × Nat) :=
  let wins := s.winsNext.filter fun e => decide (e.2.size ≠ 0)
  let badWin := wins.find? fun e =>
    decide (e.2.base % 4096 ≠ 0 ∨ e.2.size % 4096 ≠ 0 ∨ e.2.off % 4096 ≠ 0 ∨ 2 ^ 35 ≤ e.2.base ∨ 2 ^ 36 ≤ e.2.size ∨ 2 ^ 40 ≤ e.2.off) ||
      decide (hbmReserved < e.2.base + e.2.size) || s.sec.placed.any fun p => meets' e.2.base e.2.size p.2.1 p.2.2
  match badWin with
  | some e => some (supervisor, e.1)
  | none => s.openShells.findSome? fun n =>
      let first := s.get (pgShell n) R.SHELL_WIN_FIRST
      let count := s.get (pgShell n) R.SHELL_WIN_COUNT
      if 4096 < first + count then some (n, first)
      else if 63 < s.get (pgShell n) R.SHELL_FUNC || 0x1FFF < s.get (pgShell n) R.SHELL_RIGHTS then some (n, 0)
      else (offClash (wins.filter fun e => decide (first ≤ e.1) && decide (e.1 < first + count))).map fun w => (n, w)

/-- Owners recorded at the registers of a kind. -/
def State.ownedBy (s : State) (n : Nat) (p : Pg → Bool) : Nat :=
  (s.sec.owners.filter fun e => e.2 = n && p (locate e.1).1).length

/-- The counts a shell's entry shows (Table 16-3). -/
def showOwned (n : Nat) : Prog :=
  .ask fun s => .all [
    .set (pgShell n) R.SHELL_N_RINGS (s.ownedBy n fun p => p.kind = .ring),
    .set (pgShell n) R.SHELL_N_CTX (s.ownedBy n fun p => p.kind = .qpc),
    .set (pgShell n) R.SHELL_N_STREAMS (s.ownedBy n fun p => p.kind = .st),
    .set (pgShell n) R.SHELL_N_PAGES (s.ownedBy n fun p => p.kind = .tu || p.kind = .tdc || p.kind = .disp)]

/-- PEND shows whether writes await publication. -/
def showPend : Prog :=
  .ask fun s => .set pgSec R.SEC_PEND (b2n (!s.sec.pendOwn.isEmpty || !s.sec.pendWin.isEmpty))

/-- The registers whose owner changes from one state to another. -/
def ownersChanged (old s : State) : List Nat :=
  ((old.sec.owners ++ s.sec.owners).map (·.1)).dedup.filter fun a => decide (old.owner a ≠ s.owner a)

/-- Whether a command lost what it needs, or its shell (R450). -/
def revoked (old s : State) (h : Held) : Bool :=
  (h.shell ≠ supervisor && old.shellOpen h.shell && !(s.shellOpen h.shell)) || (s.cmdDenied h && !(old.cmdDenied h))

/-- What a publication does to work in progress (Table 16-5), given the machine before it. -/
def revoke (old : State) : Prog :=
  .ask fun s =>
    let lost := (ownersChanged old s).map fun a => (locate a).1
    let rings := (lost.filter fun p => p.kind = .ring).map (·.inst)
    let moved := (s.host.rings.map (·.1)).filter fun n => s.get (pgRing n) R.RING_EN = 1 && s.get (pgRing n) R.RING_LOCAL = 1 &&
      (let b := s.get64 (pgRing n) R.RING_BASE_LO R.RING_BASE_HI
       let f (t : State) : Option Nat := t.resolve (t.owner (pgRing n).ownReg) b 32 true
       decide (f old ≠ f s))
    let streams := (lost.filter fun p => p.kind = .st).map (·.inst)
    let ctxs := (lost.filter fun p => p.kind = .qpc).map (·.inst)
    let cmds : Bool := s.cmd.queue.any (revoked old s) || s.allHeld.any fun e => revoked old s e.2.2
    let any : Bool := !(rings ++ moved ++ streams ++ ctxs).isEmpty || cmds
    .all [
      .each streams fun n => streamStop n 6,
      .each (rings ++ moved).dedup fun n => .all [
        .when (s.get (pgRing n) R.RING_EN = 1) (stopRing n 3), destStop (65536 + n) 6],
      .each ctxs fun c => destStop (s.ctxKey c) 6,
      abortWhere (revoked old s) 3 stRevoked 0,
      .when any (.all [.set pgSec R.SEC_REVOKING 1,
        .sec fun x => { x with revoking := (x.revoking ++ (old.openShells.filter fun n => !(s.shellOpen n))).dedup }])]

/-- Pending writes take effect, the generation advances, and work that lost its rights is revoked (R449). -/
def applyPub (old : State) (edited : List Nat) : Prog :=
  .all [
    .ask fun s => .sec fun x => { x with
      wins := s.winsNext, pendWin := [], pendOwn := [],
      owners := x.pendOwn.foldl (fun t a => Tab.putC t supervisor a ((s.cell a).toNat % 4096)) x.owners },
    .ask fun s => .set pgSec R.SEC_GEN ((s.get pgSec R.SEC_GEN + 1) % 2 ^ 32),
    incRaise pgSec R.SEC_CNT_PUBLISH 2, showPend,
    .ask fun s =>
      let touched := ((ownersChanged old s).flatMap fun a => [old.owner a, s.owner a]) ++ edited
      .each (touched.dedup.filter (· < 4095)) fun n => .all [showOwned n, .set (pgShell n) R.SHELL_GEN (s.get pgSec R.SEC_GEN)],
    revoke old]

/-- A publication, with a change of the shell table: whether it would be refused, and what it does (R449). -/
def State.pubRefused (s : State) (edit : Prog) : Option (Nat × Nat) := (run edit s).pubBad
def publish (edit : Prog) (edited : List Nat) : Prog :=
  .ask fun s =>
    match s.pubRefused edit with
    | some (n, w) => .all [.inc pgSec R.SEC_CNT_PUB_REFUSED, capture pgSec 0x20 (n + w * 2 ^ 12)]
    | none => .all [edit, applyPub s edited]

/-- A write of 1 to SEC.PUBLISH (R449). -/
def publishWritten : Prog := .all [publish .nil [], .set pgSec R.SEC_PUBLISH 0]

/-- What SHELL_CLOSE writes: the entry's rights, and 0xFFF as the owner of everything the shell owned (R446). -/
def closeEdit (n : Nat) : Prog :=
  .ask fun s =>
    let mine := (s.sec.owners.filter fun e => e.2 = n).map (·.1)
    .all [
      .set (pgShell n) R.SHELL_OPEN 0, .set (pgShell n) R.SHELL_VERSION 0, .set (pgShell n) R.SHELL_RIGHTS 0,
      .set (pgShell n) R.SHELL_WIN_COUNT 0,
      .each mine fun a => .one (.fld a 11 0 supervisor),
      .sec fun x => { x with pendOwn := (x.pendOwn ++ mine).dedup }]

/-- What SHELL_OPEN writes (R391, R446). -/
def openEdit (n ver : Nat) : Prog := .all [.set (pgShell n) R.SHELL_OPEN 1, .set (pgShell n) R.SHELL_VERSION ver]

/-- What SHELL_EDIT writes: the RW fields of the words it names (R445). -/
def editEdit (n first : Nat) (vals : List Nat) : Prog :=
  .each (vals.mapIdx fun i v => (first + i, v)) fun (k, v) =>
    match k with
    | 0 => .set (pgShell n) R.SHELL_FUNC (bits v 21 16)
    | 1 => .set (pgShell n) R.SHELL_RIGHTS (bits v 15 0)
    | 2 => .all [.set (pgShell n) R.SHELL_WIN_FIRST (bits v 11 0), .set (pgShell n) R.SHELL_WIN_COUNT (bits v 28 16)]
    | _ => .nil

/-! ### Meanings -/

/-- All revoked work has stopped (R450): no command still runs the step at whose end it is to end so. -/
def execRevokeDone (s : State) : Host.Outcome State Fault Refusal :=
  .next (run (.ask fun s => .when (s.get pgSec R.SEC_REVOKING = 1 &&
      !(s.allHeld.any fun e => e.2.2.ends.any fun x => x.1 = 3))
    (.all [.set pgSec R.SEC_REVOKING 0, .sec fun x => { x with revoking := [] }, raise pgSec 3])) s)

/-- A debug session attaches, makes an access, or detaches, through the JTAG port (R453).  A locked port admits none, and the port is dead while the core domain is off (R525). -/
def execDebugAttach (attach access : Bool) (s : State) : Host.Outcome State Fault Refusal :=
  .next (run (.ask fun s => .when s.coreOn (
    let locked : Bool := s.get pgSec R.SEC_DBG_LOCK = 1 || s.get pgSec R.SEC_DBG_FUSE = 1
    if locked then .set pgSec R.SEC_DBG_ACTIVE 0
    else .all [
      .when (attach && decide (s.get pgSec R.SEC_DBG_ACTIVE = 0)) (raise pgSec 4),
      .set pgSec R.SEC_DBG_ACTIVE (b2n attach),
      .when (attach && access) (.inc pgSec R.SEC_CNT_DEBUG)])) s)

/-- A write of 1 to DBG_LOCK: it holds until POR_N, and ends a session at once (R453). -/
def dbgLock : Prog := .all [.set pgSec R.SEC_DBG_LOCK 1, .set pgSec R.SEC_DBG_ACTIVE 0]

end Sys2Proof.Machine
end

