-- ==== Sys2Proof/Machine/Display.lean ====
section
/-! DEFINITION. The preview scan-out: link training, AUX, timing and variable blanking, commits, layers, and the density render
(R485 to R498). -/

namespace Sys2Proof.Machine

/-! ### Link (R485, R486) -/

/-- A live field of the DISP page, and entry i of one. -/
def State.dp (s : State) (r : Row) : Nat := s.live pgDisp r
def State.dpi (s : State) (r : Row) (i : Nat) : Nat := s.livei pgDisp r i

/-- Scan-out stops. -/
def scanStop : Prog :=
  .all [.disp fun d => { d with phase := 0, under := [] }, .set pgDisp R.DISP_LINK_UP 0, .set pgDisp R.DISP_IN_VBLANK 0,
    .set pgDisp R.DISP_LINE 0]

/-- The link trains, where the transmitter runs (R485, R486). -/
def dispTrain : Prog :=
  .ask fun s => .when (s.en pgDisp && decide (2 ≤ s.pstate))
    (.all [scanStop, .disp fun d => { d with training := true, failed := false }])

/-- The transmitter is turned off: EN written 0, or STANDBY or DORMANT entered (R485). -/
def dispOff : Prog := .all [scanStop, .disp fun d => { d with training := false, failed := false }]

/-- EN of the DISP page has been written, from an old to a new value (R486). -/
def dispEnWritten (old new : Bool) : Prog := if new then .when (!old) dispTrain else dispOff

/-! ### AUX (R487) -/

/-- What the request in AUX_CMD carries: a write LEN + 1 bytes of AUX_DATA, a read its length. -/
def State.auxBytes (s : State) : List Byte :=
  let len := s.get pgDisp R.DISP_AUX_LEN + 1
  if s.get pgDisp R.DISP_AUX_CMD % 2 = 1 then leBytes 1 len
  else ((List.range 4).flatMap fun i => leBytes 4 (s.geti pgDisp R.DISP_AUX_DATA i)).take len

/-- The AUX request of the transaction leaves, with the data that AUX_GO found. -/
def auxSend : Prog := .ask fun s => .out (.aux (s.get pgDisp R.DISP_AUX_CMD) (s.get pgDisp R.DISP_AUX_ADDR) s.disp.aux)

/-- A write of 1 to AUX_GO while no transaction is in progress. -/
def auxGo : Prog := .ask fun s => .all [.set pgDisp R.DISP_AUX_GO 1, .disp fun d => { d with defers := 0, aux := s.auxBytes }, auxSend]

/-- The transaction in progress ends with an outcome. -/
def auxEnd (reply n : Nat) : Prog :=
  .all [.set pgDisp R.DISP_REPLY reply, .set pgDisp R.DISP_BYTES n, .set pgDisp R.DISP_AUX_GO 0]

/-- A reply, 0 ACK with its data or the bytes taken, 1 NACK, 2 DEFER, to the transaction in progress. -/
def auxReply (kind n : Nat) (data : List Byte) : Prog :=
  .ask fun s => .when (s.get pgDisp R.DISP_AUX_GO = 1) (
    if kind = 2 then
      (if s.disp.defers < 7 then .all [.disp fun d => { d with defers := d.defers + 1 }, auxSend] else auxEnd 2 0)
    else if kind = 0 && s.get pgDisp R.DISP_AUX_CMD % 2 = 1 then
      let got := data.take 16
      let old := (List.range 4).flatMap fun i => leBytes 4 (s.geti pgDisp R.DISP_AUX_DATA i)
      let now := got ++ old.drop got.length
      .all [.each (List.range 4) fun i => .seti pgDisp R.DISP_AUX_DATA i (field now (4 * i) 4), auxEnd 0 got.length]
    else auxEnd kind (min 16 n))

/-! ### Commits (R488, R490, R491, R493, R495) -/

/-- Bytes of a pixel (Table 18-2). -/
def fmtSize (f : Nat) : Nat := if f = 0 then 2 else if f = 1 then 3 else 4

/-- Lanes and the lane rate in Mbit/s. -/
def State.dpLanes (s : State) : Nat := 2 ^ s.dp R.DISP_LANES
def State.dpRate (s : State) : Nat := [2700, 5400, 8100].getD (s.dp R.DISP_RATE) 8100

/-- Buffer offset of a layer, and the second buffer of L0. -/
def State.layerBase (s : State) (l : Nat) : Nat := s.dpi R.DISP_L_BASE_LO l + s.dpi R.DISP_L_BASE_HI l * 2 ^ 32
def State.baseB (s : State) : Nat := s.dp R.DISP_BASE_B_LO + s.dp R.DISP_BASE_B_HI * 2 ^ 32

/-- L0 shows a density map (R495). -/
def State.dense (s : State) : Bool := s.dpi R.DISP_L_EN 0 = 1 && s.dpi R.DISP_L_SRC 0 = 1

/-- What makes a DISP commit be refused by itself: the offset of the first field that fails. -/
def State.dispBad (s : State) : Option Nat :=
  let f := s.dp
  let vt := f R.DISP_VACTIVE + f R.DISP_VFP + f R.DISP_VSYNC_W + f R.DISP_VBP
  let owner := s.pgOwner pgDisp
  let ok (off len : Nat) (w : Bool) : Bool := (s.resolve owner off len w).isSome
  let (n, d) := dispRate s.dpi
  let first := (which 4 fun l => s.dpi R.DISP_L_EN l = 1).headD 0
  firstBad ([
    (decide (776 * s.dpLanes * s.dpRate * f R.DISP_PCLK_DIV < 480000000), 0x044),
    (decide (f R.DISP_HACTIVE < 64) || decide (3840 < f R.DISP_HACTIVE) ||
      decide (f R.DISP_HTOTAL < f R.DISP_HACTIVE + f R.DISP_HSYNC_START + f R.DISP_HSYNC_W + 16), 0x048),
    (decide (f R.DISP_VACTIVE < 64) || decide (2160 < f R.DISP_VACTIVE), 0x050),
    (decide (f R.DISP_VMIN < vt) || decide (f R.DISP_VMAX < f R.DISP_VMIN), 0x058),
    (decide (7962624000 * d < n), 0x100 + 0x20 * first)] ++
    ((which 4 fun l => s.dpi R.DISP_L_EN l = 1).flatMap fun l =>
      let base := s.layerBase l
      let size := s.dpi R.DISP_L_H l * s.dpi R.DISP_L_STRIDE l
      [(l = 0 && s.dense && decide (s.dpi R.DISP_L_FMT 0 < 2), 0x100),
       (decide (base % 64 ≠ 0) || !(ok base size false) || (l = 0 && s.dense && !(ok base size true)), 0x108 + 0x20 * l),
       (decide (s.dpi R.DISP_L_STRIDE l % 64 ≠ 0) ||
         decide (s.dpi R.DISP_L_STRIDE l < s.dpi R.DISP_L_W l * fmtSize (s.dpi R.DISP_L_FMT l)), 0x110 + 0x20 * l),
       (decide (f R.DISP_HACTIVE < s.dpi R.DISP_L_X l + s.dpi R.DISP_L_W l) ||
         decide (f R.DISP_VACTIVE < s.dpi R.DISP_L_Y l + s.dpi R.DISP_L_H l), 0x114 + 0x20 * l)]) ++
    [(s.dense && (decide (s.baseB % 64 ≠ 0) || !(ok s.baseB (s.dpi R.DISP_L_H 0 * s.dpi R.DISP_L_STRIDE 0) false) ||
        !(ok s.baseB (s.dpi R.DISP_L_H 0 * s.dpi R.DISP_L_STRIDE 0) true)), 0x180),
     (s.dense && s.livei pgDen R.DEN_USE (f R.DISP_DEN_SLOT) = 0, 0x188)])

/-- The pending DISP commit applies, or is refused; a change of the link's settings trains it again (R47, R486, R490, R493). -/
def applyDisp : Prog :=
  .ask fun s => .when (s.commitPend pgDisp) (
    let t := s.with [pgDisp]
    match t.dispBad with
    | some o => .all [setPend pgDisp false, capture pgDisp 0x03 o]
    | none =>
      match s.jointBad [pgDisp] with
      | some j => .all [setPend pgDisp false,
          capture pgDisp 0x03 (0x100 + 0x20 * (which 4 fun l => t.dpi R.DISP_L_EN l = 1).headD 0), .when j.res (raise pgArb 3)]
      | none => .all [copyLive pgDisp, setPend pgDisp false,
          .when (s.disp.failed || [R.DISP_LANES, R.DISP_RATE, R.DISP_ASYNC_EN].any fun r => decide (t.dp r ≠ s.dp r)) dispTrain])

/-- A write of 1 to COMMIT of the DISP page waits for the commit point, also while no stream is sent: it then applies when scan-out next
passes it (R490, Table 18-3).  A commit ends the idle pattern of a failed training, and applies there (R486; DEDUCED, log entry 77). -/
def commitDisp : Prog := .all [setPend pgDisp true, .ask fun s => .when s.disp.failed applyDisp]

/-! ### Layers (R492) -/

/-- The three components R, G and B of a colour, and the alpha, of a pixel in memory (Table 18-2). -/
def unpackPixel (fmt w : Nat) : Nat × Nat × Nat × Nat :=
  match fmt with
  | 0 =>
    let r := bits w 15 11
    let g := bits w 10 5
    let b := bits w 4 0
    (r * 8 + r / 4, g * 4 + g / 16, b * 8 + b / 4, 255)
  | 2 => (bits w 23 16, bits w 15 8, bits w 7 0, bits w 31 24)
  | _ => (bits w 23 16, bits w 15 8, bits w 7 0, 255)

/-- n / 255 rounded half away from zero. -/
def div255 (n : Nat) : Nat := (2 * n + 255) / 510

/-- One component of a layer over what lies below it. -/
def blend (a src out : Nat) : Nat := div255 (a * src + (255 - a) * out)

/-- The base of a layer's buffer that is shown. -/
def State.shownBase (s : State) (l : Nat) : Nat := if l = 0 && s.dense && s.disp.shown = 1 then s.baseB else s.layerBase l

/-- The pixel at (x, y) with one more layer composed over it. -/
def State.overLayer (s : State) (x y : Nat) (below : Nat × Nat × Nat) (l : Nat) : Nat × Nat × Nat :=
  let lx := s.dpi R.DISP_L_X l
  let ly := s.dpi R.DISP_L_Y l
  let covers : Bool := decide (lx ≤ x) && decide (x < lx + s.dpi R.DISP_L_W l) && decide (ly ≤ y) && decide (y < ly + s.dpi R.DISP_L_H l)
  let gone : Bool := s.disp.under.any fun e => e.1 = l && decide (e.2 ≤ y * s.dp R.DISP_HACTIVE + x)
  if s.dpi R.DISP_L_EN l = 1 && covers && !gone then
    let fmt := s.dpi R.DISP_L_FMT l
    let n := fmtSize fmt
    match s.resolve (s.pgOwner pgDisp) (s.shownBase l + (y - ly) * s.dpi R.DISP_L_STRIDE l + (x - lx) * n) n false with
    | some a =>
      let (r, g, b, alpha) := unpackPixel fmt (ofLe (s.hbmRead a n))
      let a := div255 (alpha * s.dpi R.DISP_L_ALPHA l)
      (blend a r below.1, blend a g below.2.1, blend a b below.2.2)
    | none => below
  else below

/-- The colour of the pixel at (x, y). -/
def State.pixel (s : State) (x y : Nat) : Nat :=
  let bg := s.dp R.DISP_BG
  let (r, g, b) := (List.range 4).foldl (s.overLayer x y) (bits bg 23 16, bits bg 15 8, bits bg 7 0)
  r * 65536 + g * 256 + b

/-- The active pixels of a frame. -/
def State.picture (s : State) : List Nat :=
  (List.range (s.dp R.DISP_VACTIVE)).flatMap fun y => (List.range (s.dp R.DISP_HACTIVE)).map fun x => s.pixel x y

/-! ### Density render (R495) -/

/-- A render starts, where L0 shows a density map and none is running: into the buffer that is not the one completed last. -/
def renderStart : Prog :=
  .ask fun s => if s.dense && s.disp.render.isNone then .disp fun d => { d with render := some (1 - d.done) } else .nil

/-- A write of 1 to REN_START: ignored while a render runs, and over at once where there is nothing to draw. -/
def renderGo : Prog :=
  .ask fun s => if s.dense || s.disp.render.isSome then .all [.set pgDisp R.DISP_REN_START 1, renderStart] else .set pgDisp R.DISP_REN_START 0

/-- The palette index of a counter. -/
def renderIndex (mode shift v : Nat) : Nat :=
  if mode = 0 then min 255 (v / 2 ^ shift)
  else if v = 0 then 0
  else
    let e := Nat.log2 v
    min 255 (1 + 16 * e + v * 16 / 2 ^ e - 16)

/-- The pixel a render draws at (px, py). -/
def State.renderPixel (s : State) (px py : Nat) : Nat :=
  let m := s.dp R.DISP_DEN_SLOT
  let yb := s.livei pgDen R.DEN_Y_BINS m
  let x := px * s.livei pgDen R.DEN_X_BINS m / s.dpi R.DISP_L_W 0
  let y := (s.dpi R.DISP_L_H 0 - 1 - py) * yb / s.dpi R.DISP_L_H 0
  s.dpi R.DISP_PALETTE (renderIndex (s.dp R.DISP_REN_MODE) (s.dp R.DISP_REN_SHIFT) (Tab.get (s.map m).cells 0 (x * yb + y)))

/-- A render completes: its rows are in the buffer (R495). -/
def renderDone : Prog :=
  .ask fun s =>
    match s.disp.render with
    | none => .nil
    | some b => .when ((s.map (s.dp R.DISP_DEN_SLOT)).ep.closing = 0) (
        let base := if b = 1 then s.baseB else s.layerBase 0
        .all [
          .each (List.range (s.dpi R.DISP_L_H 0)) fun py =>
            let row := (List.range (s.dpi R.DISP_L_W 0)).flatMap fun px => leBytes 4 (s.renderPixel px py)
            match s.resolve (s.pgOwner pgDisp) (base + py * s.dpi R.DISP_L_STRIDE 0) row.length true with
            | some a => .one (.mem a row)
            | none => .nil,
          .disp fun d => { d with render := none, done := b },
          .set pgDisp R.DISP_REN_START 0, incRaise pgDisp R.DISP_CNT_RENDER 8,
          .when (s.dp R.DISP_REN_READY = 1) (.set pgDisp R.DISP_READY 1)])

/-! ### Timing (R488 to R490, R494) -/

/-- VTOTAL of a frame whose front porch has some lines. -/
def State.vtotal (s : State) (porch : Nat) : Nat := s.dp R.DISP_VACTIVE + porch + s.dp R.DISP_VSYNC_W + s.dp R.DISP_VBP

/-- The front porch ends, with a VTOTAL; READY is consumed, or the frame repeats. -/
def porchEnds (vt : Nat) (repeats : Bool) : Prog :=
  .ask fun s => .all [
    .disp fun d => { d with phase := 3 },
    .set pgDisp R.DISP_LINE (vt - s.dp R.DISP_VSYNC_W - s.dp R.DISP_VBP),
    .set pgDisp R.DISP_LAST_VTOTAL vt, .set pgDisp R.DISP_REPEAT (b2n repeats),
    if repeats then .inc pgDisp R.DISP_CNT_REPEAT else .when (s.dp R.DISP_ASYNC_EN = 1) (.set pgDisp R.DISP_READY 0)]

/-- A frame's first active line begins. -/
def activeStart : Prog :=
  .ask fun s => .when (s.disp.phase = 4 && s.get pgDisp R.DISP_LINK_UP = 1) (.all [
    .disp fun d => { d with phase := 1, under := [] }, .set pgDisp R.DISP_IN_VBLANK 0, .set pgDisp R.DISP_LINE 0,
    .when (s.dp R.DISP_LINE_MATCH = 0) (raise pgDisp 2),
    .when (s.dp R.DISP_REN_AUTO = 1) renderStart])

/-! ### Meanings -/

/-- The front porch ends after some lines: with READY pending, or at VMIN where ASYNC_EN is 0 (R489). -/
def execFrontPorchEnd (porch : Nat) (s : State) : Host.Outcome State Fault Refusal :=
  .next (run (.ask fun s =>
    let vt := s.vtotal porch
    .when (s.disp.phase = 2 && decide (s.dp R.DISP_VFP ≤ porch) &&
        (if s.dp R.DISP_ASYNC_EN = 1 then s.get pgDisp R.DISP_READY = 1 && decide (s.dp R.DISP_VMIN ≤ vt) && decide (vt ≤ s.dp R.DISP_VMAX)
         else vt = s.dp R.DISP_VMIN))
      (porchEnds vt false)) s)

/-- The front porch ends at VMAX: the frame repeats, unless READY has become pending there (R489, R496). -/
def execVmaxRepeat (s : State) : Host.Outcome State Fault Refusal :=
  .next (run (.ask fun s => .when (s.disp.phase = 2 && s.dp R.DISP_ASYNC_EN = 1)
    (porchEnds (s.dp R.DISP_VMAX) (s.get pgDisp R.DISP_READY = 0))) s)

/-- The first line boundary of vertical sync: pending shadows apply, and the buffers of the frame just shown are released (R490). -/
def execFrameDone (s : State) : Host.Outcome State Fault Refusal :=
  .next (run (.ask fun s => .when (s.disp.phase = 3) (.all [
    .disp fun d => { d with phase := 4, shown := d.done },
    incRaise pgDisp R.DISP_CNT_FRAMES 3, applyDisp])) s)

/-- The last active line ends: the frame's picture has been sent (R492, R498). -/
def execVblankStart (s : State) : Host.Outcome State Fault Refusal :=
  .next (run (.ask fun s => .when (s.disp.phase = 1) (.all [
    .out (.picture (s.dp R.DISP_HACTIVE) s.picture),
    .disp fun d => { d with phase := 2, under := [] }, .set pgDisp R.DISP_IN_VBLANK 1,
    .set pgDisp R.DISP_LINE (s.dp R.DISP_VACTIVE), raise pgDisp 1])) s)

/-- The active line LINE_MATCH names begins; line 0 does so with the frame (R498). -/
def execLineMatch (s : State) : Host.Outcome State Fault Refusal :=
  .next (run (.ask fun s => .when (s.disp.phase = 1 && decide (0 < s.dp R.DISP_LINE_MATCH) && decide (s.dp R.DISP_LINE_MATCH < s.dp R.DISP_VACTIVE))
    (.all [.set pgDisp R.DISP_LINE (s.dp R.DISP_LINE_MATCH), raise pgDisp 2])) s)

/-- A frame's first active line begins (R495). -/
def execActiveStart (s : State) : Host.Outcome State Fault Refusal := .next (run activeStart s)

/-- A pixel of a layer is due and its buffer does not hold it (R494). -/
def execUnderrun (layer x y : Nat) (s : State) : Host.Outcome State Fault Refusal :=
  .next (run (.ask fun s => .when (s.disp.phase = 1 && decide (layer < 4) && s.dpi R.DISP_L_EN layer = 1 &&
      !(s.disp.under.any fun e => e.1 = layer)) (.all [
    .disp fun d => { d with under := d.under ++ [(layer, y * s.dp R.DISP_HACTIVE + x)] },
    .addi pgDisp R.DISP_CNT_UNDERRUN layer 1, raise pgDisp (4 + layer)])) s)

/-- A render completes (R495). -/
def execRenderDone (s : State) : Host.Outcome State Fault Refusal := .next (run renderDone s)

/-- HPD rises (R486). -/
def execHpdRise (s : State) : Host.Outcome State Fault Refusal :=
  .next (run (.ask fun s => .when (s.coreOn && s.get pgDisp R.DISP_HPD = 0) (.all [.set pgDisp R.DISP_HPD 1, dispTrain])) s)

/-- HPD has been low for more than 2 ms (R486). -/
def execHpdUnplug (s : State) : Host.Outcome State Fault Refusal :=
  .next (run (.ask fun s => .when (s.coreOn && s.get pgDisp R.DISP_HPD = 1) (.all [.set pgDisp R.DISP_HPD 0, dispOff, raise pgDisp 10])) s)

/-- HPD has been low for 0.5 to 1 ms (R486); like every pin of the core domain HPD is ignored while the domain is off (R525). -/
def execHpdIrq (s : State) : Host.Outcome State Fault Refusal :=
  .next (run (.ask fun s => .when (s.coreOn && s.get pgDisp R.DISP_HPD = 1) (raise pgDisp 9)) s)

/-- Training ends: scan-out begins in vertical sync, where a pending commit applies; or it fails on some lanes in a phase (R486, R496). -/
def execDpTrainingDone (ok : Bool) (lanes phase : Nat) (s : State) : Host.Outcome State Fault Refusal :=
  .next (run (.ask fun s => .when s.disp.training (
    if ok then .all [.disp fun d => { d with training := false, phase := 4, shown := d.done },
      .set pgDisp R.DISP_LINK_UP 1, .set pgDisp R.DISP_IN_VBLANK 1, applyDisp]
    else .all [.disp fun d => { d with training := false, failed := true },
      capture pgDisp 0x20 (lanes % 16 + (phase % 2) * 2 ^ 8), raise pgDisp 11])) s)

/-- An AUX reply arrives (R487). -/
def execAuxReply (kind n : Nat) (data : List Byte) (s : State) : Host.Outcome State Fault Refusal := .next (run (auxReply kind n data) s)

/-- No AUX reply has come within 400 µs (R487). -/
def execAuxTimeout (s : State) : Host.Outcome State Fault Refusal :=
  .next (run (.ask fun s => .when (s.get pgDisp R.DISP_AUX_GO = 1) (auxEnd 3 0)) s)

end Sys2Proof.Machine
end

