-- ==== Sys2Proof/Machine/Power.lean ====
section
/-! DEFINITION. Power states, wakes, thermal protection, SMBus, the monitor converter, the timers, the PWM outputs, and the GATE balls
(R134, R321, R323, R456 to R484). -/

namespace Sys2Proof.Machine

/-! ### Leaving READY (R457 to R459) -/

/-- Deltas, overrides, LAST_RUN and fSB go to the trim retention store (R459). -/
def retain : Prog :=
  .ask fun s => .all [
    .pwr fun p => { p with
      keptDelta := s.cal.delta, keptOvr := s.cal.ovr,
      keptLast := [s.geti pgCal R.CAL_LAST_RUN 0, s.geti pgCal R.CAL_LAST_RUN 1], keptFsb := s.fsbSet },
    .set pgPwr R.PWR_RETAIN_OK 1]

/-- The front-end dies and DisplayPort are off, and runs have ended (R27, R128, R485). -/
def diesOff : Prog :=
  .ask fun s => .all [
    .each (s.cal.runs.map (·.1)) abortRun,
    .cal fun c => { c with startup := [], startAt := [] },
    .each (List.range 8) fun b => .all [.set (pgBank b) R.BANK_POWERED 0, linkOff b, endSettle b],
    .conv fun c => { c with settle := [], lostAt := [], enHeld := [] },
    .each (List.range 8) fun c => .all [holdEnd c, modChan c fun ch => { ch with pipe := emptyPipe }],
    showBanks 0, showBanks 1,
    .each (List.range 8) tuRestart, showRot, dispOff]

/-- Words of BAR0 return to their reset values, but those to be kept. -/
def resetCells (keep : Pg → Nat → Bool) : Prog :=
  .ask fun s => .each (s.regs.filter fun e => let l := locate e.1; !(keep l.1 l.2)) fun e => .one (.wr e.1 (resetWord e.1))

/-- Fields of a page return to their reset values. -/
def resetFields (p : Pg) (rs : List Row) : Prog := .each rs fun r => .each (List.range r.count) fun i => .seti p r i (rowReset p r i)

/-- HBM, local memory and the denials are lost. -/
def memoryLost : Prog :=
  .ask fun s => .all [
    .each s.hbm fun e => .one (.mem e.1 [0]), .each s.lmem fun e => .one (.lmem e.1 [0]),
    .each s.denials fun _ => .one .denyPop]

/-- The balls of the core domain that are high return to low, their inactive level under the reset polarities (R525). -/
def corePinsOff : Prog :=
  .ask fun s => .all [
    .each (List.range 4) fun n =>
      let inv : Bool := s.livei pgText R.TEXT_OPOL n = 1
      .all [
        .when ((s.tout n).outOn != inv) (.out (.pin (pinTrigOut n) false)),
        .when ((s.tout n).cxlOn != inv) (.out (.pin (pinTrigCxl n) false))],
    .each s.host.evtOut fun e => .out (.pin (pinEventOut e.1) false),
    .when ((s.live pgClk R.CLK_SYNC_OUT_POL = 1 : Bool) != s.time.tickOn) (.out (.pin pinSyncOut false))]

/-- The hidden state of the core, the dies and the links is lost; what `shells` says is kept of protection, and the count of commands. -/
def coreLost (shells : Bool) : Prog :=
  .all [
    corePinsOff, memoryLost,
    .conv fun _ => State.reset.conv, .cal fun _ => State.reset.cal, .trig fun _ => State.reset.trig, .seg fun _ => State.reset.seg,
    .time fun t => { t with
      ties := [], meas := [], tdcs := [], pairs := [], held := [], diffSlot := 0, lockTry := 0, cpllTry := 0, refSince := none, moved := false,
      gatedAt := some (t.q / 2 ^ 32), lockCfg := 0, tickOn := false, coarse := 0 },
    .net fun _ => State.reset.net, .fab fun _ => State.reset.fab, .disp fun _ => State.reset.disp,
    .cmd fun c => { State.reset.cmd with
      store := if shells then c.store else [], images := if shells then c.images else [], order := c.order },
    .sec fun x => if shells then { x with revoking := [], placed := [], denyLatch := [] } else State.reset.sec,
    .host fun h => if shells then { State.reset.host with
      vecs := h.vecs, msixEn := h.msixEn, pba := h.pba, devCtl := h.devCtl, flr := h.flr, evtHeld := h.evtHeld } else State.reset.host,
    .pwr fun p => { p with
      reqs := p.reqs.filter fun r => r.cmd.isNone,
      running := p.running.map fun r => ({ r.1 with cmd := none }, r.2.1, r.2.2), shutPend := false, used := [] },
    .sys fun y => { y with jobs := [], pcTries := [], reload := [], shellRst := [], slotWait := [] }, .set pgFlash R.FLASH_BUSY 0]

/-- What DORMANT keeps (Table 17-2), and the Filmund pages, which answer for the keep-alive ports until STANDBY. -/
def keptDormant (p : Pg) (rel : Nat) : Bool :=
  match p.kind with
  | .top | .time | .mon | .tmr | .pwr | .shell | .win | .route | .msix | .flink | .fport => true
  | .sec => rel = 0x040 || rel = 0x048 || rel = 0x04C || rel = 0x050 || rel = 0x054
  | .ring => rel = 0x00C
  | .qpc => rel = 0x03C
  | .st | .tu | .tdc | .disp => rel = 0x02C
  | .pcie => rel = 0x040 || rel = 0x044
  | .flash => rel = 0x040 || rel = 0x044 || rel = 0x048 || rel = 0x04C || rel = 0x058
  | _ => false

/-- Every domain but the acorn domain is powered off (R27, R458); the PTP sources and REF_IN are disqualified (R254). -/
def powerOff : Prog :=
  .all [
    .each [2, 3, 5] sourceGone,
    coreLost true, .link fun l => { State.reset.link with ports := l.ports, ball := l.ball, parent := l.parent, up := l.up },
    resetCells keptDormant, showPend, .set pgPcie R.PCIE_PM_STATE 3,
    .set pgTop R.TOP_STATE 0, .set pgTop R.TOP_HELD 0, .set pgTop R.TOP_BUSY 0, .set pgTop R.TOP_GO 0, .set pgTop R.TOP_FE_RST 0,
    .set pgPwr R.PWR_TRANSIT 0, .set pgPwr R.PWR_TARGET 0]

/-- The common headers of the Filmund pages, and their fields that a port's state does not fix, return to reset when STANDBY is reached from
DORMANT (R458). -/
def linkPagesReset : Prog :=
  .all [
    .each (pgFlink :: (List.range 4).map pgFport) fun p => .each (List.range 16) fun i => .one (.wr (p.base + 4 * i) (resetWord (p.base + 4 * i))),
    resetFields pgFlink (Kind.flink.rows.filter fun r => r.acc = .rw && r.off ≠ 0x040 && r.off ≠ 0x044),
    .each (List.range 4) fun n => resetFields (pgFport n) (Kind.fport.rows.filter fun r => r.acc = .rw || r.acc = .sc),
    .set pgFlink R.FLINK_REMOTE_OUT 0]

/-! ### The way to READY (R460) -/

/-- READY is barred: SHUT holds while the device acts on it (R465), or a second HBM_FAIL has come within 10 s (Table 19-8). -/
def State.readyBarred (s : State) : Bool :=
  (bit (s.get pgPwr R.PWR_THERM_STAT) 2 && bit s.pwr.therm 16) || s.sys.noReady

/-- The way from STANDBY to READY begins: sets are reloaded, the dies powered, with no retraining counted yet (R95), and a DELTA run of every
enabled channel or start-up calibration is under way; history holds nothing (R166, R460). -/
def readyStart : Prog :=
  .ask fun s => .all [
    beginTransit 2, loadSets, .conv fun c => { c with retrains := [] },
    .each (List.range 8) fun b => .all [.set (pgBank b) R.BANK_LINK_OK 1,
      .set (pgBank b) R.BANK_POWERED (b2n (s.chanOn (bankChan (s.mode (dieOf b)) b)))],
    .each (which 8 s.chanExists) fun c => .all [
      modChan c fun ch => { Chan.reset with
        top := s.spc c * s.time.cc, bad := ch.bad, bads := ch.bads, noSet := ch.noSet, noSets := ch.noSets },
      emptyHist c],
    syncStops, .each (List.range 8) tuRestart,
    if s.get pgPwr R.PWR_RETAIN_OK = 1 then .all [
      .cal fun c => { c with delta := s.pwr.keptDelta, ovr := s.pwr.keptOvr },
      .each [0, 1] fun d => .seti pgCal R.CAL_LAST_RUN d (s.pwr.keptLast.getD d 0),
      .each (which 8 s.chanOn) fun c => .each (s.banksOf c) fun b => startSettle b 2,
      .each [0, 1] fun d => startOwnRun (16 + d) 1 d (which 8 fun c => dieOf c = d && s.chanOn c),
      showOverride, showRot]
    else .all [startCal 0, startCal 1]]

/-! ### Wakes (R462, R478) -/

/-- A wake is taken: CNT_WAKE, WAKE_CAUSE, the event, and the transition to the state named (R462).  Of wakes to a device already on its
way, the highest state counts. -/
def wakeTaken (target cause : Nat) : Prog :=
  .ask fun s =>
    let t := if s.readyBarred then min target 1 else target
    let moving : Bool := s.get pgPwr R.PWR_TRANSIT = 1
    .when (decide (s.pstate < t) && s.get pgTop R.TOP_STAGE = 7 && !(s.pstate = 1 && moving && s.get pgPwr R.PWR_TARGET = 1)) (.all [
      .set pgPwr R.PWR_WAKE_CAUSE ((if moving then s.get pgPwr R.PWR_WAKE_CAUSE else 0) ||| 2 ^ cause),
      incRaise pgPwr R.PWR_CNT_WAKE 2,
      if moving then .set pgPwr R.PWR_TARGET (max t (s.get pgPwr R.PWR_TARGET))
      else if s.pstate = 1 then readyStart
      else .all [beginTransit t, .time fun x => { x with gatedAt := some s.now }, startLock, cpllSearch]])

/-- Sensors of Table 17-6: T - 10 °C below the LIMIT threshold, everywhere (R466). -/
def limitOf (i : Nat) : Int := if i = 6 then 100 else 95

/-- The code by which a sensor is judged: the last housekeeping code of TCORE, the last code of any other (R464). -/
def State.sensor (s : State) (i : Nat) : Option Nat :=
  if i = 6 then Tab.find s.pwr.house 6
  else if s.geti pgMon R.MON_VALID i = 1 then some (s.geti pgMon R.MON_CODE i) else none

/-- Every sensor reads at least so many degrees below its threshold. -/
def State.cooler (s : State) (thr : Nat → Int) (by_ : Int) : Bool :=
  (List.range 7).all fun i => match s.sensor i with | some c => decide ((c : Int) - 800 ≤ 16 * (thr i - by_)) | none => true

/-- A wake from a source of Table 17-3: 0 host, 1 Filmund, 2 timer, 3 GATE, 4 monitor.  After a trip only a cool device wakes, and only by a
write of PWR.WAKE (R466). -/
def wake (target cause : Nat) : Prog :=
  .ask fun s =>
    if bit (s.get pgPwr R.PWR_THERM_STAT) 3 then
      .when (cause = 0 && s.cooler limitOf 10) (.all [.setBit pgPwr R.PWR_THERM_STAT 3 false, wakeTaken target cause])
    else wakeTaken target cause

/-! ### Thermal protection (R464 to R466) -/

/-- Whether ALERT_N is asserted: until an Alert Response Address read is answered, and while a level is held (R464). -/
def State.alertOn (s : State) : Bool := s.pwr.alert || decide (bits (s.get pgPwr R.PWR_THERM_STAT) 2 0 ≠ 0)

/-- ALERT_N and THERM_N follow the levels (R464): both are active low. -/
def thermPins (old : State) : Prog :=
  .ask fun s =>
    let therm (t : State) : Bool := bit (t.get pgPwr R.PWR_THERM_STAT) 1
    .all [.when (s.alertOn != old.alertOn) (.out (.pin pinAlert (!s.alertOn))), .when (therm s != therm old) (.out (.pin pinTherm (!(therm s))))]

/-- Thresholds of WARN, LIMIT, SHUT and TRIP at a sensor in °C (Table 17-4). -/
def State.threshold (s : State) (level i : Nat) : Int :=
  match level with
  | 0 => if i = 6 then (bits s.pwr.therm 7 0 : Nat) else (bits s.pwr.therm 15 8 : Nat)
  | 1 => limitOf i
  | 2 => limitOf i + 5
  | _ => limitOf i + 10

/-- The sensor nearest its LIMIT threshold (Table 17-9). -/
def State.hottest (s : State) : Nat :=
  ((List.range 7).foldl (fun (a : Option (Int × Nat)) i => match s.sensor i with
    | some c =>
      let d := (c : Int) - 800 - 16 * limitOf i
      (match a with | some (m, j) => if m < d then some (d, i) else some (m, j) | none => some (d, i))
    | none => a) none).elim 0 (·.2)

/-- SHUT is reached, and the device acts on it (R465). -/
def shutDown : Prog :=
  .ask fun s => .all [
    .set pgTop R.TOP_FRAME_REPEAT 0,
    if s.pstate = 2 ∨ s.pstate = 3 then
      if s.fstate = 0 && !s.seg.openWait then beginTransit 1
      else if decide (s.fstate ≤ 1) then .all [frameCloseCmd, beginTransit 1]
      else .all [closeFrame 0 s.nowQ, .pwr fun p => { p with shutPend := true }]
    else .when (s.get pgPwr R.PWR_TRANSIT = 1) (.all [
      .set pgPwr R.PWR_TARGET 1,
      .each (s.waiters fun h => h.op = 0x31 && h.pf 0 1 0 = 2) fun e =>
        .all [.inc pgPwr R.PWR_CNT_REFUSED, finishCmd e.1 e.2.1 stBusy 1]])]

/-- The ports lose their power: no message leaves, and PARENT is lost where the upstream port carried it (R250, R466). -/
def portsOff : Prog :=
  .ask fun s => .all [
    .each (List.range 4) fun n => .all [setPort n 0, .set (pgFport n) R.FPORT_VER 0, modPort n fun _ => Port.reset],
    .when s.parentTrained (sourceGone 1), .link fun l => { l with ids := [], up := none }, showRoot]

/-- TRIP is reached at a sensor: every other domain is off at once, and nothing of R457 is done (R466). -/
def trip (i : Nat) : Prog :=
  .ask fun s => .all [
    .when (decide (s.pstate ≠ 0)) (.all [.set pgPwr R.PWR_STATE 0, portsOff, powerOff, raise pgPwr 1]),
    .set pgPwr R.PWR_RETAIN_OK 0, .setBit pgPwr R.PWR_THERM_STAT 3 true,
    .set pgPwr R.PWR_TRANSIT 0, .set pgPwr R.PWR_TARGET 0,
    capture pgPwr 0x20 i, logFault 0x11 Kind.pwr.ty i, .inc pgPwr R.PWR_CNT_TRIP]

/-- A level is reached for the first time while it does not hold: its bit sets, its event is raised, and WARN and LIMIT assert ALERT_N. -/
def thermReach (level event : Nat) : Prog :=
  .ask fun s => .when (!(bit (s.get pgPwr R.PWR_THERM_STAT) level)) (.all [
    .setBit pgPwr R.PWR_THERM_STAT level true, raise pgPwr event, .when (decide (level < 2)) (.pwr fun p => { p with alert := true })])

/-- A temperature code is compared with the levels (R464). -/
def thermCheck (i c : Nat) (house : Bool) : Prog :=
  .ask fun old =>
    let above (l : Nat) : Bool := decide (16 * old.threshold l i < (c : Int) - 800)
    .all [
      .when (above 0) (thermReach 0 3), .when (above 1) (thermReach 1 4),
      .when house (.pwr fun p => { p with hot := Tab.put p.hot i (if above 2 then Tab.get p.hot 0 i + 1 else 0) }),
      .ask fun s => .when (house && decide (2 ≤ Tab.get s.pwr.hot 0 i) && !(bit (s.get pgPwr R.PWR_THERM_STAT) 2)) (.all [
        thermReach 2 5, .inc pgPwr R.PWR_CNT_SHUT, .when (bit s.pwr.therm 16) shutDown]),
      .each (List.range 3) fun l => .ask fun s => .when (bit (s.get pgPwr R.PWR_THERM_STAT) l && s.cooler (s.threshold l) 2)
        (.setBit pgPwr R.PWR_THERM_STAT l false),
      .ask fun s => .when (decide (bits (old.get pgPwr R.PWR_THERM_STAT) 2 0 ≠ 0) && bits (s.get pgPwr R.PWR_THERM_STAT) 2 0 = 0)
        (raise pgPwr 6),
      .ask fun s => .set pgPwr R.PWR_HOTTEST s.hottest,
      thermPins old,
      .when (above 3 && !(bit (old.get pgPwr R.PWR_THERM_STAT) 3)) (trip i)]

/-! ### The monitor converter (R468 to R474) -/

/-- What comes first: the class, then the due instant, then the input (R470). -/
def MonReq.before (a b : MonReq) : Bool :=
  decide (a.cls < b.cls) || (a.cls = b.cls && (decide (a.due < b.due) || (a.due = b.due && decide (a.input < b.input))))

/-- The request started next, of those that are due. -/
def State.nextConv (s : State) : Option MonReq :=
  (s.pwr.reqs.filter fun r => decide (r.due ≤ s.now)).foldl
    (fun (a : Option MonReq) r => match a with | some x => if r.before x then some r else some x | none => some r) none

/-- A trigger of the converter: TMR timers 1 to 8, PWM outputs 9 to 16; an input that still waits for its last trigger drops this one
(R470). -/
def madcTrigger (src q : Nat) : Prog :=
  .ask fun s => .each (which 32 fun i => s.geti pgMon R.MON_TRIG i = src) fun i =>
    if s.pwr.reqs.any fun r => r.cls = 1 && r.input = i then incRaise pgMon R.MON_CNT_TRIG_LOST 6
    else .pwr fun p => { p with
      reqs := p.reqs ++ [{ cls := 1, input := i, due := q + nsQ (10 * s.geti pgMon R.MON_DELAY i), cmd := none }] }

/-- A MON_READ requests a conversion; an URGENT one aborts a conversion of another class, whose request returns to the head of its class
(R470, R471). -/
def monRequest (input : Nat) (urgent : Bool) (cmd : Nat) : Prog :=
  .ask fun s => .all [
    .pwr fun p => { p with
      reqs := p.reqs ++ [{ cls := if urgent then 0 else 3, input := input, due := s.now, cmd := some cmd }] },
    match s.pwr.running with
    | some (r, _, _) => .when (urgent && decide (r.cls ≠ 0)) (.all [
        .pwr fun p => { p with reqs := { r with due := 0 } :: p.reqs, running := none },
        .inc pgMon R.MON_CNT_ABORT, .set pgMon R.MON_BUSY 0])
    | none => .nil]

/-- The window comparator of an input takes a code (R473). -/
def windowStep (i c : Nat) : Prog :=
  .ask fun s => .when s.pwr.setup.en (
    let lo := s.pwr.setup.lo
    let hi := s.pwr.setup.hi
    let hyst := s.pwr.setup.hyst
    let w := s.geti pgMon R.MON_WIN i
    let w' :=
      if w = 0 then (if hi < c then 2 else if c < lo then 3 else 1)
      else if (w = 1 ∨ w = 3) ∧ hi < c then 2
      else if (w = 1 ∨ w = 2) ∧ c < lo then 3
      else if w = 2 ∧ c + hyst ≤ hi then 1
      else if w = 3 ∧ lo + hyst ≤ c then 1
      else w
    .all [.seti pgMon R.MON_WIN i w',
      .when (decide (w' ≠ w) && decide (2 ≤ w')) (.all [
        .setBit pgMon R.MON_WIN_EXIT i true,
        raise pgMon (if i < 7 then 1 else if i < 16 then 2 else if i < 24 then 3 else 4),
        .when (s.get pgPwr R.PWR_WAKE_EN_MON = 1 && bit (s.get pgMon R.MON_WIN_WAKE) i) (wake (s.get pgPwr R.PWR_TGT_MON) 4)])])

/-- A Q-time to the nearest 10 ns. -/
def near10ns (q : Nat) : Nat := nsQ (10 * ((q * 10 ^ 8 + 2 ^ 47) / 2 ^ 48))

/-- The streams that take a conversion of an input that started at a Q-time (R474). -/
def State.monStreams (s : State) (i q : Nat) : List Nat :=
  if (s.fstate = 2 || s.fstate = 3) && decide (s.seg.tOpen ≤ q) && (match s.seg.tClose with | some u => decide (q < u) | none => true) then
    which 256 fun n => s.en (pgSt n) && s.st n R.ST_SRC_KIND = 3 && s.st n R.ST_SRC % 32 = i && decide ((s.strm n).since ≤ q)
  else []

/-- The raw result of the conversion that runs becomes a code (R469). -/
def State.monCode (s : State) (raw : Nat) : Nat :=
  let v := divAway (((raw : Int) - sgn 12 s.pwr.setup.offs) * s.pwr.setup.gain) 32768
  min 4095 v.toNat

/-- What a conversion of an input takes from the MON page as it starts (Table 17-10). -/
def State.monSetup (s : State) (i : Nat) : MonSetup :=
  { gain := s.get pgMon R.MON_GAIN_CORR, offs := s.get pgMon R.MON_OFFS_CORR, lo := s.geti pgMon R.MON_LO i, hi := s.geti pgMon R.MON_HI i,
    hyst := s.geti pgMon R.MON_HYST i, en := s.geti pgMon R.MON_WIN_EN i = 1 }

/-- Whether the converter starts a conversion in low-power mode: as LOW_POWER selects, and always in DORMANT (R472). -/
def State.convLow (s : State) : Bool := s.pstate = 0 || s.get pgMon R.MON_LOW_POWER = 1

/-- Whether the conversion that started at a Q-time has had its time: 1 µs, and 16 µs in low-power mode (R471).  A step of Q-time back across
its start ends the count. -/
def State.convOver (s : State) (start : Nat) : Bool := decide (s.now < start) || decide (start + usQ (if s.pwr.lowPower then 16 else 1) ≤ s.now)

/-- A conversion ends with a raw result (R464, R469 to R474). -/
def conversionDone (raw : Nat) : Prog :=
  .ask fun s =>
    match s.pwr.running with
    | none => .nil
    | some (r, start, late) => .when (s.convOver start) (
      let c := s.monCode raw
      .all [
        .pwr fun p => { p with
          running := none, house := if r.cls = 2 ∧ r.input < 7 then Tab.put p.house r.input c else p.house },
        .set pgMon R.MON_BUSY 0, .inc pgMon R.MON_CNT_CONV,
        .seti pgMon R.MON_CODE r.input c, .seti pgMon R.MON_VALID r.input 1, .seti pgMon R.MON_LATE r.input (b2n late),
        windowStep r.input c,
        .each (s.monStreams r.input start) fun n => addEntry n (leBytes 2 c) (near10ns start),
        (match r.cmd with | some k => finishCmd (k / 8) (k % 8) stOK c | none => .nil),
        .when (decide (r.input < 6) || (r.input = 6 && r.cls = 2)) (thermCheck r.input c (r.cls = 2))])

/-- A write of 1 to SELFCAL (R469). -/
def selfcal : Prog := .all [.set pgMon R.MON_SELFCAL 1, .pwr fun p => { p with selfcal := true }]

/-- A self-calibration ends with the factors it measured (R469). -/
def selfcalDone (gain : Nat) (offs : Int) : Prog :=
  .ask fun s => .when s.pwr.selfcal (.all [
    .set pgMon R.MON_SELFCAL 0, .pwr fun p => { p with selfcal := false, first := true },
    if 29491 ≤ gain ∧ gain ≤ 36044 ∧ -64 ≤ offs ∧ offs ≤ 63 then .all [
      .set pgMon R.MON_GAIN_CORR gain, .set pgMon R.MON_OFFS_CORR (unsgn 12 offs), .set pgMon R.MON_CAL_VALID 1]
    else .all [capture pgMon 0x20 (gain % 2 ^ 16), logFault 0x07 Kind.mon.ty (gain % 2 ^ 16)],
    .each (List.range 32) fun i => .seti pgMon R.MON_WIN i 0,
    raise pgMon 5])

/-! ### PWM outputs (R477) -/

/-- An output's working state. -/
def State.pwm (s : State) (n : Nat) : Pwm := Tab.get s.pwr.pwms Pwm.reset n

/-- Whether an output's ball is high. -/
def State.pwmLevel (s : State) (n : Nat) : Bool :=
  (s.geti pgTmr R.TMR_PWM_EN n = 1 && decide ((s.pwm n).cnt < (s.pwm n).high)) != (s.geti pgTmr R.TMR_PWM_POL n = 1 : Bool)

/-- The ball of an output follows its level, which was that of an earlier state. -/
def pwmPin (old : State) (n : Nat) : Prog :=
  .ask fun s => .when (s.pwmLevel n != old.pwmLevel n) (.out (.pin (pinPwm n) (s.pwmLevel n)))

/-- The output's event, at count MATCH: its source is set, and it triggers the converter. -/
def pwmEvent (n : Nat) : Prog := .ask fun s => .all [raise pgTmr (9 + n), madcTrigger (9 + n) s.now]

/-- The count takes a value, with the event where that is MATCH. -/
def pwmCount (n c : Nat) : Prog :=
  .ask fun old => .all [
    .pwr fun p => { p with pwms := Tab.mod p.pwms Pwm.reset n fun x => { x with cnt := c } },
    .when ((old.pwm n).mat = c) (pwmEvent n), pwmPin old n]

/-- Count 0: PERIOD, HIGH and MATCH as written take effect. -/
def pwmZero (n : Nat) : Prog :=
  .ask fun s => .all [
    .pwr fun p => { p with pwms := Tab.mod p.pwms Pwm.reset n fun x => { x with
      period := s.geti pgTmr R.TMR_PWM_PERIOD n, high := s.geti pgTmr R.TMR_PWM_HIGH n, mat := s.geti pgTmr R.TMR_PWM_MATCH n } },
    .ask fun t => .all [.pwr fun p => { p with pwms := Tab.mod p.pwms Pwm.reset n fun x => { x with cnt := 0 } },
      .when ((t.pwm n).mat = 0) (pwmEvent n), pwmPin s n]]

/-- One XCLK period of every running output. -/
def pwmTick : Prog :=
  .ask fun s => .each (which 8 fun n => s.geti pgTmr R.TMR_PWM_EN n = 1) fun n =>
    if (s.pwm n).period ≤ (s.pwm n).cnt + 1 then pwmZero n else pwmCount n ((s.pwm n).cnt + 1)

/-- EN or POL of an output has been written: one that is off starts from count 0. -/
def pwmWritten (old : State) (n : Nat) : Prog :=
  .ask fun s =>
    if s.geti pgTmr R.TMR_PWM_EN n = 1 && old.geti pgTmr R.TMR_PWM_EN n = 0 then .all [pwmZero n, pwmPin old n] else pwmPin old n

/-! ### Timers (R475, R476) -/

/-- EXP in force of a timer. -/
def State.timerExp (s : State) (k : Nat) : Nat := Tab.get s.pwr.exps 0 k

/-- EXP takes a value from the device (R475). -/
def setExp (k q : Nat) : Prog :=
  .all [.seti pgTmr R.TMR_EXP0 k (qWord q 0), .seti pgTmr R.TMR_EXP1 k (qWord q 1), .seti pgTmr R.TMR_EXP2 k (qWord q 2),
    .pwr fun p => { p with exps := Tab.put p.exps k q }]

/-- A write of the last word of EXP puts it in force (Table 17-12). -/
def expWritten (k : Nat) : Prog :=
  .ask fun s => .pwr fun p => { p with
    exps := Tab.put p.exps k (qOfWords (s.geti pgTmr R.TMR_EXP0 k) (s.geti pgTmr R.TMR_EXP1 k) (s.geti pgTmr R.TMR_EXP2 k)) }

/-- An armed timer expires once Q-time has reached EXP, with EXP as its anchor, for every user it has.  It is late where ARM found EXP past,
or EXP is more than an XCLK period past (R475, R476). -/
def timerExpire (k : Nat) (arming : Bool) : Prog :=
  .ask fun s =>
    let e := s.timerExp k
    let late : Bool := (arming && decide (e < s.now)) || decide (e + nsQ 20 < s.now)
    let per := s.geti pgTmr R.TMR_PERIOD_LO k + s.geti pgTmr R.TMR_PERIOD_HI k * 2 ^ 32
    .when (s.geti pgTmr R.TMR_ARM k = 1 && decide (e ≤ s.now)) (.all [
      .addi pgTmr R.TMR_CNT_EXP k 1, raise pgTmr (1 + k), .when late (.addi pgTmr R.TMR_CNT_LATE k 1),
      if s.geti pgTmr R.TMR_PERIODIC k = 1 && decide (per ≠ 0) then
        (if late then
          let n := (s.now - e) / per + 1
          .all [setExp k (e + n * per), .addi pgTmr R.TMR_CNT_SKIP k (n - 1)]
        else setExp k (e + per))
      else .seti pgTmr R.TMR_ARM k 0,
      .when (decide (s.pstate ≠ 0)) (srcEvent (32 + k) e false),
      .each (s.pacedBy 1 k) paceRing,
      madcTrigger (1 + k) e,
      .each (which 8 fun n => s.geti pgTmr R.TMR_ALIGN_EN n = 1 && s.geti pgTmr R.TMR_ALIGN_TMR n = k && s.geti pgTmr R.TMR_PWM_EN n = 1)
        pwmZero,
      .when (s.get pgPwr R.PWR_WAKE_EN_TMR = 1 && s.get pgPwr R.PWR_WAKE_TMR = k) (wake (s.get pgPwr R.PWR_TGT_TMR) 2)])

/-- A write that sets ARM: a timer whose EXP is past expires at once (R476). -/
def timerArmed (k : Nat) : Prog := timerExpire k true

/-! ### Gates (R134, R321, R462) -/

/-- The level at ball GATEg changes: it is exported, is the GATEg signal unless that comes from the line, and may wake the device. -/
def gateBall (g : Nat) (v : Bool) : Prog :=
  .ask fun s => .when (decide (g < 4) && decide (Tab.get s.link.ball false g ≠ v)) (.all [
    .link fun l => { l with ball := Tab.put l.ball g v },
    .when (decide (s.pstate ≠ 0)) (.all [
      .when (bit (s.get pgFlink R.FLINK_GATE_EXP) g) (.all [
        floodGate (anchorMsg s 4 (g + 4 * b2n v) s.nowQ) none, gateMsg g v s.nowQ]),
      .when (!(bit (s.get pgFlink R.FLINK_GATE_SRC) g)) (gateLevel g v)]),
    .when (v && s.get pgPwr R.PWR_WAKE_EN_GATE = 1 && s.get pgPwr R.PWR_WAKE_GATE = g) (wake (s.get pgPwr R.PWR_TGT_GATE) 3)])

/-- A WAKE message: forwarded where it is flooded or for another device, and a wake to the state it names (R323). -/
def wakeIn (n target src dst route hops : Nat) : Prog :=
  .ask fun s =>
    let m : Msg := { ownMsg s 5 0 route dst 0 [target] with src := src, hops := hops }
    if route = 1 then .all [
      if 63 ≤ hops then .inc (pgFport n) R.FPORT_CNT_RX_DROP
      else .each (s.wakePorts n dst 1) fun p => sendLink p { m with hops := hops + 1 },
      .when (s.get pgFlink R.FLINK_WAKE_EN = 1) (wake target 1)]
    else if dst = s.devId then .when (s.get pgFlink R.FLINK_WAKE_EN = 1) (wake target 1)
    else forwardUnicast n m

/-! ### Reaching STANDBY and READY (R456, R460, R463) -/

/-- A POWER_STATE that waits for a state completes; RESULT is the state it left, READY for STANDBY and STANDBY for READY (R398,
Table 14-4). -/
def finishPower (target : Nat) : Prog :=
  .ask fun s => .each (s.waiters fun h => h.op = 0x31 && h.pf 0 1 0 = target) fun e => finishCmd e.1 e.2.1 stOK (3 - target)

/-- Once STANDBY is reached, every source pending on the pages of the acorn domain is delivered (R463). -/
def deliverPending : Prog :=
  .all [
    .host fun h => { h with evtHeld := [] },
    .each [pgTop, pgTime, pgMon, pgTmr, pgPwr] fun p => .ask fun s =>
      .each (which 32 fun k => bit (s.evtRaw p) k && bit (s.evtEn p) k) fun k => deliver (p.events.1 + k)]

/-- A transition to STANDBY ends; from DORMANT with both loops locked (R281), and the code-density tests of a power-up of the core begun (R264). -/
def standbyReached : Prog :=
  .ask fun s => .when (s.get pgPwr R.PWR_TRANSIT = 1) (
    if s.pstate = 0 then .when (s.scsRun && s.get pgClk R.CLK_CPLL_STATE = 4) (.all [
      linkPagesReset, cdStart 0, cdStart 1, setPower 1, .set pgPcie R.PCIE_PM_STATE 0, deliverPending, leaveKeepAlive, showRoot, placeAll,
      if s.get pgPwr R.PWR_TARGET = 2 then (if s.readyBarred then .all [.set pgPwr R.PWR_TRANSIT 0, .set pgPwr R.PWR_TARGET 0] else readyStart)
      else .all [.set pgPwr R.PWR_TRANSIT 0, .set pgPwr R.PWR_TARGET 0]])
    else .when (s.get pgPwr R.PWR_TARGET = 1) (.all [
      .when (decide (s.pstate = 2)) retain, diesOff, .pwr fun p => { p with shutPend := false, used := [] },
      setPower 1, .set pgPwr R.PWR_TRANSIT 0, .set pgPwr R.PWR_TARGET 0, finishPower 1]))

/-- Nothing of the way to READY is outstanding: no channel settles, and no run nor start-up calibration is in progress (R460). -/
def State.calibrated (s : State) : Bool :=
  s.cal.startup.isEmpty && s.cal.runs.isEmpty && (which 8 s.chanOn).all fun c => (s.banksOf c).all fun b => !(s.settling b)

/-- The way to READY ends, which START_DONE marks (R460). -/
def readyReached : Prog :=
  .ask fun s => .when (s.pstate = 1 && s.get pgPwr R.PWR_TRANSIT = 1 && s.get pgPwr R.PWR_TARGET = 2 && s.calibrated) (.all [
    setPower 2, .set pgPwr R.PWR_TRANSIT 0, .set pgPwr R.PWR_TARGET 0, .each [0, 1] (fun d => .setBit pgCal R.CAL_START_DONE d true), showRot,
    dispTrain, finishPower 2])

/-! ### POWER_STATE (R398, R456, R457) -/

/-- A POWER_STATE for another state than the present one is refused (Table 17-1, R465, Table 19-8). -/
def State.powerRefused (s : State) (target : Nat) : Bool :=
  s.pstate = 3 || s.get pgPwr R.PWR_TRANSIT = 1 || (target = 2 && s.readyBarred) ||
    (decide (target < 2) && (decide (s.fstate ≠ 0) || s.seg.openWait || s.get pgCal R.CAL_RUN_ACTIVE = 1)) ||
    (target = 0 && (List.range 256).any fun n => !(s.strm n).queue.isEmpty)

/-- DORMANT is entered on a command: the other commands end, the completion is written, rings stop with their write-backs landed, contexts are
freed, and everything but the acorn domain is off (R457). -/
def enterDormant (q k : Nat) : Prog :=
  .all [
    .ask fun s => .all [
      .each (s.allHeld.filter fun e => !(e.1 = q && e.2.1 = k)) fun e =>
        .all [endCmd e.1 e.2.1 4 stResetAbort 0xF1, cmdCleanup (e.1 * 8 + e.2.1)],
      .each s.cmd.queue fun h => sendCompletion h q stResetAbort 0xF1,
      .cmd fun c => { c with queue := [] }],
    .ask fun s => finishCmd q k stOK s.pstate,
    .ask fun s => .each (s.host.rings.map (·.1)) fun n => .all [
      .when (s.get (pgRing n) R.RING_EN = 1) (disableRing n),
      .ask fun t => .each (t.ring n).ents fun _ => landed n true],
    .ask fun s => .each s.ctxList freeCtx,
    retain, raise pgPwr 1, dispOff, enterKeepAlive, .set pgPwr R.PWR_STATE 0, powerOff]

/-! ### SMBus (R464, R467) -/

/-- A temperature in 0.125 °C from a housekeeping code; before the first scan the value is open. -/
def smbTemp (codes : List (Option Nat)) : Prog :=
  match (codes.filterMap id).max? with
  | some c => .out (.smbus (leBytes 2 (unsgn 16 (divAway ((c : Int) - 800) 2))))
  | none => withFree fun v => .out (.smbus (leBytes 2 v))

/-- The latest housekeeping codes of some inputs, where there are any. -/
def State.houses (s : State) (is : List Nat) : List (Option Nat) := is.map fun i => Tab.find s.pwr.house i

/-! ### Meanings -/

/-- A transition to STANDBY completes (R456, R463). -/
def execStandbyReached (s : State) : Host.Outcome State Fault Refusal := .next (run standbyReached s)

/-- The way to READY ends (R460). -/
def execReadyReached (_ : Unit) (s : State) : Host.Outcome State Fault Refusal := .next (run readyReached s)

/-- A Q-time millisecond: inputs 0 to 15 are requested (R470), and the thermal thresholds are read (Table 17-9). -/
def execHousekeepingScan (s : State) : Host.Outcome State Fault Refusal :=
  .next (run (.ask fun s => .pwr fun p => { p with
    therm := (s.cell (pgPwr.base + 0x050)).toNat,
    reqs := p.reqs ++ ((List.range 16).filter fun i => !(p.reqs.any fun r => r.cls = 2 && r.input = i)).map fun i =>
      { cls := 2, input := i, due := s.now, cmd := none } }) s)

/-- The converter is free and starts the next request (R470), with the fields of the MON page as they stand, and its input's state UNKNOWN where
WIN_EN has been written 1 (Table 17-10). -/
def execConversionStart (s : State) : Host.Outcome State Fault Refusal :=
  .next (run (.ask fun s => .when (s.pwr.running.isNone && !s.pwr.selfcal && s.pwr.first) (
    match s.nextConv with
    | none => .nil
    | some r =>
      let late : Bool := r.cls = 1 && decide (r.due + nsQ 20 ≤ s.now)
      .all [
        .pwr fun p => { p with
          reqs := delFirst (fun x => x = r) p.reqs, running := some (r, s.now, late), lowPower := s.convLow,
          setup := s.monSetup r.input, winNew := p.winNew.filter (· ≠ r.input) },
        .when (s.pwr.winNew.contains r.input) (.seti pgMon R.MON_WIN r.input 0),
        .set pgMon R.MON_BUSY 1, .set pgMon R.MON_CUR_INPUT r.input, .when late (.inc pgMon R.MON_CNT_LATE)])) s)

/-- A conversion ends with a raw result (R469). -/
def execConversionDone (raw : Nat) (s : State) : Host.Outcome State Fault Refusal := .next (run (conversionDone raw) s)

/-- A self-calibration ends with the factors it measured (R469). -/
def execSelfcalDone (gain : Nat) (offs : Int) (s : State) : Host.Outcome State Fault Refusal := .next (run (selfcalDone gain offs) s)

/-- Q-time reaches EXP of a timer (R475, R476). -/
def execTimerExpiry (k : Nat) (s : State) : Host.Outcome State Fault Refusal := .next (run (.when (decide (k < 8)) (timerExpire k false)) s)

/-- The count of an output reaches MATCH (R477). -/
def execPwmMatch (n : Nat) (s : State) : Host.Outcome State Fault Refusal :=
  .next (run (.ask fun s => .when (decide (n < 8) && s.geti pgTmr R.TMR_PWM_EN n = 1 && decide ((s.pwm n).mat < (s.pwm n).period))
    (pwmCount n (s.pwm n).mat)) s)

/-- The count of an output returns to 0 (R477). -/
def execPwmPeriodEnd (n : Nat) (s : State) : Host.Outcome State Fault Refusal :=
  .next (run (.ask fun s => .when (decide (n < 8) && s.geti pgTmr R.TMR_PWM_EN n = 1) (pwmZero n)) s)

/-- A stack that has had no access for 100 µs in STANDBY returns to self-refresh (R461). -/
def execHbmSelfRefresh (stack : Nat) (s : State) : Host.Outcome State Fault Refusal :=
  .next (run (.ask fun s => match Tab.find s.pwr.used stack with
    | some q => .when (s.pstate = 1 && decide (q + usQ 100 ≤ s.now)) (.all [
        .pwr fun p => { p with used := Tab.del p.used stack },
        .each [2 * stack, 2 * stack + 1] fun m => .set (pgMc m) R.MC_MODE 1])
    | none => .nil) s)

/-- SMBus command 0x01 (Table 17-5). -/
def execSmbusStatus (s : State) : Host.Outcome State Fault Refusal :=
  .next (run (.ask fun s => .out (.smbus (leBytes 1 (s.pstate + s.get pgPwr R.PWR_TRANSIT * 4 + s.get pgPwr R.PWR_THERM_STAT * 16)))) s)

/-- SMBus command 0x02 (Table 17-5). -/
def execSmbusTcore (s : State) : Host.Outcome State Fault Refusal := .next (run (.ask fun s => smbTemp (s.houses [6])) s)

/-- SMBus command 0x03 (Table 17-5). -/
def execSmbusTfe0 (s : State) : Host.Outcome State Fault Refusal := .next (run (.ask fun s => smbTemp (s.houses [0, 1, 2])) s)

/-- SMBus command 0x04 (Table 17-5). -/
def execSmbusTfe1 (s : State) : Host.Outcome State Fault Refusal := .next (run (.ask fun s => smbTemp (s.houses [3, 4, 5])) s)

/-- SMBus command 0x05 (Table 17-5): the name, a zero byte, and BOOT_VER. -/
def execSmbusIdentity (s : State) : Host.Outcome State Fault Refusal :=
  .next (run (.ask fun s => .out (.smbus ([0x45, 0x41, 0x39, 0x31, 0x38, 0x30, 0x2D, 0x46, 0x43, 0x37, 0x30, 0x00] ++
    leBytes 4 (s.get pgSec R.SEC_BOOT_VER)))) s)

/-- A read of the Alert Response Address while ALERT_N is asserted is answered with the device's address (R464, R467). -/
def execSmbusAlertResponse (s : State) : Host.Outcome State Fault Refusal :=
  .next (run (.ask fun s => .when s.alertOn (.all [
    .out (.smbus [BitVec.ofNat 8 (s.get pgPwr R.PWR_SMB_ADDR * 2)]),
    .pwr fun p => { p with alert := false }, thermPins s])) s)

/-- The level at a GATE ball changes (R134, R321, R462). -/
def execGateEdge (g : Nat) (level : Bool) (s : State) : Host.Outcome State Fault Refusal := .next (run (gateBall g level) s)

/-- A WAKE message arrives, for a state, flooded (route 1) or for a device (R323). -/
def execWake (n target src dst route hops : Nat) (crc : Bool) (s : State) : Host.Outcome State Fault Refusal :=
  .next (run (.ask fun s =>
    rxForward n 5 hops crc { ownMsg s 5 0 route dst 0 [target] with src := src, hops := hops } (fun t => t.wakePorts n dst route)
      (wakeIn n target src dst route hops)) s)

end Sys2Proof.Machine
end

