-- ==== Sys2Proof/Machine/Reset.lean ====
section
/-! DEFINITION. Resets: of a block page, a sequencer, a shell, a function, a front-end die, the core, and the whole device
(R45, R338, R414, R510 to R515, R530). -/

namespace Sys2Proof.Machine

/-! ### Block soft reset (R45) -/

/-- Cells of a page that are listed. -/
def State.cellsOf (s : State) (p : Pg) : List Nat :=
  (s.regs.filter fun e => decide (p.base ≤ e.1) && decide (e.1 < p.base + p.kind.size)).map (·.1)

/-- The RO fields of a page that show hardware which a soft reset of the page leaves running: once the reset is complete they show it again,
and no field is listed that records something past (DEDUCED from R45 and R49, log entry 111).  DBG_LOCK is here by R453: no reset other than
POR_N clears it. -/
def Kind.shows : Kind → List Row
  | .top => [R.TOP_HELD, R.TOP_STATE, R.TOP_STRAPS, R.TOP_STAGE, R.TOP_NO_IMAGE, R.TOP_RST_CAUSE, R.TOP_BUSY]
  | .clk => [R.CLK_STATE, R.CLK_GATED, R.CLK_BAND, R.CLK_REF_OK, R.CLK_SYNCED, R.CLK_CPLL_STATE, R.CLK_CPLL_BAND, R.CLK_SQ_HALF]
  | .time => [R.TIME_SEL, R.TIME_STATE, R.TIME_QUAL, R.TIME_STEP_PEND, R.TIME_TAI_VALID, R.TIME_PHASE_ERR, R.TIME_STEER,
      R.TIME_SCLK_OFFSET, R.TIME_TIE_P_LO, R.TIME_TIE_P_HI]
  | .mon => [R.MON_CAL_VALID, R.MON_BUSY, R.MON_CUR_INPUT]
  | .pwr => [R.PWR_STATE, R.PWR_TRANSIT, R.PWR_TARGET, R.PWR_RETAIN_OK, R.PWR_THERM_STAT, R.PWR_HOTTEST]
  | .flash => [R.FLASH_BUSY, R.FLASH_WARN, R.FLASH_GOOD, R.FLASH_SPARE_LEFT, R.FLASH_MAX_ERASES, R.FLASH_WORST_SECTOR, R.FLASH_RCV_STAT]
  | .sec => [R.SEC_GEN, R.SEC_PEND, R.SEC_REVOKING, R.SEC_DBG_LOCK, R.SEC_DBG_FUSE, R.SEC_DBG_ACTIVE, R.SEC_FALLBACK, R.SEC_CUST_VALID,
      R.SEC_KEY_VALID, R.SEC_BOOT_VER, R.SEC_UCODE_VER]
  | .bank => [R.BANK_SETTLING, R.BANK_POWERED, R.BANK_LEAD, R.BANK_LINK_OK, R.BANK_CHANNEL, R.BANK_EFF_MODE, R.BANK_EFF_RANGE,
      R.BANK_EFF_BW, R.BANK_EFF_EQ_PASS, R.BANK_OUT_SLICE, R.BANK_OUT_POS, R.BANK_WAIT_SLICE, R.BANK_ROT_STATE, R.BANK_FSB,
      R.BANK_SLICE_0, R.BANK_SLICE_1, R.BANK_SLICE_2, R.BANK_SLICE_3]
  | .cal => [R.CAL_RUN_ACTIVE, R.CAL_RUN_KIND, R.CAL_RUN_IN_FRAME, R.CAL_DUE, R.CAL_RUN_CHAN, R.CAL_START_DONE, R.CAL_NO_SET,
      R.CAL_CAL_BAD, R.CAL_CHOLD, R.CAL_OVERRIDE, R.CAL_TEMP_NOW, R.CAL_VALID_FE0, R.CAL_VALID_FE1, R.CAL_LOWER_FE0, R.CAL_UPPER_FE0,
      R.CAL_LOWER_FE1, R.CAL_UPPER_FE1, R.CAL_SET_POINT_FE0, R.CAL_SET_POINT_FE1]
  | .mc => [R.MC_PC_UP, R.MC_MODE, R.MC_STACK_TEMP]
  | .arb => [R.ARB_CLASS, R.ARB_WAITING, R.ARB_RES_LIMIT]
  | .pcie => [R.PCIE_SPEED, R.PCIE_WIDTH, R.PCIE_PM_STATE, R.PCIE_NUM_VF]
  | .enet => [R.ENET_LINK, R.ENET_PAUSED]
  | .rdma => [R.RDMA_SUM_E0, R.RDMA_SUM_E1, R.RDMA_SUM_PCIE, R.RDMA_CTX_USED, R.RDMA_ADM_CHARGE, R.RDMA_ADM_SUMMED]
  | .text => [R.TEXT_LEVEL]
  | .flink => [R.FLINK_ROOT_ID, R.FLINK_DEPTH, R.FLINK_IS_ROOT, R.FLINK_REMOTE_OUT]
  | .fport => [R.FPORT_STATE, R.FPORT_ROLE]
  | _ => []

/-- A word of a page after its soft reset: reset values, and beside them what the page shows of hardware that runs on. -/
def State.softWord (s : State) (p : Pg) (a : Nat) : Word :=
  let rel := a - p.base
  if decide (rel < 0x40) || decide (0x800 ≤ rel) then resetWord a
  else (p.kind.shows.filter fun r => r.lies rel).foldl
    (fun w r => putField w r.hi r.lo (bits (s.cell a).toNat r.hi r.lo)) (resetWord a)

/-- Every field of a page returns to its reset value, but EVT_BASE, which is constant, SHELL_OWNER, and what the page shows. -/
def softCells (p : Pg) : Prog :=
  .ask fun s => .each (s.cellsOf p) fun a => .when (decide (a - p.base ≠ 0x02C)) (.one (.wr a (s.softWord p a)))

/-- Provisional triggers and sequence waits of every definition are cancelled. -/
def cancelDefs : Prog :=
  .all [
    .each (List.range 16) fun d => .all [
      modDef d fun t => { t with provs := t.provs.map (fun p => { p with done := some (p.done.getD false) }), seqWait := none, firings := [] },
      defSettle d],
    .trig fun t => { t with defs := [], waiting := [] }]

/-- The TRIG_OUT and TRIG_CXL pins return to their idle level under the reset polarity. -/
def toutsOff (old : State) : Prog :=
  .all [
    .each (List.range 4) fun n =>
      let inv : Bool := old.livei pgText R.TEXT_OPOL n = 1
      .all [
        .when ((old.tout n).outOn != inv) (.out (.pin (pinTrigOut n) false)),
        .when ((old.tout n).cxlOn != inv) (.out (.pin (pinTrigCxl n) false))],
    .trig fun t => { t with touts := [], remotes := [] }]

/-- A sequencer is reset (R414). -/
def sqReset (q : Nat) : Prog :=
  .ask fun s => .all [
    .each ((s.seqr q).held.map (·.1)) fun k => .all [endCmd q k 4 stResetAbort 0xF0, cmdCleanup (q * 8 + k)],
    modSeqr q fun _ => Seqr.reset,
    .each (s.lmem.filter fun e => e.1 / 65536 = q) fun e => .one (.lmem e.1 [0]),
    .cmd fun c => { c with dmas := c.dmas.filter fun d => d.sq ≠ q }]

/-- The LINK_REMOTE commands that wait for a response end with their block (Table 19-6). -/
def abortRemotes : Prog :=
  .ask fun s => .all [
    .each s.link.reqs fun r => abortCmd (r.cmd / 8) (r.cmd % 8) 4 stResetAbort 0xF1,
    .link fun l => { l with reqs := [], evFifo := [] }, .set pgFlink R.FLINK_REMOTE_OUT 0]

/-- What stops before a page's fields are reset. -/
def softBefore (p : Pg) : Prog :=
  match p.kind with
  | .st => .all [streamStop p.inst 5, unbindStream p.inst]
  | .tu => tuRestart p.inst
  | .tcomb => cancelDefs
  | .tdc => modTdc p.inst fun t => { Tdc.reset with level := t.level }
  | .acc => .seg fun g => { g with strms := g.strms.map fun e => (e.1, { e.2 with bins := [], ep := Epoch.reset }) }
  | .den => .seg fun g => { g with maps := [] }
  | .diff => .time fun t => { t with pairs := [] }
  | .sq => sqReset p.inst
  | .disp => .all [dispOff, .disp fun _ => State.reset.disp]
  | .cal => .ask fun s => .all [.each (s.cal.runs.map (·.1)) abortRun, openPending]
  | .flink => abortRemotes
  | .fport => portDown p.inst true
  | .enet => .each (List.range 4) fun i => subportDown (4 * p.inst + i)
  | .sec => .ask fun s => .all [.each s.denials fun _ => .one .denyPop, .sec fun x => { x with denyLatch := [] }]
  | .pcie => .host fun h => { h with vecs := State.reset.host.vecs, coal := [] }
  | _ => .nil

/-- What follows from the reset values, given the machine before the reset. -/
def softAfter (old : State) (p : Pg) : Prog :=
  match p.kind with
  | .top => .all [.sys fun x => { x with openSet := 0 }, .when (old.get pgTop R.TOP_HOLD = 1) (.all [holdReleased, .set pgTop R.TOP_HELD 0, openPending])]
  | .clk => commitClk
  | .time => discWritten
  | .tmr => .each (List.range 8) (pwmWritten old)
  | .bank => .all [bankEffects old, .when (!(old.en p)) (bankEnWritten p.inst false true), openPending]
  | .cal => .all [showRuns, showOverride, showRot]
  | .text => .all [toutsOff old, polChanged old, .when (!(old.en pgText)) (textEnWritten true)]
  | .hist => .all [
      .ask fun s => .each (which 8 fun c => s.chanExists c && decide (s.livei pgHist R.HIST_DEPTH c ≠ old.livei pgHist R.HIST_DEPTH c)) emptyHist,
      placeAll, showPool]
  | .acc | .den => .all [engineStat, showPool]
  | .st => .all [modStrm p.inst fun t => { t with outSeq := 0, contK := 0, gap := false }, eqStat p.inst, placeAll, showPool]
  | .sq => sqStat p.inst
  | .flink => .ask fun s => .all [
      .when (decide (old.devId ≠ 0)) (devIdWritten 0),
      .when (decide (old.get pgFlink R.FLINK_UP_PORT ≠ s.get pgFlink R.FLINK_UP_PORT))
        (upPortWritten (old.get pgFlink R.FLINK_UP_PORT) (s.get pgFlink R.FLINK_UP_PORT)),
      gateSrcWritten old]
  | .fport => portRetry p.inst
  | .enet => .all [ptpRestart p.inst]
  | _ => .nil

/-- A soft reset of a block page starts: the page reads RESET_BUSY until it is complete (R45). -/
def softReset (p : Pg) : Prog :=
  .ask fun old => .all [
    softBefore p, softCells p, softAfter old p, .when (framePages.contains p) showHeld,
    .one (.fld (p.base + 0x00C) 1 1 1), .one (.fld (p.base + 0x010) 1 1 1)]

/-- A soft reset is complete (R45). -/
def softResetDone (p : Pg) : Prog :=
  .ask fun s => .when (p.kind.isBlock && decide (p.inst < p.kind.count) && s.busy p)
    (.all [.one (.fld (p.base + 0x00C) 1 1 0), .one (.fld (p.base + 0x010) 1 1 0)])

/-! ### Shell and function-level resets (R338, R514, R515) -/

/-- Pages of a kind that a shell owns. -/
def State.pagesOf (s : State) (n : Nat) (p : Pg → Bool) : List Pg :=
  ((s.sec.owners.filter fun e => e.2 = n).map fun e => (locate e.1).1).filter p

/-- The work of a shell stops (R514); for a function-level reset without a write to the function's memory, and with its contexts left to
send their pips (R515). -/
def shellWork (n : Nat) (flr : Bool) : Prog :=
  .ask fun s => .all [
    abortWhere (fun h => h.shell = n) (if flr then 2 else 4) stResetAbort 0xF1,
    .each (s.pagesOf n fun p => p.kind = .st || p.kind = .tu || p.kind = .tdc || p.kind = .disp) softReset,
    .each (s.ringsOf n) fun r => .all [destStop (65536 + r) 5,
      if flr then abandonRing r else .when (s.get (pgRing r) R.RING_EN = 1) (stopRing r 4)],
    .when (!flr) (.each (s.pagesOf n fun p => p.kind = .qpc) fun p => destStop (s.ctxKey p.inst) 5)]

/-- A write of 1 to SHELL_RST.GO (R514). -/
def shellReset : Prog :=
  .ask fun s =>
    let n := s.get pgTop R.TOP_SHELL
    if n = supervisor || !(s.shellOpen n) then .all [.set pgTop R.TOP_GO 0, capture pgTop 0x02 0x0D0]
    else .all [.set pgTop R.TOP_GO 1, .set pgTop R.TOP_BUSY 1, .sys fun y => { y with shellRst := (n :: y.shellRst).dedup }, shellWork n false]

/-- Whether a shell under reset has nothing left running: no step of a command, no landing check, no record in transmission. -/
def State.shellQuiet (s : State) (n : Nat) : Bool :=
  !(s.allHeld.any fun e => e.2.2.shell = n) && (s.ringsOf n).all (fun r => (s.ring r).ents.isEmpty) &&
    (s.pagesOf n fun p => p.kind = .qpc).all fun p => (s.ctx p.inst).sent.all fun x => decide (x.put = 0 ∨ x.put = x.packets)

/-- The work of a shell under reset has stopped (R514). -/
def shellResetDone (n : Nat) : Prog :=
  .ask fun s => .when (s.sys.shellRst.contains n && s.shellQuiet n) (.all [
    .each (s.pagesOf n fun p => p.kind = .qpc) fun p => freeCtx p.inst,
    .sys fun y => { y with shellRst := y.shellRst.filter (· ≠ n) },
    .ask fun t => .when t.sys.shellRst.isEmpty (.all [.set pgTop R.TOP_BUSY 0, .set pgTop R.TOP_GO 0]),
    raise pgTop 8])

/-- A function-level reset (R338, R515). -/
def flr (fn : Nat) : Prog :=
  .ask fun s => .when (decide (fn < 64) && !(Tab.get s.host.flr false fn)) (.all [
    .host fun h => { h with flr := Tab.put h.flr fn true }, .inc pgPcie R.PCIE_CNT_FLR,
    .each (s.openShells.filter fun n => s.shellFunc n = fn) fun n => shellWork n true])

/-- A function-level reset is complete (R338). -/
def flrDone (fn : Nat) : Prog :=
  .ask fun s => .when (Tab.get s.host.flr false fn) (.all [
    .each (s.openShells.filter fun n => s.shellFunc n = fn) fun n => .each (s.pagesOf n fun p => p.kind = .qpc) fun p => freeCtx p.inst,
    .host fun h => { h with flr := Tab.del h.flr fn, msixEn := Tab.del h.msixEn fn, devCtl := Tab.del h.devCtl fn },
    raise pgPcie 5])

/-! ### Resets that reach the core (R500, R510, R530) -/

/-- What a core reset keeps: the pages of the acorn domain, DBG_LOCK, DEV_ID and UP_PORT (Table 17-2), and the flash fields counted since
POR_N. -/
def keptCore (p : Pg) (rel : Nat) : Bool :=
  match p.kind with
  | .top | .time | .mon | .tmr | .pwr => true
  | .sec => rel = 0x048
  | .flash => rel = 0x040 || rel = 0x044 || rel = 0x048 || rel = 0x04C || rel = 0x058
  | .flink => rel = 0x040 || rel = 0x044
  | _ => false

/-- The core is reset: everything outside the acorn domain is lost, the Filmund ports and the PCIe link are down, and start-up begins again at
stage 2.  The cause is a bit of RST_CAUSE: 2 PERST_N, 3 CPLL_LOST, 4 Filmund remote, 5 CORE_RST, 6 HBM_FAIL. -/
def coreReset (cause : Nat) : Prog :=
  .all [
    coreLost false, .link fun l => { State.reset.link with ball := l.ball }, .tx fun _ => [], resetCells keptCore, showPend,
    .set pgTop R.TOP_STATE 0, .set pgTop R.TOP_HELD 0, .set pgTop R.TOP_BUSY 0, .set pgTop R.TOP_GO 0, .set pgTop R.TOP_FE_RST 0,
    .set pgTop R.TOP_STAGE 2, .set pgTop R.TOP_NO_IMAGE 0, .set pgTop R.TOP_RST_CAUSE (2 ^ cause),
    .set pgPwr R.PWR_TRANSIT 0, .set pgPwr R.PWR_TARGET 0, .set pgPwr R.PWR_RETAIN_OK 0,
    setPower 1, .sys fun y => { y with cfgReady := false }]

/-- What POR_N keeps: the sectors retired, the highest erase count and CNT_TRIP, which the flash store holds, and DBG_FUSE. -/
def keptPor (p : Pg) (rel : Nat) : Bool :=
  match p.kind with
  | .flash => rel = 0x044 || rel = 0x048
  | .pwr => rel = 0x070
  | .sec => rel = 0x048
  | _ => false

/-- Everything but flash and fuses is reset (R510). -/
def porReset : Prog :=
  .all [
    coreLost false, .link fun l => { State.reset.link with ball := l.ball }, .tx fun _ => [],
    .time fun _ => State.reset.time, .pwr fun _ => State.reset.pwr,
    .sys fun y => { State.reset.sys with
      porLow := y.porLow, perstLow := y.perstLow, supply := y.supply, erases := y.erases, retired := y.retired, held := y.held,
      dirBad := y.dirBad, images := y.images, halves := y.halves },
    .one .flogClear, resetCells keptPor, .set pgSec R.SEC_DBG_LOCK 0, .set pgSec R.SEC_DBG_ACTIVE 0]

/-- Reserved straps are reported (Table 19-1). -/
def strapsIn (v : Nat) : Prog :=
  .all [.set pgTop R.TOP_STRAPS v, .when (decide (6 ≤ v)) (capture pgTop 0x02 0x0C0)]

/-! ### Meanings -/

/-- A block soft reset is complete (R45): the page at an offset of BAR0. -/
def execSoftResetDone (off : Nat) (s : State) : Host.Outcome State Fault Refusal := .next (run (softResetDone (locate off).1) s)

/-- The work of a shell under reset has stopped (R514). -/
def execShellResetDone (shell : Nat) (s : State) : Host.Outcome State Fault Refusal := .next (run (shellResetDone shell) s)

/-- A function receives a function-level reset (R338). -/
def execFlr (fn : Nat) (s : State) : Host.Outcome State Fault Refusal := .next (run (flr fn) s)

/-- A function-level reset completes (R338). -/
def execFlrDone (fn : Nat) (s : State) : Host.Outcome State Fault Refusal := .next (run (flrDone fn) s)

/-- POR_N rises with the straps given, and start-up runs from stage 0 (R499, R500). -/
def execPorN (straps : Nat) (s : State) : Host.Outcome State Fault Refusal :=
  .next (run (.all [.sys fun y => { y with porLow := false, supply := false }, porReset, strapsIn (straps % 8)]) s)

/-- POR_N is low for 10 µs or more (R510). -/
def execPorNLow (s : State) : Host.Outcome State Fault Refusal :=
  .next (run (.all [.sys fun y => { y with porLow := true, supply := false }, porReset]) s)

/-- PERST_N goes low; while POR_N is low it is ignored (R510, Table 20-5). -/
def execPerstN (s : State) : Host.Outcome State Fault Refusal :=
  .next (run (.ask fun s => .when (!s.sys.porLow) (.all [.sys fun y => { y with perstLow := true }, coreReset 2])) s)

/-- PERST_N rises, and PCIe training may begin (R501). -/
def execPerstNHigh (s : State) : Host.Outcome State Fault Refusal := .next (run (.sys fun y => { y with perstLow := false }) s)

/-- A core reset starts, from a cause of RST_CAUSE: 3 CPLL_LOST, 4 Filmund remote, 5 CORE_RST, 6 HBM_FAIL (R510). -/
def execCoreReset (cause : Nat) (s : State) : Host.Outcome State Fault Refusal :=
  .next (run (.when (decide (3 ≤ cause) && decide (cause ≤ 6)) (coreReset cause)) s)

/-- A rail falls below 90 % for 2 µs while POR_N is high (R530). -/
def execSupplyMonitorTrip (s : State) : Host.Outcome State Fault Refusal :=
  .next (run (.ask fun s => .when (!s.sys.porLow) (
    let v := s.get pgTop R.TOP_STRAPS
    .all [.sys fun y => { y with supply := true }, porReset, .set pgTop R.TOP_STRAPS v])) s)

/-- The rails are back within range, and start-up runs with RST_CAUSE bit 1 (R530). -/
def execSupplyRestored (s : State) : Host.Outcome State Fault Refusal :=
  .next (run (.ask fun s => .when s.sys.supply (
    let v := s.get pgTop R.TOP_STRAPS
    .all [.sys fun y => { y with supply := false }, porReset, .set pgTop R.TOP_STRAPS v, .set pgTop R.TOP_RST_CAUSE 2])) s)

end Sys2Proof.Machine
end

