-- ==== Sys2Proof/Machine/Flash.lean ====
section
/-! DEFINITION. The flash store: images, erases, page programs, commits, sector retirement, recovery writes (R416, R417, R419,
R503 to R509). -/

namespace Sys2Proof.Machine

/-! ### Images (R416 to R420, Table 14-11) -/

/-- Fields of an image header. -/
def imgMagic (b : List Byte) : Nat := field b 0x00 4
def imgKind (b : List Byte) : Nat := field b 0x04 2
def imgKey (b : List Byte) : Nat := field b 0x06 2
def imgVersion (b : List Byte) : Nat := field b 0x08 4
def imgBody (b : List Byte) : Nat := field b 0x0C 4
def imgLoad (b : List Byte) : Nat := field b 0x10 4
def imgEntries (b : List Byte) : Nat := field b 0x14 4

/-- The entry points at the start of a customer body, and the microwords after them. -/
def imgPoints (b : List Byte) : List Nat := (List.range (imgEntries b)).map fun i => field b (0x100 + 4 * i) 4
def imgCode (b : List Byte) : List Byte := b.drop (0x100 + 4 * imgEntries b)

/-- Microwords an image occupies in the store. -/
def imgWords (b : List Byte) : Nat := (imgBody b) / 4 - imgEntries b

/-- Content of a region of flash; a region that holds none is empty (Table 19-3). -/
def State.flashRegion (s : State) (r : Nat) : List Byte := Tab.get s.sys.images [] r

/-- The key an image names: none for the vendor key, which lies in fuses, else the content of its slot. -/
def State.keyOf (s : State) (b : List Byte) : Option (List Byte) :=
  if imgKey b < 4 then some (s.flashRegion (8 + imgKey b)) else none

/-- Whether the signature of an image verifies: ECDSA over P-384 against the vendor key or the key of the slot it names (R416). -/
def State.signed (s : State) (b : List Byte) : Bool :=
  (decide (imgKey b = 0xFFFF) || (decide (imgKey b < 4) && (s.flashRegion (8 + imgKey b)).length = 97)) &&
    Config.signatureOk (s.keyOf b) b

/-- The span of the microcode store that the image of a slot takes. -/
def State.slotSpan (s : State) (k : Nat) : Nat × Nat :=
  let b := s.flashRegion (4 + k)
  if b.isEmpty then (0, 0) else (imgLoad b, imgWords b)

/-- The largest size of a region in bytes (Table 19-3). -/
def regionMax (r : Nat) : Nat := if r = 0 then 0x200000 else if r = 1 then 0x100000 else if 4 ≤ r ∧ r ≤ 7 then 320 * 1024 else 97

/-- Why an image is not accepted for a region: 1 SIGNATURE, 2 FORMAT, 3 SIZE, 4 KEY, in the order key, signature, format, size (R417,
Table 14-4). -/
def State.imageFault (s : State) (r : Nat) (b : List Byte) : Option Nat :=
  let cust : Bool := decide (2 ≤ r)
  let kind := if cust then 2 else r
  let lo := if cust then 0x30000 else 0
  let hi := if cust then 0x40000 else 0x30000
  let old := s.flashRegion r
  if imgKey b ≠ 0xFFFF ∧ (!cust ∨ 3 < imgKey b ∨ (s.flashRegion (8 + imgKey b)).length ≠ 97) then some 4
  else if !(s.signed b) then some 1
  else if imgMagic b ≠ 0x51414D49 ∨ imgKind b ≠ kind ∨ imgBody b % 4 ≠ 0 ∨ imgBody b + 256 ≠ b.length ∨
      (cust ∧ (imgEntries b = 0 ∨ 16 < imgEntries b ∨ imgBody b / 4 < imgEntries b)) ∨ (!cust ∧ imgEntries b ≠ 0) ∨
      (!old.isEmpty ∧ imgVersion b < imgVersion old) then some 2
  else if regionMax r < b.length ∨ (r ≠ 0 ∧ (imgLoad b < lo ∨ hi < imgLoad b + imgWords b)) ∨
      (cust ∧ (List.range 4).any (fun k => decide (k ≠ r - 4) && decide (0 < (s.slotSpan k).2) &&
        decide ((s.slotSpan k).1 < imgLoad b + imgWords b) && decide (imgLoad b < (s.slotSpan k).1 + (s.slotSpan k).2))) then some 3
  else none

/-- Why a key is not accepted: SIZE where it is not 97 bytes, KEY where it does not begin with 0x04 (R416). -/
def keyFault (b : List Byte) : Option Nat :=
  if b.isEmpty then none else if b.length ≠ 97 then some 3 else if field b 0 1 ≠ 4 then some 4 else none

/-! ### Loading (R419, R420) -/

/-- Microwords are written to the store. -/
def loadWords (at_ : Nat) (b : List Byte) : Prog :=
  .cmd fun c => { c with
    store := (List.range (b.length / 4)).foldl (fun t i => Tab.putC t 0 (at_ + i) (BitVec.ofNat 32 (field b (4 * i) 4))) c.store }

/-- KEY_VALID and CUST_VALID follow the store and the images loaded (Table 16-7). -/
def showImages : Prog :=
  .ask fun s => .all [
    .set pgSec R.SEC_CUST_VALID (maskOf 4 fun k => (Tab.find s.cmd.images k).isSome),
    .set pgSec R.SEC_KEY_VALID (maskOf 4 fun k => !(s.flashRegion (8 + k)).isEmpty)]

/-- A customer slot is loaded from flash: empty where its image is absent or does not verify (R419). -/
def loadSlot (k : Nat) (checkBad : Bool) : Prog :=
  .ask fun s =>
    let b := s.flashRegion (4 + k)
    .all [
      .cmd fun c => { c with images := Tab.del c.images k },
      .when (!b.isEmpty) (
        if checkBad || !(s.signed b) then .all [checkFail (4 + k) 1, logFault 0x04 Kind.sec.ty 0]
        else .all [loadWords (imgLoad b) (imgCode b),
          .cmd fun c => { c with images := Tab.put c.images k { load := imgLoad b, len := imgWords b, entries := imgPoints b } }]),
      .sys fun y => { y with held := y.held.filter fun e => e.2 ≠ 20 + k, slotWait := y.slotWait.filter (· ≠ k) },
      showImages]

/-- A slot whose new image waits is loaded once no command runs the image it holds (Table 14-12). -/
def loadWaiting : Prog :=
  .ask fun s => .each (s.sys.slotWait.filter fun k => !(s.allHeld.any fun e => e.2.2.img = some k)) fun k => loadSlot k false

/-! ### Sectors (R503, R505, R506) -/

/-- The sectors that may be erased for a write: of the pool, not retired, holding nothing, and not taken by the write itself. -/
def State.freeSectors (s : State) (j : FlashJob) : List Nat :=
  if 958 ≤ s.sys.held.length + j.secs.length + (s.sys.retired.length - 64) then []
  else ((List.range 1022).map (· + 2)).filter fun k => !(s.sys.retired.contains k) && (Tab.find s.sys.held k).isNone && !(j.secs.contains k)

/-- The sector of the lowest erase count. -/
def State.leastWorn (s : State) (ks : List Nat) : Option Nat :=
  ks.foldl (fun (a : Option Nat) k => match a with
    | some x => if Tab.get s.sys.erases 0 k < Tab.get s.sys.erases 0 x then some k else some x
    | none => some k) none

/-- WEAR_WARN for a sector (R505). -/
def wearWarn (k : Nat) : Prog := .all [.set pgFlash R.FLASH_WARN 1, .set pgFlash R.FLASH_WORST_SECTOR k, raise pgFlash 1]

/-- The write in progress changes. -/
def modJob (f : FlashJob → FlashJob) : Prog :=
  .sys fun y => { y with jobs := match y.jobs with | j :: js => f j :: js | [] => [] }

/-- The write in progress takes its next sector, or has them all; the next write follows where none is left to it. -/
def flashNext : Prog :=
  .ask fun s =>
    match s.sys.jobs with
    | [] => .set pgFlash R.FLASH_BUSY 0
    | j :: _ => .all [.set pgFlash R.FLASH_BUSY 1,
        .when (decide (j.secs.length < j.need) && j.erasing.isNone) (
          .sys fun y => { y with jobs := match y.jobs with
            | x :: xs => { x with erasing := if s.sys.dirBad = 2 then none else s.leastWorn (s.freeSectors j) } :: xs
            | [] => [] })]

/-- The write in progress ends, its command with a status and a result, and the next one starts. -/
def jobEnds (status result : Nat) : Prog :=
  .ask fun s =>
    match s.sys.jobs with
    | [] => .nil
    | j :: _ => .all [
        .sys fun y => { y with jobs := y.jobs.drop 1 },
        (match j.cmd with
         | some k => .when (!(s.sys.jobs.drop 1).any fun x => x.cmd = some k) (finishCmd (k / 8) (k % 8) status result)
         | none => .nil),
        .ask fun t => .when (decide (status ≠ stOK)) (.sys fun y => { y with jobs := t.sys.jobs.filter fun x => x.cmd.isNone || x.cmd ≠ j.cmd })]

/-- A write cannot be committed: its command completes with FLASH_WEAR, and the version in use stays (R506). -/
def jobWorn : Prog := .ask fun s => match s.sys.jobs with
  | j :: _ => .all [
      .when (match j.cmd with | some k => (s.sys.jobs.drop 1).any fun x => x.cmd = some k | none => false)
        (.sys fun y => { y with jobs := j :: (y.jobs.drop 1).filter fun x => x.cmd ≠ j.cmd }),
      jobEnds stFlashWear 0]
  | [] => .nil

/-- A write that cannot go on: no sector is left to it, or both copies of the directory have failed before it took one. -/
def State.stuck (s : State) (j : FlashJob) : Bool :=
  j.erasing.isNone && (decide (j.secs.length < j.need) || (s.sys.dirBad = 2 && j.secs.isEmpty))

/-- The next sector of the write in progress, or FLASH_WEAR where there is none, and so for each write behind it. -/
def flashGo : Prog :=
  .ask fun s => .all [
    flashNext,
    .each s.sys.jobs fun _ => .ask fun t => match t.sys.jobs with
      | j :: _ => .when (t.stuck j) (.all [jobWorn, flashNext])
      | [] => .nil]

/-- A write of so many bytes joins the queue of the flash store. -/
def addJob (region len : Nat) (data : List Byte) (half : Option SetHalf) (cmd : Option Nat) : Prog :=
  .ask fun s =>
    let j : FlashJob := {
      region := region, data := data, half := half, cmd := cmd, need := (len + 65535) / 65536, secs := [], erasing := none,
      pages := (len + 255) / 256, done := 0, tries := 0, eraseTries := 0, restarts := 0 }
    .all [.sys fun y => { y with jobs := y.jobs ++ [j] }, .when s.sys.jobs.isEmpty flashGo]

/-- The highest erase count of a sector in use: one that is not retired. -/
def State.maxErases (s : State) : Nat := (s.sys.erases.filter fun e => !(s.sys.retired.contains e.1)).foldl (fun a e => max a e.2) 0

/-- A sector is retired, and the write that met the failure begins again on fresh sectors, at most twice (R506). -/
def retire (k : Nat) (restart : Bool) : Prog :=
  .all [
    .sys fun y => { y with retired := (k :: y.retired).dedup, held := Tab.del y.held k },
    .inc pgFlash R.FLASH_CNT_RETIRED, raise pgFlash 2, capture pgFlash 0x20 k, logFault 0x10 Kind.flash.ty k,
    .ask fun s => .all [
      .set pgFlash R.FLASH_MAX_ERASES s.maxErases, .set pgFlash R.FLASH_GOOD (1022 - s.sys.retired.length), .set pgFlash R.FLASH_SPARE_LEFT (64 - s.sys.retired.length),
      .when (s.sys.retired.length = 56) (raise pgFlash 4)],
    .when restart (.ask fun s => match s.sys.jobs with
      | j :: _ =>
        if 2 ≤ j.restarts then .all [jobWorn, flashGo]
        else .all [modJob fun x => { x with secs := [], erasing := none, done := 0, tries := 0, eraseTries := 0, restarts := x.restarts + 1 },
          flashGo]
      | [] => .nil)]

/-- An erase ends, after so many ms (R505, R506). -/
def eraseDone (ms : Nat) (ok : Bool) : Prog :=
  .ask fun s =>
    match s.sys.jobs with
    | [] => flashGo
    | j :: _ => match j.erasing with
      | none => flashGo
      | some k =>
        let n := Tab.get s.sys.erases 0 k + 1
        let slow : Bool := decide (1000 < ms)
        .all [
          .sys fun y => { y with erases := Tab.put y.erases k n },
          .inc pgFlash R.FLASH_CNT_ERASE, .ask fun t => .set pgFlash R.FLASH_MAX_ERASES t.maxErases,
          .set pgFlash R.FLASH_ERASE_T_MAX (max (min 0xFFFF ms) (s.get pgFlash R.FLASH_ERASE_T_MAX)),
          .when slow (.inc pgFlash R.FLASH_CNT_SLOW_ERASE), .when (slow || n = 80000) (wearWarn k),
          if decide (100000 ≤ n) || (!ok && decide (2 ≤ j.eraseTries)) then retire k true
          else if !ok then modJob fun x => { x with eraseTries := x.eraseTries + 1 }
          else .all [modJob fun x => { x with secs := x.secs ++ [k], erasing := none, eraseTries := 0 }, flashGo]]

/-- A page program ends, and the page read back compares equal or not (R504 to R506). -/
def pageDone (ok : Bool) : Prog :=
  .ask fun s =>
    match s.sys.jobs with
    | [] => .nil
    | j :: _ => .when (j.secs.length = j.need && decide (j.done < j.pages)) (
        let k := j.secs.getD (j.done / 256) 0
        if ok then modJob fun x => { x with done := x.done + 1, tries := 0 }
        else .all [
          .when (decide (j.tries < 7)) (.inc pgFlash R.FLASH_CNT_RETRY),
          .when (j.tries = 2) (wearWarn k),
          if 7 ≤ j.tries then retire k true else modJob fun x => { x with tries := x.tries + 1 }])

/-- The new content of a region is in use: the previous boot image or microcode is the backup, a slot is loaded once its old image is idle, a
set half comes into use at the next step boundary (R98, R104, R124, R417, R452). -/
def commitRegion (j : FlashJob) : Prog :=
  .ask fun s => .all [
    .sys fun y =>
      let freed := y.held.filter fun e => if j.half.isSome then e.2 ≠ j.region else e.2 ≠ 16 + j.region
      let moved := if j.half.isSome || 8 ≤ j.region then freed.filter fun e => e.2 ≠ j.region
        else freed.map fun e => if e.2 = j.region then (e.1, 16 + j.region) else e
      { y with
        held := j.secs.foldl (fun t k => Tab.put t k j.region) moved,
        images := if j.half.isSome then y.images
          else if j.data.isEmpty then Tab.del y.images j.region
          else Tab.put (if j.region < 2 ∧ (Tab.find y.images j.region).isSome then Tab.put y.images (16 + j.region) (s.flashRegion j.region)
            else y.images) j.region j.data,
        halves := match j.half with
          | some h => y.halves.map fun x => if x.set = h.set ∧ x.die = h.die then h else x
          | none => y.halves,
        halfBad := match j.half with
          | some h => y.halfBad.filter fun x => x ≠ (h.set, h.die)
          | none => y.halfBad,
        slotWait := if 4 ≤ j.region ∧ j.region ≤ 7 then (y.slotWait ++ [j.region - 4]).dedup else y.slotWait },
    (match j.half with
     | some h => .cal fun c => { c with setWait := c.setWait ++ [h] }
     | none => .nil),
    raise pgFlash 3, .when (decide (4 ≤ j.region)) showImages]

/-- The directory write that commits the write in progress ends; so many directory copies have failed at it (R503, R506). -/
def writeDone (dirFails : Nat) : Prog :=
  .ask fun s =>
    match s.sys.jobs with
    | [] => .nil
    | j :: _ => .when (j.secs.length = j.need && j.done = j.pages) (
        let bad := min 2 (s.sys.dirBad + dirFails)
        .all [
          .when (decide (s.sys.dirBad < bad)) (.all [.sys fun y => { y with dirBad := bad }, wearWarn s.sys.dirBad]),
          if bad = 2 then jobWorn
          else .all [commitRegion j, jobEnds stOK 0, loadWaiting],
          flashGo])

/-! ### Recovery (R507) -/

/-- Whether the device is in recovery mode. -/
def State.recovery (s : State) : Bool := s.get pgTop R.TOP_NO_IMAGE = 1

/-- A write of 1 to RCV_GO: in recovery mode the image is read, and its write is the flash store's, which takes sectors for it as for any
other (R504, R506, R507; log entry 147). -/
def rcvGo : Prog :=
  .ask fun s => .when (s.recovery && decide (s.get pgFlash R.FLASH_RCV_STAT ≠ 1)) (
    let r := s.get pgFlash R.FLASH_RCV_REGION
    let len := s.get pgFlash R.FLASH_RCV_LEN
    .all [
      .set pgFlash R.FLASH_RCV_GO 1, .set pgFlash R.FLASH_RCV_STAT 1, .sys fun y => { y with rcv := (r, len) },
      .out (.busRead (s.get64 pgFlash R.FLASH_RCV_SRC_LO R.FLASH_RCV_SRC_HI) len),
      .when (decide (len ≤ regionMax r)) (addJob r len [] none none)])

/-- The recovery write's job leaves the flash store with an outcome for RCV_STAT. -/
def rcvEnd (stat : Nat) : Prog :=
  .all [
    .set pgFlash R.FLASH_RCV_GO 0, .set pgFlash R.FLASH_RCV_STAT stat,
    .when (stat ≠ 5) (.all [.sys fun y => { y with jobs := y.jobs.drop 1 }, flashNext])]

/-- A recovery write ends: the image that was read, and whether the directory could take it.  An image too large or with a bad signature ends
it at any time; a good one is committed once every page of it compares equal, and FLASH_WEAR where the store gave it up (R504, R506, R507). -/
def rcvDone (data : List Byte) (worn : Bool) : Prog :=
  .ask fun s => .when (s.get pgFlash R.FLASH_RCV_STAT = 1) (
    let (r, len) := s.sys.rcv
    if regionMax r < len then rcvEnd 5
    else if !(s.signed data) then rcvEnd 3
    else match s.sys.jobs with
      | [] => rcvEnd 4
      | j :: _ =>
        if worn then .all [.sys fun y => { y with dirBad := 2 }, wearWarn 1, rcvEnd 4]
        else .when (j.secs.length = j.need && j.done = j.pages) (.all [commitRegion { j with data := data }, rcvEnd 2]))

/-! ### Meanings -/

/-- A program of a page ends, the page comparing equal or not (R504). -/
def execFlashPageProgram (ok : Bool) (s : State) : Host.Outcome State Fault Refusal := .next (run (pageDone ok) s)

/-- A sector erase ends, after so many ms, with success or not (R505). -/
def execFlashEraseDone (ms : Nat) (ok : Bool) (s : State) : Host.Outcome State Fault Refusal := .next (run (eraseDone ms ok) s)

/-- The directory write of a verified region ends; the copies of the directory that failed at it are counted (R503, R506). -/
def execWriteDone (dirFails : Nat) (s : State) : Host.Outcome State Fault Refusal := .next (run (writeDone dirFails) s)

/-- A recovery write ends (R507). -/
def execRcvDone (data : List Byte) (worn : Bool) (s : State) : Host.Outcome State Fault Refusal := .next (run (rcvDone data worn) s)

end Sys2Proof.Machine
end

