-- ==== Sys2Proof/Machine/System.lean ====
section
/-! DEFINITION. Start-up, the PCIe link and its configuration space, memory errors and the memory controllers (R335, R337, R363, R438,
R499 to R502, R516 to R518). -/

namespace Sys2Proof.Machine

/-! ### Start-up stages (R500, Table 19-2) -/

/-- Recovery mode: no image runs, and only PCIe is brought up (R507). -/
def enterRecovery : Prog := .set pgTop R.TOP_NO_IMAGE 1

/-- The boot image has been chosen: 0 the copy tried first, 1 the other, 2 neither (R452, R507). -/
def bootChosen (img ver : Nat) : Prog :=
  .ask fun s =>
    let straps := s.get pgTop R.TOP_STRAPS
    if straps = 5 then enterRecovery
    else .all [
      checkFail 0 img,
      if 2 ≤ img then .all [enterRecovery, logFault 0x02 Kind.top.ty 0]
      else .all [
        .when (img = 1) (.all [capture pgSec 0x21 0, logFault 0x01 Kind.sec.ty 0]),
        .set pgSec R.SEC_FALLBACK (b2n ((img = 1 : Bool) != (straps = 2 : Bool))), .set pgSec R.SEC_BOOT_VER ver]]

/-- What the identity region gives: DEV_ID, XO_AGE and the MAC addresses; none where both copies fail (Table 19-3, Table 19-8).  A core reset
keeps DEV_ID and XO_AGE. -/
def identity (ident : Option (Nat × Nat × List Nat)) : Prog :=
  .ask fun s =>
    let fresh : Bool := decide (s.get pgTop R.TOP_RST_CAUSE < 4)
    let (dev, age, macs) := ident.getD (0, 0, [])
    .all [
      .when fresh (.all [.set pgFlink R.FLINK_DEV_ID dev, .set pgTime R.TIME_XO_AGE age]),
      .each (List.range 8) fun i => .all [
        .seti (pgEnet (i / 4)) R.ENET_MAC_LO (i % 4) (macs.getD i 0), .seti (pgEnet (i / 4)) R.ENET_MAC_HI (i % 4) (macs.getD i 0 / 2 ^ 32)],
      .when ident.isNone (.all [checkFail 2 2, capture pgTop 0x20 0, logFault 0x06 Kind.top.ty 0])]

/-- The front-end dies are powered: their links carry words, and history holds nothing (R166, R500). -/
def diesStart : Prog :=
  .ask fun s => .all [
    .each (List.range 8) fun b => .all [.set (pgBank b) R.BANK_LINK_OK 1,
      .set (pgBank b) R.BANK_POWERED (b2n (s.chanOn (bankChan (s.mode (dieOf b)) b)))],
    .each (which 8 s.chanExists) fun c => .all [
      modChan c fun ch => { Chan.reset with
        top := s.spc c * s.time.cc, bad := ch.bad, bads := ch.bads, noSet := ch.noSet, noSets := ch.noSets },
      emptyHist c],
    syncStops, .each (List.range 8) tuRestart, startCal 0, startCal 1]

/-- Stage 4 ends: memory is clear, microcode and customer slots are loaded, the identity and the sets are read, and the core runs
(R419, R500, R501). -/
def bootDone (ucode ver : Nat) (ident : Option (Nat × Nat × List Nat)) (badSets : List (Nat × Nat)) (badSlots : List Nat) : Prog :=
  .ask fun s =>
    let straps := s.get pgTop R.TOP_STRAPS
    if s.recovery then .sys fun y => { y with cfgReady := true }
    else .all [
      checkFail 1 ucode,
      if 2 ≤ ucode then .all [enterRecovery, logFault 0x03 Kind.top.ty 0, .sys fun y => { y with cfgReady := true }]
      else .all [
        .each (List.range 4) fun m => .set (pgMc m) R.MC_PC_UP 0xFFFF, setPower 1,
        .set pgSec R.SEC_UCODE_VER ver,
        (let b := s.flashRegion (if (ucode = 1 : Bool) != (straps = 2 : Bool) then 17 else 1)
         .when (!b.isEmpty) (loadWords (imgLoad b) (b.drop 256))),
        .when (decide (straps ≠ 3)) (.each (List.range 4) fun k => loadSlot k (badSlots.contains k)), showImages,
        identity ident, .sys fun y => { y with halfBad := badSets },
        if straps = 4 then .all [showSets, noSetIfNone 0, noSetIfNone 1] else loadSets,
        .sys fun y => { y with cfgReady := true },
        placeAll, showPool, .each (List.range 4) portRetry, showRoot, startLock, cdStart 0, cdStart 1,
        if straps = 1 || s.sys.noReady then .set pgTop R.TOP_STAGE 7 else .set pgTop R.TOP_STAGE 5]]

/-- The stage in progress ends, where the state shows that it can, with what it found. -/
def stageDone (img ver : Nat) (ident : Option (Nat × Nat × List Nat)) (badSets : List (Nat × Nat)) (badSlots : List Nat) : Prog :=
  .ask fun s => .when (!s.sys.porLow && !s.sys.supply) (
    match s.get pgTop R.TOP_STAGE with
    | 0 => .all [.set pgTop R.TOP_STAGE 1, selfcal]
    | 1 => .when (!s.pwr.selfcal) (.set pgTop R.TOP_STAGE 2)
    | 2 => .all [bootChosen img ver, .set pgTop R.TOP_STAGE 3, cpllSearch]
    | 3 => .when (s.get pgClk R.CLK_CPLL_STATE = 4) (.set pgTop R.TOP_STAGE 4)
    | 4 => bootDone img ver ident badSets badSlots
    | 5 => .when s.scsRun (.all [.set pgTop R.TOP_STAGE 6, diesStart])
    | 6 => .when s.cal.startup.isEmpty (.all [.set pgTop R.TOP_STAGE 7, setPower 2, showRot, dispTrain])
    | _ => .nil)

/-! ### The CPLL (R287) -/

/-- The CPLL loses lock: captured and reported with the loop and its band, and the core is reset (R287, R295). -/
def cpllLost : Prog :=
  .ask fun s =>
    let detail := 1 + s.get pgClk R.CLK_CPLL_BAND * 2 ^ 8
    .all [capture pgClk 0x21 detail, raise pgClk 7, .set pgClk R.CLK_CPLL_STATE 0, logFault 0x0B Kind.clk.ty detail, coreReset 3]

/-! ### PCIe (R335, R337, R359, R363, R501) -/

/-- The pending messages of a function that can now go leave (R359). -/
def sendPending (f : Nat) : Prog :=
  .ask fun s =>
    let r := Tab.get s.host.vecs (0, 0) f
    .each ((s.host.pba.filter fun e => decide (r.1 ≤ e.1) && decide (e.1 < r.1 + r.2) && s.get (pgMsix e.1) R.MSIX_MASK = 0).map (·.1)) fun v =>
      .all [.host fun h => { h with pba := Tab.del h.pba v }, sendMsix v]

/-- The bits that a base address register word answers beside the address it holds: word 0, 2 or 4 of a function starts BAR0, BAR2 or BAR4,
all 64-bit and BAR4 prefetchable (Table 2-1). -/
def barType (word : Nat) : Nat := match word with | 0 | 2 => 4 | 4 => 12 | _ => 0

/-- The address bits that a base address register word holds, by the size of its BAR: 64 MiB, 16 MiB and 32 GiB, BAR4 on the physical function
alone (Table 2-1). -/
def barMask (fn word : Nat) : Nat :=
  match word with
  | 0 => 2 ^ 32 - 2 ^ 26
  | 2 => 2 ^ 32 - 2 ^ 24
  | 1 | 3 => 2 ^ 32 - 1
  | 5 => if fn = 0 then 2 ^ 32 - 2 ^ 3 else 0
  | _ => 0

/-- What a base address register word of a function reads as. -/
def State.barWord (s : State) (fn word : Nat) : Nat :=
  Tab.get s.host.bars 0 (fn * 8 + word) + (if word = 4 ∧ fn ≠ 0 then 0 else barType word)

/-- A configuration request of a function, a write or a read: kind 0 MSI-X enable, 1 Device Control, 2 the number of virtual functions,
3 the power-management state (0 D0, 3 D3hot), 4 to 9 the base address registers (R36), and, to be read, 10 the Table Size of MSI-X, which is VEC_COUNT (R337), and 11 to 13 TotalVFs, First VF
Offset and VF Stride (Table 12-1); anything else is a register with no effect here.  Until configuration space is ready it is answered with
Retry Status (R501). -/
def configRequest (fn kind v : Nat) (write : Bool) : Prog :=
  .ask fun s =>
    if !s.sys.cfgReady then .out (.config fn kind none)
    else if write then .all [
      (match kind with
       | 0 => .all [.host fun h => { h with msixEn := Tab.putC h.msixEn false fn (decide (v % 2 = 1)) },
           .when (v % 2 = 1) (sendPending fn)]
       | 1 => .host fun h => { h with devCtl := Tab.put h.devCtl fn (v % 2 ^ 16) }
       | 2 => .when (fn = 0 && !s.recovery) (.set pgPcie R.PCIE_NUM_VF (min 63 v))
       | 3 => .when (fn = 0) (.set pgPcie R.PCIE_PM_STATE (if v % 4 = 3 then 1 else 0))
       | _ => .when (decide (4 ≤ kind) && decide (kind ≤ 9))
           (.host fun h => { h with bars := Tab.put h.bars (fn * 8 + (kind - 4)) (v &&& barMask fn (kind - 4)) })),
      .out (.config fn kind (some 0))]
    else .out (.config fn kind (some (
      match kind with
      | 0 => b2n (Tab.get s.host.msixEn false fn)
      | 1 => Tab.get s.host.devCtl 0 fn
      | 2 => if s.recovery then 0 else s.get pgPcie R.PCIE_NUM_VF
      | 3 => if s.get pgPcie R.PCIE_PM_STATE = 0 then 0 else 3
      | 10 => match Tab.find s.host.vecs fn with | some (_, count) => count | none => 0
      | 11 => if fn = 0 && !s.recovery then 63 else 0
      | 12 | 13 => if fn = 0 && !s.recovery then 1 else 0
      | _ => if 4 ≤ kind ∧ kind ≤ 9 then s.barWord fn (kind - 4) else 0)))

/-- The PCIe link goes down (R363). -/
def pcieDown : Prog :=
  .all [.set pgPcie R.PCIE_SPEED 0, .set pgPcie R.PCIE_WIDTH 0, raise pgPcie 6]

/-- The PCIe link has trained at a speed and width (R363); it cannot while PERST_N is low. -/
def pcieUp (speed width : Nat) : Prog :=
  .ask fun s => .when (!s.sys.perstLow && !s.sys.porLow && decide (3 ≤ s.get pgTop R.TOP_STAGE)) (
    .all [.set pgPcie R.PCIE_SPEED speed, .set pgPcie R.PCIE_WIDTH width, raise pgPcie 7])

/-! ### The end of a step by a fault (R412, R413, R415) -/

/-- The page shows the command that runs (Table 14-13). -/
def showCur (q : Nat) : Prog := .ask fun s => match s.current q with | some (_, h) => sqShow q h | none => .nil

/-- The oldest n buffered stores retire to local memory. -/
def retireStores (q n : Nat) : Prog :=
  .ask fun s => .all [.each ((s.seqr q).buf.take n) fun e => .one (.lmem (q * 65536 + e.1) e.2),
    modSeqr q fun z => { z with buf := z.buf.drop n }]

/-- Every buffered store retires, one per cycle. -/
def drainStores (q : Nat) : Prog :=
  .ask fun s => .all [retireStores q (s.seqr q).buf.length, modSeqr q fun z => { z with cyc := z.cyc + (s.seqr q).buf.length }]

/-- STEP_MAX keeps the longest step. -/
def stepMax (q : Nat) : Prog :=
  .ask fun s => .set (pgSq q) R.SQ_STEP_MAX (min 0xFFFF (max (s.get (pgSq q) R.SQ_STEP_MAX) (s.seqr q).cyc))

/-- A microword faults and is not performed: the step ends, and the command with it (R412, R413, R415). -/
def ufault (q k : Nat) (h : Held) (code : Nat) : Prog :=
  .all [capture (pgSq q) code (h.pc % 2 ^ 18), incRaise (pgSq q) R.SQ_CNT_FAULT 1,
    modHeld q k fun x => { x with flags := x.flags ||| flagFAULT }, showCur q,
    drainStores q, stepMax q,
    if code = 0x23 then endCmd q k 1 stTimeout 0 else endCmd q k 1 stResetAbort code, cmdCleanup (q * 8 + k), loadWaiting]

/-! ### Memory errors (R516, R517, Table 19-7) -/

/-- The span of a channel's samples that an 8-byte word of its history buffer holds now: position x lies at byte 2 * (x mod D/2). -/
def State.wordSpan (s : State) (c off : Nat) : Span :=
  let d := s.histDepth c / 2
  let k := off / 8 * 4
  let top := (s.chan c).top
  { first := top - 1 - (top + d - 1 - k) % (if d = 0 then 1 else d), len := 4 }

/-- The pseudo-channel that holds a byte of a history buffer: the buffer is striped in blocks of 2 KiB, the first in pseudo-channel 0 (R164; which
one holds the first is a DESIGN CHOICE, log entry 88). -/
def histPc (off : Nat) : Nat := off / 2048 % 64

/-- The index-th record of an egress queue carries DEGRADED when it is sent (Table 19-7); a PIP or LOG record has no such flag (R227). -/
def degradeRec (n i : Nat) : Prog :=
  modStrm n fun t => { t with queue := t.queue.mapIdx fun j r => if j = i ∧ !r.begun ∧ r.isData then { r with bytes := withFlag 2 r.bytes } else r }

/-- An uncorrectable error in HBM, in the word at an address of a pseudo-channel; `item` says which record of an egress queue it lies in, and
`both` that it lies in both copies of an index or of another structure (Table 19-7). -/
def hbmError (pc addr item : Nat) (both : Bool) : Prog :=
  .ask fun s =>
    let m := pgMc (pc / 16)
    .all [
      .inc m R.MC_CNT_ECC_UNCORR, .set m R.MC_ECC_ADDR (addr / 64), raise m 2, capture m 0x04 pc, logFault 0x0D Kind.mc.ty pc,
      match s.sec.placed.find? fun e => decide (e.2.1 ≤ addr) && decide (addr < e.2.1 + e.2.2) with
      | some (k, b, _) =>
        if k < 8 then .when (histPc (addr - b) = pc) <| modChan k fun ch => { ch with noSets := s.wordSpan k (addr - b) :: ch.noSets }
        else if both then softReset (pgSt (k - 8))
        else degradeRec (k - 8) item
      | none => .when (both && decide (hbmReserved ≤ addr)) (coreReset 6)]

/-- An uncorrectable error in SRAM: in bins of stream `item` (place 0), in counters of density slot `item` (1), in the set half of set and die `item` = 2 * set + die (2),
in egress staging of stream `item` (3), in local memory of sequencer `item` (4), or elsewhere. -/
def sramError (place item : Nat) : Prog :=
  .all [
    .inc pgTop R.TOP_CNT_SRAM_UNCORR, raise pgTop 9, capture pgTop 0x04 (place + item * 16), logFault 0x0D Kind.top.ty (place + item * 16),
    match place with
    | 0 => modStrm item fun t => { t with ep := { t.ep with flags := t.ep.flags ||| flDEGRADED } }
    | 1 => modMap item fun x => { x with ep := { x.ep with flags := x.ep.flags ||| flDEGRADED } }
    | 2 => reloadHalf (item / 2) (item % 2)
    | 3 => .ask fun s => match (s.strm item).queue.findIdx? fun r => !r.begun with
      | some i => degradeRec item i
      | none => .nil
    | 4 => .ask fun s => match s.current item with
      | some (k, h) => ufault item k h 0x04
      | none => .nil
    | _ => .nil]

/-- An uncorrectable error in the microcode store: the 4 KiB around it are reloaded before any sequencer runs them, and the step of sequencer
`item` ends with an ECC fault where its read of the microword met the error (R412, R517). -/
def ucodeError (addr item : Nat) (met : Bool) : Prog :=
  .all [
    .inc pgTop R.TOP_CNT_UCODE_UNCORR, raise pgTop 9, capture pgTop 0x04 (addr % 2 ^ 24), logFault 0x0D Kind.top.ty (addr % 2 ^ 24),
    .sys fun y => { y with reload := (addr / 1024 :: y.reload).dedup },
    .ask fun s => match s.current item with
      | some (k, h) => .when (met && h.pc = addr) (ufault item k h 0x04)
      | none => .nil]

/-- Scrubbing or an access finds an error: memory 0 HBM, 1 SRAM, 2 microcode, 3 the set half of set `addr` and die `item` in flash, whose check
code then fails at every load until it is saved again (R104; DESIGN CHOICE, log entry 114); nothing, a corrected or an uncorrectable error.  In microcode
`both` says that sequencer `item` read the word. -/
def scrub (memory : Nat) (err : Nat) (pc addr item : Nat) (both : Bool) : Prog :=
  match memory, err with
  | 0, 1 => .when (decide (pc < 64)) (incRaise (pgMc (pc / 16)) R.MC_CNT_ECC_CORR 1)
  | 0, 2 => .when (decide (pc < 64)) (hbmError pc addr item both)
  | 1, 1 => .inc pgTop R.TOP_CNT_SRAM_CORR
  | 1, 2 => sramError addr item
  | 2, 1 => .inc pgTop R.TOP_CNT_UCODE_CORR
  | 2, 2 => .when (decide (addr < 262144)) (ucodeError addr item both)
  | 3, 2 => .sys fun y => { y with halfBad := ((addr, item) :: y.halfBad).dedup }
  | _, _ => .nil

/-! ### Pseudo-channels (R438, R517, Table 19-8) -/

/-- A pseudo-channel has failed three retrains (Table 19-8). -/
def hbmFail (pc : Nat) : Prog :=
  .ask fun s => .all [
    capture (pgMc (pc / 16)) 0x20 pc, logFault 0x09 Kind.mc.ty pc,
    .sys fun y => { y with
      noReady := y.noReady || y.hbmFails.any fun q => decide (s.now ≤ q + secQ 10),
      hbmFails := [s.now] },
    coreReset 6]

/-- A pseudo-channel leaves training. -/
def pcDown (pc : Nat) : Prog :=
  .ask fun s => .when (decide (pc < 64) && bit (s.get (pgMc (pc / 16)) R.MC_PC_UP) (pc % 16)) (.all [
    .setBit (pgMc (pc / 16)) R.MC_PC_UP (pc % 16) false, raise (pgMc (pc / 16)) 4,
    .sys fun y => { y with pcTries := Tab.put y.pcTries pc 0 }])

/-- A retrain of a pseudo-channel ends. -/
def pcRetrained (pc : Nat) (ok : Bool) : Prog :=
  .ask fun s => match Tab.find s.sys.pcTries pc with
    | none => .nil
    | some n =>
      if ok then .all [.setBit (pgMc (pc / 16)) R.MC_PC_UP (pc % 16) true, .sys fun y => { y with pcTries := Tab.del y.pcTries pc }]
      else if 2 ≤ n then hbmFail pc
      else .sys fun y => { y with pcTries := Tab.put y.pcTries pc (n + 1) }

/-! ### Meanings -/

/-- A start-up stage ends (R500): the image copy that verified (0, 1, or 2 for neither) and its version, the identity read, and the set halves and
customer slots that failed their checks, where the stage reads them. -/
def execStageDone (img ver : Nat) (ident : Option (Nat × Nat × List Nat)) (badSets : List (Nat × Nat)) (badSlots : List Nat) (s : State) :
    Host.Outcome State Fault Refusal := .next (run (stageDone img ver ident badSets badSlots) s)

/-- The CPLL loses lock (R287). -/
def execCpllLost (s : State) : Host.Outcome State Fault Refusal := .next (run cpllLost s)

/-- A PCIe configuration request (R501). -/
def execConfigRequest (fn kind v : Nat) (write : Bool) (s : State) : Host.Outcome State Fault Refusal := .next (run (configRequest fn kind v write) s)

/-- The PCIe link goes down (R363). -/
def execPcieLinkDown (s : State) : Host.Outcome State Fault Refusal := .next (run pcieDown s)

/-- The PCIe link trains at a speed (1 to 5) and a width (R363). -/
def execPcieLinkUp (speed width : Nat) (s : State) : Host.Outcome State Fault Refusal := .next (run (pcieUp speed width) s)

/-- Scrubbing finds an error, or none (R516, R517). -/
def execScrub (memory err pc addr item : Nat) (both : Bool) (s : State) : Host.Outcome State Fault Refusal :=
  .next (run (scrub memory err pc addr item both) s)

/-- A pseudo-channel leaves training (R517). -/
def execPcDown (pc : Nat) (s : State) : Host.Outcome State Fault Refusal := .next (run (pcDown pc) s)

/-- A retrain of a pseudo-channel ends (R517). -/
def execPcRetrainDone (pc : Nat) (ok : Bool) (s : State) : Host.Outcome State Fault Refusal := .next (run (pcRetrained pc ok) s)

/-- The temperature of an HBM stack as a memory controller reads it; TEMP_HIGH is raised when it reaches 95 °C (R438). -/
def execTempHigh (mc : Nat) (temp : Int) (s : State) : Host.Outcome State Fault Refusal :=
  .next (run (.ask fun s => .when (decide (mc < 4)) (.all [
    .when (decide (sgn 8 (s.get (pgMc mc) R.MC_STACK_TEMP) < 95) && decide (95 ≤ temp)) (raise (pgMc mc) 3),
    .set (pgMc mc) R.MC_STACK_TEMP (unsgn 8 (clampS 8 temp))])) s)

/-- The 4 KiB of the microcode store being reloaded are whole again (R517). -/
def execUcodeReloadDone (part : Nat) (s : State) : Host.Outcome State Fault Refusal :=
  .next (run (.sys fun y => { y with reload := y.reload.filter (· ≠ part) }) s)

end Sys2Proof.Machine
end

