-- ==== Sys2Proof/Machine/Access.lean ====
section
/-! DEFINITION. Accesses to BAR0 and BAR4: who may reach what, access codes, reserved encodings, 64-bit registers, frozen reads, and what each
register does when it is read or written (spec/02, and the register tables of the other chapters). -/

namespace Sys2Proof.Machine

/-! ### Who reaches what (R40, R43, R48, R443, R507) -/

/-- Whether an owner in force is an open shell bound to a function. -/
def State.forFunc (s : State) (fn reg : Nat) : Bool := s.owner reg ≠ supervisor && s.shellOpen (s.owner reg) && s.shellFunc (s.owner reg) = fn

/-- The page or entry an access of a function reaches, and the offset in it: the MSI-X table and the pending-bit array show the function's
own range (R337). -/
def State.target (s : State) (fn a : Nat) : Pg × Nat :=
  let (p, rel) := locate a
  if p.kind = .msix then
    match Tab.find s.host.vecs fn with
    | some (base, count) => if p.inst < count then (pgMsix (base + p.inst), rel) else (⟨.none, 0⟩, a)
    | none => (⟨.none, 0⟩, a)
  else (p, rel)

/-- Whether a function may reach a page or entry: the physical function is the supervisor (R443). -/
def State.mayReach (s : State) (fn a : Nat) (p : Pg) : Bool :=
  fn = 0 || (match (locate a).1.kind with
    | .ring | .qpc => s.forFunc fn p.ownReg
    | .route => (evtPage p.inst).kind.ownable && s.forFunc fn (evtPage p.inst).ownReg
    | .msix => p.kind = .msix
    | .pba => (match Tab.find s.host.vecs fn with | some (_, count) => decide ((a - Kind.pba.base) * 8 < count) | none => false)
    | .none => true
    | k => k.isBlock && k.ownable && s.forFunc fn p.ownReg)

/-- Whether a page answers in DORMANT (R40). -/
def Kind.acorn : Kind → Bool
  | .top | .time | .mon | .tmr | .pwr => true
  | _ => false

/-- Whether a page answers in recovery mode (R507). -/
def Kind.inRecovery : Kind → Bool
  | .top | .flash | .sec => true
  | _ => false

/-- An error of an access is captured on its page, or where R541 says. -/
def captureAcc (p : Pg) (code a rel : Nat) : Prog :=
  match p.kind with
  | .shell | .win => capture pgSec code a
  | .legacy => capture pgCal code a
  | k => if k.isBlock then capture p code rel else capture pgPcie code a

/-- Whether an access has the width and alignment R37 asks for. -/
def goodWidth (a width : Nat) : Bool := (width = 4 || width = 8) && a % width = 0

/-- Whether a word of a page or entry is assigned to anything: a field of the common header, a register, or a live copy (R42, R43). -/
def Pg.assignedWord (p : Pg) (w : Nat) : Bool :=
  match p.kind with
  | .none => false
  | .legacy => decide (w < 0x2A00) || (decide (0x3000 ≤ w) && decide (w < 0x3150)) || w = 0x3F00
  | .pba => true
  | k => (k.isBlock && decide (w < 0x30)) || (k.rows.any fun r => r.lies w) ||
      (decide (0x800 ≤ w) && k.rows.any fun r => r.acc = .rws && r.lies (w - 0x800))

/-- Whether an access touches an assigned word; one that does not reads 0 or is ignored, and raises no error (R43). -/
def Pg.assigned (p : Pg) (rel width : Nat) : Bool :=
  (List.range ((rel + max width 1 - 1) / 4 + 1 - rel / 4)).any fun i => p.assignedWord (4 * (rel / 4 + i))

/-- An access in DORMANT to a page that does not answer (R40). -/
def dormantAccess : Prog := incRaise pgPwr R.PWR_CNT_DORMANT_ACC 7

/-! ### What a register reads as -/

/-- The channels whose history buffers are being written (Table 7-6). -/
def State.histActive (s : State) : Nat :=
  maskOf 8 fun c => s.diesOn && s.chanOn c && s.scsRun && !(s.chan c).stopped

/-- Whether a block runs while it is enabled: its dies, link or sample clock are there, and it takes part in what it is for.  Table 2-7
says 'enabled and running' and not what running is on each page (DESIGN CHOICE, log entry 17). -/
def State.running (s : State) (p : Pg) : Bool :=
  match p.kind with
  | .bank => s.get p R.BANK_POWERED = 1 && s.get p R.BANK_LINK_OK = 1 && s.scsRun
  | .cal | .acc | .den | .tcomb | .text | .diff => decide (2 ≤ s.pstate)
  | .tu => s.diesOn && s.scsRun && s.chanOn (s.tuChan p.inst)
  | .tdc => s.fstate = 2
  | .hist => decide (s.histActive ≠ 0)
  | .st => s.get p R.ST_IN_FRAME = 1
  | .sq => decide (s.get p R.SQ_STATE ≠ 3)
  | .fport => decide (s.portState p.inst ≠ 0)
  | .enet => (List.range 4).any fun i => (Tab.find s.net.upAt (4 * p.inst + i)).isSome
  | .disp => s.get pgDisp R.DISP_LINK_UP = 1
  | _ => true

/-- The word of BLK_STAT (Table 2-7): ACTIVE is 1 while the block is enabled and running, ERR copies ERR_INFO.VALID. -/
def State.blkStat (s : State) (p : Pg) : Nat :=
  (s.cell (p.base + 0x010)).toNat % 256 + b2n (s.en p && s.running p) + b2n (bit (s.errInfo p) 31) * 256

/-- An entry of the fault log as FLOG_ENTRY shows it (Table 19-9). -/
def State.flogWord (s : State) (i : Nat) : Nat :=
  match s.faults[s.get pgTop R.TOP_FLOG_SEL]? with
  | none => 0
  | some f =>
    if i = 0 then (f.q / 2 ^ 48) % 2 ^ 32
    else if i = 1 then (f.q / 2 ^ 16) % 2 ^ 32
    else if i = 2 then f.code % 256 + f.ty % 65536 * 65536
    else f.detail % 2 ^ 24

/-- A word of the denial FIFO's oldest entry (R454). -/
def State.denyWord (s : State) (i : Nat) : Nat :=
  match s.denials with
  | [] => 0
  | d :: _ => if i = 0 then d.shell % 4096 + d.func % 64 * 2 ^ 16 + d.kind % 8 * 2 ^ 24 + 2 ^ 31 else d.addr % 2 ^ 32

/-- The word of the remote event FIFO's oldest entry (Table 11-12). -/
def State.remoteEvtWord (s : State) : Nat :=
  match s.link.evFifo with
  | [] => 0
  | (src, num) :: _ => num % 2048 + src % 2 ^ 14 * 2 ^ 11 + 2 ^ 31

/-- A word of a function's pending-bit array (R337). -/
def State.pbaWord (s : State) (fn rel : Nat) : Nat :=
  match Tab.find s.host.vecs fn with
  | some (base, count) => maskOf 32 fun k => decide (rel / 4 * 32 + k < count) && Tab.get s.host.pba false (base + rel / 4 * 32 + k)
  | none => 0

/-- The present value of a register word, by page and offset in it: fields the device computes are computed, the others are cells. -/
def State.liveWord (s : State) (fn : Nat) (p : Pg) (rel : Nat) : Nat :=
  let w := (s.cell (p.base + rel)).toNat
  if p.kind.isBlock && decide (rel < 0x40) then
    (match rel with
     | 0x010 => s.blkStat p
     | 0x01C => s.evtRaw p &&& s.evtEn p
     | _ => w)
  else match p.kind with
    | .top => if 0x0EC ≤ rel && rel < 0x0FC then s.flogWord ((rel - 0x0EC) / 4) else w
    | .time => if 0x070 ≤ rel && rel < 0x07C then qWord s.now ((rel - 0x070) / 4) else w
    | .sec => if rel = 0x060 then s.denyWord 0 else if rel = 0x064 then Tab.get s.sec.denyLatch 0 fn else w
    | .tu => if rel = 0x05C then putBits w 10 8 (s.tuChan p.inst) else w
    | .tcomb => if rel = 0x544 then putBits w 15 0 s.holding else w
    | .tdc => if rel = 0x04C then putBits w 1 1 (b2n (s.tdcArmed p.inst s.time.cc)) else w
    | .hist => if rel = 0x060 then putBits w 7 0 s.histActive else w
    | .cal => if rel = 0x050 then putBits w 3 3 (b2n (s.get pgCal R.CAL_RUN_ACTIVE = 1 && s.fstate = 2)) else w
    | .arb => if rel = 0x044 then s.resGuar else if rel = 0x048 then s.resFirm else w
    | .pcie =>
      if rel = 0x054 then
        (match Tab.find s.host.vecs (s.get pgPcie R.PCIE_VEC_SEL) with | some (b, c) => b + c * 65536 | none => 0)
      else if rel = 0x05C then
        (let (c, t) := s.coal (s.get pgPcie R.PCIE_COAL_SEL); c % 256 + t % 65536 * 65536)
      else w
    | .flink => if rel = 0x06C then s.remoteEvtWord else w
    | .ring => if rel = 0x02C then putBits w 4 4 (b2n (s.starved p.inst)) else w
    | .legacy =>
      if 0x3000 ≤ rel && rel < 0x3150 then s.ovrMap ((rel - 0x3000) / 4) else if rel < 0x2A00 then s.legacyRead (rel / 4) else 0
    | .pba => s.pbaWord fn rel
    | _ => w

/-- Whether the word at an offset of a page holds counters or RC fields, which FREEZE holds (R50). -/
def Pg.freezes (p : Pg) (rel : Nat) : Bool :=
  (p.kind.counters.any fun r => r.lies rel) || p.kind.rows.any fun r => r.acc = .rc && r.lies rel

/-- Whether a read of a word answers from the snapshot of its page.  The high word of DENY_LOG answers with what the function's last
low-word read latched (R454). -/
def State.frozenRead (s : State) (p : Pg) (rel : Nat) : Bool :=
  p.kind.isBlock && s.frozen p && p.freezes rel && !(p.kind = .sec && rel = 0x064)

/-- A word of the snapshot of a page. -/
def State.snapWord (s : State) (p : Pg) (rel : Nat) : Nat := (Tab.get s.host.frozen 0 (p.base + rel)).toNat

/-- A register word as it reads without side effects. -/
def State.viewWord (s : State) (fn : Nat) (p : Pg) (rel : Nat) : Nat :=
  if s.frozenRead p rel then s.snapWord p rel else s.liveWord fn p rel

/-- A register word of a page under soft reset: its reset value, with SRST and RESET_BUSY (R45). -/
def busyWord (p : Pg) (rel : Nat) : Nat :=
  if rel = 0x00C then (resetWord (p.base + rel)).toNat ||| 2
  else if rel = 0x010 then 2
  else if p.kind = .pcie && rel = 0x054 then 2048 * 65536
  else (resetWord (p.base + rel)).toNat

/-! ### Reads -/

/-- The key of a register word held or latched for a function (R51). -/
def wordKey (fn : Nat) (p : Pg) (rel : Nat) : Nat := fn * 2 ^ 26 + p.base + rel

/-- Whether a 64-bit register has its low word at an offset of a page (R51). -/
def wideLow (p : Pg) (rel : Nat) : Bool := p.kind.wides.any fun r => r.lies rel

/-- The high word goes to a function that reads the low word (R51). -/
def latchHigh (fn : Nat) (p : Pg) (rel v : Nat) : Prog :=
  .host fun h => { h with highLatch := Tab.put h.highLatch (wordKey fn p rel) (BitVec.ofNat 32 v) }

/-- The oldest denial, or the snapshot of it, is read: by a low-word read, which latches DENY_ADDR, or whole (R454). -/
def denyRead (fn : Nat) (low : Bool) : Prog :=
  .ask fun s =>
    let frozen := s.frozenRead pgSec 0x060
    let hi := if frozen then s.snapWord pgSec 0x064 else s.denyWord 1
    .all [.when low (.sec fun x => { x with denyLatch := Tab.put x.denyLatch fn hi }), .when (!frozen) (.one .denyPop)]

/-- What a read of a word does besides answering: RC fields clear (R49, R50), FIFOs give up their oldest entry, and the words that follow
are latched (R51, R274). -/
def readEffect (fn : Nat) (p : Pg) (rel : Nat) : Prog :=
  .ask fun s =>
    if p.kind = .sec && rel = 0x060 then denyRead fn true
    else .all [
      .when (wideLow p rel) (latchHigh fn p (rel + 4) (s.viewWord fn p (rel + 4))),
      .when (p.kind = .time && rel = 0x070)
        (.all [latchHigh fn p 0x074 (qWord s.now 1), latchHigh fn p 0x078 (qWord s.now 2)]),
      .when (!(s.frozenRead p rel)) (.all [
        .when (p.kind = .bank && rel = 0x064) (.all [
          .set p R.BANK_PEAK_MAX R.BANK_PEAK_MAX.rst, .set p R.BANK_PEAK_MIN R.BANK_PEAK_MIN.rst]),
        .when (p.kind = .flink && rel = 0x06C) (.link fun l => { l with evFifo := l.evFifo.drop 1 })])]

/-- A 32-bit read of a word: a latched high word is consumed by it (R51). -/
def readWord (fn : Nat) (p : Pg) (rel : Nat) (k : Nat → Prog) : Prog :=
  .ask fun s =>
    match Tab.find s.host.highLatch (wordKey fn p rel) with
    | some w => .all [.host fun h => { h with highLatch := Tab.del h.highLatch (wordKey fn p rel) }, k w.toNat]
    | none => .all [readEffect fn p rel, k (s.viewWord fn p rel)]

/-- A 64-bit read: of a 64-bit register atomically, else of two words (R51).  R51 speaks of the pair of 32-bit accesses only: an atomic
64-bit read leaves a pending latch of the high word as it is, and neither takes nor sets one (DESIGN CHOICE, log entry 110). -/
def readPair (fn : Nat) (p : Pg) (rel : Nat) (k : Nat → Prog) : Prog :=
  .ask fun s =>
    if p.kind = .sec && rel = 0x060 then
      .all [denyRead fn false,
        k (s.viewWord fn p 0x060 + (if s.frozenRead p 0x060 then s.snapWord p 0x064 else s.denyWord 1) * 2 ^ 32)]
    else if wideLow p rel then k (s.viewWord fn p rel + s.viewWord fn p (rel + 4) * 2 ^ 32)
    else readWord fn p rel fun lo => readWord fn p (rel + 4) fun hi => k (lo + hi * 2 ^ 32)

/-- A read of BAR0 by a function, and what is done with its answer. -/
def readReg (fn a width : Nat) (k : Nat → Prog) : Prog :=
  .ask fun s =>
    let (p, rel) := s.target fn a
    if s.pstate = 0 && !p.kind.acorn then .all [dormantAccess, k 0]
    else if s.recovery && !p.kind.inRecovery then k 0
    else if !(s.mayReach fn a p) then .all [denyAccess (s.funcShell fn) fn 0 a, k 0]
    else if !(p.assigned rel width) then k 0
    else if !(goodWidth a width) then
      .all [captureAcc p 0x01 a rel, k (if p.kind.isBlock && s.busy p then busyWord p (rel / 4 * 4) else s.viewWord fn p (rel / 4 * 4))]
    else if p.kind.isBlock && s.busy p then k (busyWord p rel + (if width = 8 then busyWord p (rel + 4) * 2 ^ 32 else 0))
    else if width = 8 then readPair fn p rel k
    else readWord fn p rel k

/-- A read of BAR0 by the host, answered to it. -/
def hostRead (fn a width : Nat) : Prog := readReg fn a width fun v => .out (.readData fn a v)

/-! ### The common header (R44) -/

/-- FREEZE of a page is written: the snapshot of its counters and RC fields is taken, or is over (R50). -/
def freezeWritten (p : Pg) (v : Bool) : Prog :=
  .ask fun s =>
    if v && !s.frozen p then
      let word (rel : Nat) : Nat := if p.kind = .sec && rel = 0x064 then s.denyWord 1 else s.liveWord 0 p rel
      .all [
        .host fun h => { h with
          frozen := (p.kind.counters ++ p.kind.rows.filter fun r => r.acc = .rc).foldl (fun t r =>
            (List.range r.count).foldl (fun t i =>
              Tab.put t (r.addr p i) (BitVec.ofNat 32 (word (r.off + r.stride * i)))) t) h.frozen },
        .one (.fld (p.base + 0x00C) 8 8 1)]
    else if !v && s.frozen p then
      .all [.one (.fld (p.base + 0x00C) 8 8 0),
        .host fun h => { h with frozen := h.frozen.filter fun e => !(decide (p.base ≤ e.1) && decide (e.1 < p.base + 0x1000)) }]
    else .nil

/-- EN of a stream's page has been written (R190).  A CONTINUOUS stream enabled in an open frame starts at the next segment boundary. -/
def streamEnWritten (n : Nat) (old new : Bool) : Prog :=
  .ask fun s =>
    if new && !old then .all [
      .when (s.fstate = 2) (joinFrame n s.now
        (((s.spc (s.srcChan n) * s.time.cc : Nat) - Tab.get s.seg.pos0 0 (s.srcChan n) + (s.segLen n : Int) - 1) / (s.segLen n : Int)).toNat),
      placeAll]
    else if old && !new then .all [.set (pgSt n) R.ST_IN_FRAME 0, placeAll]
    else .nil

/-- BLK_CTRL.EN of a page has been written, from an old to a new value. -/
def enWritten (p : Pg) (old new : Bool) : Prog :=
  match p.kind with
  | .bank => .all [bankEnWritten p.inst old new, openPending]
  | .tu => .when (old != new) (tuRestart p.inst)
  | .tdc => tdcStat p.inst
  | .text => .when (old != new) (textEnWritten new)
  | .st => streamEnWritten p.inst old new
  | .sq => sqStat p.inst
  | .fport => .when (old != new) (portEnWritten p.inst new)
  | .disp => dispEnWritten old new
  | _ => .nil

/-- A write of 1 to COMMIT (R53, R54). -/
def commitRequested (p : Pg) : Prog :=
  if !p.kind.shadowed then .nil
  else match p.kind with
  | .clk => commitClk
  | .cal => setPend pgCal true
  | .disp => commitDisp
  | _ => .all [commitWritten p, openPending]

/-- Whether an enabling of a stream would take the HBM in use beyond 31.75 GiB, or finds no place for its queue (R25, R448). -/
def State.enRefused (s : State) (p : Pg) : Bool :=
  p.kind = .st && !(s.en p) &&
    (let t := run (.one (.fld (p.base + 0x00C) 0 0 1)) s
     decide (hbmReserved < t.hbmDemand) || t.placeFail.isSome)

/-- A write of BLK_CTRL (Table 2-6).  An EN of a stream that R25 does not allow stays 0, and COMMIT_REFUSED is captured with the offset of
BLK_CTRL: R25 refuses the configuration and names no report for a written EN (DESIGN CHOICE, log entry 109). -/
def ctrlWritten (p : Pg) (v : Nat) : Prog :=
  if bit v 1 then softReset p
  else .ask fun s =>
    let no : Bool := bit v 0 && s.enRefused p
    .all [
      if no then capture p 0x03 0x00C
      else .all [.one (.fld (p.base + 0x00C) 0 0 (v % 2)), enWritten p (s.en p) (bit v 0)],
      freezeWritten p (bit v 8), .when (bit v 4) (commitRequested p)]

/-- A write of EVT_EN: an event whose EVT_PEND rises is delivered (R64). -/
def evtEnWritten (p : Pg) (v : Nat) : Prog :=
  .ask fun s =>
    let m := v % 2 ^ p.events.2
    .all [.one (.wr (p.base + 0x018) (BitVec.ofNat 32 m)),
      .each (which p.events.2 fun k => bit (s.evtRaw p) k && bit m k && !(bit (s.evtEn p) k)) fun k => deliver (p.events.1 + k)]

/-- An OWNER or SHELL_OWNER is written: it waits for the next publication (R48, R442, R449). -/
def ownerWritten (p : Pg) (v : Nat) : Prog :=
  .all [.one (.fld p.ownReg 11 0 v),
    .sec fun x => { x with pendOwn := if x.pendOwn.contains p.ownReg then x.pendOwn else x.pendOwn ++ [p.ownReg] }, showPend]

/-- A write of a word of the common header (Tables 2-3 to 2-11). -/
def headWrite (fn : Nat) (p : Pg) (rel v : Nat) : Prog :=
  match rel with
  | 0x00C => ctrlWritten p v
  | 0x014 => .ask fun s => .one (.wr (p.base + 0x014) (BitVec.ofNat 32 (s.evtRaw p - (s.evtRaw p &&& v))))
  | 0x018 => evtEnWritten p v
  | 0x024 => .each (which p.events.2 fun k => bit v k) fun k => raise p k
  | 0x028 => .when (bit v 31) (.one (.wr (p.base + 0x028) 0))
  | 0x02C => .when (fn = 0 && p.kind.ownable) (ownerWritten p (v % 4096))
  | _ => .nil

/-! ### Writes that are discarded -/

/-- Whether a write of words puts a reserved encoding in a field of a RW or RWS register (R59). -/
def reservedWrite (p : Pg) (rel : Nat) (ws : List Nat) : Bool :=
  let word (off v : Nat) : Bool := p.kind.rows.any fun r => (r.acc = .rw || r.acc = .rws) && r.lies off &&
    r.bad.any fun b => decide (b.1 ≤ bits v r.hi r.lo) && decide (bits v r.hi r.lo ≤ b.2)
  let v := ws.headD 0 + ws.getD 1 0 * 2 ^ 32
  (ws.mapIdx fun i w => word (rel + 4 * i) w).any id ||
    (match p.kind with
     | .ring => rel = 0x008 && bit v 7 && decide (bits v 6 5 ≠ 2)
     | .mon => R.MON_LO.lies rel && decide (bits v R.MON_HI.hi R.MON_HI.lo < bits v R.MON_LO.hi R.MON_LO.lo)
     | .tmr => R.TMR_PERIOD_LO.lies rel && decide (1 ≤ v) && decide (v ≤ 28147497)
     | .route => rel = 0 && ((bits v 2 0 = 1 && decide (2048 ≤ bits v 20 8)) || (bits v 2 0 = 4 && decide (4 ≤ bits v 20 8)))
     | _ => false)

/-- Whether a vector lies in the range of a function (R337). -/
def State.vecOf (s : State) (fn v : Nat) : Bool := s.vecFunc v = some fn

/-- Whether a ring is an event ring of an owner (R340, R357). -/
def State.eventRingOf (s : State) (owner n : Nat) : Bool := s.get (pgRing n) R.RING_TYPE = 3 && s.ringOwner n = owner

/-- Whether a routing entry's targets lie in a shell's reach (R357). -/
def State.routeReach (s : State) (fn e v : Nat) : Bool :=
  let o := s.owner (evtPage e).ownReg
  match bits v 2 0 with
  | 1 => s.vecOf fn (bits v 18 8)
  | 2 => s.eventRingOf o (bits v 20 8)
  | 3 => bit (s.rights o) 5 && bit (s.rights o) 11
  | 4 => bit (s.rights o) 10
  | _ => true

/-- Whether a write of a ring's VECTOR and NRING word names only what its shell reaches (Table 12-3). -/
def State.notifyReach (s : State) (fn n v : Nat) : Bool :=
  (!(bit v 11) || s.vecOf fn (bits v 10 0)) && (!(bit v 31) || s.eventRingOf (s.ringOwner n) (bits v 28 16))

/-- Whether a function's vector range may become another (R337). -/
def State.vecMapOk (s : State) (f base count : Nat) : Bool :=
  decide (base + count ≤ 2048) && !(Tab.get s.host.msixEn false f) &&
    s.host.vecs.all fun e => e.1 = f || count = 0 || e.2.2 = 0 || decide (base + count ≤ e.2.1) || decide (e.2.1 + e.2.2 ≤ base)

/-- Whether a context that is ACTIVE or in WAIT_LINK has a path on a port (Table 13-7). -/
def State.portInUse (s : State) (port : Nat) : Bool :=
  s.ctxList.any fun c => (s.qp c R.QPC_STATE = 1 || s.qp c R.QPC_STATE = 2) &&
    (subOf (s.qp c R.QPC_PORT) / 4 = port || (s.qp c R.QPC_ALT_EN = 1 && subOf (s.qp c R.QPC_ALT_PORT) / 4 = port))

/-- What a write that its register's rule discards does instead; none where it acts. -/
def State.discards (s : State) (fn : Nat) (p : Pg) (rel : Nat) (ws : List Nat) : Option Prog :=
  let v := ws.headD 0 + ws.getD 1 0 * 2 ^ 32
  let n := p.inst
  match p.kind with
  | .flash => if 0x070 ≤ rel && rel < 0x080 && !s.recovery then some .nil else none
  | .disp => if rel = 0x070 && s.get pgDisp R.DISP_AUX_GO = 1 then some .nil else none
  | .enet => if rel = 0x040 && decide (v % 4 ≠ s.get p R.ENET_MODE) && s.portInUse n then some (capture p 0x21 0) else none
  | .pcie =>
    if rel = 0x054 && !(s.vecMapOk (s.get pgPcie R.PCIE_VEC_SEL) (bits v 10 0) (bits v 27 16)) then
      some (capture pgPcie 0x22 (s.get pgPcie R.PCIE_VEC_SEL))
    else none
  | .ring =>
    let fixed : Bool := s.get p R.RING_EN = 1 || s.get p R.RING_RUNNING = 1
    let cfg := [R.RING_LOG2_SIZE, R.RING_TYPE, R.RING_CHAIN, R.RING_LOCAL, R.RING_PAIR]
    if fixed && (rel = 0x000 && decide (v ≠ s.get64 p R.RING_BASE_LO R.RING_BASE_HI) ||
        rel = 0x008 && cfg.any fun r => decide (bits v r.hi r.lo ≠ s.get p r)) then some (capture pgPcie 0x21 n)
    else if rel = 0x00C && fn ≠ 0 then some .nil
    else if rel = 0x010 && fn ≠ 0 && !(s.notifyReach fn n v) then some (denyAccess (s.ringOwner n) fn 1 (p.base + rel))
    else none
  | .qpc =>
    let head := s.get64 p R.QPC_HEAD_LO R.QPC_HEAD_HI
    let region := s.get64 p R.QPC_REGION_LO R.QPC_REGION_HI
    let mine : Bool := match rel with | 0x028 => fn ≠ 0 || s.owner p.ownReg = supervisor | 0x03C => fn = 0 | _ => false
    if !mine then some (denyAccess (if fn = 0 then supervisor else s.owner p.ownReg) fn 1 (p.base + rel))
    else if rel = 0x028 && (decide (v < s.get64 p R.QPC_LIMIT_LO R.QPC_LIMIT_HI) || decide (head + region < v)) then some (capture pgRdma 0x22 n)
    else none
  | .route => if fn ≠ 0 && !(s.routeReach fn n v) then some (denyAccess (s.owner (evtPage n).ownReg) fn 6 (p.base + rel)) else none
  | _ => none

/-! ### Writes that act -/

/-- A word is stored under the access codes of its fields (R49). -/
def storeWord (p : Pg) (rel v : Nat) : Prog :=
  .each (p.kind.rows.filter fun r => r.lies rel) fun r => .ask fun s =>
    let x := bits v r.hi r.lo
    let old := bits (s.cell (p.base + rel)).toNat r.hi r.lo
    match r.acc with
    | .rw | .rws => .one (.fld (p.base + rel) r.hi r.lo x)
    | .w1c => .one (.fld (p.base + rel) r.hi r.lo (old - (old &&& x)))
    | .w1s => .one (.fld (p.base + rel) r.hi r.lo (old ||| x))
    | _ => .nil

/-- Whether a word is held elsewhere than in its cell, or is stored by the register's own rule. -/
def ownStore (p : Pg) (rel : Nat) : Bool :=
  match p.kind with
  | .flink => rel = 0x040
  | .pcie => rel = 0x054 || rel = 0x05C
  | .legacy | .pba => true
  | .ring => rel = 0x008 || rel = 0x00C
  | .qpc => rel = 0x03C
  | _ => false

/-- What a write of the TOP page starts (R55, R510, R512, R514). -/
def topWritten (old : State) (rel v : Nat) : Prog :=
  match rel with
  | 0x040 => .all [.when (old.get pgTop R.TOP_HOLD = 1 && !(bit v 0)) holdReleased, showHeld, openPending]
  | 0x07C => .ask fun s => .sys fun x => { x with
      openSet := qOfWords (s.geti pgTop R.TOP_OPEN_AT0 0) (s.geti pgTop R.TOP_OPEN_AT1 0) (s.geti pgTop R.TOP_OPEN_AT2 0) }
  | 0x0C8 => .when (bit v 0) (coreReset 5)
  | 0x0CC => .each (which 2 fun d => bit v d && old.diesOn) fun d => .all [feReset d, openPending]
  | 0x0D0 => .when (bit v 31) shellReset
  | _ => .nil

/-- What a write of the TMR page starts (R475 to R477). -/
def tmrWritten (old : State) (rel v : Nat) : Prog :=
  if 0x100 ≤ rel && rel < 0x200 then
    (let k := (rel - 0x100) / 32
     match (rel - 0x100) % 32 with
     | 0x08 => expWritten k
     | 0x14 => .when (bit v 0) (timerArmed k)
     | _ => .nil)
  else if 0x200 ≤ rel && rel < 0x280 && (rel - 0x200) % 16 = 12 then pwmWritten old ((rel - 0x200) / 16)
  else .nil

/-- What a write of the FLINK common page starts (Table 11-12). -/
def flinkWritten (old : State) (rel v : Nat) : Prog :=
  match rel with
  | 0x040 => devIdWritten (v % 2 ^ 14)
  | 0x044 => upPortWritten (old.get pgFlink R.FLINK_UP_PORT) (v % 8)
  | 0x048 => .ask fun s => .when ([R.FLINK_VER_MIN, R.FLINK_VER_MAX].any fun r => decide (s.get pgFlink r ≠ old.get pgFlink r))
      (.each (List.range 4) fun n => .set (pgFport n) R.FPORT_FALLBACK 0)
  | 0x050 => gateSrcWritten old
  | 0x068 => rqLookup
  | _ => .nil

/-- What a write of an ENET page starts (Tables 13-7 and 13-8): the port retrains, pauses end, or the PTP clock starts again. -/
def enetWritten (old : State) (p : Pg) (rel v : Nat) : Prog :=
  match rel with
  | 0x040 => .when (decide (v ≠ (old.cell (p.base + rel)).toNat)) (.each (List.range 4) fun i => subportDown (4 * p.inst + i))
  | 0x044 => pfcWritten p.inst
  | 0x070 => .when ([R.ENET_PTP_EN, R.ENET_PTP_SUB, R.ENET_TRANSPORT, R.ENET_DOMAIN].any fun r => decide (bits v r.hi r.lo ≠ old.get p r))
      (ptpRestart p.inst)
  | _ => .nil

/-- A write of a ring slot's CFG word: its fields, and EN (R341). -/
def ringCfgWritten (n v : Nat) : Prog :=
  .ask fun s => .all [
    .each [R.RING_LOG2_SIZE, R.RING_TYPE, R.RING_CHAIN, R.RING_LOCAL, R.RING_PAIR] fun r => .set (pgRing n) r (bits v r.hi r.lo),
    if bit v 8 then .when (s.get (pgRing n) R.RING_EN = 0) (enableRing n)
    else .when (s.get (pgRing n) R.RING_EN = 1) (disableRing n)]

/-- The message a pending bit holds leaves when its vector is unmasked (R359). -/
def msixWritten (old : State) (n rel v : Nat) : Prog :=
  .when (rel = 0x00C && old.get (pgMsix n) R.MSIX_MASK = 1 && !(bit v 0) && Tab.get old.host.pba false n)
    (.all [.host fun h => { h with pba := Tab.del h.pba n }, sendMsix n])

/-- What a write that has been stored starts. -/
def written (old : State) (p : Pg) (rel v : Nat) : Prog :=
  match p.kind with
  | .top => topWritten old rel v
  | .clk => .when (rel = 0x04C) (.all [.when (bit v 0) relock, .when (bit v 1) syncArm])
  | .time => .when (rel = 0x040) discWritten
  | .mon => .all [
      .when (rel = 0x040 && bit v 1) selfcal,
      .when (decide (0x100 ≤ rel) && rel % 16 = 4 && bit v 16) (.pwr fun x => { x with winNew := ((rel - 0x100) / 16 :: x.winNew).dedup })]
  | .tmr => tmrWritten old rel v
  | .pwr => .when (rel = 0x044 && (v % 4 = 1 || v % 4 = 2)) (wake (v % 4) 0)
  | .flash => .when (rel = 0x07C && bit v 31) rcvGo
  | .sec => .all [.when (rel = 0x044 && bit v 0) publishWritten, .when (rel = 0x048 && bit v 0) dbgLock]
  | .text => .when (rel = 0x094) (swTrig v)
  | .tdc => .when (rel = 0x050 && bit v 0) (cdWritten p.inst)
  | .acc => .when (rel = 0x04C && bit v 31) (epochGo (v % 256))
  | .diff => .when (rel = 0x048 && bit v 31) (diffEpochGo (v % 64))
  | .arb => .when (rel = 0x050) (fabStat (v % 128))
  | .pcie => .all [
      .when (rel = 0x054) (.host fun h => { h with vecs := Tab.put h.vecs (old.get pgPcie R.PCIE_VEC_SEL) (bits v 10 0, bits v 27 16) }),
      .when (rel = 0x05C) (.host fun h => { h with coal := Tab.put h.coal (old.get pgPcie R.PCIE_COAL_SEL) (bits v 7 0, bits v 31 16) })]
  | .enet => enetWritten old p rel v
  | .rdma => .when (rel = 0x040) (.net fun n => { n with shedAge := (old.now, v % 65536) :: n.shedAge })
  | .flink => flinkWritten old rel v
  | .fport => .when (rel = 0x044 && bit v 0) (retrain p.inst)
  | .disp => .all [
      .when (rel = 0x064) (.all [.when (bit v 0) (.set pgDisp R.DISP_READY 1), .when (bit v 1) renderGo]),
      .when (rel = 0x070 && bit v 31) auxGo]
  | .ring => .all [.when (rel = 0x008) (ringCfgWritten p.inst v), .when (rel = 0x00C) (ownerWritten p (v % 4096))]
  | .qpc => .when (rel = 0x03C) (ownerWritten p (v % 4096))
  | .win => .all [
      .sec fun x => { x with pendWin := if x.pendWin.contains p.inst then x.pendWin else x.pendWin ++ [p.inst] }, showPend]
  | .msix => msixWritten old p.inst rel v
  | .legacy => if rel < 0x2A00 then legacyWrite (rel / 4) (BitVec.ofNat 32 v)
      else .when (rel = 0x3F00) (legacyRelease (BitVec.ofNat 32 v))
  | _ => .nil

/-- A register of one word or two takes a written value, or the write is discarded (R59, R541). -/
def writeWords (fn : Nat) (p : Pg) (rel : Nat) (ws : List Nat) : Prog :=
  .ask fun s =>
    if p.kind.isBlock && decide (rel < 0x40) then .each (ws.mapIdx fun i v => (rel + 4 * i, v)) fun e => headWrite fn p e.1 e.2
    else if reservedWrite p rel ws then captureAcc p 0x02 (p.base + rel) rel
    else match s.discards fn p rel ws with
    | some q => q
    | none => .all [
        .when (!(ownStore p rel)) (.each (ws.mapIdx fun i v => (rel + 4 * i, v)) fun e => storeWord p e.1 e.2),
        written s p rel (ws.headD 0)]

/-- A 32-bit write: the low word of a 64-bit register is held for its function, and the high word puts the whole value in force (R51).  A
64-bit write leaves a held low word held (`hostWrite`; DESIGN CHOICE, log entry 110). -/
def writeWord (fn : Nat) (p : Pg) (rel v : Nat) : Prog :=
  if wideLow p rel then .host fun h => { h with lowHeld := Tab.put h.lowHeld (wordKey fn p rel) (BitVec.ofNat 32 v) }
  else if 4 ≤ rel && wideLow p (rel - 4) then .ask fun s =>
    let low := (Tab.find s.host.lowHeld (wordKey fn p (rel - 4))).getD (s.cell (p.base + rel - 4))
    .all [.host fun h => { h with lowHeld := Tab.del h.lowHeld (wordKey fn p (rel - 4)) }, writeWords fn p (rel - 4) [low.toNat, v]]
  else writeWords fn p rel [v]

/-- A write of BAR0 by a function. -/
def hostWrite (fn a width v : Nat) : Prog :=
  .ask fun s =>
    let (p, rel) := s.target fn a
    if s.pstate = 0 && !p.kind.acorn then dormantAccess
    else if s.recovery && !p.kind.inRecovery then .nil
    else if !(s.mayReach fn a p) then denyAccess (s.funcShell fn) fn (if (locate a).1.kind = .route then 6 else 1) a
    else if !(p.assigned rel width) then .nil
    else if !(goodWidth a width) then captureAcc p 0x01 a rel
    else if p.kind.isBlock && s.busy p then .nil
    else if width = 8 then
      (if wideLow p rel then writeWords fn p rel [v % 2 ^ 32, v / 2 ^ 32 % 2 ^ 32]
       else .all [writeWord fn p rel (v % 2 ^ 32), writeWord fn p (rel + 4) (v / 2 ^ 32 % 2 ^ 32)])
    else writeWord fn p rel (v % 2 ^ 32)

/-! ### BAR4 (R448) -/

/-- Whether every byte of a BAR4 access lies in one valid window with HOST and the right it needs. -/
def State.bar4Ok (s : State) (write : Bool) (addr len : Nat) : Bool :=
  s.sec.wins.any fun e => decide (e.2.size ≠ 0) && e.2.host && (if write then e.2.wr else e.2.rd) && decide (e.2.base ≤ addr) &&
    decide (addr + len ≤ e.2.base + e.2.size)

/-- An HBM stack is accessed: it leaves self-refresh (R461). -/
def touchStack (addr : Nat) : Prog :=
  .ask fun s =>
    let k := addr / 2 ^ 34 % 2
    .all [.pwr fun p => { p with used := Tab.put p.used k s.now },
      .when (s.get (pgMc (2 * k)) R.MC_MODE = 1) (.each [2 * k, 2 * k + 1] fun m => .set (pgMc m) R.MC_MODE 2)]

/-- An access through BAR4, with the bytes of a write. -/
def bar4Access (write : Bool) (addr len : Nat) (data : List Byte) : Prog :=
  .ask fun s =>
    let n := if write then data.length else len
    if !(s.bar4Ok write addr n) then
      .all [denyAccess (s.funcShell 0) 0 5 addr, .when (!write) (.out (.memData addr (List.replicate n 0)))]
    else .all [touchStack addr, if write then .one (.mem addr data) else .out (.memData addr (s.hbmRead addr n))]

/-! ### Remote register requests (R324) -/

/-- Whether the target of a remote request refuses it. -/
def State.remoteRefused (s : State) (op off : Nat) : Bool :=
  let k := (locate off).1.kind
  match op with
  | 0 => s.get pgFlink R.FLINK_RD_EN = 0 || k = .sec || k = .shell || k = .win || k = .legacy
  | 1 => s.get pgFlink R.FLINK_WR_EN = 0 || k = .sec || k = .shell || k = .win || k = .legacy
  | 2 => s.get pgFlink R.FLINK_RST_EN = 0
  | _ => true

/-- A remote request for this device is executed, and answered. -/
def remoteHere (src tag op off data : Nat) : Prog :=
  .ask fun s =>
    if s.remoteRefused op off then .all [.inc pgFlink R.FLINK_CNT_REMOTE_REJ, sendResponse src tag 1 0]
    else .all [.inc pgFlink R.FLINK_CNT_REMOTE_EXEC,
      match op with
      | 0 => readReg 0 off 4 fun v => sendResponse src tag 0 v
      | 1 => .all [hostWrite 0 off 4 data, sendResponse src tag 0 0]
      | _ => .all [sendResponse src tag 0 0, .each (s.routeTo src).toList txFlush, coreReset 4]]

end Sys2Proof.Machine
end

