-- ==== Sys2Proof/Machine/Registers.lean ====
section
/-! DEFINITION. The commands that are accesses to registers and to HBM: each is an access of a function to one register's address. -/

namespace Sys2Proof.Machine

/-- The offset of a register in a 4 KiB page of BAR0. -/
def pageReg (page rel : Nat) : Nat := page * 4096 + rel

/-- BLK_CTRL of a page as it stands, without its SC bits, and with one RW bit given. -/
def State.ctrlWith (s : State) (page k : Nat) (v : Bool) : Nat :=
  putBits (bits (s.cell (pageReg page 0x00C)).toNat 8 8 * 256 + bits (s.cell (pageReg page 0x00C)).toNat 0 0) k k (b2n v)

/-! ### Software and hardware in one cycle (R56) -/

/-- Whether a command is an action of software that Table 2-16 takes after the hardware action of its cycle: an EVT_FORCE, a set of a W1S bit, a
start of an SC operation, COMMIT and SRST.  The others, the clears of W1C bits and of EVT_RAW, writes of EVT_EN, of counters and of RWS fields and
reads of RC fields, are taken before it. -/
def takesLast (sw : Instr) : Bool :=
  match sw with
  | .evtForce _ _ _ | .srst _ _ | .commit _ _ | .selfcal _ | .relock _ | .syncArm _ | .retrain _ _ | .publish _ | .accEpochGo _ _
  | .diffEpochGo _ _ | .codeDensityStart _ _ _ | .renStart _ | .auxGo _ _ _ _ | .rcvGo _ _ | .feRst _ _ | .shellRst _ _ | .dispReady _ => true
  | .registerWrite _ off _ _ =>
    let at_ := locate off
    at_.2 = 0x00C || at_.2 = 0x024 || at_.1.kind.rows.any fun r => r.lies at_.2 && (r.acc = .w1s || r.acc = .sc)
  | _ => false

/-- The order in which an action of software and one of hardware on the same field are taken when they come in one cycle: with it each outcome
is that of Table 2-16 (R56). -/
def sameCycle (sw hw : Instr) : List Instr := if takesLast sw then [hw, sw] else [sw, hw]

/-- A state with both at the front of its queue, as they come in one cycle. -/
def State.withCycle (s : State) (sw hw : Instr) : State := { s with pending := sameCycle sw hw ++ s.pending }

/-! ### The common header (R44 to R50, R53, R64) -/

/-- BLK_CTRL.EN of a page is written, the other bits as they stand. -/
def execBlkCtrlEn (fn page : Nat) (en : Bool) (s : State) : Host.Outcome State Fault Refusal :=
  .next (run (hostWrite fn (pageReg page 0x00C) 4 (s.ctrlWith page 0 en)) s)

/-- 1 is written to BLK_CTRL.SRST of a page (R45). -/
def execSrst (fn page : Nat) (s : State) : Host.Outcome State Fault Refusal :=
  .next (run (hostWrite fn (pageReg page 0x00C) 4 (s.ctrlWith page 1 true)) s)

/-- 1 is written to BLK_CTRL.COMMIT of a page (R53). -/
def execCommit (fn page : Nat) (s : State) : Host.Outcome State Fault Refusal :=
  .next (run (hostWrite fn (pageReg page 0x00C) 4 (s.ctrlWith page 4 true)) s)

/-- BLK_CTRL.FREEZE of a page is written (R50). -/
def execFreeze (fn page : Nat) (v : Bool) (s : State) : Host.Outcome State Fault Refusal :=
  .next (run (hostWrite fn (pageReg page 0x00C) 4 (s.ctrlWith page 8 v)) s)

/-- EVT_RAW of a page is written (R64). -/
def execEvtRawClear (fn page : Nat) (v : Word) (s : State) : Host.Outcome State Fault Refusal :=
  .next (run (hostWrite fn (pageReg page 0x014) 4 v.toNat) s)

/-- EVT_EN of a page is written (R56). -/
def execEvtEnWrite (fn page : Nat) (v : Word) (s : State) : Host.Outcome State Fault Refusal :=
  .next (run (hostWrite fn (pageReg page 0x018) 4 v.toNat) s)

/-- EVT_FORCE of a page is written (R56). -/
def execEvtForce (fn page : Nat) (v : Word) (s : State) : Host.Outcome State Fault Refusal :=
  .next (run (hostWrite fn (pageReg page 0x024) 4 v.toNat) s)

/-- 1 is written to ERR_INFO.VALID of a page (R46). -/
def execErrInfoClear (fn page : Nat) (s : State) : Host.Outcome State Fault Refusal :=
  .next (run (hostWrite fn (pageReg page 0x028) 4 (2 ^ 31)) s)

/-- TOP.COMMIT_CTRL.HOLD is written (R55). -/
def execCommitCtrlHold (fn : Nat) (v : Bool) (s : State) : Host.Outcome State Fault Refusal :=
  .next (run (hostWrite fn 0x040 4 (b2n v)) s)

/-! ### Accesses of any register (R37, R49 to R51) -/

/-- Any register is written, by a request of some bytes. -/
def execRegisterWrite (fn off width : Nat) (v : BitVec 64) (s : State) : Host.Outcome State Fault Refusal :=
  .next (run (hostWrite fn off width v.toNat) s)

/-- A register is read, by a request of some bytes: a read-clear field gives its value and clears (R50). -/
def execRcFieldRead (fn off width : Nat) (s : State) : Host.Outcome State Fault Refusal := .next (run (hostRead fn off width) s)

/-- SEC.DENY_LOG is read: whole by a 64-bit request, or its low word (R454). -/
def execDenyLogRead (fn : Nat) (whole : Bool) (s : State) : Host.Outcome State Fault Refusal :=
  .next (run (hostRead fn 0x7060 (if whole then 8 else 4)) s)

/-- FLINK EVT_NUM is read (R331). -/
def execRemoteEvtRead (fn : Nat) (s : State) : Host.Outcome State Fault Refusal := .next (run (hostRead fn 0x44006C 4) s)

/-- The low word of a 64-bit register is read (R51). -/
def execLowWordRead (fn off : Nat) (s : State) : Host.Outcome State Fault Refusal := .next (run (hostRead fn off 4) s)

/-- TIME 0x070 is read (R274). -/
def execTimeNowRead (fn : Nat) (s : State) : Host.Outcome State Fault Refusal := .next (run (hostRead fn 0x2070 4) s)

/-- The low word of a 64-bit register is written (R51). -/
def execLowWordWrite (fn off : Nat) (v : Word) (s : State) : Host.Outcome State Fault Refusal := .next (run (hostWrite fn off 4 v.toNat) s)

/-- The high word of a 64-bit register is written (R51). -/
def execHighWordWrite (fn off : Nat) (v : Word) (s : State) : Host.Outcome State Fault Refusal := .next (run (hostWrite fn off 4 v.toNat) s)

/-! ### Registers of the acquisition pages -/

/-- TEXT.SW_TRIG is written (R134). -/
def execSwTrig (fn : Nat) (v : Word) (s : State) : Host.Outcome State Fault Refusal := .next (run (hostWrite fn 0x29094 4 v.toNat) s)

/-- ACC.EPOCH_GO is written for a stream (R204). -/
def execAccEpochGo (fn stream : Nat) (s : State) : Host.Outcome State Fault Refusal :=
  .next (run (hostWrite fn 0x4104C 4 (2 ^ 31 + stream % 256)) s)

/-- DIFF.EPOCH_GO is written for a pair (R271). -/
def execDiffEpochGo (fn pair : Nat) (s : State) : Host.Outcome State Fault Refusal :=
  .next (run (hostWrite fn 0x43048 4 (2 ^ 31 + pair % 64)) s)

/-- START of a TDC is written, with LOG2_EDGES (R264). -/
def execCodeDensityStart (fn input log2Edges : Nat) (s : State) : Host.Outcome State Fault Refusal :=
  .next (run (hostWrite fn (0x30050 + input % 16 * 4096) 4 (1 + log2Edges % 32 * 256)) s)

/-- MON.SELFCAL is written, LOW_POWER as it stands (R469). -/
def execSelfcal (fn : Nat) (s : State) : Host.Outcome State Fault Refusal :=
  .next (run (hostWrite fn 0x3040 4 (2 + s.get pgMon R.MON_LOW_POWER)) s)

/-- CLK.RELOCK is written (R288). -/
def execRelock (fn : Nat) (s : State) : Host.Outcome State Fault Refusal := .next (run (hostWrite fn 0x104C 4 1) s)

/-- CLK.SYNC_ARM is written (R289). -/
def execSyncArm (fn : Nat) (s : State) : Host.Outcome State Fault Refusal := .next (run (hostWrite fn 0x104C 4 2) s)

/-- TIME.XO_AGE is written (R248). -/
def execXoAgeWrite (fn : Nat) (v : Word) (s : State) : Host.Outcome State Fault Refusal := .next (run (hostWrite fn 0x2044 4 v.toNat) s)

/-- The last word of a timer's EXP is written (R475). -/
def execTimerExpWrite (fn timer : Nat) (v : Word) (s : State) : Host.Outcome State Fault Refusal :=
  .next (run (hostWrite fn (0x4108 + timer % 8 * 32) 4 v.toNat) s)

/-- ARM of a timer is written 1, with PERIODIC (R476). -/
def execTimerArm (fn timer : Nat) (periodic : Bool) (s : State) : Host.Outcome State Fault Refusal :=
  .next (run (hostWrite fn (0x4114 + timer % 8 * 32) 4 (1 + 2 * b2n periodic)) s)

/-- A word of the legacy calibration window is written (R130). -/
def execLegacyWindowWrite (fn word : Nat) (v : Word) (s : State) : Host.Outcome State Fault Refusal :=
  .next (run (hostWrite fn (0x1C000 + word % 2688 * 4) 4 v.toNat) s)

/-- LEG_RELEASE is written (R130). -/
def execLegRelease (fn : Nat) (v : Word) (s : State) : Host.Outcome State Fault Refusal := .next (run (hostWrite fn 0x1FF00 4 v.toNat) s)

/-! ### Registers of the link, ring, network and display pages -/

/-- RETRAIN of a Filmund port is written (R327). -/
def execRetrain (fn port : Nat) (s : State) : Host.Outcome State Fault Refusal :=
  .next (run (hostWrite fn (0x441044 + port % 4 * 4096) 4 1) s)

/-- FLINK.DEV_ID is written (R305). -/
def execDevIdWrite (fn id : Nat) (s : State) : Host.Outcome State Fault Refusal := .next (run (hostWrite fn 0x440040 4 (id % 2 ^ 32)) s)

/-- FLINK.UP_PORT is written (R303). -/
def execUpPortWrite (fn port : Nat) (s : State) : Host.Outcome State Fault Refusal := .next (run (hostWrite fn 0x440044 4 (port % 2 ^ 32)) s)

/-- FLINK.RQ_ID is written (R331). -/
def execRqIdLookup (fn id : Nat) (s : State) : Host.Outcome State Fault Refusal := .next (run (hostWrite fn 0x440068 4 (id % 2 ^ 32)) s)

/-- The CFG word of a ring slot as it stands, without EN. -/
def State.ringCfg (s : State) (n : Nat) : Nat := putBits (s.cell (R.RING_EN.addr (pgRing n) 0)).toNat 8 8 0

/-- EN of a ring slot is written 1, the other fields as they stand (R341). -/
def execRingEnable (fn ring : Nat) (s : State) : Host.Outcome State Fault Refusal :=
  .next (run (hostWrite fn (0x800008 + ring % 8192 * 64) 4 (s.ringCfg (ring % 8192) + 256)) s)

/-- EN of a ring slot is written 0 (R341). -/
def execRingDisable (fn ring : Nat) (s : State) : Host.Outcome State Fault Refusal :=
  .next (run (hostWrite fn (0x800008 + ring % 8192 * 64) 4 (s.ringCfg (ring % 8192))) s)

/-- The VECTOR and NRING word of a ring slot is written (R340). -/
def execRingNotifyWrite (fn ring : Nat) (v : Word) (s : State) : Host.Outcome State Fault Refusal :=
  .next (run (hostWrite fn (0x800010 + ring % 8192 * 64) 4 v.toNat) s)

/-- LIMIT of a queue-pair context is written whole (R372). -/
def execLimitWrite (fn ctx : Nat) (v : BitVec 64) (s : State) : Host.Outcome State Fault Refusal :=
  .next (run (hostWrite fn (0x900028 + ctx % 4096 * 64) 8 v.toNat) s)

/-- An event routing entry is written whole (R357). -/
def execRoutingEntryWrite (fn event : Nat) (v : BitVec 64) (s : State) : Host.Outcome State Fault Refusal :=
  .next (run (hostWrite fn (0xB00000 + event % 2048 * 8) 8 v.toNat) s)

/-- VEC_MAP of the function that VEC_SEL names is written (R337). -/
def execVecMapWrite (fn : Nat) (v : Word) (s : State) : Host.Outcome State Fault Refusal := .next (run (hostWrite fn 0x400054 4 v.toNat) s)

/-- COAL of the vector that COAL_SEL names is written (R359). -/
def execCoalWrite (fn : Nat) (v : Word) (s : State) : Host.Outcome State Fault Refusal := .next (run (hostWrite fn 0x40005C 4 v.toNat) s)

/-- An entry of a function's MSI-X table is unmasked (R359). -/
def execMsixUnmask (fn entry : Nat) (s : State) : Host.Outcome State Fault Refusal :=
  .next (run (hostWrite fn (0xC0000C + entry % 2048 * 16) 4 0) s)

/-- DISP.READY is written (R489). -/
def execDispReady (fn : Nat) (s : State) : Host.Outcome State Fault Refusal := .next (run (hostWrite fn 0x450064 4 1) s)

/-- DISP.REN_START is written (R495). -/
def execRenStart (fn : Nat) (s : State) : Host.Outcome State Fault Refusal := .next (run (hostWrite fn 0x450064 4 2) s)

/-- AUX_GO is written, with the request (R487). -/
def execAuxGo (fn cmd addr len : Nat) (s : State) : Host.Outcome State Fault Refusal :=
  .next (run (hostWrite fn 0x450070 4 (cmd % 16 + addr % 2 ^ 20 * 16 + len % 16 * 2 ^ 24 + 2 ^ 31)) s)

/-- PRIO of a requester is written (R430). -/
def execArbPrioWrite (fn req prio : Nat) (s : State) : Host.Outcome State Fault Refusal :=
  .next (run (hostWrite fn (0x304100 + req % 128 * 4) 4 (prio % 8)) s)

/-! ### Registers of the supervisor's pages -/

/-- PWR.WAKE is written (R462). -/
def execPwrWake (fn target : Nat) (s : State) : Host.Outcome State Fault Refusal := .next (run (hostWrite fn 0x5044 4 (target % 4)) s)

/-- SEC.PUBLISH is written (R449). -/
def execPublish (fn : Nat) (s : State) : Host.Outcome State Fault Refusal := .next (run (hostWrite fn 0x7044 4 1) s)

/-- SEC.DBG_LOCK is written (R453). -/
def execDbgLock (fn : Nat) (s : State) : Host.Outcome State Fault Refusal := .next (run (hostWrite fn 0x7048 4 1) s)

/-- TOP.CORE_RST is written (R510). -/
def execCoreRst (fn : Nat) (s : State) : Host.Outcome State Fault Refusal := .next (run (hostWrite fn 0x0C8 4 1) s)

/-- TOP.FE_RST is written, with a bit for each die (R512). -/
def execFeRst (fn dies : Nat) (s : State) : Host.Outcome State Fault Refusal := .next (run (hostWrite fn 0x0CC 4 (dies % 4)) s)

/-- TOP.SHELL_RST is written with GO and a shell (R514). -/
def execShellRst (fn shell : Nat) (s : State) : Host.Outcome State Fault Refusal :=
  .next (run (hostWrite fn 0x0D0 4 (2 ^ 31 + shell % 4096)) s)

/-- FLASH.RCV_GO is written with a region (R507). -/
def execRcvGo (fn region : Nat) (s : State) : Host.Outcome State Fault Refusal :=
  .next (run (hostWrite fn 0x607C 4 (2 ^ 31 + region % 2)) s)

/-! ### BAR4, remote requests, the fabric -/

/-- HBM is read or written through BAR4 (R448). -/
def execBar4Access (write : Bool) (addr len : Nat) (data : List Byte) (s : State) : Host.Outcome State Fault Refusal :=
  .next (run (bar4Access write addr len data) s)

/-- A remote register request arrives on a port (R324). -/
def execRreq (port src dst hops tag op off data : Nat) (crc : Bool) (s : State) : Host.Outcome State Fault Refusal :=
  .next (run (.ask fun s =>
    let m : Msg := { ownMsg s 8 0 0 dst tag [off % 2 ^ 26 + op * 2 ^ 26 + data * 2 ^ 32, 0] with src := src, hops := hops }
    rxForward port 8 hops crc m (fun t => t.unicastPorts dst) (
      if dst = s.devId then remoteHere src tag op off data else forwardUnicast port m)) s)

/-- An arbitration takes place at a point in a fabric cycle, among the requests present: number, bytes, and whether each writes (R428). -/
def execArbitration (point cyc : Nat) (full : Bool) (reqs : List (Nat × Nat × Bool)) (s : State) : Host.Outcome State Fault Refusal :=
  .next (run (arbitrate point cyc full (reqs.map fun r => { num := r.1, bytes := r.2.1, write := r.2.2 })) s)

end Sys2Proof.Machine
end

