-- ==== Sys2Proof/Machine/Commands.lean ====
section
/-! DEFINITION. The commands of Table 14-4, from their taking out of a ring to their completion (R391 to R405, R414 to R421). -/

namespace Sys2Proof.Machine

/-! ### What every command is checked for (R392, R393, R396) -/

/-- Whether version 1 has an opcode of Table 14-4; none for a reserved opcode. -/
def opVersion1 (op : Nat) : Option Bool :=
  if [0x01, 0x02, 0x10, 0x11, 0x12, 0x13, 0x14, 0x18, 0x19, 0x1A, 0x30, 0x31, 0x32, 0x33, 0x40, 0x41].contains op then some true
  else if [0x20, 0x21, 0x22, 0x28, 0x29, 0x42].contains op || (decide (0x80 ≤ op) && decide (op < 0xC0)) then some false
  else none

/-- The slot and the entry point that a customer opcode names, where they exist (R420). -/
def State.entryPoint (s : State) (op : Nat) : Option (Nat × Nat) :=
  match Tab.find s.cmd.images ((op - 0x80) / 16) with
  | some im => im.entries[op % 16]?.map fun a => ((op - 0x80) / 16, a)
  | none => none

/-- Whether an opcode is defined at the shell's version (R392, R393, R420). -/
def State.opDefined (s : State) (h : Held) : Bool :=
  match opVersion1 h.op with
  | none => false
  | some v1 => (v1 || s.shellVer h.shell ≠ 1) && (decide (h.op < 0x80) || (s.entryPoint h.op).isSome)

/-- The bits of parameter word k that Table 14-4 names for an opcode. -/
def paramMask (op k : Nat) : Nat :=
  let all := 0xFFFFFFFF
  match op with
  | 0x12 => if k = 0 then 0xFF else if k = 1 then 0x3FF else if k < 12 then all else 0
  | 0x13 => if k = 0 then 0x3FF else if k = 1 then 0x1FFF else if k = 2 then 0xFFFF else 0
  | 0x14 => if k = 0 then 0x3F03 else if k = 1 then 0x7F else if k < 9 then all else 0
  | 0x18 => if k = 0 then 0xFF03 else 0
  | 0x19 => if k = 0 then 0x307 else 0
  | 0x20 => if k < 6 then all else 0
  | 0x21 => if k < 6 then all else if k = 6 then 1 else 0
  | 0x22 => if k < 3 then all else if k = 3 then 0xF else 0
  | 0x28 => if k = 0 then 0xFFF else if k < 3 then all else 0
  | 0x29 => if k = 0 then 0xFFF else 0
  | 0x30 => if k = 0 then 0x33FFF else if k = 1 then 0x3FFFFFF else if k = 2 then all else 0
  | 0x31 => if k = 0 then 3 else 0
  | 0x32 => if k < 3 then all else 0
  | 0x33 => if k = 0 then 0x11F else 0
  | 0x40 => if k = 0 then 0xFFF else if k = 1 then 0xF else 0
  | 0x41 => if k = 0 then 0xFFF else 0
  | 0x42 => if k = 0 then 0xFFF else if k = 1 then 0xFF else all
  | _ => if 0x80 ≤ op ∧ op < 0xC0 then all else 0

/-- Whether a reserved field of a command is not 0, or a version-1 shell names a stream it cannot (R392, R393). -/
def State.badForm (s : State) (h : Held) : Bool :=
  decide (8 ≤ h.flagBits) || decide (field h.bytes 3 1 ≠ 0) || decide (field h.bytes 0x3C 4 % 2 ^ 31 ≠ 0) ||
    (List.range 13).any (fun k => decide ((h.p k &&& paramMask h.op k) ≠ h.p k)) ||
    (s.shellVer h.shell = 1 && (h.op = 0x12 || h.op = 0x13) && decide (63 < h.pf 0 7 0))

/-- A command is refused for what its shell lacks: a right or an object first, else a window (R396, R397). -/
def denied (q k : Nat) (h : Held) : Prog := .ask fun s => denyCmd q k (if s.rightDenied h then none else s.addrBad h)

/-- A step completes its command.  What the step itself met comes first: a denied or aborted access of it, or a reset of the command's
function, for which nothing is written (R338, R404, R409). -/
def doneCmd (q k status result : Nat) : Prog :=
  .ask fun s =>
    match (s.heldAt q k).bind fun h => firstEnd (h.ends.filter fun e => e.1 = 1 || e.1 = 2 || e.1 = 5) with
    | some e => endCmd q k e.1 e.2.1 e.2.2
    | none => finishCmd q k status result

/-- At the end of a step that did not complete its command, what ends it takes effect: the first in the order of R404. -/
def stepEnds (q k : Nat) : Prog :=
  .ask fun s =>
    match s.heldAt q k with
    | none => .nil
    | some h => match firstEnd h.ends with
      | some e => .all [endCmd q k e.1 e.2.1 e.2.2, cmdCleanup (q * 8 + k)]
      | none => .nil

/-- A command waits for the hardware its opcode works with, which then begins (R403). -/
def waitFor (q k : Nat) (work : Prog) : Prog := .all [waitWork q k, work, stepEnds q k]

/-- A command's step ends, and another follows. -/
def nextStep (q k : Nat) : Prog := .all [yieldStep q k, stepEnds q k]

/-- The step of a command of an opcode on a sequencer: checked in the order of R396, then its own effect. -/
def cmdRow (q op : Nat) (body : Nat → Held → Prog) : Prog :=
  .ask fun s =>
    match s.current q with
    | none => .nil
    | some (k, h) => .when (h.op = op) (
        if !(s.opDefined h) then doneCmd q k stVersion 0
        else if s.cmdDenied h then denied q k h
        else if s.badForm h then doneCmd q k stBadParam 0
        else body k h)

/-! ### Frames (Table 14-4) -/

/-- FRAME_OPEN (R47, R181, R285). -/
def frameOpenStep (q k : Nat) : Prog :=
  .ask fun s => if s.openBusy then doneCmd q k stBusy 0 else waitFor q k frameOpenCmd

/-- FRAME_CLOSE: at once where there is nothing to close, or only an armed open (R182). -/
def frameCloseStep (q k : Nat) : Prog :=
  .ask fun s =>
    if decide (2 ≤ s.fstate) then waitFor q k frameCloseCmd
    else .all [frameCloseCmd, doneCmd q k stOK s.frameNum]

/-! ### Streams and triggers (Table 14-4) -/

/-- A page under reset ends a command that works on it (Table 19-6). -/
def onPage (q k : Nat) (p : Pg) (work : Prog) : Prog :=
  .ask fun s => if s.busy p then endCmd q k 4 stResetAbort 0xF1 else work

/-- The words of a command are written to a page, and a commit follows where COMMIT asks for one (R47, R393, Table 14-4). -/
def setWords (q k : Nat) (h : Held) (p : Pg) (ws : List (Nat × Nat)) : Prog :=
  if ws.any fun e => reservedWrite p e.1 [e.2] then doneCmd q k stBadParam 0
  else onPage q k p (
    .all [.each ws fun e => storeWord p e.1 e.2,
      if !h.commit then doneCmd q k stOK 0
      else .ask fun s =>
        let held : Bool := s.frameOpen || s.get pgTop R.TOP_HOLD = 1
        .all [commitWritten p, openPending,
          if held then doneCmd q k stOK 1
          else match (s.verdict [p]).status with
            | some st => doneCmd q k st 0
            | none => doneCmd q k stOK 0]])

/-- The words a STREAM_SET writes; a version-1 shell writes UNCONF_KEEP as 0 (R392). -/
def streamWords (v1 : Bool) (h : Held) : List (Nat × Nat) :=
  ((List.range 10).filter fun w => bit (h.pf 1 9 0) w).map fun w =>
    (0x040 + 4 * w, if v1 && w = 1 then putBits (h.p (2 + w)) 10 10 0 else h.p (2 + w))

/-- STREAM_SET. -/
def streamSetStep (q k : Nat) (h : Held) : Prog :=
  .ask fun s => setWords q k h (pgSt (h.pf 0 7 0)) (streamWords (s.shellVer h.shell = 1) h)

/-- STREAM_BIND (R376 to R378, R543). -/
def streamBindStep (q k : Nat) (h : Held) : Prog :=
  .ask fun s =>
    let n := h.pf 0 7 0
    let kind := h.pf 0 9 8
    let i := h.pf 1 12 0
    let rate := h.pf 2 15 0
    let key := if kind = 1 then 65536 + i else s.ctxKey i
    onPage q k (pgSt n) (
      if kind = 3 || (kind = 1 && s.get (pgRing i) R.RING_TYPE ≠ 2) ||
          (kind = 2 && (decide (4096 ≤ i) || s.qp i R.QPC_STATE = 0 || s.qp i R.QPC_STATE = 3)) then doneCmd q k stBadParam 0
      else if s.en (pgSt n) && s.frameOpen then doneCmd q k stBusy 0
      else if kind = 0 then .all [unbindStream n, doneCmd q k stOK 0]
      else if s.st n R.ST_CLASS ≠ 2 && !(s.admits n key rate) then .all [admissionRefused n, doneCmd q k stBandwidth 0]
      else .all [bindStream n key rate, doneCmd q k stOK 0])

/-- The words a TRIG_SET writes; on a definition or a term, a version-1 shell also sets SEQ_ANCHOR and clears LINK_EXPORT (R392). -/
def trigSetWords (s : State) (h : Held) : List (Nat × Nat) :=
  let ws := trigWords h
  let cfg := 0x040 + 0x50 * h.pf 0 11 8
  if s.shellVer h.shell = 1 && h.pf 0 1 0 ≠ 0 then
    let v := ((ws.find? fun e => e.1 = cfg).map (·.2)).getD (s.cell (pgTcomb.base + cfg)).toNat
    (cfg, putBits (putBits v 2 2 1) 16 16 0) :: ws.filter fun e => e.1 ≠ cfg
  else ws

/-- TRIG_SET. -/
def trigSetStep (q k : Nat) (h : Held) : Prog :=
  .ask fun s =>
    let target := h.pf 0 1 0
    if target = 3 || (target = 0 && decide (8 ≤ h.pf 0 11 8)) || (target ≠ 0 && decide (16 ≤ h.pf 1 6 0)) then
      doneCmd q k stBadParam 0
    else setWords q k h (if target = 0 then pgTu (h.pf 0 11 8) else pgTcomb) (trigSetWords s h)

/-! ### Calibration (R123 to R125) -/

/-- CAL_RUN. -/
def calRunStep (q k : Nat) (h : Held) : Prog :=
  .ask fun s =>
    let kind := h.pf 0 1 0
    let chans := which 8 fun c => bit (h.pf 0 15 8) c
    if kind = 0 || chans.isEmpty || chans.any fun c => !(s.chanOn c) || s.settling c then doneCmd q k stBadParam 0
    else if s.get pgCal R.CAL_RUN_ACTIVE = 1 || (kind ≠ 1 && s.frameOpen) || !s.diesOn then doneCmd q k stBusy 0
    else waitFor q k (startRun 2 kind chans false (some (q * 8 + k)))

/-- The copies of half a window word that a set keeps (Table 4-1). -/
def copiesKept (w half : Nat) : List Nat := List.range (match halfKept w half with | 0 => 1 | 1 => 3 | _ => 24)

/-- Every effective value of a die, by key (R124). -/
def State.dieValues (s : State) (die : Nat) : Tab Int :=
  ((List.range 2688).filter fun w => isParamWord w && wordDie w = die).flatMap fun w =>
    [0, 1].flatMap fun half => if (halfField w half).2.1 = 0 then [] else (copiesKept w half).map fun c => (calKey w half c, s.effKey (calKey w half c))

/-- Whether the set point a CAL_SAVE would write lies within 2.0 °C of another valid half's of the same die (R124). -/
def State.nearSet (s : State) (set die : Nat) : Bool :=
  (s.halves die).any fun x => x.set ≠ set && decide (x.point - s.tDie die ≤ 16) && decide (s.tDie die - x.point ≤ 16)

/-- CAL_SAVE. -/
def calSaveStep (q k : Nat) (h : Held) : Prog :=
  .ask fun s =>
    let set := h.pf 0 2 0
    let dies := which 2 fun d => bit (h.pf 0 9 8) d
    if dies.any fun d => s.nearSet set d then doneCmd q k stBadParam 0
    else if dies.isEmpty then doneCmd q k stOK 0
    else waitFor q k (.each dies fun d =>
      addJob (32 + 2 * set + d) 131072 []
        (some { set := set, die := d, point := s.tDie d, valid := true, factory := false, vals := s.dieValues d }) (some (q * 8 + k)))

/-- CAL_LOAD (R104, R125, R131): the sets are loaded, every delta and override ends, and every enabled channel settles through a FULL run. -/
def calLoadStep (q k : Nat) : Prog :=
  .ask fun s =>
    let chans := which 8 s.chanOn
    if s.frameOpen || s.get pgCal R.CAL_RUN_ACTIVE = 1 || !s.diesOn then doneCmd q k stBusy 0
    else .all [
      loadSets, .cal fun c => { c with ovr := [], ovrWait := [] }, showOverride,
      if chans.isEmpty then doneCmd q k stOK 0
      else waitFor q k (.all [
        .each chans fun c => .each (s.banksOf c) fun b => startSettle b 4,
        startRun 2 2 chans false (some (q * 8 + k))])]

/-! ### HBM and flash (R397, R417) -/

/-- Bytes one step of a fill or copy moves: 100 GB/s for 2 µs, whole blocks of 64 (R397, R402). -/
def moveStep : Nat := 200000

/-- A step of a fill or copy has moved n bytes: the command completes, or goes on. -/
def moved (q k len n : Nat) (last : Prog) : Prog :=
  .ask fun s => match s.heldAt q k with
    | none => .nil
    | some h =>
      if len ≤ h.work + n then .all [last, doneCmd q k stOK 0]
      else .all [modHeld q k fun x => { x with work := x.work + n }, nextStep q k]

/-- Whether the length of a fill or copy is out of range. -/
def badLength (len : Nat) : Bool := decide (len % 64 ≠ 0) || decide (len < 64)

/-- Bytes are written to HBM by a command. -/
def hbmWrite (a : Nat) (bs : List Byte) : Prog := .all [touchStack a, .one (.mem a bs)]

/-- HBM_FILL: one step. -/
def hbmFillStep (q k : Nat) (h : Held) : Prog :=
  .ask fun s =>
    let len := h.p64 2
    if badLength len then doneCmd q k stBadParam 0
    else match s.resolve h.shell (h.p64 0) len true with
      | none => denied q k h
      | some a =>
        let n := min (len - h.work) moveStep
        .all [hbmWrite (a + h.work) ((List.replicate (n / 8) (leBytes 8 (h.p64 4))).flatten), moved q k len n .nil]

/-- HBM_COPY: one step, with the bytes the host has returned for it where the source is host memory. -/
def hbmCopyStep (q k : Nat) (h : Held) (data : List Byte) : Prog :=
  .ask fun s =>
    let len := h.p64 4
    let n := min (len - h.work) moveStep
    if badLength len then doneCmd q k stBadParam 0
    else if h.isLocal then
      match s.resolve h.shell (h.p64 0) len false, s.resolve h.shell (h.p64 2) len true with
      | some a, some b =>
        if meets' a len b len then doneCmd q k stBadParam 0
        else .all [touchStack a, hbmWrite (b + h.work) (s.hbmRead (a + h.work) n), moved q k len n .nil]
      | _, _ => denied q k h
    else if h.pf 6 0 0 = 0 then
      match s.resolve h.shell (h.p64 2) len true with
      | some b =>
        let m := min n (data.length / 64 * 64)
        .all [.out (.busRead (h.p64 0 + h.work) n), hbmWrite (b + h.work) (data.take m), moved q k len m .nil]
      | none => denied q k h
    else match s.resolve h.shell (h.p64 0) len false with
      | some a => .all [touchStack a, .out (.busWrite (h.p64 2 + h.work) (s.hbmRead (a + h.work) n)),
          moved q k len n (.all [.inc pgPcie R.PCIE_CNT_ZLR, .out (.busRead (h.p64 2 + len - 4) 0)])]
      | none => denied q k h

/-- FLASH_WRITE, with the bytes the host has returned where the source is a bus address. -/
def flashWriteStep (q k : Nat) (h : Held) (data : List Byte) : Prog :=
  .ask fun s =>
    let r := h.pf 3 3 0
    let len := h.p 2
    let image : Bool := r = 0 || r = 1 || (decide (4 ≤ r) && decide (r ≤ 7))
    let bytes : Option (List Byte) :=
      if h.isLocal then (s.resolve h.shell (h.p64 0) len false).map fun a => s.hbmRead a len
      else some ((data ++ List.replicate (len - data.length) 0).take len)
    match bytes with
    | none => denied q k h
    | some b =>
      if !image && !(decide (8 ≤ r) && decide (r ≤ 11)) then doneCmd q k stBadParam 0
      else if decide (r < 2) && s.frameOpen then doneCmd q k stBusy 0
      else .all [.when (!h.isLocal && decide (0 < len)) (.out (.busRead (h.p64 0) len)),
        match (if image then s.imageFault r b else keyFault b) with
        | some reason => doneCmd q k stBadParam reason
        | none => waitFor q k (addJob r b.length b none (some (q * 8 + k)))]

/-! ### Queue pairs (R399, Table 14-6) -/

/-- Fields of the parameter block: context word 0, and a field of it. -/
def qpWord (b : List Byte) (hi lo : Nat) : Nat := bits (field b 0 4) hi lo

/-- Whether a path block names IPv6. -/
def pathV6 (b : List Byte) : Bool := bit (field b 6 1) 0

/-- REGION_LEN, LOG2_SLOT and DGRAM_SIZE of a parameter block. -/
def qpRegion (b : List Byte) : Nat := field b 0x18 5
def qpSlot (b : List Byte) : Nat := field b 0x1D 1 % 32
def qpDgram (b : List Byte) : Nat := field b 4 2

/-- Whether a parameter block breaks Table 13-1, Table 13-2, Table 13-3 or R375. -/
def State.qpBad (s : State) (b : List Byte) : Bool :=
  let kind := qpWord b 3 2
  let alt := bit (field b 0 4) 6
  let port := qpWord b 10 8
  let aport := qpWord b 14 12
  let limit := if pathV6 (b.drop 0x20) || (alt && pathV6 (b.drop 0x50)) then 9144 else 9160
  qpWord b 5 4 = 3 || qpWord b 17 16 = 3 || s.lineRate (subOf port) = 0 ||
    (alt && (s.lineRate (subOf aport) = 0 || aport % 2 = port % 2)) ||
    (match kind with
     | 0 => decide (qpSlot b < 12) || decide (24 < qpSlot b) || qpRegion b = 0 || decide (qpRegion b % 2 ^ qpSlot b ≠ 0)
     | 1 => decide (qpRegion b < 65536) || decide (qpRegion b % 8 ≠ 0)
     | 2 => false
     | _ => decide (qpDgram b % 8 ≠ 0) || decide (qpDgram b < 64) || decide (limit < qpDgram b))

/-- The context takes the fields of the block; it starts on its primary path, on its secondary where only that is up, and in WAIT_LINK where
neither is (R372, R382, R384, R399). -/
def qpStart (c : Nat) (b : List Byte) : Prog :=
  .ask fun s =>
    let p := pgQpc c
    let alt := bit (field b 0 4) 6
    let up := s.subUp (subOf (qpWord b 10 8))
    let altUp : Bool := alt && s.subUp (subOf (qpWord b 14 12))
    let on : Bool := !up && altUp
    .all [
      .set p R.QPC_KIND (qpWord b 3 2), .set p R.QPC_IMM (qpWord b 5 4), .set p R.QPC_ALT_EN (b2n alt), .set p R.QPC_ON_ALT (b2n on),
      .set p R.QPC_PORT (qpWord b 10 8), .set p R.QPC_ALT_PORT (qpWord b 14 12), .set p R.QPC_PMTU (qpWord b 17 16),
      .set p R.QPC_RETRY_CNT (qpWord b 20 18), .set p R.QPC_RNR_RETRY (qpWord b 23 21), .set p R.QPC_RETRY_TMO (qpWord b 27 24),
      .set p R.QPC_DQPN (field b 4 3), .set p R.QPC_ALT_DQPN (field b 8 3), .set p R.QPC_RKEY (field b 0x0C 4),
      .set64 p R.QPC_VA_LO R.QPC_VA_HI (field b 0x10 8), .set64 p R.QPC_REGION_LO R.QPC_REGION_HI (qpRegion b),
      .set p R.QPC_LOG2_SLOT (qpSlot b), .set64 p R.QPC_HEAD_LO R.QPC_HEAD_HI 0, .set64 p R.QPC_LIMIT_LO R.QPC_LIMIT_HI 0,
      .set p R.QPC_NEXT_PSN 0, .set p R.QPC_ACK_PSN 0, .set p R.QPC_MIN_RATE 0, .set p R.QPC_ERR_CAUSE 0,
      .set p R.QPC_RATE (s.lineRate (subOf (if on then qpWord b 14 12 else qpWord b 10 8))),
      .set p R.QPC_STATE 1,
      .net fun t => { t with ctxs := Tab.put t.ctxs c { Ctx.reset with
        path := (b.drop 0x20).take 48, alt := if alt then (b.drop 0x50).take 48 else [], incAt := s.now } },
      .when (!up && !altUp) (waitLink c), ctxUsed]

/-- QP_CREATE, with the block the host has returned where its address is a bus address. -/
def qpCreateStep (q k : Nat) (h : Held) (data : List Byte) : Prog :=
  .ask fun s =>
    let c := h.pf 0 11 0
    let block : Option (List Byte) :=
      if h.isLocal then (s.resolve h.shell (h.p64 1) 128 false).map fun a => s.hbmRead a 128
      else some ((data ++ List.replicate 128 0).take 128)
    match block with
    | none => denied q k h
    | some b => .all [.when (!h.isLocal) (.out (.busRead (h.p64 1) 128)),
        if s.qpBad b then doneCmd q k stBadParam 0
        else if s.ctxLive c then doneCmd q k stBusy 0
        else .all [qpStart c b, doneCmd q k stOK 0]]

/-- QP_DESTROY. -/
def qpDestroyStep (q k : Nat) (h : Held) : Prog :=
  .ask fun s =>
    let c := h.pf 0 11 0
    if (s.boundTo (s.ctxKey c)).any fun n => s.en (pgSt n) then doneCmd q k stBusy 0
    else .all [destStop (s.ctxKey c) 6, freeCtx c, doneCmd q k stOK 0]

/-! ### The link, power, time and the monitor -/

/-- LINK_REMOTE; it goes on to a next step while 16 requests are outstanding (R324). -/
def linkRemoteStep (q k : Nat) (h : Held) : Prog :=
  .ask fun s =>
    if h.pf 0 17 16 = 3 then doneCmd q k stBadParam 0
    else if decide (16 ≤ s.link.reqs.length) then nextStep q k
    else waitFor q k (remoteRequest q k (h.pf 0 13 0) (h.pf 0 17 16) (h.pf 1 25 0) (h.p 2))

/-- POWER_STATE (R29, R398, R456). -/
def powerStep (q k : Nat) (h : Held) : Prog :=
  .ask fun s =>
    let t := h.pf 0 1 0
    if t = 3 then doneCmd q k stBadParam 0
    else if t = s.pstate then doneCmd q k stOK s.pstate
    else if s.powerRefused t then .all [.inc pgPwr R.PWR_CNT_REFUSED, doneCmd q k stBusy s.pstate]
    else match t with
      | 0 => enterDormant q k
      | 1 => waitFor q k (beginTransit 1)
      | _ => waitFor q k readyStart

/-- The Q-time of a TIME_SET: seconds then fraction, 48 bits each (Table 14-4). -/
def Held.qtime (h : Held) : Nat := field h.bytes 8 6 * 2 ^ 48 + field h.bytes 14 6

/-- TIME_SET (R253). -/
def timeSetStep (q k : Nat) (h : Held) : Prog :=
  .ask fun s =>
    if s.timeSetStatus = stOK then .all [timeSet h.qtime, doneCmd q k stOK 0]
    else doneCmd q k s.timeSetStatus 0

/-- MON_READ (R470). -/
def monReadStep (q k : Nat) (h : Held) : Prog := waitFor q k (monRequest (h.pf 0 4 0) (bit (h.p 0) 8) (q * 8 + k))

/-! ### Shells (R391, R445, R446, R449) -/

/-- A command that publishes: BAD_PARAM where the publication is refused. -/
def publishCmd (q k : Nat) (edit : Prog) (edited : List Nat) (result : State → Nat) : Prog :=
  .ask fun s =>
    let refused := (s.pubRefused edit).isSome
    .all [publish edit edited, .ask fun t => if refused then doneCmd q k stBadParam 0 else doneCmd q k stOK (result t)]

/-- SHELL_OPEN. -/
def shellOpenStep (q k : Nat) (h : Held) : Prog :=
  .ask fun s =>
    let n := h.pf 0 11 0
    let ver := min 2 (h.pf 1 3 0)
    if n = supervisor then doneCmd q k stBadParam 0
    else if ver = 0 then doneCmd q k stVersion 0
    else if s.shellOpen n then doneCmd q k stBusy 0
    else publishCmd q k (openEdit n ver) [n] fun _ => ver

/-- SHELL_CLOSE. -/
def shellCloseStep (q k : Nat) (h : Held) : Prog :=
  let n := h.pf 0 11 0
  if n = supervisor then doneCmd q k stBadParam 0 else publishCmd q k (closeEdit n) [n] fun _ => 0

/-- SHELL_EDIT. -/
def shellEditStep (q k : Nat) (h : Held) : Prog :=
  let n := h.pf 0 11 0
  let first := h.pf 1 3 0
  let count := h.pf 1 7 4
  if n = supervisor || count = 0 || decide (11 < count) || decide (16 < first + count) then doneCmd q k stBadParam 0
  else publishCmd q k (editEdit n first ((List.range count).map fun i => h.p (2 + i))) [n] fun t => t.get pgSec R.SEC_GEN

/-! ### Customer opcodes (R420) -/

/-- The first step of a customer command begins at its entry point. -/
def customerStep (q : Nat) : Prog :=
  .ask fun s =>
    match s.current q with
    | none => .nil
    | some (k, h) => .when (decide (0x80 ≤ h.op) && decide (h.op < 0xC0) && h.img.isNone) (
        match (if s.opDefined h then s.entryPoint h.op else none) with
        | none => doneCmd q k stVersion 0
        | some (slot, a) =>
          if s.cmdDenied h then denied q k h
          else if s.badForm h then doneCmd q k stBadParam 0
          else .all [modHeld q k fun x => { x with img := some slot, pc := a % 2 ^ 18 }, .ask fun t =>
            match t.heldAt q k with | some x => sqShow q x | none => .nil])

/-- A command whose opcode is reserved, or not defined at its shell's version (R392, R393). -/
def reservedStep (q : Nat) : Prog :=
  .ask fun s =>
    match s.current q with
    | none => .nil
    | some (k, h) => .when (!(s.opDefined h) && h.img.isNone) (doneCmd q k stVersion 0)

/-! ### Taking and dispatching (R400, R402, R507) -/

/-- Commands are taken once the core runs, and not in recovery mode, DORMANT, or while DORMANT is entered (R457, R500, R507). -/
def State.takesCommands (s : State) : Bool := decide (5 ≤ s.get pgTop R.TOP_STAGE) && !s.recovery && decide (s.pstate ≠ 0)

/-- The command ring's next command, read and sound, where its turn has come. -/
def State.ringCommand (s : State) (n : Nat) : Option RingEnt :=
  match (s.ring n).ents.find? fun e => e.st ≠ .landing with
  | some e => if e.st = .ready ∧ e.code = 0 then some e else none
  | none => none

/-- The command rings that have a command to take, whose shells are open and have fewer than 64 in flight (R400, R441). -/
def State.commandRings (s : State) : List Nat :=
  (s.host.rings.map (·.1)).filter fun n =>
    s.get (pgRing n) R.RING_TYPE = 0 && s.get (pgRing n) R.RING_EN = 1 && s.get (pgRing n) R.RING_HALTED = 0 && (s.ringCommand n).isSome &&
      s.shellOpen (s.ringOwner n) && decide (s.flightOf (s.ringOwner n) < 64)

/-- The ring to take from: of the shell that follows the one taken from last, the lowest-numbered ring (R400). -/
def State.takeFrom (s : State) : Option Nat :=
  let turn (n : Nat) : Nat := (s.ringOwner n + 4096 - (s.cmd.rota + 1) % 4096) % 4096 * 8192 + n
  s.commandRings.foldl (fun (a : Option Nat) n => match a with
    | some m => if turn n < turn m then some n else some m
    | none => some n) none

/-- A command as it is taken (R400). -/
def newHeld (ring shell order : Nat) (bytes : List Byte) : Held :=
  { ring := ring, shell := shell, bytes := bytes, order := order, started := false, wait := .ready, flags := 0, pc := 0, img := none,
    args := [], ends := [], work := 0 }

/-- The device takes a command into the dispatch queue; its OWN is cleared after a landing check (R346, R400). -/
def commandTake : Prog :=
  .ask fun s => .when (s.takesCommands && decide (s.cmd.queue.length < 4096)) (
    match s.takeFrom with
    | none => .nil
    | some n => match s.ringCommand n with
      | none => .nil
      | some e =>
        let shell := s.ringOwner n
        .all [
          .cmd fun c => { c with queue := c.queue ++ [newHeld n shell c.order e.bytes], order := c.order + 1, rota := shell },
          completeFirst n 0 false, settleRing n])

/-- The sequencer a command goes to: enabled and not under reset, holding fewer than 8 commands and the fewest, the lowest on a tie
(R402, R414). -/
def State.seqFor (s : State) : Option Nat :=
  ((List.range 32).filter fun q => s.en (pgSq q) && !(s.busy (pgSq q)) && decide ((s.seqr q).held.length < 8)).foldl
    (fun (a : Option Nat) q => match a with
      | some b => if (s.seqr q).held.length < (s.seqr b).held.length then some q else some b
      | none => some q) none

/-- The oldest queued command goes to a sequencer, its 64 bytes to the base of its slot; one that has been ended meanwhile ends there
(R402, R404, R407). -/
def commandDispatch : Prog :=
  .ask fun s =>
    match s.cmd.queue, s.seqFor with
    | h :: _, some q =>
      match (List.range 8).find? fun k => (s.heldAt q k).isNone with
      | none => .nil
      | some k => .all [
          .cmd fun c => { c with queue := c.queue.drop 1 },
          modSeqr q fun z => { z with held := Tab.put z.held k h },
          .one (.lmem (q * 65536 + k * 256) h.bytes), sqStat q, stepEnds q k]
    | _, _ => .nil

/-! ### Steps (R401 to R404) -/

/-- The objects a command names, of which only one command at a time runs: streams, contexts, rings, TU pages, definitions, shell entries, the
whole device, and monitor inputs (R401, R470). -/
def Held.keys (h : Held) : List (Nat × Nat) :=
  let n := h.p 0
  match h.op with
  | 0x10 | 0x11 | 0x31 | 0x32 | 0x18 | 0x19 | 0x1A | 0x22 => [(0, 0)]
  | 0x12 => [(1, n % 256)]
  | 0x13 => (1, n % 256) :: (match h.pf 0 9 8 with
    | 1 => [(3, h.pf 1 12 0)]
    | 2 => [(2, h.pf 1 11 0)]
    | _ => [])
  | 0x14 => [(if h.pf 0 1 0 = 0 then 4 else 5, h.pf 0 11 8)]
  | 0x28 | 0x29 => [(2, n % 4096)]
  | 0x40 | 0x41 | 0x42 => [(6, n % 4096)]
  | 0x33 => [(7, n % 32)]
  | _ => []

/-- Whether an earlier command in flight keeps a command from its first step: of its ring while it has not started, or is a FENCE, or where
the command itself waits for all earlier ones, until its completion is written; or one that names the same object (R401, Tables 14-1, 14-4). -/
def State.held? (s : State) (h : Held) : Bool :=
  let alone : Bool := h.barrier || h.op = 0x02
  (s.inFlight.any fun x => decide (x.order < h.order) &&
    ((x.ring = h.ring && (!x.started || x.op = 0x02 || alone)) || x.keys.any h.keys.contains)) ||
    ((s.ring (s.get (pgRing h.ring) R.RING_PAIR)).waiting.any fun w =>
      w.ring.isNone && w.bytes.length = 12 && w.own = h.ring % 8192 && (alone || field w.bytes 6 2 = 0x02))

/-- Whether the condition a command waits for holds (R403, R410). -/
def State.condition (s : State) (h : Held) : Bool :=
  match h.wait with
  | .ready => true
  | .event e => bit (s.evtRaw (evtPage e)) (e - (evtPage e).events.1)
  | _ => false

/-- Whether a command's next step can start on a sequencer. -/
def State.canStep (s : State) (h : Held) : Bool :=
  s.condition h && (h.started || !(s.held? h)) && !(s.sys.reload.contains (h.pc / 1024))

/-- The slot whose step starts next: the commands are taken in turn, skipping those that wait (R402). -/
def State.nextSlot (s : State) (q : Nat) : Option Nat :=
  ((List.range 8).map fun i => ((s.seqr q).last + 1 + i) % 8).find? fun k => (s.heldAt q k).any s.canStep

/-- A sequencer at a boundary: what ends its commands takes effect, and the next step starts (R402, R404). -/
def sequencerStep (q : Nat) : Prog :=
  .ask fun s => .when (decide (q < 32) && (s.seqr q).cur.isNone && !(s.busy (pgSq q))) (.all [
    .each (s.seqr q).held fun e => stepEnds q e.1,
    loadWaiting,
    .ask fun t =>
      match t.nextSlot q with
      | none => sqStat q
      | some k => .all [
          modHeld q k fun h => { h with
            started := true, wait := .running, flags := if h.started then h.flags else 0, args := if h.started then h.args else [] },
          modSeqr q fun z => { z with cur := some k, last := k, cyc := 0, stalled := false },
          .inc (pgSq q) R.SQ_CNT_STEPS,
          .ask fun u => (match u.heldAt q k with | some h => sqShow q h | none => .nil), sqStat q]])

/-! ### Meanings -/

/-- NOP completes OK. -/
def execNop (sq : Nat) (s : State) : Host.Outcome State Fault Refusal := .next (run (cmdRow sq 0x01 fun k _ => doneCmd sq k stOK 0) s)

/-- FENCE completes; what it orders is kept where steps start (R401). -/
def execFence (sq : Nat) (s : State) : Host.Outcome State Fault Refusal := .next (run (cmdRow sq 0x02 fun k _ => doneCmd sq k stOK 0) s)

/-- FRAME_OPEN (R181). -/
def execFrameOpen (sq : Nat) (s : State) : Host.Outcome State Fault Refusal := .next (run (cmdRow sq 0x10 fun k _ => frameOpenStep sq k) s)

/-- FRAME_CLOSE (R182). -/
def execFrameClose (sq : Nat) (s : State) : Host.Outcome State Fault Refusal := .next (run (cmdRow sq 0x11 fun k _ => frameCloseStep sq k) s)

/-- STREAM_SET (Table 14-4). -/
def execStreamSet (sq : Nat) (s : State) : Host.Outcome State Fault Refusal := .next (run (cmdRow sq 0x12 (streamSetStep sq)) s)

/-- STREAM_BIND (R543). -/
def execStreamBind (sq : Nat) (s : State) : Host.Outcome State Fault Refusal := .next (run (cmdRow sq 0x13 (streamBindStep sq)) s)

/-- TRIG_SET (Table 14-4). -/
def execTrigSet (sq : Nat) (s : State) : Host.Outcome State Fault Refusal := .next (run (cmdRow sq 0x14 (trigSetStep sq)) s)

/-- CAL_RUN (R123). -/
def execCalRun (sq : Nat) (s : State) : Host.Outcome State Fault Refusal := .next (run (cmdRow sq 0x18 (calRunStep sq)) s)

/-- CAL_SAVE (R124). -/
def execCalSave (sq : Nat) (s : State) : Host.Outcome State Fault Refusal := .next (run (cmdRow sq 0x19 (calSaveStep sq)) s)

/-- CAL_LOAD (R125). -/
def execCalLoad (sq : Nat) (s : State) : Host.Outcome State Fault Refusal := .next (run (cmdRow sq 0x1A fun k _ => calLoadStep sq k) s)

/-- A step of HBM_FILL (R397). -/
def execHbmFill (sq : Nat) (s : State) : Host.Outcome State Fault Refusal := .next (run (cmdRow sq 0x20 (hbmFillStep sq)) s)

/-- A step of HBM_COPY, with the bytes of host memory it has read (R397). -/
def execHbmCopy (sq : Nat) (data : List Byte) (s : State) : Host.Outcome State Fault Refusal :=
  .next (run (cmdRow sq 0x21 fun k h => hbmCopyStep sq k h data) s)

/-- FLASH_WRITE, with the bytes of host memory it has read (R417). -/
def execFlashWrite (sq : Nat) (data : List Byte) (s : State) : Host.Outcome State Fault Refusal :=
  .next (run (cmdRow sq 0x22 fun k h => flashWriteStep sq k h data) s)

/-- QP_CREATE, with the parameter block it has read from host memory (R399). -/
def execQpCreate (sq : Nat) (data : List Byte) (s : State) : Host.Outcome State Fault Refusal :=
  .next (run (cmdRow sq 0x28 fun k h => qpCreateStep sq k h data) s)

/-- QP_DESTROY (Table 14-4). -/
def execQpDestroy (sq : Nat) (s : State) : Host.Outcome State Fault Refusal := .next (run (cmdRow sq 0x29 (qpDestroyStep sq)) s)

/-- LINK_REMOTE (R324). -/
def execLinkRemote (sq : Nat) (s : State) : Host.Outcome State Fault Refusal := .next (run (cmdRow sq 0x30 (linkRemoteStep sq)) s)

/-- POWER_STATE (R398, R456). -/
def execPowerState (sq : Nat) (s : State) : Host.Outcome State Fault Refusal := .next (run (cmdRow sq 0x31 (powerStep sq)) s)

/-- TIME_SET (R253). -/
def execTimeSet (sq : Nat) (s : State) : Host.Outcome State Fault Refusal := .next (run (cmdRow sq 0x32 (timeSetStep sq)) s)

/-- MON_READ (R470). -/
def execMonRead (sq : Nat) (s : State) : Host.Outcome State Fault Refusal := .next (run (cmdRow sq 0x33 (monReadStep sq)) s)

/-- SHELL_OPEN (R391, R446). -/
def execShellOpen (sq : Nat) (s : State) : Host.Outcome State Fault Refusal := .next (run (cmdRow sq 0x40 (shellOpenStep sq)) s)

/-- SHELL_CLOSE (R446). -/
def execShellClose (sq : Nat) (s : State) : Host.Outcome State Fault Refusal := .next (run (cmdRow sq 0x41 (shellCloseStep sq)) s)

/-- SHELL_EDIT (R445, R449). -/
def execShellEdit (sq : Nat) (s : State) : Host.Outcome State Fault Refusal := .next (run (cmdRow sq 0x42 (shellEditStep sq)) s)

/-- A customer command starts at its entry point (R420). -/
def execCustomerOpcode (sq : Nat) (s : State) : Host.Outcome State Fault Refusal := .next (run (customerStep sq) s)

/-- A command with an opcode its shell does not have completes VERSION (R393). -/
def execReservedOpcodeCommand (sq : Nat) (s : State) : Host.Outcome State Fault Refusal := .next (run (reservedStep sq) s)

/-- The device takes a posted command (R400). -/
def execCommandTake (s : State) : Host.Outcome State Fault Refusal := .next (run commandTake s)

/-- The dispatcher gives the oldest queued command to a sequencer (R402). -/
def execCommandDispatch (s : State) : Host.Outcome State Fault Refusal := .next (run commandDispatch s)

/-- A sequencer starts its next step (R402). -/
def execSequencerStep (sq : Nat) (s : State) : Host.Outcome State Fault Refusal := .next (run (sequencerStep sq) s)

end Sys2Proof.Machine
end

