-- ==== Sys2Proof/Machine/Operands.lean ====
section
/-! DEFINITION. Operands of the microwords: registers, immediates, local memory through the store buffer, control space, and how a microword
advances, faults or ends its step (R402, R404, R406 to R413). -/

namespace Sys2Proof.Machine

/-! ### Registers and immediates (R406, R410) -/

/-- A register of a sequencer; u0 reads 0. -/
def State.ureg (s : State) (q r : Nat) : Word := if r % 32 = 0 then 0#32 else Tab.get (s.seqr q).regs 0#32 (r % 32)

/-- A register takes a value; writes to u0 are discarded. -/
def setUreg (q r : Nat) (v : Word) : Prog :=
  .when (decide (r % 32 ≠ 0)) (modSeqr q fun z => { z with regs := Tab.putC z.regs 0#32 (r % 32) v })

/-- The immediate sign-extended and zero-extended to 32 bits. -/
def sextImm (imm : Nat) : Word := (BitVec.ofNat 16 imm).signExtend 32
def zextImm (imm : Nat) : Word := (BitVec.ofNat 16 imm).zeroExtend 32

/-- A microword (R410): opcode, rd, rs, imm. -/
def uword (op rd rs imm : Nat) : Nat := op % 64 * 2 ^ 26 + rd % 32 * 2 ^ 21 + rs % 32 * 2 ^ 16 + imm % 2 ^ 16

/-- The masks of a microword's bits that its form reads: all of them, all but rs, all but rd, all but imm, the opcode alone. -/
def maskAll : Nat := 0xFFFFFFFF
def maskNoRs : Nat := 0xFFE0FFFF
def maskNoRd : Nat := 0xFC1FFFFF
def maskNoImm : Nat := 0xFFFF0000
def maskOp : Nat := 0xFC000000

/-! ### The step in progress -/

/-- The span of the microcode store that a customer command runs in (R420). -/
def State.image (s : State) (h : Held) : Option Image := h.img.bind fun k => Tab.find s.cmd.images k

/-- Cycles a step may last: 2 µs of SQCLK (R402). -/
def State.stepLimit (s : State) : Nat := if s.get pgClk R.CLK_SQ_HALF = 1 then 625 else 1250

/-- Cycles after which a customer step is at its end: 2 µs, or 12 µs where an access of it has met the fabric timeout (R402, R409). -/
def State.stepEnd (s : State) (q : Nat) : Nat := if (s.seqr q).stalled then 6 * s.stepLimit else s.stepLimit

/-- Whether a customer command may branch to a microword: it lies in its own image (R412). -/
def inImage (i : Image) (pc : Nat) : Bool := decide (i.load ≤ pc) && decide (pc < i.load + i.len)

/-- Whether the microword that a step executes next can be a given one.  A customer routine's is the one its image holds at the program
counter, before the step's limit; the store of vendor microcode is the sequencer's own.  A part of the store that is being reloaded runs
nothing (R406, R412, R420, R517). -/
def State.fetches (s : State) (q : Nat) (h : Held) (mask word : Nat) : Bool :=
  !(s.sys.reload.contains (h.pc / 1024)) && match h.img with
  | none => true
  | some _ => match s.image h with
    | none => false
    | some i => inImage i h.pc && decide ((s.seqr q).cyc < s.stepEnd q) &&
        decide ((Tab.get s.cmd.store 0#32 h.pc).toNat &&& mask = word &&& mask)

/-- A microword that the step of a sequencer executes. -/
def microword (q mask word : Nat) (body : Nat → Held → Prog) : Prog :=
  .ask fun s =>
    match s.current q with
    | none => .nil
    | some (k, h) => .when (s.fetches q h mask word) (body k h)

/-- The microword is done: the program counter goes on, cycles pass, and flags are set. -/
def goTo (q k pc cyc flags : Nat) : Prog :=
  .all [modHeld q k fun h => { h with pc := pc % 2 ^ 18, flags := h.flags ||| flags },
    modSeqr q fun z => { z with cyc := z.cyc + cyc }, showCur q]

/-- The next microword follows. -/
def goOn (q k : Nat) (h : Held) (cyc flags : Nat) : Prog := goTo q k (h.pc + 1) cyc flags

/-! ### The store buffer (R408) -/

/-- Whether a buffered store overlaps n bytes at an address, and whether it holds all of them. -/
def overlaps (a n : Nat) (e : Nat × List Byte) : Bool := decide (e.1 < a + n) && decide (a < e.1 + e.2.length)
def covers (a n : Nat) (e : Nat × List Byte) : Bool := decide (e.1 ≤ a) && decide (a + n ≤ e.1 + e.2.length)

/-- How many of the oldest stores there are up to the youngest that satisfies a test. -/
def lastOf {α : Type} (p : α → Bool) : List α → Nat
  | [] => 0
  | x :: xs => let n := lastOf p xs; if 0 < n then n + 1 else if p x then 1 else 0

/-- n bytes of a sequencer's local memory. -/
def State.localRead (s : State) (q a n : Nat) : List Byte := (List.range n).map fun i => Tab.get s.lmem 0 (q * 65536 + a + i)

/-- A load of n bytes, and what is done with them and the cycles it stalled: forwarded from the youngest store that overlaps it where that
holds them all, else read from local memory once every store that overlaps it has retired (R408). -/
def localLoad (q a n : Nat) (cont : List Byte → Nat → Prog) : Prog :=
  .ask fun s =>
    let buf := (s.seqr q).buf
    let m := lastOf (overlaps a n) buf
    match (buf.take m).getLast? with
    | none => cont (s.localRead q a n) 0
    | some e =>
      if covers a n e then .all [.inc (pgSq q) R.SQ_CNT_FWD, cont ((e.2.drop (a - e.1)).take n) 0]
      else .all [retireStores q m, .add (pgSq q) R.SQ_CNT_SB_WAIT m, .ask fun t => cont (t.localRead q a n) m]

/-- A store enters the buffer; with all 8 entries full it first waits for one to retire. -/
def localStore (q a : Nat) (bs : List Byte) (cont : Nat → Prog) : Prog :=
  .ask fun s =>
    let full : Bool := decide (8 ≤ (s.seqr q).buf.length)
    .all [.when full (retireStores q 1), modSeqr q fun z => { z with buf := z.buf ++ [(a, bs)] }, cont (b2n full)]

/-! ### Ends of a step (R402 to R405, R412, R413) -/

/-- The step ends, the store buffer having drained, and the command waits for a condition or for its turn; what ends it takes effect. -/
def endStep (q k : Nat) (h : Held) (wait : CmdWait) : Prog :=
  .all [drainStores q, stepMax q,
    modHeld q k fun x => { x with pc := (h.pc + 1) % 2 ^ 18, wait := wait }, showCur q,
    modSeqr q fun z => { z with cur := none }, sqStat q, stepEnds q k]

/-- Whether a local access is out of range: past 64 KiB, or for a customer routine outside its own slot and the customer area (R407, R412). -/
def badLocal (k : Nat) (h : Held) (a n : Nat) : Bool :=
  decide (0x10000 < a + n) ||
    (h.img.isSome && !(decide (0xC000 ≤ a)) && !(decide (256 * k ≤ a) && decide (a + n ≤ 256 * k + 256)))

/-- A local access at rs + sext(imm): ALIGN, RANGE, or the access. -/
def localAt (q k : Nat) (h : Held) (rs imm n : Nat) (body : Nat → Prog) : Prog :=
  .ask fun s =>
    let a := (s.ureg q rs + sextImm imm).toNat
    if a % n ≠ 0 then ufault q k h 0x21 else if badLocal k h a n then ufault q k h 0x22 else body a

/-! ### Control space (R409) -/

/-- Whether a shell may reach a page or entry of BAR0 with a microword. -/
def State.shellReaches (s : State) (shell a : Nat) : Bool :=
  let p := (locate a).1
  shell = supervisor || (match p.kind with
    | .ring | .qpc => s.owner p.ownReg = shell
    | .route => (evtPage p.inst).kind.ownable && s.owner (evtPage p.inst).ownReg = shell
    | .none => true
    | k => k.isBlock && k.ownable && s.owner p.ownReg = shell)

/-- An access of a step is denied: recorded in the SEC page and on the sequencer's page, FAULT sets, and the command completes
NOT_PERMITTED at its boundary (R409, R413, R418). -/
def denyStep (q k : Nat) (h : Held) (a : Nat) : Prog :=
  .ask fun s => .all [
    denyAccess h.shell (s.shellFunc h.shell) 7 a, capture (pgSq q) 0x24 (a % 2 ^ 24),
    modHeld q k fun x => { x with flags := x.flags ||| flagFAULT, ends := x.ends ++ [(1, stNotPermitted, 0)] }]

/-- An access of a step meets the fabric timeout: FAULT sets, the step may last longer, and the command completes TIMEOUT at its boundary (R404, R409). -/
def timeoutStep (q k : Nat) : Prog :=
  .all [modSeqr q fun z => { z with stalled := true },
    modHeld q k fun x => { x with flags := x.flags ||| flagFAULT, ends := x.ends ++ [(5, stTimeout, 0)] }]

end Sys2Proof.Machine
end

