-- ==== Sys2Proof/Machine/Microwords.lean ====
section
/-! DEFINITION. The microwords of Table 14-9, their faults, and what ends the waits of a step (R403, R406 to R413, R418 to R421). -/

namespace Sys2Proof.Machine

/-! ### Shared forms -/

/-- A register form: rd := rs op rt. -/
def regForm (q op rd rs rt cyc : Nat) (f : Word → Word → Word × Nat) : Prog :=
  microword q maskAll (uword op rd rs (rt % 32)) fun k h => .ask fun s =>
    let r := f (s.ureg q rs) (s.ureg q rt)
    .all [setUreg q rd r.1, goOn q k h cyc r.2]

/-- An immediate form: rd := rs op the extended immediate. -/
def immForm (q op rd rs imm : Nat) (ext : Nat → Word) (f : Word → Word → Word × Nat) : Prog :=
  microword q (if op = 0x1C then maskNoRs else maskAll) (uword op rd rs imm) fun k h => .ask fun s =>
    let r := f (s.ureg q rs) (ext imm)
    .all [setUreg q rd r.1, goOn q k h 1 r.2]

/-- A load of n bytes at rs + sext(imm), after some buffered stores have retired in the meantime (R408). -/
def loadForm (q op rd rs imm ret n : Nat) (signed : Bool) : Prog :=
  microword q maskAll (uword op rd rs imm) fun k h =>
    .all [retireStores q ret, localAt q k h rs imm n fun a => localLoad q a n fun bs stall =>
      .all [setUreg q rd (if signed then BitVec.ofInt 32 (sgn (8 * n) (ofLe bs)) else BitVec.ofNat 32 (ofLe bs)),
        goOn q k h (2 + stall) 0]]

/-- A store of n bytes at rs + sext(imm) (R408). -/
def storeForm (q op rd rs imm ret n : Nat) : Prog :=
  microword q maskAll (uword op rd rs imm) fun k h =>
    .all [retireStores q ret, localAt q k h rs imm n fun a => .ask fun s =>
      localStore q a (leBytes n (s.ureg q rd).toNat) fun stall => goOn q k h (1 + stall) 0]

/-- A branch or jump to a microword: RANGE where a customer routine would leave its image (R412). -/
def jump (q k : Nat) (h : Held) (pc cyc : Nat) (link : Prog) : Prog :=
  .ask fun s =>
    if h.img.isSome && !((s.image h).any fun i => inImage i pc) then ufault q k h 0x22
    else .all [link, goTo q k pc cyc 0]

/-- The target of a displacement: pc + sext(imm), in 18 bits. -/
def branchTo (pc imm : Nat) : Nat := ((pc : Int) + (sextImm imm).toInt).toNat % 2 ^ 18

/-- A conditional branch on rd and rs. -/
def branchForm (q op rd rs imm : Nat) (c : Word → Word → Bool) : Prog :=
  microword q maskAll (uword op rd rs imm) fun k h => .ask fun s =>
    if c (s.ureg q rd) (s.ureg q rs) then jump q k h (branchTo (h.pc + 2 ^ 18) imm) 3 .nil else goOn q k h 1 0

/-! ### Faults (R412) -/

/-- CSR numbers of Table 14-9. -/
def isCsr (n : Nat) : Bool := decide (n ≤ 5) || (decide (8 ≤ n) && decide (n ≤ 15))

/-- Whether a microword is ILLEGAL: a reserved opcode, a register form with imm [15:5] not 0, a reserved CSR, or a condition of WAIT that
Table 14-9 does not name (R412). -/
def illegalWord (w : Nat) : Bool :=
  let op := bits w 31 26
  op = 0x13 || op = 0x1F || (decide (0x2C ≤ op) && decide (op ≤ 0x2F)) || op = 0x3E || op = 0x3F ||
    (decide (op ≤ 0x12) && decide (bits w 15 5 ≠ 0)) || ((op = 0x3B || op = 0x3C) && !(isCsr (bits w 15 0))) ||
    (op = 0x39 && decide (2 < bits w 15 0))

/-- An illegal microword faults. -/
def illegal (q w : Nat) : Prog := .when (illegalWord w) (microword q maskAll (w % 2 ^ 32) fun k h => ufault q k h 0x20)

/-- A customer step that has reached its limit of cycles faults. -/
def stepOverrun (q : Nat) : Prog :=
  .ask fun s =>
    match s.current q with
    | none => .nil
    | some (k, h) => .when (h.img.isSome && (decide (s.stepEnd q ≤ (s.seqr q).cyc) || !((s.image h).any fun i => inImage i h.pc)))
        (ufault q k h 0x23)

/-! ### Control space, DMA and CSRs -/

/-- LDC: a BAR0 word with the shell's rights, after so many cycles; unanswered in 10 µs it returns 0 (R409). -/
def ldc (q rd rs imm cyc : Nat) (tmo : Bool) : Prog :=
  microword q maskAll (uword 0x28 rd rs imm) fun k h => .ask fun s =>
    let a := (s.ureg q rs + sextImm imm).toNat
    if a % 4 ≠ 0 then ufault q k h 0x21
    else if !(s.shellReaches h.shell a) then .all [denyStep q k h a, setUreg q rd 0#32, goOn q k h cyc 0]
    else if tmo then .all [timeoutStep q k, setUreg q rd 0#32, goOn q k h cyc 0]
    else readReg (s.shellFunc h.shell) a 4 fun v => .all [setUreg q rd (BitVec.ofNat 32 v), goOn q k h cyc 0]

/-- STC: a BAR0 word is written with the shell's rights; unanswered it stalls its step for the 10 µs of the fabric timeout (R409). -/
def stc (q rd rs imm : Nat) (tmo : Bool) : Prog :=
  microword q maskAll (uword 0x29 rd rs imm) fun k h => .ask fun s =>
    let a := (s.ureg q rs + sextImm imm).toNat
    if a % 4 ≠ 0 then ufault q k h 0x21
    else if !(s.shellReaches h.shell a) then .all [denyStep q k h a, goOn q k h 1 0]
    else if tmo then .all [timeoutStep q k, goOn q k h (5 * s.stepLimit) 0]
    else .all [goOn q k h 1 0, hostWrite (s.shellFunc h.shell) a 4 (s.ureg q rd).toNat]

/-- DMA: a transfer starts, and its handle is a free value: the spec states no numbers for handles and no layout for what the local address
holds (R410). -/
def dma (q rd rs imm : Nat) : Prog :=
  microword q maskAll (uword 0x2A rd rs imm) fun k h => localAt q k h rs imm 1 fun _ =>
    withFree fun v =>
      let handle := v % 2 ^ 32
      .all [.cmd fun c => { c with dmas := c.dmas ++ [{ handle := handle, sq := q, slot := k, done := false }] },
        setUreg q rd (BitVec.ofNat 32 handle), goOn q k h 1 0]

/-- A DMA transfer ends with what it brought: bytes for local memory (0), for HBM within the shell's windows (1) or for the host (2); the
commands that wait for its handle go on (R403). -/
def dmaDone (q handle dst addr : Nat) (data : List Byte) : Prog :=
  .ask fun s =>
    match s.cmd.dmas.find? fun d => d.sq = q && d.handle = handle && !d.done with
    | none => .nil
    | some d => match s.heldAt q d.slot with
      | none => .nil
      | some h => .all [
          (match dst with
           | 0 => .when (!(badLocal d.slot h addr data.length)) (.one (.lmem (q * 65536 + addr) data))
           | 1 => match s.resolve h.shell addr data.length true with
             | some a => hbmWrite a data
             | none => denyAccess h.shell (s.shellFunc h.shell) 4 addr
           | 2 => .out (.busWrite addr data)
           | _ => .nil),
          .cmd fun c => { c with dmas := c.dmas.map fun x => if x = d then { x with done := true } else x },
          modHeld q d.slot fun x => if x.wait = .dma handle then { x with wait := .ready } else x, sqStat q]

/-- What a CSR reads as (R410). -/
def State.csr (s : State) (q k : Nat) (h : Held) (n : Nat) : Word :=
  match n with
  | 0 => BitVec.ofNat 32 h.flags
  | 1 => BitVec.ofNat 32 (256 * k)
  | 2 => BitVec.ofNat 32 h.shell
  | 3 => BitVec.ofNat 32 s.now
  | 4 => BitVec.ofNat 32 (s.seqr q).cyc
  | 5 => BitVec.ofNat 32 q
  | _ => Tab.get h.args 0#32 (n - 8)

/-- CSRR; a reserved number is ILLEGAL. -/
def csrRead (q rd n : Nat) : Prog :=
  microword q maskNoRs (uword 0x3B rd 0 n) fun k h => .ask fun s =>
    if isCsr n then .all [setUreg q rd (s.csr q k h n), goOn q k h 1 0] else ufault q k h 0x20

/-- CSRW: ARG0 to ARG7; CSRs 0 to 5 are read only. -/
def csrWrite (q rs n : Nat) : Prog :=
  microword q maskNoRd (uword 0x3C 0 rs n) fun k h => .ask fun s =>
    if !(isCsr n) then ufault q k h 0x20
    else .all [
      .when (decide (8 ≤ n)) (modHeld q k fun x => { x with args := Tab.putC x.args 0#32 (n - 8) (s.ureg q rs) }), goOn q k h 1 0]

/-! ### Ends of a step -/

/-- WAIT: 0 a DMA handle, 1 a time in ns, 2 EVT_RAW of a global event (R403, R410). -/
def waitStep (q rs cond : Nat) : Prog :=
  microword q maskNoRd (uword 0x39 0 rs cond) fun k h => .ask fun s =>
    let v := (s.ureg q rs).toNat
    match cond with
    | 0 => endStep q k h (if s.cmd.dmas.any fun d => d.sq = q && d.handle = v && d.done then .ready else .dma v)
    | 1 => endStep q k h (.until (s.now + nsQ v))
    | 2 => endStep q k h (.event v)
    | _ => ufault q k h 0x20

/-- The status of DONE: the codes of Table 14-3 but SHELL_REVOKED and those that do not exist; in place of another the status is a free
value among them (R395, R421). -/
def okStatus (v : Nat) : Bool := decide (v ≤ 11) && decide (v ≠ 7)

/-- DONE: the command completes with STATUS rd [7:0] and RESULT rs, once the store buffer has drained. -/
def doneStep (q rd rs : Nat) : Prog :=
  microword q maskNoImm (uword 0x3A rd rs 0) fun k _ => .ask fun s =>
    let st := (s.ureg q rd).toNat % 256
    let rest (st : Nat) : Prog := .all [drainStores q, stepMax q, doneCmd q k st (s.ureg q rs).toNat, loadWaiting]
    if okStatus st then rest st else withFree fun v => rest ((List.range 12).filter okStatus |>.getD (v % 11) 0)

/-! ### Meanings -/

/-- ADD (Table 14-9). -/
def execAdd (sq rd rs rt : Nat) (s : State) : Host.Outcome State Fault Refusal := .next (run (regForm sq 0x00 rd rs rt 1 aluAdd) s)

/-- SUB (Table 14-9). -/
def execSub (sq rd rs rt : Nat) (s : State) : Host.Outcome State Fault Refusal := .next (run (regForm sq 0x01 rd rs rt 1 aluSub) s)

/-- AND (Table 14-9). -/
def execAnd (sq rd rs rt : Nat) (s : State) : Host.Outcome State Fault Refusal := .next (run (regForm sq 0x02 rd rs rt 1 aluAnd) s)

/-- OR (Table 14-9). -/
def execOr (sq rd rs rt : Nat) (s : State) : Host.Outcome State Fault Refusal := .next (run (regForm sq 0x03 rd rs rt 1 aluOr) s)

/-- XOR (Table 14-9). -/
def execXor (sq rd rs rt : Nat) (s : State) : Host.Outcome State Fault Refusal := .next (run (regForm sq 0x04 rd rs rt 1 aluXor) s)

/-- SLL (Table 14-9). -/
def execSll (sq rd rs rt : Nat) (s : State) : Host.Outcome State Fault Refusal := .next (run (regForm sq 0x05 rd rs rt 1 aluSll) s)

/-- SRL (Table 14-9). -/
def execSrl (sq rd rs rt : Nat) (s : State) : Host.Outcome State Fault Refusal := .next (run (regForm sq 0x06 rd rs rt 1 aluSrl) s)

/-- SRA (Table 14-9). -/
def execSra (sq rd rs rt : Nat) (s : State) : Host.Outcome State Fault Refusal := .next (run (regForm sq 0x07 rd rs rt 1 aluSra) s)

/-- ROR (Table 14-9). -/
def execRor (sq rd rs rt : Nat) (s : State) : Host.Outcome State Fault Refusal := .next (run (regForm sq 0x08 rd rs rt 1 aluRor) s)

/-- MUL (Table 14-9). -/
def execMul (sq rd rs rt : Nat) (s : State) : Host.Outcome State Fault Refusal := .next (run (regForm sq 0x09 rd rs rt 2 aluMul) s)

/-- MULH (Table 14-9). -/
def execMulh (sq rd rs rt : Nat) (s : State) : Host.Outcome State Fault Refusal := .next (run (regForm sq 0x0A rd rs rt 2 aluMulh) s)

/-- MULHU (Table 14-9). -/
def execMulhu (sq rd rs rt : Nat) (s : State) : Host.Outcome State Fault Refusal := .next (run (regForm sq 0x0B rd rs rt 2 aluMulhu) s)

/-- DIV (Table 14-9). -/
def execDiv (sq rd rs rt : Nat) (s : State) : Host.Outcome State Fault Refusal := .next (run (regForm sq 0x0C rd rs rt 34 aluDiv) s)

/-- REM (Table 14-9). -/
def execRem (sq rd rs rt : Nat) (s : State) : Host.Outcome State Fault Refusal := .next (run (regForm sq 0x0D rd rs rt 34 aluRem) s)

/-- DIVU (Table 14-9). -/
def execDivu (sq rd rs rt : Nat) (s : State) : Host.Outcome State Fault Refusal := .next (run (regForm sq 0x0E rd rs rt 34 aluDivu) s)

/-- REMU (Table 14-9). -/
def execRemu (sq rd rs rt : Nat) (s : State) : Host.Outcome State Fault Refusal := .next (run (regForm sq 0x0F rd rs rt 34 aluRemu) s)

/-- SLT (Table 14-9). -/
def execSlt (sq rd rs rt : Nat) (s : State) : Host.Outcome State Fault Refusal := .next (run (regForm sq 0x10 rd rs rt 1 aluSlt) s)

/-- SLTU (Table 14-9). -/
def execSltu (sq rd rs rt : Nat) (s : State) : Host.Outcome State Fault Refusal := .next (run (regForm sq 0x11 rd rs rt 1 aluSltu) s)

/-- NEG (Table 14-9). -/
def execNeg (sq rd rs rt : Nat) (s : State) : Host.Outcome State Fault Refusal := .next (run (regForm sq 0x12 rd rs rt 1 aluNeg) s)

/-- ADDI (Table 14-9). -/
def execAddi (sq rd rs imm : Nat) (s : State) : Host.Outcome State Fault Refusal := .next (run (immForm sq 0x14 rd rs imm sextImm aluAdd) s)

/-- ANDI (Table 14-9). -/
def execAndi (sq rd rs imm : Nat) (s : State) : Host.Outcome State Fault Refusal := .next (run (immForm sq 0x15 rd rs imm zextImm aluAnd) s)

/-- ORI (Table 14-9). -/
def execOri (sq rd rs imm : Nat) (s : State) : Host.Outcome State Fault Refusal := .next (run (immForm sq 0x16 rd rs imm zextImm aluOr) s)

/-- XORI (Table 14-9). -/
def execXori (sq rd rs imm : Nat) (s : State) : Host.Outcome State Fault Refusal := .next (run (immForm sq 0x17 rd rs imm zextImm aluXor) s)

/-- SLLI (Table 14-9). -/
def execSlli (sq rd rs imm : Nat) (s : State) : Host.Outcome State Fault Refusal := .next (run (immForm sq 0x18 rd rs imm zextImm aluSll) s)

/-- SRLI (Table 14-9). -/
def execSrli (sq rd rs imm : Nat) (s : State) : Host.Outcome State Fault Refusal := .next (run (immForm sq 0x19 rd rs imm zextImm aluSrl) s)

/-- SRAI (Table 14-9). -/
def execSrai (sq rd rs imm : Nat) (s : State) : Host.Outcome State Fault Refusal := .next (run (immForm sq 0x1A rd rs imm zextImm aluSra) s)

/-- RORI (Table 14-9). -/
def execRori (sq rd rs imm : Nat) (s : State) : Host.Outcome State Fault Refusal := .next (run (immForm sq 0x1B rd rs imm zextImm aluRor) s)

/-- LUI (Table 14-9); its form reads no rs. -/
def execLui (sq rd imm : Nat) (s : State) : Host.Outcome State Fault Refusal := .next (run (immForm sq 0x1C rd 0 imm zextImm aluLui) s)

/-- SLTI (Table 14-9). -/
def execSlti (sq rd rs imm : Nat) (s : State) : Host.Outcome State Fault Refusal := .next (run (immForm sq 0x1D rd rs imm sextImm aluSlt) s)

/-- SLTIU (Table 14-9). -/
def execSltiu (sq rd rs imm : Nat) (s : State) : Host.Outcome State Fault Refusal := .next (run (immForm sq 0x1E rd rs imm sextImm aluSltu) s)

/-- LW, with the buffered stores that have retired by then (R408). -/
def execLw (sq rd rs imm ret : Nat) (s : State) : Host.Outcome State Fault Refusal := .next (run (loadForm sq 0x20 rd rs imm ret 4 false) s)

/-- LH, with the buffered stores that have retired by then (R408). -/
def execLh (sq rd rs imm ret : Nat) (s : State) : Host.Outcome State Fault Refusal := .next (run (loadForm sq 0x21 rd rs imm ret 2 true) s)

/-- LHU, with the buffered stores that have retired by then (R408). -/
def execLhu (sq rd rs imm ret : Nat) (s : State) : Host.Outcome State Fault Refusal := .next (run (loadForm sq 0x22 rd rs imm ret 2 false) s)

/-- LB, with the buffered stores that have retired by then (R408). -/
def execLb (sq rd rs imm ret : Nat) (s : State) : Host.Outcome State Fault Refusal := .next (run (loadForm sq 0x23 rd rs imm ret 1 true) s)

/-- LBU, with the buffered stores that have retired by then (R408). -/
def execLbu (sq rd rs imm ret : Nat) (s : State) : Host.Outcome State Fault Refusal := .next (run (loadForm sq 0x24 rd rs imm ret 1 false) s)

/-- SW, with the buffered stores that have retired by then (R408). -/
def execSw (sq rd rs imm ret : Nat) (s : State) : Host.Outcome State Fault Refusal := .next (run (storeForm sq 0x25 rd rs imm ret 4) s)

/-- SH, with the buffered stores that have retired by then (R408). -/
def execSh (sq rd rs imm ret : Nat) (s : State) : Host.Outcome State Fault Refusal := .next (run (storeForm sq 0x26 rd rs imm ret 2) s)

/-- SB, with the buffered stores that have retired by then (R408). -/
def execSb (sq rd rs imm ret : Nat) (s : State) : Host.Outcome State Fault Refusal := .next (run (storeForm sq 0x27 rd rs imm ret 1) s)

/-- LDC (R409). -/
def execLdc (sq rd rs imm cyc : Nat) (tmo : Bool) (s : State) : Host.Outcome State Fault Refusal := .next (run (ldc sq rd rs imm cyc tmo) s)

/-- STC (R409). -/
def execStc (sq rd rs imm : Nat) (tmo : Bool) (s : State) : Host.Outcome State Fault Refusal := .next (run (stc sq rd rs imm tmo) s)

/-- DMA (R410). -/
def execDma (sq rd rs imm : Nat) (s : State) : Host.Outcome State Fault Refusal := .next (run (dma sq rd rs imm) s)

/-- SBDRAIN waits until the store buffer is empty (R410). -/
def execSbdrain (sq : Nat) (s : State) : Host.Outcome State Fault Refusal :=
  .next (run (microword sq maskOp (uword 0x2B 0 0 0) fun k h => .all [drainStores sq, goOn sq k h 0 0]) s)

/-- BEQ (Table 14-9). -/
def execBeq (sq rd rs imm : Nat) (s : State) : Host.Outcome State Fault Refusal := .next (run (branchForm sq 0x30 rd rs imm cmpEq) s)

/-- BNE (Table 14-9). -/
def execBne (sq rd rs imm : Nat) (s : State) : Host.Outcome State Fault Refusal := .next (run (branchForm sq 0x31 rd rs imm cmpNe) s)

/-- BLT (Table 14-9). -/
def execBlt (sq rd rs imm : Nat) (s : State) : Host.Outcome State Fault Refusal := .next (run (branchForm sq 0x32 rd rs imm cmpLt) s)

/-- BGE (Table 14-9). -/
def execBge (sq rd rs imm : Nat) (s : State) : Host.Outcome State Fault Refusal := .next (run (branchForm sq 0x33 rd rs imm cmpGe) s)

/-- BLTU (Table 14-9). -/
def execBltu (sq rd rs imm : Nat) (s : State) : Host.Outcome State Fault Refusal := .next (run (branchForm sq 0x34 rd rs imm cmpLtu) s)

/-- BGEU (Table 14-9). -/
def execBgeu (sq rd rs imm : Nat) (s : State) : Host.Outcome State Fault Refusal := .next (run (branchForm sq 0x35 rd rs imm cmpGeu) s)

/-- JAL (Table 14-9). -/
def execJal (sq rd imm : Nat) (s : State) : Host.Outcome State Fault Refusal :=
  .next (run (microword sq maskNoRs (uword 0x36 rd 0 imm) fun k h =>
    jump sq k h (branchTo (h.pc + 2 ^ 18) imm) 3 (setUreg sq rd (BitVec.ofNat 32 (h.pc + 1)))) s)

/-- JALR (Table 14-9). -/
def execJalr (sq rd rs imm : Nat) (s : State) : Host.Outcome State Fault Refusal :=
  .next (run (microword sq maskAll (uword 0x37 rd rs imm) fun k h => .ask fun t =>
    jump sq k h ((t.ureg sq rs + sextImm imm).toNat % 2 ^ 18) 3 (setUreg sq rd (BitVec.ofNat 32 (h.pc + 1)))) s)

/-- YIELD ends the step (R402). -/
def execYield (sq : Nat) (s : State) : Host.Outcome State Fault Refusal :=
  .next (run (microword sq maskOp (uword 0x38 0 0 0) fun k h => endStep sq k h .ready) s)

/-- WAIT ends the step until a condition holds (R403). -/
def execWait (sq rs cond : Nat) (s : State) : Host.Outcome State Fault Refusal := .next (run (waitStep sq rs cond) s)

/-- DONE completes the command (R402, R421). -/
def execDone (sq rd rs : Nat) (s : State) : Host.Outcome State Fault Refusal := .next (run (doneStep sq rd rs) s)

/-- CSRR (R410). -/
def execCsrr (sq rd csr : Nat) (s : State) : Host.Outcome State Fault Refusal := .next (run (csrRead sq rd csr) s)

/-- CSRW (R410). -/
def execCsrw (sq rs csr : Nat) (s : State) : Host.Outcome State Fault Refusal := .next (run (csrWrite sq rs csr) s)

/-- CLRF clears DZ and V (R410). -/
def execClrf (sq : Nat) (s : State) : Host.Outcome State Fault Refusal :=
  .next (run (microword sq maskOp (uword 0x3D 0 0 0) fun k h =>
    .all [modHeld sq k fun x => { x with flags := x.flags &&& flagFAULT }, goOn sq k h 1 0]) s)

/-- A microword that is ILLEGAL (R412). -/
def execIllegal (sq word : Nat) (s : State) : Host.Outcome State Fault Refusal := .next (run (illegal sq word) s)

/-- A customer step reaches its limit (R402, R412). -/
def execStepOverrun (sq : Nat) (s : State) : Host.Outcome State Fault Refusal := .next (run (stepOverrun sq) s)

/-- A DMA transfer of a sequencer completes (R403). -/
def execDmaDone (sq handle dst addr : Nat) (data : List Byte) (s : State) : Host.Outcome State Fault Refusal := .next (run (dmaDone sq handle dst addr data) s)

/-- The delay of a WAIT has elapsed (R403). -/
def execWaitElapsed (sq slot : Nat) (s : State) : Host.Outcome State Fault Refusal :=
  .next (run (.ask fun s => match s.heldAt sq slot with
    | some h => match h.wait with
      | .until q => .when (decide (q ≤ s.now)) (.all [modHeld sq slot fun x => { x with wait := .ready }, sqStat sq])
      | _ => .nil
    | none => .nil) s)

end Sys2Proof.Machine
end

