-- ==== Sys2Proof/Machine/Dispatch.lean ====
section
/-! DEFINITION. The meaning of each command, arm by arm. -/

namespace Sys2Proof.Machine

/-- The effect of a command on everything but the queue. -/
def exec (i : Instr) (s : State) : Host.Outcome State Fault Refusal :=
  match i with
  | .nop sq => Sys2Proof.Machine.execNop sq s
  | .fence sq => Sys2Proof.Machine.execFence sq s
  | .frameOpen sq => Sys2Proof.Machine.execFrameOpen sq s
  | .frameClose sq => Sys2Proof.Machine.execFrameClose sq s
  | .streamSet sq => Sys2Proof.Machine.execStreamSet sq s
  | .streamBind sq => Sys2Proof.Machine.execStreamBind sq s
  | .trigSet sq => Sys2Proof.Machine.execTrigSet sq s
  | .calRun sq => Sys2Proof.Machine.execCalRun sq s
  | .calSave sq => Sys2Proof.Machine.execCalSave sq s
  | .calLoad sq => Sys2Proof.Machine.execCalLoad sq s
  | .hbmFill sq => Sys2Proof.Machine.execHbmFill sq s
  | .hbmCopy sq data => Sys2Proof.Machine.execHbmCopy sq data s
  | .flashWrite sq data => Sys2Proof.Machine.execFlashWrite sq data s
  | .qpCreate sq data => Sys2Proof.Machine.execQpCreate sq data s
  | .qpDestroy sq => Sys2Proof.Machine.execQpDestroy sq s
  | .linkRemote sq => Sys2Proof.Machine.execLinkRemote sq s
  | .powerState sq => Sys2Proof.Machine.execPowerState sq s
  | .timeSet sq => Sys2Proof.Machine.execTimeSet sq s
  | .monRead sq => Sys2Proof.Machine.execMonRead sq s
  | .shellOpen sq => Sys2Proof.Machine.execShellOpen sq s
  | .shellClose sq => Sys2Proof.Machine.execShellClose sq s
  | .shellEdit sq => Sys2Proof.Machine.execShellEdit sq s
  | .customerOpcode sq => Sys2Proof.Machine.execCustomerOpcode sq s
  | .reservedOpcodeCommand sq => Sys2Proof.Machine.execReservedOpcodeCommand sq s
  | .commandTake => Sys2Proof.Machine.execCommandTake s
  | .commandDispatch => Sys2Proof.Machine.execCommandDispatch s
  | .sequencerStep sq => Sys2Proof.Machine.execSequencerStep sq s
  | .add sq rd rs rt => Sys2Proof.Machine.execAdd sq rd rs rt s
  | .sub sq rd rs rt => Sys2Proof.Machine.execSub sq rd rs rt s
  | .and sq rd rs rt => Sys2Proof.Machine.execAnd sq rd rs rt s
  | .or sq rd rs rt => Sys2Proof.Machine.execOr sq rd rs rt s
  | .xor sq rd rs rt => Sys2Proof.Machine.execXor sq rd rs rt s
  | .sll sq rd rs rt => Sys2Proof.Machine.execSll sq rd rs rt s
  | .srl sq rd rs rt => Sys2Proof.Machine.execSrl sq rd rs rt s
  | .sra sq rd rs rt => Sys2Proof.Machine.execSra sq rd rs rt s
  | .ror sq rd rs rt => Sys2Proof.Machine.execRor sq rd rs rt s
  | .mul sq rd rs rt => Sys2Proof.Machine.execMul sq rd rs rt s
  | .mulh sq rd rs rt => Sys2Proof.Machine.execMulh sq rd rs rt s
  | .mulhu sq rd rs rt => Sys2Proof.Machine.execMulhu sq rd rs rt s
  | .div sq rd rs rt => Sys2Proof.Machine.execDiv sq rd rs rt s
  | .rem sq rd rs rt => Sys2Proof.Machine.execRem sq rd rs rt s
  | .divu sq rd rs rt => Sys2Proof.Machine.execDivu sq rd rs rt s
  | .remu sq rd rs rt => Sys2Proof.Machine.execRemu sq rd rs rt s
  | .slt sq rd rs rt => Sys2Proof.Machine.execSlt sq rd rs rt s
  | .sltu sq rd rs rt => Sys2Proof.Machine.execSltu sq rd rs rt s
  | .neg sq rd rs rt => Sys2Proof.Machine.execNeg sq rd rs rt s
  | .addi sq rd rs imm => Sys2Proof.Machine.execAddi sq rd rs imm s
  | .andi sq rd rs imm => Sys2Proof.Machine.execAndi sq rd rs imm s
  | .ori sq rd rs imm => Sys2Proof.Machine.execOri sq rd rs imm s
  | .xori sq rd rs imm => Sys2Proof.Machine.execXori sq rd rs imm s
  | .slli sq rd rs imm => Sys2Proof.Machine.execSlli sq rd rs imm s
  | .srli sq rd rs imm => Sys2Proof.Machine.execSrli sq rd rs imm s
  | .srai sq rd rs imm => Sys2Proof.Machine.execSrai sq rd rs imm s
  | .rori sq rd rs imm => Sys2Proof.Machine.execRori sq rd rs imm s
  | .lui sq rd imm => Sys2Proof.Machine.execLui sq rd imm s
  | .slti sq rd rs imm => Sys2Proof.Machine.execSlti sq rd rs imm s
  | .sltiu sq rd rs imm => Sys2Proof.Machine.execSltiu sq rd rs imm s
  | .lw sq rd rs imm ret => Sys2Proof.Machine.execLw sq rd rs imm ret s
  | .lh sq rd rs imm ret => Sys2Proof.Machine.execLh sq rd rs imm ret s
  | .lhu sq rd rs imm ret => Sys2Proof.Machine.execLhu sq rd rs imm ret s
  | .lb sq rd rs imm ret => Sys2Proof.Machine.execLb sq rd rs imm ret s
  | .lbu sq rd rs imm ret => Sys2Proof.Machine.execLbu sq rd rs imm ret s
  | .sw sq rd rs imm ret => Sys2Proof.Machine.execSw sq rd rs imm ret s
  | .sh sq rd rs imm ret => Sys2Proof.Machine.execSh sq rd rs imm ret s
  | .sb sq rd rs imm ret => Sys2Proof.Machine.execSb sq rd rs imm ret s
  | .ldc sq rd rs imm cyc tmo => Sys2Proof.Machine.execLdc sq rd rs imm cyc tmo s
  | .stc sq rd rs imm tmo => Sys2Proof.Machine.execStc sq rd rs imm tmo s
  | .dma sq rd rs imm => Sys2Proof.Machine.execDma sq rd rs imm s
  | .sbdrain sq => Sys2Proof.Machine.execSbdrain sq s
  | .beq sq rd rs imm => Sys2Proof.Machine.execBeq sq rd rs imm s
  | .bne sq rd rs imm => Sys2Proof.Machine.execBne sq rd rs imm s
  | .blt sq rd rs imm => Sys2Proof.Machine.execBlt sq rd rs imm s
  | .bge sq rd rs imm => Sys2Proof.Machine.execBge sq rd rs imm s
  | .bltu sq rd rs imm => Sys2Proof.Machine.execBltu sq rd rs imm s
  | .bgeu sq rd rs imm => Sys2Proof.Machine.execBgeu sq rd rs imm s
  | .jal sq rd imm => Sys2Proof.Machine.execJal sq rd imm s
  | .jalr sq rd rs imm => Sys2Proof.Machine.execJalr sq rd rs imm s
  | .yield sq => Sys2Proof.Machine.execYield sq s
  | .wait sq rs cond => Sys2Proof.Machine.execWait sq rs cond s
  | .done sq rd rs => Sys2Proof.Machine.execDone sq rd rs s
  | .csrr sq rd csr => Sys2Proof.Machine.execCsrr sq rd csr s
  | .csrw sq rs csr => Sys2Proof.Machine.execCsrw sq rs csr s
  | .clrf sq => Sys2Proof.Machine.execClrf sq s
  | .illegal sq word => Sys2Proof.Machine.execIllegal sq word s
  | .stepOverrun sq => Sys2Proof.Machine.execStepOverrun sq s
  | .dmaDone sq handle dst addr data => Sys2Proof.Machine.execDmaDone sq handle dst addr data s
  | .blkCtrlEn fn page en => Sys2Proof.Machine.execBlkCtrlEn fn page en s
  | .srst fn page => Sys2Proof.Machine.execSrst fn page s
  | .softResetDone off => Sys2Proof.Machine.execSoftResetDone off s
  | .commit fn page => Sys2Proof.Machine.execCommit fn page s
  | .freeze fn page v => Sys2Proof.Machine.execFreeze fn page v s
  | .evtRawClear fn page v => Sys2Proof.Machine.execEvtRawClear fn page v s
  | .evtEnWrite fn page v => Sys2Proof.Machine.execEvtEnWrite fn page v s
  | .evtForce fn page v => Sys2Proof.Machine.execEvtForce fn page v s
  | .errInfoClear fn page => Sys2Proof.Machine.execErrInfoClear fn page s
  | .commitCtrlHold fn v => Sys2Proof.Machine.execCommitCtrlHold fn v s
  | .registerWrite fn off width v => Sys2Proof.Machine.execRegisterWrite fn off width v s
  | .rcFieldRead fn off width => Sys2Proof.Machine.execRcFieldRead fn off width s
  | .denyLogRead fn whole => Sys2Proof.Machine.execDenyLogRead fn whole s
  | .remoteEvtRead fn => Sys2Proof.Machine.execRemoteEvtRead fn s
  | .lowWordRead fn off => Sys2Proof.Machine.execLowWordRead fn off s
  | .timeNowRead fn => Sys2Proof.Machine.execTimeNowRead fn s
  | .lowWordWrite fn off v => Sys2Proof.Machine.execLowWordWrite fn off v s
  | .highWordWrite fn off v => Sys2Proof.Machine.execHighWordWrite fn off v s
  | .swTrig fn v => Sys2Proof.Machine.execSwTrig fn v s
  | .accEpochGo fn stream => Sys2Proof.Machine.execAccEpochGo fn stream s
  | .diffEpochGo fn pair => Sys2Proof.Machine.execDiffEpochGo fn pair s
  | .codeDensityStart fn input log2Edges => Sys2Proof.Machine.execCodeDensityStart fn input log2Edges s
  | .cdDone input codes phases => Sys2Proof.Machine.execCdDone input codes phases s
  | .selfcal fn => Sys2Proof.Machine.execSelfcal fn s
  | .selfcalDone gain offs => Sys2Proof.Machine.execSelfcalDone gain offs s
  | .relock fn => Sys2Proof.Machine.execRelock fn s
  | .syncArm fn => Sys2Proof.Machine.execSyncArm fn s
  | .retrain fn port => Sys2Proof.Machine.execRetrain fn port s
  | .devIdWrite fn id => Sys2Proof.Machine.execDevIdWrite fn id s
  | .upPortWrite fn port => Sys2Proof.Machine.execUpPortWrite fn port s
  | .rqIdLookup fn id => Sys2Proof.Machine.execRqIdLookup fn id s
  | .db64 fn shell off width v => Sys2Proof.Machine.execDb64 fn shell off width v s
  | .db32 fn shell off width v => Sys2Proof.Machine.execDb32 fn shell off width v s
  | .ringEnable fn ring => Sys2Proof.Machine.execRingEnable fn ring s
  | .ringDisable fn ring => Sys2Proof.Machine.execRingDisable fn ring s
  | .ringNotifyWrite fn ring v => Sys2Proof.Machine.execRingNotifyWrite fn ring v s
  | .limitWrite fn ctx v => Sys2Proof.Machine.execLimitWrite fn ctx v s
  | .routingEntryWrite fn event v => Sys2Proof.Machine.execRoutingEntryWrite fn event v s
  | .vecMapWrite fn v => Sys2Proof.Machine.execVecMapWrite fn v s
  | .coalWrite fn v => Sys2Proof.Machine.execCoalWrite fn v s
  | .msixUnmask fn entry => Sys2Proof.Machine.execMsixUnmask fn entry s
  | .pwrWake fn target => Sys2Proof.Machine.execPwrWake fn target s
  | .publish fn => Sys2Proof.Machine.execPublish fn s
  | .dbgLock fn => Sys2Proof.Machine.execDbgLock fn s
  | .coreRst fn => Sys2Proof.Machine.execCoreRst fn s
  | .feRst fn dies => Sys2Proof.Machine.execFeRst fn dies s
  | .shellRst fn shell => Sys2Proof.Machine.execShellRst fn shell s
  | .shellResetDone shell => Sys2Proof.Machine.execShellResetDone shell s
  | .dispReady fn => Sys2Proof.Machine.execDispReady fn s
  | .renStart fn => Sys2Proof.Machine.execRenStart fn s
  | .auxGo fn cmd addr len => Sys2Proof.Machine.execAuxGo fn cmd addr len s
  | .legRelease fn v => Sys2Proof.Machine.execLegRelease fn v s
  | .legacyWindowWrite fn word v => Sys2Proof.Machine.execLegacyWindowWrite fn word v s
  | .rcvGo fn region => Sys2Proof.Machine.execRcvGo fn region s
  | .rcvDone data worn => Sys2Proof.Machine.execRcvDone data worn s
  | .arbPrioWrite fn req prio => Sys2Proof.Machine.execArbPrioWrite fn req prio s
  | .timerExpWrite fn timer v => Sys2Proof.Machine.execTimerExpWrite fn timer v s
  | .timerArm fn timer periodic => Sys2Proof.Machine.execTimerArm fn timer periodic s
  | .xoAgeWrite fn v => Sys2Proof.Machine.execXoAgeWrite fn v s
  | .bar4Access write addr len data => Sys2Proof.Machine.execBar4Access write addr len data s
  | .historyWrite words => Sys2Proof.Machine.execHistoryWrite words s
  | .dieLinkLost die => Sys2Proof.Machine.execDieLinkLost die s
  | .dieLinkRetrained die attempts => Sys2Proof.Machine.execDieLinkRetrained die attempts s
  | .dieLinkTimeout die => Sys2Proof.Machine.execDieLinkTimeout die s
  | .settled bank vals => Sys2Proof.Machine.execSettled bank vals s
  | .tDieUpdate die => Sys2Proof.Machine.execTDieUpdate die s
  | .calStepBoundary r vals last => Sys2Proof.Machine.execCalStepBoundary r vals last s
  | .idleBoundary => Sys2Proof.Machine.execIdleBoundary s
  | .runStart die => Sys2Proof.Machine.execRunStart die s
  | .runDone r => Sys2Proof.Machine.execRunDone r s
  | .stepTmo r => Sys2Proof.Machine.execStepTmo r s
  | .runTmo r => Sys2Proof.Machine.execRunTmo r s
  | .startupCalTimeout die => Sys2Proof.Machine.execStartupCalTimeout die s
  | .startDone die vals => Sys2Proof.Machine.execStartDone die vals s
  | .handover bank vals slope => Sys2Proof.Machine.execHandover bank vals slope s
  | .holdEnd chan => Sys2Proof.Machine.execHoldEnd chan s
  | .triggerUnitSample tu => Sys2Proof.Machine.execTriggerUnitSample tu s
  | .trigInEdge pin c j m => Sys2Proof.Machine.execTrigInEdge pin c j m s
  | .gateEdge g level => Sys2Proof.Machine.execGateEdge g level s
  | .stuck src => Sys2Proof.Machine.execStuck src s
  | .seqWaitExpiry d => Sys2Proof.Machine.execSeqWaitExpiry d s
  | .deadline src line anchor => Sys2Proof.Machine.execDeadline src line anchor s
  | .trigOutPulseEnd n cxl => Sys2Proof.Machine.execTrigOutPulseEnd n cxl s
  | .requestEligible stream seq => Sys2Proof.Machine.execRequestEligible stream seq s
  | .extractionStart extr => Sys2Proof.Machine.execExtractionStart extr s
  | .continuousSegment stream => Sys2Proof.Machine.execContinuousSegment stream s
  | .extractionDone extr => Sys2Proof.Machine.execExtractionDone extr s
  | .binPassDone den n => Sys2Proof.Machine.execBinPassDone den n s
  | .recordBuilt stream => Sys2Proof.Machine.execRecordBuilt stream s
  | .pendingPipQueued stream => Sys2Proof.Machine.execPendingPipQueued stream s
  | .stampFlush stream => Sys2Proof.Machine.execStampFlush stream s
  | .monFlush stream => Sys2Proof.Machine.execMonFlush stream s
  | .timeOpen => Sys2Proof.Machine.execTimeOpen s
  | .frameDurExpiry => Sys2Proof.Machine.execFrameDurExpiry s
  | .drainProvisionalResolved => Sys2Proof.Machine.execDrainProvisionalResolved s
  | .drainRequestsDone => Sys2Proof.Machine.execDrainRequestsDone s
  | .drainRecordsWritten => Sys2Proof.Machine.execDrainRecordsWritten s
  | .podDone => Sys2Proof.Machine.execPodDone s
  | .drainAbandoned => Sys2Proof.Machine.execDrainAbandoned s
  | .steerUpdate comp servo phase freq => Sys2Proof.Machine.execSteerUpdate comp servo phase freq s
  | .sourceQualify src phase => Sys2Proof.Machine.execSourceQualify src phase s
  | .sourceLost src phase => Sys2Proof.Machine.execSourceLost src phase s
  | .revertTimer phase => Sys2Proof.Machine.execRevertTimer phase s
  | .stepDone => Sys2Proof.Machine.execStepDone s
  | .ppsInEdge rising q phase => Sys2Proof.Machine.execPpsInEdge rising q phase s
  | .ppsMiss phase => Sys2Proof.Machine.execPpsMiss phase s
  | .second => Sys2Proof.Machine.execSecond s
  | .tieMeasure q => Sys2Proof.Machine.execTieMeasure q s
  | .evEdge input falling j m => Sys2Proof.Machine.execEvEdge input falling j m s
  | .stampConvert input => Sys2Proof.Machine.execStampConvert input s
  | .diffEvaluate pair => Sys2Proof.Machine.execDiffEvaluate pair s
  | .tdcLocked input => Sys2Proof.Machine.execTdcLocked input s
  | .scsSearchDone band t => Sys2Proof.Machine.execScsSearchDone band t s
  | .scsLockingDone t err => Sys2Proof.Machine.execScsLockingDone t err s
  | .lockingTimeout loop => Sys2Proof.Machine.execLockingTimeout loop s
  | .lockFail loop => Sys2Proof.Machine.execLockFail loop s
  | .scsLocked qref per => Sys2Proof.Machine.execScsLocked qref per s
  | .cpllLocked band => Sys2Proof.Machine.execCpllLocked band s
  | .scsLostRef => Sys2Proof.Machine.execScsLostRef s
  | .scsLostLock => Sys2Proof.Machine.execScsLostLock s
  | .refReturn offset => Sys2Proof.Machine.execRefReturn offset s
  | .cpllLost => Sys2Proof.Machine.execCpllLost s
  | .syncInEdge rising inPhase => Sys2Proof.Machine.execSyncInEdge rising inPhase s
  | .portSignalDetect n => Sys2Proof.Machine.execPortSignalDetect n s
  | .trainDone n txDly rxDly => Sys2Proof.Machine.execTrainDone n txDly rxDly s
  | .advert n content => Sys2Proof.Machine.execAdvert n content s
  | .rate n ver => Sys2Proof.Machine.execRate n ver s
  | .identifyDone n => Sys2Proof.Machine.execIdentifyDone n s
  | .calibrateDone n => Sys2Proof.Machine.execCalibrateDone n s
  | .portStateTimeout n => Sys2Proof.Machine.execPortStateTimeout n s
  | .portRetry n => Sys2Proof.Machine.execPortRetry n s
  | .portLost n => Sys2Proof.Machine.execPortLost n s
  | .kaEnter n => Sys2Proof.Machine.execKaEnter n s
  | .trigProv n line src hops anchor crc => Sys2Proof.Machine.execTrigProv n line src hops anchor crc s
  | .trigConf n line src hops anchor crc => Sys2Proof.Machine.execTrigConf n line src hops anchor crc s
  | .trigCxl n line src hops anchor crc => Sys2Proof.Machine.execTrigCxl n line src hops anchor crc s
  | .gate n g level src hops anchor crc => Sys2Proof.Machine.execGate n g level src hops anchor crc s
  | .gateLevelApply => Sys2Proof.Machine.execGateLevelApply s
  | .wake n target src dst route hops crc => Sys2Proof.Machine.execWake n target src dst route hops crc s
  | .timeReq n t2 t3 crc => Sys2Proof.Machine.execTimeReq n t2 t3 crc s
  | .timeResp n t2 t3 t4 utc st tai crc => Sys2Proof.Machine.execTimeResp n t2 t3 t4 utc st tai crc s
  | .ttPeriod t1 => Sys2Proof.Machine.execTtPeriod t1 s
  | .rreq port src dst hops tag op off data crc => Sys2Proof.Machine.execRreq port src dst hops tag op off data crc s
  | .rresp n src dst hops tag status data crc => Sys2Proof.Machine.execRresp n src dst hops tag status data crc s
  | .remoteTmo tag => Sys2Proof.Machine.execRemoteTmo tag s
  | .keepalive n crc => Sys2Proof.Machine.execKeepalive n crc s
  | .keepaliveSend n => Sys2Proof.Machine.execKeepaliveSend n s
  | .topoAnnounce n src hops crc => Sys2Proof.Machine.execTopoAnnounce n src hops crc s
  | .topoWithdraw n src id hops crc => Sys2Proof.Machine.execTopoWithdraw n src id hops crc s
  | .topoRoot n root depth crc => Sys2Proof.Machine.execTopoRoot n root depth crc s
  | .event n src dst route hops num crc => Sys2Proof.Machine.execEvent n src dst route hops num crc s
  | .entryTake ring => Sys2Proof.Machine.execEntryTake ring s
  | .entryReadComplete ring resp => Sys2Proof.Machine.execEntryReadComplete ring resp s
  | .readFault ring => Sys2Proof.Machine.execReadFault ring s
  | .chainRepoll ring => Sys2Proof.Machine.execChainRepoll ring s
  | .bufferOpenReadDone ring ok => Sys2Proof.Machine.execBufferOpenReadDone ring ok s
  | .recordPlace ring stream => Sys2Proof.Machine.execRecordPlace ring stream s
  | .landingCheckDone ring ok => Sys2Proof.Machine.execLandingCheckDone ring ok s
  | .flushTmo ring stream => Sys2Proof.Machine.execFlushTmo ring stream s
  | .coalTimer v => Sys2Proof.Machine.execCoalTimer v s
  | .flr fn => Sys2Proof.Machine.execFlr fn s
  | .eventOutPulseEnd pin => Sys2Proof.Machine.execEventOutPulseEnd pin s
  | .subportDown sub corr uncorr anFail => Sys2Proof.Machine.execSubportDown sub corr uncorr anFail s
  | .subportUp sub => Sys2Proof.Machine.execSubportUp sub s
  | .failback ctx => Sys2Proof.Machine.execFailback ctx s
  | .linkHold ctx => Sys2Proof.Machine.execLinkHold ctx s
  | .egressSchedule engine => Sys2Proof.Machine.execEgressSchedule engine s
  | .roceAck ctx psn => Sys2Proof.Machine.execRoceAck ctx psn s
  | .roceNak ctx psn kind delay => Sys2Proof.Machine.execRoceNak ctx psn kind delay s
  | .retryTmo ctx => Sys2Proof.Machine.execRetryTmo ctx s
  | .rnrDelay ctx => Sys2Proof.Machine.execRnrDelay ctx s
  | .cnp ctx => Sys2Proof.Machine.execCnp ctx s
  | .rpPeriod ctx => Sys2Proof.Machine.execRpPeriod ctx s
  | .shed stream => Sys2Proof.Machine.execShed stream s
  | .pfcFrame sub prios => Sys2Proof.Machine.execPfcFrame sub prios s
  | .rxDiscard sub pause corr uncorr => Sys2Proof.Machine.execRxDiscard sub pause corr uncorr s
  | .ptpMessage port kind stamp origin utc st => Sys2Proof.Machine.execPtpMessage port kind stamp origin utc st s
  | .ptpSyncSend port stamp => Sys2Proof.Machine.execPtpSyncSend port stamp s
  | .arbitration point cyc full reqs => Sys2Proof.Machine.execArbitration point cyc full reqs s
  | .withdrawal point cyc full reqs => Sys2Proof.Machine.execWithdrawal point cyc full reqs s
  | .fabricTimeout req how => Sys2Proof.Machine.execFabricTimeout req how s
  | .revokeDone => Sys2Proof.Machine.execRevokeDone s
  | .standbyReached => Sys2Proof.Machine.execStandbyReached s
  | .readyReached u => Sys2Proof.Machine.execReadyReached u s
  | .housekeepingScan => Sys2Proof.Machine.execHousekeepingScan s
  | .conversionStart => Sys2Proof.Machine.execConversionStart s
  | .conversionDone raw => Sys2Proof.Machine.execConversionDone raw s
  | .timerExpiry k => Sys2Proof.Machine.execTimerExpiry k s
  | .pwmMatch n => Sys2Proof.Machine.execPwmMatch n s
  | .pwmPeriodEnd n => Sys2Proof.Machine.execPwmPeriodEnd n s
  | .hbmSelfRefresh stack => Sys2Proof.Machine.execHbmSelfRefresh stack s
  | .smbusStatus => Sys2Proof.Machine.execSmbusStatus s
  | .smbusTcore => Sys2Proof.Machine.execSmbusTcore s
  | .smbusTfe0 => Sys2Proof.Machine.execSmbusTfe0 s
  | .smbusTfe1 => Sys2Proof.Machine.execSmbusTfe1 s
  | .smbusIdentity => Sys2Proof.Machine.execSmbusIdentity s
  | .smbusAlertResponse => Sys2Proof.Machine.execSmbusAlertResponse s
  | .frontPorchEnd porch => Sys2Proof.Machine.execFrontPorchEnd porch s
  | .vmaxRepeat => Sys2Proof.Machine.execVmaxRepeat s
  | .frameDone => Sys2Proof.Machine.execFrameDone s
  | .vblankStart => Sys2Proof.Machine.execVblankStart s
  | .lineMatch => Sys2Proof.Machine.execLineMatch s
  | .activeStart => Sys2Proof.Machine.execActiveStart s
  | .underrun layer x y => Sys2Proof.Machine.execUnderrun layer x y s
  | .renderDone => Sys2Proof.Machine.execRenderDone s
  | .hpdRise => Sys2Proof.Machine.execHpdRise s
  | .hpdUnplug => Sys2Proof.Machine.execHpdUnplug s
  | .hpdIrq => Sys2Proof.Machine.execHpdIrq s
  | .dpTrainingDone ok lanes phase => Sys2Proof.Machine.execDpTrainingDone ok lanes phase s
  | .auxReply kind n data => Sys2Proof.Machine.execAuxReply kind n data s
  | .auxTimeout => Sys2Proof.Machine.execAuxTimeout s
  | .porN straps => Sys2Proof.Machine.execPorN straps s
  | .perstN => Sys2Proof.Machine.execPerstN s
  | .coreReset cause => Sys2Proof.Machine.execCoreReset cause s
  | .stageDone img ver ident badSets badSlots => Sys2Proof.Machine.execStageDone img ver ident badSets badSlots s
  | .supplyMonitorTrip => Sys2Proof.Machine.execSupplyMonitorTrip s
  | .flashPageProgram ok => Sys2Proof.Machine.execFlashPageProgram ok s
  | .flashEraseDone ms ok => Sys2Proof.Machine.execFlashEraseDone ms ok s
  | .writeDone dirFails => Sys2Proof.Machine.execWriteDone dirFails s
  | .scrub memory err pc addr item both => Sys2Proof.Machine.execScrub memory err pc addr item both s
  | .pcDown pc => Sys2Proof.Machine.execPcDown pc s
  | .pcRetrainDone pc ok => Sys2Proof.Machine.execPcRetrainDone pc ok s
  | .pcieLinkDown => Sys2Proof.Machine.execPcieLinkDown s
  | .pcieLinkUp speed width => Sys2Proof.Machine.execPcieLinkUp speed width s
  | .configRequest fn kind v write => Sys2Proof.Machine.execConfigRequest fn kind v write s
  | .perstNHigh => Sys2Proof.Machine.execPerstNHigh s
  | .porNLow => Sys2Proof.Machine.execPorNLow s
  | .supplyRestored => Sys2Proof.Machine.execSupplyRestored s
  | .flrDone fn => Sys2Proof.Machine.execFlrDone fn s
  | .waitElapsed sq slot => Sys2Proof.Machine.execWaitElapsed sq slot s
  | .tempHigh mc temp => Sys2Proof.Machine.execTempHigh mc temp s
  | .debugAttach attach access => Sys2Proof.Machine.execDebugAttach attach access s
  | .ucodeReloadDone part => Sys2Proof.Machine.execUcodeReloadDone part s
  | .pfcPauseEnd sub prio => Sys2Proof.Machine.execPfcPauseEnd sub prio s
  | .trigInInactiveEdge pin c j m => Sys2Proof.Machine.execTrigInInactiveEdge pin c j m s
  | .abort n block => Sys2Proof.Machine.execAbort n block s

end Sys2Proof.Machine
end

