-- ==== Sys2Proof/Machine/Step.lean ====
section
/-! DEFINITION. One step of the block: the command at the front of the queue, or one XCLK period where none waits. -/

namespace Sys2Proof.Machine

/-- One XCLK period of 20 ns in units of 2^-80 s, rounded (R246): what Q-time advances by where no command waits. -/
def xclkPeriod : Nat := 24178516392292583

/-- One XCLK period passes: Q-time advances, PWM counters count, a pulse on PPS_OUT whose end has come ends, the lock indications follow, and
Filmund ports send. -/
def tick : Prog := .all [.time fun t => { t with q := (t.q + xclkPeriod) % 2 ^ 128 }, pwmTick, ppsOutEnd, clockTick, txTick xclkPeriod]

/-- One step. -/
def step (s : State) : Host.Outcome State Fault Refusal :=
  match s.pending with
  | [] => .next (run tick s)
  | i :: rest => exec i { s with
      pending := rest }

/-- The state with the command that a table word spells at the front of its queue. -/
def State.withFetchWord (s : State) (nbits w : Nat) : State :=
  match decodeTableWord nbits w with
  | some i => { s with
      pending := i :: s.pending }
  | none => s

end Sys2Proof.Machine
end

