-- ==== Sys2Proof/Safety.lean ====
section
/-! DEFINITION. What the statements call a well-kept state and a completed command: the canonical form of memories and registers, the bounds
of the two logs, and completion with a property. -/

namespace Sys2Proof.Machine

/-- A byte memory is in its one canonical form: addresses strictly rising, and no byte listed that equals what an unlisted one reads as. -/
def Memory.wf (m : List Host.Cell) : Bool := Tab.sorted m && m.all (fun c => decide (c.2 ≠ 0))

/-- The register cells are in canonical form: offsets strictly rising, and no cell listed that holds its reset word. -/
def Registers.wf (t : Tab Word) : Bool := Tab.sorted t && t.all (fun c => decide (c.2 ≠ resetWord c.1))

/-- A well-kept state: memories and registers canonical, at most 16 denials held (R454) and at most 64 faults logged (R519). -/
def State.wf (s : State) : Bool :=
  Registers.wf s.regs && Memory.wf s.hbm && Memory.wf s.lmem && decide (s.denials.length ≤ 16) && decide (s.faults.length ≤ 64)

/-- The byte of HBM at an address. -/
def State.hbmByte (s : State) (a : Nat) : Byte := Tab.get s.hbm 0 a

/-- The byte of sequencer local memory at an address, with 65536 bytes for each sequencer. -/
def State.lmemByte (s : State) (a : Nat) : Byte := Tab.get s.lmem 0 a

/-- A command answers a next state that has a property. -/
def Completes (i : Instr) (s : State) (P : State → Prop) : Prop := ∃ t, exec i s = .next t ∧ P t

/-- A counter has advanced by n, saturating at its maximum (R56). -/
def Counted (s t : State) (p : Pg) (r : Row) (n : Nat) : Prop := t.get p r = min r.max (s.get p r + n)

/-- Event source k of a page is set (R64). -/
def State.raised (s : State) (p : Pg) (k : Nat) : Bool := bit (s.evtRaw p) k

/-- An error with a code and a detail is captured on a page that holds none (R46). -/
def Captured (s t : State) (p : Pg) (code detail : Nat) : Prop :=
  bit (s.errInfo p) 31 = false → t.errInfo p = detail % 2 ^ 24 + code % 64 * 2 ^ 24 + 2 ^ 31

/-- Only register cells have changed. -/
def RegsOnly (s t : State) : Prop := t = { s with regs := t.regs }

/-- Only the cell at an offset has changed. -/
def CellOnly (s t : State) (a : Nat) : Prop := RegsOnly s t ∧ ∀ b, b ≠ a → t.cell b = s.cell b

/-- Only register cells, what goes out and what the Filmund ports have to send have changed. -/
def SentOnly (s t : State) : Prop := t = { s with regs := t.regs, out := t.out, tx := t.tx }

/-- A message is all that a port has sent, at once where it was idle; else it waits there, last of those that wait (R312). -/
def Sends (s t : State) (n : Nat) (m : Msg) : Prop :=
  (∀ p, p ≠ n → t.txOf p = s.txOf p) ∧ (s.txOf n = PortTx.reset → t.out = .link n m.ty (msgBytes m) :: s.out) ∧
  (s.txOf n ≠ PortTx.reset → t.out = s.out ∧ (t.txOf n).queue = (s.txOf n).queue ++ [m])

/-! ### Steps of a sequencer (R402, R406, R410) -/

/-- The command h in slot k of sequencer q runs, and a microword of some bits is the one its step executes next. -/
def Executes (s : State) (q k : Nat) (h : Held) (mask word : Nat) : Prop :=
  s.current q = some (k, h) ∧ s.fetches q h mask word = true

/-- A step has changed nothing but its sequencer: the state of that sequencer and the registers of its page. -/
def SeqrFrame (s t : State) (q : Nat) : Prop :=
  t = { s with regs := t.regs, cmd := { s.cmd with seqs := t.cmd.seqs } } ∧ (∀ p, p ≠ q → t.seqr p = s.seqr p) ∧
  ∀ a, a < (pgSq q).base ∨ (pgSq q).base + 0x1000 ≤ a → t.cell a = s.cell a

/-- A step goes on at a microword, some cycles later, with flags set, and its slot, its store buffer and its other commands as they were. -/
def GoesOn (s t : State) (q k : Nat) (h : Held) (pc cyc flags : Nat) : Prop :=
  t.current q = some (k, { h with pc := pc % 2 ^ 18, flags := h.flags ||| flags }) ∧ (t.seqr q).cyc = (s.seqr q).cyc + cyc ∧
  (t.seqr q).last = (s.seqr q).last ∧ ∀ j, j ≠ k → t.heldAt q j = s.heldAt q j

/-- A register of a sequencer has taken a value, u0 excepted, and the others are as they were. -/
def RegResult (s t : State) (q rd : Nat) (v : Word) : Prop :=
  ∀ r, t.ureg q r = if r % 32 = rd % 32 ∧ r % 32 ≠ 0 then v else s.ureg q r

/-- The microword at the program counter has written a register and gone on to the next. -/
def Wrote (s t : State) (q k : Nat) (h : Held) (rd : Nat) (v : Word) (cyc flags : Nat) : Prop :=
  RegResult s t q rd v ∧ GoesOn s t q k h (h.pc + 1) cyc flags ∧ (t.seqr q).buf = (s.seqr q).buf ∧ SeqrFrame s t q

/-- A step has changed nothing but its sequencer and the sequencer's local memory. -/
def LocalFrame (s t : State) (q : Nat) : Prop :=
  t = { s with regs := t.regs, lmem := t.lmem, cmd := { s.cmd with seqs := t.cmd.seqs } } ∧ (∀ p, p ≠ q → t.seqr p = s.seqr p) ∧
  ∀ a, a < (pgSq q).base ∨ (pgSq q).base + 0x1000 ≤ a → t.cell a = s.cell a

/-- The byte a load of a sequencer sees at a local address: of the youngest buffered store that holds it, else of local memory (R408). -/
def State.localByte (s : State) (q a : Nat) : Byte :=
  match (s.seqr q).buf.reverse.find? fun e => decide (e.1 ≤ a) && decide (a < e.1 + e.2.length) with
  | some e => e.2.getD (a - e.1) 0
  | none => s.lmemByte (q * 65536 + a)

/-- The bytes a load sees from a local address on. -/
def State.localBytes (s : State) (q a n : Nat) : List Byte := (List.range n).map fun i => s.localByte q (a + i)

/-- The local address of a load or store. -/
def State.localAddr (s : State) (q rs imm : Nat) : Nat := (s.ureg q rs + (BitVec.ofNat 16 imm).signExtend 32).toNat

/-- The word a 32-bit read of a register gives: the latched high word of a 64-bit register, or the word as it stands (R51). -/
def State.readValue (s : State) (fn a : Nat) : Nat :=
  match Tab.find s.host.highLatch (wordKey fn (s.target fn a).1 (s.target fn a).2) with
  | some w => w.toNat
  | none => s.viewWord fn (s.target fn a).1 (s.target fn a).2

/-- An access of a function to a register is answered: the device is awake to it, it is permitted, reaches an assigned word, is of a good width and alignment,
and its page is not under reset (R37, R40, R43, R45, R507). -/
def State.answers (s : State) (fn a width : Nat) : Bool :=
  (decide (s.pstate ≠ 0) || (s.target fn a).1.kind.acorn) && (!s.recovery || (s.target fn a).1.kind.inRecovery) &&
    s.mayReach fn a (s.target fn a).1 && (s.target fn a).1.assigned (s.target fn a).2 width && goodWidth a width &&
    !((s.target fn a).1.kind.isBlock && s.busy (s.target fn a).1)

/-- The command in a slot has ended its step, the store buffer having drained: it waits, or has been ended by what was pending (R402, R404). -/
def StepEnded (s t : State) (q k : Nat) (h : Held) (wait : CmdWait) : Prop :=
  t.current q = none ∧ (t.seqr q).buf = [] ∧ (∀ a, t.lmemByte (q * 65536 + a) = s.localByte q a) ∧
  (h.ends = [] → t.heldAt q k = some { h with pc := (h.pc + 1) % 2 ^ 18, wait := wait }) ∧ (h.ends ≠ [] → t.heldAt q k = none)

/-! ### Commands (R396, R402 to R404) -/

/-- The step of a command of an opcode runs, the checks of R396 passed and nothing pending that ends it. -/
def CommandRuns (s : State) (q k : Nat) (h : Held) (op : Nat) : Prop :=
  s.current q = some (k, h) ∧ h.op = op ∧ s.opDefined h = true ∧ s.cmdDenied h = false ∧ s.badForm h = false ∧ h.ends = []

/-- A command has its effect, and then completes with a status and a result. -/
def Finishes (i : Instr) (s : State) (q k : Nat) (h : Held) (status result : Nat) (P : State → Prop) : Prop :=
  ∃ u, P u ∧ u.heldAt q k = some h ∧ exec i s = .next (run (finishCmd q k status result) u)

/-- A command has its effect, and waits for the hardware it has set going. -/
def Waits (i : Instr) (s : State) (q k : Nat) (h : Held) (P : State → Prop) : Prop :=
  ∃ t, exec i s = .next t ∧ t.heldAt q k = some { h with wait := .work } ∧ (t.seqr q).cur = none ∧ P t

/-- A fill or copy has moved n bytes of len: it completes, or its next step will go on. -/
def Moves (i : Instr) (s : State) (q k : Nat) (h : Held) (len n : Nat) (P : State → Prop) : Prop :=
  (len ≤ h.work + n → Finishes i s q k h 0 0 P) ∧
  (h.work + n < len → ∃ t, exec i s = .next t ∧ t.heldAt q k = some { h with work := h.work + n, wait := .ready } ∧ P t)

/-- The fields of the registers at an offset hold the bits of a word. -/
def State.holds (s : State) (p : Pg) (rel v : Nat) : Prop :=
  ∀ r ∈ p.kind.rows, (r.acc = .rw ∨ r.acc = .rws) → r.lies rel = true → bits (s.cell (p.base + rel)).toNat r.hi r.lo = bits v r.hi r.lo

/-- A flash write that joins the queue starts or waits its turn: another is in progress, or a sector is free for it. -/
def State.flashTakes (s : State) : Prop := s.sys.jobs ≠ [] ∨ ∀ j : FlashJob, j.secs = [] → (s.leastWorn (s.freeSectors j)).isSome = true

/-! ### What an event leaves alone -/

/-- The units that commands whose frame is stated act on. -/
inductive Scope where
  /-- Register cells alone. -/
  | regs
  /-- The host interface. -/
  | host
  /-- Segments, frames and records. -/
  | seg
  /-- Triggers, and the frames they open and close. -/
  | trig
  /-- The time base and the clocks. -/
  | time
  /-- The sources that discipline the time base, with the steps of Q-time. -/
  | source
  /-- The Filmund link. -/
  | link
  /-- The network service, and the records it carries. -/
  | net
  /-- Converters, their calibration and the gaps they leave. -/
  | conv
  /-- What ends on a channel, and the frame whose opening waited for it. -/
  | opens
  /-- Power, monitor, timers and fabric. -/
  | pwr
  /-- The display. -/
  | disp
  /-- Start-up and flash. -/
  | sys
  /-- Commands and the requests they wait for. -/
  | cmd
  deriving DecidableEq, Repr

/-- Where a command acts on one unit, beside register cells and what an event or an entry delivered to the host changes: that unit. -/
def Scope.of : Instr → Option Scope
  | .softResetDone .. | .scsSearchDone .. | .keepalive .. | .auxTimeout .. => some .regs
  | .abort .. | .timeReq .. | .keepaliveSend .. | .ptpSyncSend .. | .chainRepoll .. | .eventOutPulseEnd .. | .coalTimer .. | .configRequest ..
  | .tDieUpdate .. | .stuck .. | .tdcLocked .. | .rxDiscard .. | .lineMatch ..
  | .hpdIrq .. | .pcieLinkDown .. | .pcieLinkUp .. | .tempHigh .. | .debugAttach .. | .entryTake .. | .entryReadComplete .. | .readFault ..
  | .bufferOpenReadDone .. | .smbusStatus .. | .smbusIdentity .. => some .host
  | .requestEligible .. | .extractionStart .. | .continuousSegment .. | .extractionDone .. | .binPassDone ..
  | .recordBuilt .. | .pendingPipQueued .. | .stampFlush .. | .monFlush .. | .shed .. | .drainRecordsWritten .. | .landingCheckDone ..
  | .flushTmo .. => some .seg
  | .trigOutPulseEnd .. | .triggerUnitSample .. | .trigInEdge .. | .seqWaitExpiry .. | .deadline .. | .frameDurExpiry .. | .trigProv ..
  | .trigConf .. | .trigCxl .. | .trigInInactiveEdge .. | .drainProvisionalResolved .. => some .trig
  | .tieMeasure .. | .scsLockingDone .. | .lockingTimeout .. | .cpllLocked .. | .second .. | .cdDone .. => some .time
  | .steerUpdate .. | .sourceQualify .. | .sourceLost .. | .revertTimer .. | .ppsInEdge .. | .ppsMiss .. | .ptpMessage .. => some .source
  | .ttPeriod .. | .topoWithdraw .. | .trainDone .. | .rate .. | .identifyDone .. | .calibrateDone .. | .event .. | .advert ..
  | .topoAnnounce .. | .portSignalDetect .. | .portRetry .. | .kaEnter .. => some .link
  | .rnrDelay .. | .rpPeriod .. | .pfcFrame .. | .pfcPauseEnd .. | .cnp .. | .flrDone .. | .roceAck .. | .subportUp ..
  | .failback .. | .subportDown .. => some .net
  | .runStart .. | .startDone .. | .handover .. | .holdEnd .. => some .conv
  | .settled .. | .dieLinkRetrained .. | .idleBoundary .. => some .opens
  | .housekeepingScan .. | .conversionStart .. | .hbmSelfRefresh .. | .smbusAlertResponse .. | .pwmMatch .. | .pwmPeriodEnd ..
  | .arbitration .. | .withdrawal .. => some .pwr
  | .frontPorchEnd .. | .vmaxRepeat .. | .hpdRise .. | .auxReply .. | .vblankStart .. | .activeStart .. | .underrun .. | .renderDone ..
  | .hpdUnplug .. | .frameDone .. | .dpTrainingDone .. => some .disp
  | .perstNHigh .. | .ucodeReloadDone .. | .rcvDone .. | .pcDown .. => some .sys
  | .reservedOpcodeCommand .. | .waitElapsed .. | .commandTake .. | .rresp .. | .remoteTmo .. => some .cmd
  | _ => none

/-- A command has changed nothing outside a unit, register cells, memory, the host interface and what the Filmund ports send. -/
def Scope.Holds (s t : State) : Scope → Prop
  | .regs => RegsOnly s t
  | .host => t = { s with regs := t.regs, hbm := t.hbm, out := t.out, host := t.host, tx := t.tx }
  | .seg => t = { s with regs := t.regs, hbm := t.hbm, out := t.out, host := t.host, tx := t.tx, seg := t.seg }
  | .trig => t = { s with regs := t.regs, hbm := t.hbm, out := t.out, host := t.host, tx := t.tx, trig := t.trig, seg := t.seg }
  | .time => t = { s with regs := t.regs, hbm := t.hbm, out := t.out, host := t.host, tx := t.tx, time := t.time }
  | .source => t = { s with
      regs := t.regs, hbm := t.hbm, out := t.out, host := t.host, tx := t.tx, time := t.time, trig := t.trig, net := t.net, free := t.free }
  | .link => t = { s with regs := t.regs, hbm := t.hbm, out := t.out, host := t.host, tx := t.tx, link := t.link }
  | .net => t = { s with regs := t.regs, hbm := t.hbm, out := t.out, host := t.host, tx := t.tx, net := t.net, seg := t.seg }
  | .conv => t = { s with regs := t.regs, hbm := t.hbm, out := t.out, host := t.host, tx := t.tx, conv := t.conv, cal := t.cal, seg := t.seg }
  | .opens => t = { s with
      regs := t.regs, hbm := t.hbm, out := t.out, host := t.host, tx := t.tx, conv := t.conv, cal := t.cal, seg := t.seg, trig := t.trig, time := t.time,
      cmd := t.cmd, sec := t.sec, free := t.free, faults := t.faults }
  | .pwr => t = { s with regs := t.regs, hbm := t.hbm, out := t.out, host := t.host, tx := t.tx, pwr := t.pwr, fab := t.fab }
  | .disp => t = { s with regs := t.regs, hbm := t.hbm, out := t.out, host := t.host, tx := t.tx, disp := t.disp }
  | .sys => t = { s with regs := t.regs, hbm := t.hbm, out := t.out, host := t.host, tx := t.tx, sys := t.sys }
  | .cmd => t = { s with regs := t.regs, hbm := t.hbm, out := t.out, host := t.host, tx := t.tx, cmd := t.cmd, link := t.link }

end Sys2Proof.Machine
end

