-- ==== Sys2Proof/Certificates/Slice0/Obligations.lean ====
section
/-! DEFINITION. The statements. -/

section

open Sys2Proof Sys2Proof.Machine

/-! ### Microwords (R410, R411) -/

/-- The register forms: result, flag (1 DZ, 2 V) and cycles of each, with the edges of Table 14-10 (R410, R411). -/
def Obligations.RegisterFormsWriteTheirResult : Prop :=
  ∀ (s : State) (q k : Nat) (h : Held) (rd rs rt op cyc fl : Nat) (i : Instr) (v : Word),
    let a := s.ureg q rs
    let b := s.ureg q rt
    Executes s q k h maskAll (uword op rd rs (rt % 32)) →
    (i, op, cyc, v, fl) ∈ [
      (Instr.add q rd rs rt, 0x00, 1, a + b, if a.toInt + b.toInt < -2 ^ 31 ∨ 2 ^ 31 ≤ a.toInt + b.toInt then 2 else 0),
      (.sub q rd rs rt, 0x01, 1, a - b, if a.toInt - b.toInt < -2 ^ 31 ∨ 2 ^ 31 ≤ a.toInt - b.toInt then 2 else 0),
      (.and q rd rs rt, 0x02, 1, a &&& b, 0), (.or q rd rs rt, 0x03, 1, a ||| b, 0), (.xor q rd rs rt, 0x04, 1, a ^^^ b, 0),
      (.sll q rd rs rt, 0x05, 1, if 32 ≤ b.toNat then 0 else a <<< b.toNat, 0),
      (.srl q rd rs rt, 0x06, 1, if 32 ≤ b.toNat then 0 else a >>> b.toNat, 0),
      (.sra q rd rs rt, 0x07, 1, if 32 ≤ b.toNat then (if a.toInt < 0 then 0xFFFFFFFF#32 else 0) else a.sshiftRight b.toNat, 0),
      (.ror q rd rs rt, 0x08, 1, a.rotateRight (b.toNat % 32), 0),
      (.mul q rd rs rt, 0x09, 2, a * b, 0),
      (.mulh q rd rs rt, 0x0A, 2, BitVec.ofInt 32 (a.toInt * b.toInt / 2 ^ 32), 0),
      (.mulhu q rd rs rt, 0x0B, 2, BitVec.ofNat 32 (a.toNat * b.toNat / 2 ^ 32), 0),
      (.div q rd rs rt, 0x0C, 34, if b = 0 then 0xFFFFFFFF#32 else if a = 0x80000000#32 ∧ b = 0xFFFFFFFF#32 then 0x80000000#32
        else BitVec.ofInt 32 (Int.tdiv a.toInt b.toInt), if b = 0 then 1 else if a = 0x80000000#32 ∧ b = 0xFFFFFFFF#32 then 2 else 0),
      (.rem q rd rs rt, 0x0D, 34, if b = 0 then a else if a = 0x80000000#32 ∧ b = 0xFFFFFFFF#32 then 0
        else BitVec.ofInt 32 (Int.tmod a.toInt b.toInt), if b = 0 then 1 else if a = 0x80000000#32 ∧ b = 0xFFFFFFFF#32 then 2 else 0),
      (.divu q rd rs rt, 0x0E, 34, if b = 0 then 0xFFFFFFFF#32 else BitVec.ofNat 32 (a.toNat / b.toNat), if b = 0 then 1 else 0),
      (.remu q rd rs rt, 0x0F, 34, if b = 0 then a else BitVec.ofNat 32 (a.toNat % b.toNat), if b = 0 then 1 else 0),
      (.slt q rd rs rt, 0x10, 1, if a.toInt < b.toInt then 1 else 0, 0),
      (.sltu q rd rs rt, 0x11, 1, if a.toNat < b.toNat then 1 else 0, 0),
      (.neg q rd rs rt, 0x12, 1, if a = 0x80000000#32 then 0x80000000#32 else 0 - a, if a = 0x80000000#32 then 2 else 0)] →
    ∃ t, exec i s = .next t ∧ Wrote s t q k h rd v cyc fl

/-- The immediate forms: result and flag of each, in one cycle (R410, R411). -/
def Obligations.ImmediateFormsWriteTheirResult : Prop :=
  ∀ (s : State) (q k : Nat) (h : Held) (rd rs imm op fl : Nat) (i : Instr) (v : Word),
    let a := s.ureg q rs
    let x := (BitVec.ofNat 16 imm).signExtend 32
    let z := imm % 2 ^ 16
    Executes s q k h (if op = 0x1C then maskNoRs else maskAll) (uword op rd (if op = 0x1C then 0 else rs) imm) →
    (i, op, v, fl) ∈ [
      (Instr.addi q rd rs imm, 0x14, a + x, if a.toInt + x.toInt < -2 ^ 31 ∨ 2 ^ 31 ≤ a.toInt + x.toInt then 2 else 0),
      (.andi q rd rs imm, 0x15, a &&& BitVec.ofNat 32 z, 0), (.ori q rd rs imm, 0x16, a ||| BitVec.ofNat 32 z, 0),
      (.xori q rd rs imm, 0x17, a ^^^ BitVec.ofNat 32 z, 0),
      (.slli q rd rs imm, 0x18, if 32 ≤ z then 0 else a <<< z, 0), (.srli q rd rs imm, 0x19, if 32 ≤ z then 0 else a >>> z, 0),
      (.srai q rd rs imm, 0x1A, if 32 ≤ z then (if a.toInt < 0 then 0xFFFFFFFF#32 else 0) else a.sshiftRight z, 0),
      (.rori q rd rs imm, 0x1B, a.rotateRight (z % 32), 0), (.lui q rd imm, 0x1C, BitVec.ofNat 32 (z * 2 ^ 16), 0),
      (.slti q rd rs imm, 0x1D, if a.toInt < x.toInt then 1 else 0, 0),
      (.sltiu q rd rs imm, 0x1E, if a.toNat < x.toNat then 1 else 0, 0)] →
    ∃ t, exec i s = .next t ∧ Wrote s t q k h rd v 1 fl

/-- Loads of local memory see the youngest bytes stored, wherever they are, however many stores have retired, and change none (R408, R410).
How many stores have retired is an operand, the model's choice (log entry 99). -/
def Obligations.LoadsSeeTheYoungestBytes : Prop :=
  ∀ (s : State) (q k : Nat) (h : Held) (rd rs imm ret op n : Nat) (i : Instr) (v : Word),
    let a := s.localAddr q rs imm
    let x := ofLe (s.localBytes q a n)
    Executes s q k h maskAll (uword op rd rs imm) → a % n = 0 → badLocal k h a n = false →
    (i, op, n, v) ∈ [
      (Instr.lw q rd rs imm ret, 0x20, 4, BitVec.ofNat 32 x), (.lh q rd rs imm ret, 0x21, 2, (BitVec.ofNat 16 x).signExtend 32),
      (.lhu q rd rs imm ret, 0x22, 2, BitVec.ofNat 32 x), (.lb q rd rs imm ret, 0x23, 1, (BitVec.ofNat 8 x).signExtend 32),
      (.lbu q rd rs imm ret, 0x24, 1, BitVec.ofNat 32 x)] →
    ∃ t c, exec i s = .next t ∧ 2 ≤ c ∧ RegResult s t q rd v ∧ GoesOn s t q k h (h.pc + 1) c 0 ∧ LocalFrame s t q ∧
      ∀ b, t.localByte q b = s.localByte q b

/-- Stores put the low bytes of rd at rs + sext(imm), as every later load sees them, and change no other byte (R408, R410). -/
def Obligations.StoresPlaceTheirBytes : Prop :=
  ∀ (s : State) (q k : Nat) (h : Held) (rd rs imm ret op n : Nat) (i : Instr),
    let a := s.localAddr q rs imm
    Executes s q k h maskAll (uword op rd rs imm) → a % n = 0 → badLocal k h a n = false →
    (i, op, n) ∈ [(Instr.sw q rd rs imm ret, 0x25, 4), (.sh q rd rs imm ret, 0x26, 2), (.sb q rd rs imm ret, 0x27, 1)] →
    ∃ t c, exec i s = .next t ∧ 1 ≤ c ∧ GoesOn s t q k h (h.pc + 1) c 0 ∧ LocalFrame s t q ∧ (∀ r, t.ureg q r = s.ureg q r) ∧
      ∀ b, t.localByte q b = if a ≤ b ∧ b < a + n then BitVec.ofNat 8 ((s.ureg q rd).toNat / 256 ^ (b - a)) else s.localByte q b

/-- Branches and jumps: where each goes, and what it costs, when the target lies in the routine's own image (R410, R412). -/
def Obligations.BranchesGoWhereTheySay : Prop :=
  ∀ (s : State) (q k : Nat) (h : Held) (rd rs imm op : Nat) (i : Instr) (c : Bool),
    let a := s.ureg q rd
    let b := s.ureg q rs
    let pc := (h.pc + 2 ^ 18 + ((BitVec.ofNat 16 imm).signExtend 18).toNat) % 2 ^ 18
    let pcr := (b + (BitVec.ofNat 16 imm).signExtend 32).toNat % 2 ^ 18
    let inside (p : Nat) : Prop := h.img = none ∨ ∃ m, s.image h = some m ∧ m.load ≤ p ∧ p < m.load + m.len
    (Executes s q k h maskAll (uword op rd rs imm) →
      (i, op, c) ∈ [
        (Instr.beq q rd rs imm, 0x30, decide (a = b)), (.bne q rd rs imm, 0x31, decide (a ≠ b)),
        (.blt q rd rs imm, 0x32, decide (a.toInt < b.toInt)), (.bge q rd rs imm, 0x33, decide (b.toInt ≤ a.toInt)),
        (.bltu q rd rs imm, 0x34, decide (a.toNat < b.toNat)), (.bgeu q rd rs imm, 0x35, decide (b.toNat ≤ a.toNat))] →
      (c = true → inside pc → ∃ t, exec i s = .next t ∧ GoesOn s t q k h pc 3 0 ∧ SeqrFrame s t q ∧ ∀ r, t.ureg q r = s.ureg q r) ∧
      (c = false → ∃ t, exec i s = .next t ∧ GoesOn s t q k h (h.pc + 1) 1 0 ∧ SeqrFrame s t q ∧ ∀ r, t.ureg q r = s.ureg q r)) ∧
    (Executes s q k h maskNoRs (uword 0x36 rd 0 imm) → inside pc →
      ∃ t, exec (.jal q rd imm) s = .next t ∧ GoesOn s t q k h pc 3 0 ∧ SeqrFrame s t q ∧
        RegResult s t q rd (BitVec.ofNat 32 (h.pc + 1))) ∧
    (Executes s q k h maskAll (uword 0x37 rd rs imm) → inside pcr →
      ∃ t, exec (.jalr q rd rs imm) s = .next t ∧ GoesOn s t q k h pcr 3 0 ∧ SeqrFrame s t q ∧
        RegResult s t q rd (BitVec.ofNat 32 (h.pc + 1)))

/-- CSRs: what each reads as, and that ARG0 to ARG7 are written; CLRF clears DZ and V and leaves FAULT (R410). -/
def Obligations.CsrsAndFlags : Prop :=
  ∀ (s : State) (q k : Nat) (h : Held) (rd rs n : Nat) (v : Word),
    (Executes s q k h maskNoRs (uword 0x3B rd 0 n) →
      (n, v) ∈ [(0, BitVec.ofNat 32 h.flags), (1, BitVec.ofNat 32 (256 * k)), (2, BitVec.ofNat 32 h.shell),
        (3, BitVec.ofNat 32 (s.time.q / 2 ^ 32)), (4, BitVec.ofNat 32 (s.seqr q).cyc), (5, BitVec.ofNat 32 q)] ++
        (List.range 8).map (fun j => (8 + j, Tab.get h.args 0 j)) →
      ∃ t, exec (.csrr q rd n) s = .next t ∧ Wrote s t q k h rd v 1 0) ∧
    (Executes s q k h maskNoRd (uword 0x3C 0 rs n) → 8 ≤ n → n ≤ 15 →
      ∃ t h', exec (.csrw q rs n) s = .next t ∧ t.current q = some (k, h') ∧ SeqrFrame s t q ∧ (∀ r, t.ureg q r = s.ureg q r) ∧
        (∀ j, Tab.get h'.args 0 j = if j = n - 8 then s.ureg q rs else Tab.get h.args 0 j) ∧
        h' = { h with pc := (h.pc + 1) % 2 ^ 18, args := h'.args }) ∧
    (Executes s q k h maskOp (uword 0x3D 0 0 0) →
      ∃ t, exec (.clrf q) s = .next t ∧ SeqrFrame s t q ∧ (∀ r, t.ureg q r = s.ureg q r) ∧
        t.current q = some (k, { h with pc := (h.pc + 1) % 2 ^ 18, flags := h.flags &&& 4 }))

/-- LDC gives the word the shell may read, or 0 with FAULT where the access is denied or unanswered; STC writes with the shell's rights; DMA
starts a transfer and gives its handle, whatever its number; SBDRAIN empties the store buffer (R409, R410).
The handle of DMA is a free value, and the pages LDC and STC reach a reading of the model (log entries 100, 101). -/
def Obligations.ControlSpaceAndTransfers : Prop :=
  ∀ (s : State) (q k : Nat) (h : Held) (rd rs imm cyc : Nat),
    let a := s.localAddr q rs imm
    let fn := s.shellFunc h.shell
    (Executes s q k h maskAll (uword 0x28 rd rs imm) → a % 4 = 0 →
      (s.shellReaches h.shell a = true → s.answers fn a 4 = true →
        ∃ t, exec (.ldc q rd rs imm cyc false) s = .next t ∧ RegResult s t q rd (BitVec.ofNat 32 (s.readValue fn a)) ∧
          GoesOn s t q k h (h.pc + 1) cyc 0) ∧
      (s.shellReaches h.shell a = false → ∃ t h', exec (.ldc q rd rs imm cyc false) s = .next t ∧ RegResult s t q rd 0 ∧
          t.current q = some (k, h') ∧ h'.flags = h.flags ||| 4 ∧ h'.ends = h.ends ++ [(1, 4, 0)]) ∧
      (s.shellReaches h.shell a = true → ∃ t h', exec (.ldc q rd rs imm cyc true) s = .next t ∧ RegResult s t q rd 0 ∧
          t.current q = some (k, h') ∧ h'.flags = h.flags ||| 4 ∧ h'.ends = h.ends ++ [(5, 5, 0)])) ∧
    (Executes s q k h maskAll (uword 0x29 rd rs imm) → a % 4 = 0 → s.shellReaches h.shell a = true →
      ∃ u, GoesOn s u q k h (h.pc + 1) 1 0 ∧ SeqrFrame s u q ∧ (∀ r, u.ureg q r = s.ureg q r) ∧
        exec (.stc q rd rs imm false) s = .next (run (hostWrite fn a 4 (s.ureg q rd).toNat) u)) ∧
    (Executes s q k h maskAll (uword 0x2A rd rs imm) → badLocal k h a 1 = false →
      ∃ t n, exec (.dma q rd rs imm) s = .next t ∧ n < 2 ^ 32 ∧ RegResult s t q rd (BitVec.ofNat 32 n) ∧
        GoesOn s t q k h (h.pc + 1) 1 0 ∧ t.cmd.dmas = s.cmd.dmas ++ [{ handle := n, sq := q, slot := k, done := false }]) ∧
    (Executes s q k h maskOp (uword 0x2B 0 0 0) →
      ∃ t, exec (.sbdrain q) s = .next t ∧ GoesOn s t q k h (h.pc + 1) (s.seqr q).buf.length 0 ∧ (t.seqr q).buf = [] ∧
        LocalFrame s t q ∧ (∀ r, t.ureg q r = s.ureg q r) ∧ ∀ b, t.lmemByte (q * 65536 + b) = s.localByte q b)

/-- YIELD and WAIT end the step, and the next one resumes at pc + 1 when the condition holds; the ends of a transfer and of a delay give the
turn back; DONE completes the command with its status and result (R402, R403, R410, R421).
Where DONE names a status the spec does not allow nothing is stated (log entry 101). -/
def Obligations.StepsEnd : Prop :=
  ∀ (s : State) (q k : Nat) (h : Held) (rs rd : Nat),
    let n := (s.ureg q rs).toNat
    (Executes s q k h maskOp (uword 0x38 0 0 0) → ∃ t, exec (.yield q) s = .next t ∧ StepEnded s t q k h .ready) ∧
    (Executes s q k h maskNoRd (uword 0x39 0 rs 0) → ∃ t, exec (.wait q rs 0) s = .next t ∧
      StepEnded s t q k h (if s.cmd.dmas.any (fun d => d.sq = q && d.handle = n && d.done) then .ready else .dma n)) ∧
    (Executes s q k h maskNoRd (uword 0x39 0 rs 1) → ∃ t, exec (.wait q rs 1) s = .next t ∧
      StepEnded s t q k h (.until (s.now + nsQ n))) ∧
    (Executes s q k h maskNoRd (uword 0x39 0 rs 2) → ∃ t, exec (.wait q rs 2) s = .next t ∧ StepEnded s t q k h (.event n)) ∧
    (Executes s q k h maskNoImm (uword 0x3A rd rs 0) → h.ends = [] →
      ((s.ureg q rd).toNat % 256 ≤ 11 ∧ (s.ureg q rd).toNat % 256 ≠ 7) →
      ∃ u t, exec (.done q rd rs) s = .next t ∧ (u.seqr q).buf = [] ∧ (∀ b, u.lmemByte (q * 65536 + b) = s.localByte q b) ∧
        u.heldAt q k = some h ∧ t = run loadWaiting (run (finishCmd q k ((s.ureg q rd).toNat % 256) n) u)) ∧
    (∀ e, s.heldAt q k = some h → h.wait = .until e → e ≤ s.now →
      ∃ t, exec (.waitElapsed q k) s = .next t ∧ t.heldAt q k = some { h with wait := .ready }) ∧
    (∀ (d : Dma) (a : Nat) (data : List Byte),
      (s.cmd.dmas.find? fun x => x.sq = q && x.handle = d.handle && !x.done) = some d → s.heldAt q d.slot = some h →
      badLocal d.slot h a data.length = false → h.wait = .dma d.handle →
      ∃ t, exec (.dmaDone q d.handle 0 a data) s = .next t ∧ t.heldAt q d.slot = some { h with wait := .ready } ∧
        ∀ b, t.lmemByte b = if q * 65536 + a ≤ b ∧ b < q * 65536 + a + data.length then data.getD (b - (q * 65536 + a)) 0 else s.lmemByte b)

/-- An illegal microword, an uncorrectable error that a step meets in the microcode store or in local memory, and a step past its limit end the
step and the command: the fault is captured in ERR_INFO of the sequencer's page, where
none is held, with its code and the program counter (R412, R415, R418, R517).
Which words are ILLEGAL in WAIT and CSRs is a reading of the model (log entry 100). -/
def Obligations.FaultsEndTheCommand : Prop :=
  ∀ (s : State) (q k : Nat) (h : Held) (w code pc : Nat) (b : Bool) (i : Instr),
    ((i = .illegal q w ∧ code = 0x20 ∧ Executes s q k h maskAll (w % 2 ^ 32) ∧
        (w / 2 ^ 26 % 64 ∈ [0x13, 0x1F, 0x2C, 0x2D, 0x2E, 0x2F, 0x3E, 0x3F] ∨ (w / 2 ^ 26 % 64 ≤ 0x12 ∧ w / 2 ^ 5 % 2 ^ 11 ≠ 0) ∨
          (w / 2 ^ 26 % 64 ∈ [0x3B, 0x3C] ∧ w % 2 ^ 16 ∈ [6, 7]) ∨ (w / 2 ^ 26 % 64 ∈ [0x3B, 0x3C] ∧ 16 ≤ w % 2 ^ 16))) ∨
      (i = .stepOverrun q ∧ code = 0x23 ∧ s.current q = some (k, h) ∧ h.img ≠ none ∧ s.stepEnd q ≤ (s.seqr q).cyc) ∨
      (i = .scrub 2 2 pc h.pc q true ∧ code = 4 ∧ s.current q = some (k, h) ∧ h.pc < 262144) ∨
      (i = .scrub 1 2 pc 4 q b ∧ code = 4 ∧ s.current q = some (k, h))) →
    ∃ t, exec i s = .next t ∧ t.heldAt q k = none ∧
      (s.errInfo (pgSq q) < 2 ^ 31 → t.errInfo (pgSq q) = h.pc % 2 ^ 18 + code * 2 ^ 24 + 2 ^ 31)

/-! ### Commands (Table 14-4) -/

/-- A completion carries CMD_ID, STATUS, SEQ, OPCODE and RESULT in the layout of Table 14-2, the command leaves its slot, and CNT_CMDS
advances, saturating (R394, R402): with no free entry of the completion ring the completion waits, last of those that wait. -/
def Obligations.CompletionsAreWritten : Prop :=
  ∀ (s : State) (q k status result : Nat) (h : Held), s.heldAt q k = some h →
    let t := run (finishCmd q k status result) s
    let c := s.get (pgRing h.ring) R.RING_PAIR
    s.get (pgRing c) R.RING_TYPE = 1 →
    t.heldAt q k = none ∧ t.get (pgSq q) R.SQ_CNT_CMDS = min (2 ^ 32 - 1) (s.get (pgSq q) R.SQ_CNT_CMDS + 1) ∧
    ((∀ e ∈ (s.ring c).ents, e.st ≠ .ready) → ∃ w, (t.ring c).waiting = (s.ring c).waiting ++ [w] ∧
      w.bytes = leBytes 4 h.id ++ [BitVec.ofNat 8 status, BitVec.ofNat 8 q] ++ leBytes 2 h.op ++ leBytes 4 result)

/-- NOP and FENCE complete OK with no other effect, and a command whose opcode its shell does not have completes VERSION (R392, R393, R401). -/
def Obligations.NopFenceAndReserved : Prop :=
  ∀ (s : State) (q k : Nat) (h : Held),
    (CommandRuns s q k h 0x01 → Finishes (.nop q) s q k h 0 0 (· = s)) ∧
    (CommandRuns s q k h 0x02 → Finishes (.fence q) s q k h 0 0 (· = s)) ∧
    (s.current q = some (k, h) → h.ends = [] → h.img = none → s.opDefined h = false →
      Finishes (.reservedOpcodeCommand q) s q k h 8 0 (· = s))

/-- The path of a command: taken from its ring into the dispatch queue, given to the enabled sequencer that holds the fewest commands with its 64
bytes at the base of its slot, and run a step at a time, in turn (R400, R402, R407).
The lowest ring of the next shell and the lowest free slot are the model's choice (log entry 89). -/
def Obligations.CommandsAreTakenAndDispatched : Prop :=
  ∀ (s : State) (n q k : Nat) (h : Held) (e : RingEnt),
    (s.takesCommands = true → s.cmd.queue.length < 4096 → s.takeFrom = some n → s.ringCommand n = some e →
      ∃ t h', exec .commandTake s = .next t ∧ t.cmd.queue = s.cmd.queue ++ [h'] ∧ h'.ring = n ∧ h'.shell = s.ringOwner n ∧
        h'.bytes = e.bytes ∧ h'.order = s.cmd.order ∧ h'.started = false ∧ h'.flags = 0 ∧ t.cmd.order = s.cmd.order + 1) ∧
    (s.cmd.queue.head? = some h → h.ends = [] → s.seqFor = some q →
      k < 8 → s.heldAt q k = none → (∀ j, j < k → s.heldAt q j ≠ none) →
      ∃ t, exec .commandDispatch s = .next t ∧ t.cmd.queue = s.cmd.queue.drop 1 ∧ t.heldAt q k = some h ∧
        (∀ j, j ≠ k → t.heldAt q j = s.heldAt q j) ∧
        ∀ b, t.lmemByte b = if q * 65536 + k * 256 ≤ b ∧ b < q * 65536 + k * 256 + h.bytes.length then
          h.bytes.getD (b - (q * 65536 + k * 256)) 0 else s.lmemByte b) ∧
    (q < 32 → (s.seqr q).cur = none → s.busy (pgSq q) = false → (∀ j x, s.heldAt q j = some x → x.ends = []) →
      (∀ m ∈ s.sys.slotWait, ∃ e ∈ s.allHeld, e.2.2.img = some m) → s.nextSlot q = some k → s.heldAt q k = some h →
      ∃ t, exec (.sequencerStep q) s = .next t ∧ (t.seqr q).last = k ∧ (t.seqr q).cyc = 0 ∧
        t.current q = some (k, { h with
          started := true, wait := .running, flags := if h.started then h.flags else 0, args := if h.started then h.args else [] }))

/-- FRAME_OPEN arms with the settings as they stand; FRAME_CLOSE closes an open frame, cancels an armed one, and has nothing to do otherwise
(R181, R182).
The RESULT of FRAME_CLOSE where nothing is open is a reading of the model (log entries 44, 102). -/
def Obligations.FrameCommands : Prop :=
  ∀ (s : State) (q k : Nat) (h : Held),
    (CommandRuns s q k h 0x10 → s.openBusy = false → s.get pgTime R.TIME_STEP_PEND = 0 →
      s.get pgTop R.TOP_OPEN_SRC = 1 →
      ∃ t, exec (.frameOpen q) s = .next t ∧ t.fstate = 1 ∧ t.heldAt q k = none ∧
        t.seg.cfg = (s.cell (pgTop.base + 0x060)).toNat ∧ t.seg.closeCount = s.get pgTop R.TOP_CLOSE_COUNT ∧
        t.seg.dur = s.get64 pgTop R.TOP_FRAME_DUR_LO R.TOP_FRAME_DUR_HI) ∧
    (CommandRuns s q k h 0x10 → s.openBusy = true → Finishes (.frameOpen q) s q k h 2 0 (· = s)) ∧
    (CommandRuns s q k h 0x11 → s.seg.openWait = false →
      (s.fstate = 2 → Waits (.frameClose q) s q k h fun t => t.fstate = 3 ∧
        t.seg.tClose = some (max s.nowQ s.seg.tOpen) ∧ t.get pgTop R.TOP_CLOSE_CAUSE = 0 ∧ t.trig.armUpto = t.seg.tClose) ∧
      (s.fstate = 1 → ∃ t, exec (.frameClose q) s = .next t ∧ t.fstate = 0 ∧ t.heldAt q k = none) ∧
      (3 ≤ s.fstate → Waits (.frameClose q) s q k h fun t => t.fstate = s.fstate) ∧
      (s.fstate = 0 → Finishes (.frameClose q) s q k h 0 s.frameNum (· = s)))

/-- STREAM_SET, STREAM_BIND and TRIG_SET of a shell of version 2 write the words they name; with COMMIT while a frame is open the page's
commit waits, and RESULT says so (R47, R376, R543, Table 14-4).
That a frame is open for a commit until it is cleared, and bits of the mask beyond the words, are readings of the model (log entries 40,
92). -/
def Obligations.StreamAndTriggerCommands : Prop :=
  ∀ (s : State) (q k : Nat) (h : Held), s.shellVer h.shell ≠ 1 →
    (h.commit = true → s.frameOpen = true) →
    (let p := pgSt (h.pf 0 7 0)
     CommandRuns s q k h 0x12 → s.busy p = false →
     (∀ w, w < 10 → bit (h.pf 1 9 0) w = true → reservedWrite p (0x040 + 4 * w) [h.p (2 + w)] = false) →
     Finishes (.streamSet q) s q k h 0 (if h.commit then 1 else 0) fun u =>
       (∀ w, w < 10 → if bit (h.pf 1 9 0) w = true then u.holds p (0x040 + 4 * w) (h.p (2 + w))
         else u.cell (p.base + 0x040 + 4 * w) = s.cell (p.base + 0x040 + 4 * w)) ∧ (h.commit = true → u.commitPend p = true)) ∧
    (let p := if h.pf 0 1 0 = 0 then pgTu (h.pf 0 11 8) else pgTcomb
     CommandRuns s q k h 0x14 → s.busy p = false → h.pf 0 1 0 ≠ 3 → (h.pf 0 1 0 = 0 → h.pf 0 11 8 < 8) →
     (h.pf 0 1 0 ≠ 0 → h.pf 1 6 0 < 16) → (∀ e ∈ trigWords h, reservedWrite p e.1 [e.2] = false) →
     Finishes (.trigSet q) s q k h 0 (if h.commit then 1 else 0) fun u =>
       (∀ e ∈ trigWords h, u.holds p e.1 e.2) ∧ (h.commit = true → u.commitPend p = true)) ∧
    (let n := h.pf 0 7 0
     let i := h.pf 1 12 0
     CommandRuns s q k h 0x13 → s.busy (pgSt n) = false → ¬ (s.en (pgSt n) = true ∧ s.frameOpen = true) →
     (h.pf 0 9 8 = 0 → Finishes (.streamBind q) s q k h 0 0 fun u => u.get (pgSt n) R.ST_DEST_KIND = 0) ∧
     (h.pf 0 9 8 = 1 → s.get (pgRing i) R.RING_TYPE = 2 → (s.st n R.ST_CLASS = 2 ∨ s.admits n (65536 + i) (h.pf 2 15 0) = true) →
       Finishes (.streamBind q) s q k h 0 0 fun u => u.get (pgSt n) R.ST_DEST_KIND = 1 ∧ u.get (pgSt n) R.ST_DEST_INDEX = i ∧
         Tab.find u.net.rate n = some (h.pf 2 15 0)) ∧
     (h.pf 0 9 8 = 2 → i < 4096 → s.qp i R.QPC_STATE ≠ 0 → s.qp i R.QPC_STATE ≠ 3 →
       (s.st n R.ST_CLASS = 2 ∨ s.admits n (s.ctxKey i) (h.pf 2 15 0) = true) →
       Finishes (.streamBind q) s q k h 0 0 fun u => u.get (pgSt n) R.ST_DEST_KIND = (if s.qp i R.QPC_KIND = 3 then 3 else 2) ∧
         u.get (pgSt n) R.ST_DEST_INDEX = i ∧ Tab.find u.net.rate n = some (h.pf 2 15 0)))

/-- CAL_RUN starts a run of the channels named; CAL_LOAD discards every delta and measures every channel again; CAL_SAVE sets a flash write of each
die's effective values going (R123 to R125).
The order of refusals and the bound of 2.0 °C are readings of the model (log entries 91, 93). -/
def Obligations.CalibrationCommands : Prop :=
  ∀ (s : State) (q k : Nat) (h : Held),
    let chans := which 8 fun c => bit (h.pf 0 15 8) c
    (CommandRuns s q k h 0x18 → h.pf 0 1 0 ≠ 0 → chans ≠ [] → (∀ c ∈ chans, s.chanOn c = true ∧ s.settling c = false) →
      s.get pgCal R.CAL_RUN_ACTIVE = 0 → (h.pf 0 1 0 ≠ 1 → s.frameOpen = false) → s.diesOn = true →
      Waits (.calRun q) s q k h fun t => ∃ r, t.run? 2 = some r ∧ r.kind = h.pf 0 1 0 ∧ r.named = chans ∧ r.chans = chans ∧
        r.cmd = some (q * 8 + k) ∧ r.step = 0) ∧
    (CommandRuns s q k h 0x1A → s.frameOpen = false → s.get pgCal R.CAL_RUN_ACTIVE = 0 → s.diesOn = true → which 8 s.chanOn ≠ [] →
      ∃ t, exec (.calLoad q) s = .next t ∧ t.cal.delta = [] ∧ ∃ r, t.run? 2 = some r ∧ r.kind = 2 ∧ r.named = which 8 s.chanOn) ∧
    (CommandRuns s q k h 0x19 → which 2 (fun d => bit (h.pf 0 9 8) d) ≠ [] →
      (∀ d, d < 2 → bit (h.pf 0 9 8) d = true → s.nearSet (h.pf 0 2 0) d = false) → s.flashTakes →
      Waits (.calSave q) s q k h fun t => ∀ d, d < 2 → bit (h.pf 0 9 8) d = true → ∃ j ∈ t.sys.jobs, j.cmd = some (q * 8 + k) ∧
        ∃ x, j.half = some x ∧ x.set = h.pf 0 2 0 ∧ x.die = d ∧ x.point = s.tDie d ∧ x.valid = true ∧ x.factory = false)

/-- HBM_FILL and HBM_COPY move whole blocks within the shell's windows, up to 200,000 bytes a step (R397): fills from the pattern, copies within HBM,
from the host's bytes, and to the host.
The 200,000 bytes of a step are the model's choice (log entry 94). -/
def Obligations.HbmMoves : Prop :=
  ∀ (s : State) (q k : Nat) (h : Held) (a b : Nat) (data : List Byte), h.work % 64 = 0 →
    (let len := h.p64 2
     let n := min (len - h.work) 200000
     CommandRuns s q k h 0x20 → len % 64 = 0 → 64 ≤ len → s.resolve h.shell (h.p64 0) len true = some a →
     Moves (.hbmFill q) s q k h len n fun t => ∀ x, t.hbmByte x = if a + h.work ≤ x ∧ x < a + h.work + n then
       BitVec.ofNat 8 (h.p64 4 / 256 ^ ((x - (a + h.work)) % 8)) else s.hbmByte x) ∧
    (let len := h.p64 4
     let n := min (len - h.work) 200000
     CommandRuns s q k h 0x21 → len % 64 = 0 → 64 ≤ len →
     (h.isLocal = true → s.resolve h.shell (h.p64 0) len false = some a → s.resolve h.shell (h.p64 2) len true = some b →
       (a + len ≤ b ∨ b + len ≤ a) →
       Moves (.hbmCopy q data) s q k h len n fun t => ∀ x, t.hbmByte x = if b + h.work ≤ x ∧ x < b + h.work + n then
         s.hbmByte (a + (x - b)) else s.hbmByte x) ∧
     (h.isLocal = false → h.pf 6 0 0 = 0 → s.resolve h.shell (h.p64 2) len true = some b → n ≤ data.length →
       Moves (.hbmCopy q data) s q k h len n fun t => Out.busRead (h.p64 0 + h.work) n ∈ t.out ∧
         ∀ x, t.hbmByte x = if b + h.work ≤ x ∧ x < b + h.work + n then data.getD (x - (b + h.work)) 0 else s.hbmByte x) ∧
     (h.isLocal = false → h.pf 6 0 0 = 1 → s.resolve h.shell (h.p64 0) len false = some a →
       Moves (.hbmCopy q data) s q k h len n fun t => Out.busWrite (h.p64 2 + h.work) (s.hbmRead (a + h.work) n) ∈ t.out))

/-- FLASH_WRITE sets the write of a verified image or key going; QP_CREATE makes a context ACTIVE with the fields of its block where a link is
up; QP_DESTROY frees it (R399, R417).
The order of refusals and the first state of a context are readings of the model (log entries 95, 96). -/
def Obligations.FlashAndQueuePairCommands : Prop :=
  ∀ (s : State) (q k : Nat) (h : Held) (data : List Byte),
    (let r := h.pf 3 3 0
     let b := (data ++ List.replicate (h.p 2 - data.length) 0).take (h.p 2)
     CommandRuns s q k h 0x22 → h.isLocal = false → s.flashTakes →
     ((r < 2 ∧ s.frameOpen = false ∨ 4 ≤ r ∧ r ≤ 7) ∧ s.imageFault r b = none ∨ 8 ≤ r ∧ r ≤ 11 ∧ keyFault b = none) →
     Waits (.flashWrite q data) s q k h fun t => ∃ j ∈ t.sys.jobs, j.cmd = some (q * 8 + k) ∧ j.region = r ∧ j.data = b) ∧
    (let c := h.pf 0 11 0
     let b := (data ++ List.replicate 128 0).take 128
     let port := qpWord b 10 8
     CommandRuns s q k h 0x28 → h.isLocal = false → s.qpBad b = false → s.ctxLive c = false → s.subUp (subOf port) = true →
     Finishes (.qpCreate q data) s q k h 0 0 fun u => u.qp c R.QPC_STATE = 1 ∧ u.qp c R.QPC_KIND = qpWord b 3 2 ∧ u.qp c R.QPC_PORT = port ∧
       u.qp c R.QPC_ON_ALT = 0 ∧ u.qp c R.QPC_DQPN = field b 4 3 ∧ u.qp c R.QPC_RKEY = field b 0x0C 4 ∧ u.qp c R.QPC_NEXT_PSN = 0 ∧
       u.qp c R.QPC_ACK_PSN = 0 ∧ (u.ctx c).path = (b.drop 0x20).take 48 ∧ (u.ctx c).sent = []) ∧
    (let c := h.pf 0 11 0
     CommandRuns s q k h 0x29 → (∀ n ∈ s.boundTo (s.ctxKey c), s.en (pgSt n) = false) →
     Finishes (.qpDestroy q) s q k h 0 0 fun u => Tab.find u.net.ctxs c = none ∧
       ∀ j, j < 15 → u.cell ((pgQpc c).base + 4 * j) = resetWord ((pgQpc c).base + 4 * j))

/-- LINK_REMOTE sends its request and keeps it until the answer; POWER_STATE starts the transition it names; TIME_SET sets Q-time; MON_READ asks for
a conversion (R253, R324, R398, R470).
Waiting at 16 outstanding requests and the RESULT of POWER_STATE are readings of the model (log entries 97, 102). -/
def Obligations.LinkPowerTimeAndMonitorCommands : Prop :=
  ∀ (s : State) (q k : Nat) (h : Held),
    (∀ tag p, CommandRuns s q k h 0x30 → h.pf 0 17 16 ≠ 3 → s.link.reqs.length < 16 →
      ((List.range 16).find? fun t => !(s.link.reqs.any fun r => r.tag = t)) = some tag → s.routeTo (h.pf 0 13 0) = some p →
      s.portCarries p 8 = true →
      Waits (.linkRemote q) s q k h fun t => (s.txOf p = PortTx.reset → ∃ b, Out.link p 8 b ∈ t.out) ∧
        (s.txOf p ≠ PortTx.reset → ∃ m, m.ty = 8 ∧ (t.txOf p).queue = (s.txOf p).queue ++ [m]) ∧ t.link.reqs = s.link.reqs ++ [⟨tag, h.pf 0 13 0, p, q * 8 + k, s.now + usQ (s.get pgFlink R.FLINK_REMOTE_TMO)⟩]) ∧
    (CommandRuns s q k h 0x31 → h.pf 0 1 0 ≠ 3 →
      (h.pf 0 1 0 = s.pstate → Finishes (.powerState q) s q k h 0 s.pstate (· = s)) ∧
      (h.pf 0 1 0 ≠ s.pstate → s.powerRefused (h.pf 0 1 0) = false →
        (h.pf 0 1 0 = 1 → Waits (.powerState q) s q k h fun t => t.get pgPwr R.PWR_TRANSIT = 1 ∧ t.get pgPwr R.PWR_TARGET = 1) ∧
        (h.pf 0 1 0 = 2 → ∃ t, exec (.powerState q) s = .next t ∧ t.get pgPwr R.PWR_TRANSIT = 1 ∧ t.get pgPwr R.PWR_TARGET = 2) ∧
        (h.pf 0 1 0 = 0 → ∃ t, exec (.powerState q) s = .next t ∧ t.pstate = 0 ∧ t.heldAt q k = none))) ∧
    (CommandRuns s q k h 0x32 →
      (s.timeSetStatus ≠ 0 → Finishes (.timeSet q) s q k h s.timeSetStatus 0 (· = s)) ∧
      (s.timeSetStatus = 0 → s.get pgTime R.TIME_SEL ≠ 4 → Finishes (.timeSet q) s q k h 0 0 fun u =>
        u.now = h.qtime ∧ u.get pgTime R.TIME_TAI_VALID = 1) ∧
      (s.timeSetStatus = 0 → s.get pgTime R.TIME_SEL = 4 → Finishes (.timeSet q) s q k h 0 0 fun u =>
        u.time.ppsSet = some (h.qtime / 2 ^ 48))) ∧
    (CommandRuns s q k h 0x33 → Waits (.monRead q) s q k h fun t => ∃ r ∈ t.pwr.reqs, r.cmd = some (q * 8 + k) ∧ r.input = h.pf 0 4 0 ∧
      r.cls = if bit (h.p 0) 8 then 0 else 3)

/-- SHELL_OPEN, SHELL_CLOSE and SHELL_EDIT write the shell's entry and publish it with everything pending; what lost its rights is then revoked,
and the command completes with the version, 0, or the new generation (R391, R445, R446, R449).
That SHELL_OPEN judges HOST_VER before the shell is a reading of the model (log entry 97). -/
def Obligations.ShellCommands : Prop :=
  ∀ (s : State) (q k : Nat) (h : Held),
    let n := h.pf 0 11 0
    let sh := pgShell n
    let gen := (s.get pgSec R.SEC_GEN + 1) % 2 ^ 32
    let after (i : Instr) (edit : Prog) (result : State → Nat) (P : State → Prop) : Prop :=
      ∃ u v, P u ∧ u.get pgSec R.SEC_GEN = gen ∧ u.sec.wins = (run edit s).winsNext ∧ u.sec.pendWin = [] ∧ u.sec.pendOwn = [] ∧
        v = run (revoke s) u ∧ exec i s = .next (run (doneCmd q k 0 (result v)) v)
    n ≠ 0xFFF → (∀ e ∈ s.sec.owners, e.1 < Kind.shell.base ∨ Kind.win.base ≤ e.1) →
    (let ver := min 2 (h.pf 1 3 0)
     CommandRuns s q k h 0x40 → ver ≠ 0 → s.shellOpen n = false → s.pubRefused (openEdit n ver) = none →
     after (.shellOpen q) (openEdit n ver) (fun _ => ver) fun u => u.get sh R.SHELL_OPEN = 1 ∧ u.get sh R.SHELL_VERSION = ver) ∧
    (CommandRuns s q k h 0x41 → s.pubRefused (closeEdit n) = none →
     after (.shellClose q) (closeEdit n) (fun _ => 0) fun u => u.get sh R.SHELL_OPEN = 0 ∧ u.get sh R.SHELL_VERSION = 0 ∧ u.get sh R.SHELL_RIGHTS = 0 ∧
       u.get sh R.SHELL_WIN_COUNT = 0 ∧ ∀ a, s.owner a = n → u.owner a = supervisor) ∧
    (let first := h.pf 1 3 0
     let count := h.pf 1 7 4
     let edit := editEdit n first ((List.range count).map fun i => h.p (2 + i))
     CommandRuns s q k h 0x42 → count ≠ 0 → count ≤ 11 → first + count ≤ 16 → s.pubRefused edit = none →
     after (.shellEdit q) edit (fun v => v.get pgSec R.SEC_GEN) fun u =>
       (first = 0 → u.get sh R.SHELL_FUNC = bits (h.p 2) 21 16) ∧
       (first ≤ 1 → 1 < first + count → u.get sh R.SHELL_RIGHTS = bits (h.p (3 - first)) 15 0) ∧
       (first ≤ 2 → 2 < first + count → u.get sh R.SHELL_WIN_FIRST = bits (h.p (4 - first)) 11 0 ∧
         u.get sh R.SHELL_WIN_COUNT = bits (h.p (4 - first)) 28 16))

/-- A customer command starts at the entry point its opcode names, in the image of its slot (R420). -/
def Obligations.CustomerCommandsStart : Prop :=
  ∀ (s : State) (q k : Nat) (h : Held) (slot a : Nat),
    s.current q = some (k, h) → 0x80 ≤ h.op → h.op < 0xC0 → h.img = none → s.opDefined h = true → s.entryPoint h.op = some (slot, a) →
    s.cmdDenied h = false → s.badForm h = false →
    ∃ t, exec (.customerOpcode q) s = .next t ∧ slot = (h.op - 0x80) / 16 ∧
      t.heldAt q k = some { h with img := some slot, pc := a % 2 ^ 18 } ∧ SeqrFrame s t q


/-! ### Register commands (R37, R44 to R56) -/

/-- The common header: EN and FREEZE take what is written, SRST starts a reset that its completion ends, COMMIT waits where a frame is open or HOLD
is 1, EVT_RAW clears by 1s, EVT_EN takes the bits of the page's sources, EVT_FORCE sets sources, ERR_INFO clears (R45, R46, R50, R53, R55, R64).
When a frame is open for a commit, and the order of the checks, are readings of the model (log entries 18, 40). -/
def Obligations.HeaderRegistersAct : Prop :=
  ∀ (s : State) (fn page off : Nat) (p : Pg) (v : Word) (b : Bool),
    let reaches (rel : Nat) : Prop := p.kind.isBlock = true ∧ s.target fn (pageReg page rel) = (p, rel) ∧ s.answers fn (pageReg page rel) 4 = true
    (reaches 0x00C →
      ((b = true → s.enRefused p = false) →
        Completes (.blkCtrlEn fn page b) s (fun t => t.en p = b ∧ t.frozen p = s.frozen p)) ∧
      Completes (.freeze fn page b) s (fun t => t.frozen p = b ∧ t.en p = s.en p) ∧
      Completes (.srst fn page) s (fun t => t.busy p = true) ∧
      (p.kind.shadowed = true → p.kind ≠ .clk → p.kind ≠ .disp → s.seg.openWait = false →
        (p.kind = .cal ∨ s.frameOpen = true ∨ s.get pgTop R.TOP_HOLD = 1) →
        Completes (.commit fn page) s (fun t => t.commitPend p = true))) ∧
    (p.kind.isBlock = true → (locate off).1 = p → p.inst < p.kind.count → s.busy p = true →
      Completes (.softResetDone off) s fun t => t.busy p = false ∧ RegsOnly s t ∧
        ∀ a, a ≠ p.base + 0x00C → a ≠ p.base + 0x010 → t.cell a = s.cell a) ∧
    (reaches 0x014 → Completes (.evtRawClear fn page v) s fun t => CellOnly s t (p.base + 0x014) ∧
      ∀ k, k < 32 → bit (t.evtRaw p) k = (bit (s.evtRaw p) k && !bit v.toNat k)) ∧
    (reaches 0x018 → Completes (.evtEnWrite fn page v) s fun t => t.evtEn p = v.toNat % 2 ^ p.events.2) ∧
    (reaches 0x024 → Completes (.evtForce fn page v) s fun t => ∀ k, k < p.events.2 → bit v.toNat k = true → t.raised p k = true) ∧
    (reaches 0x028 → Completes (.errInfoClear fn page) s fun t => CellOnly s t (p.base + 0x028) ∧ t.errInfo p = 0) ∧
    (s.answers fn 0x040 4 = true → Completes (.commitCtrlHold fn b) s fun t => t.get pgTop R.TOP_HOLD = b2n b)

/-- Reads: a register gives its word, and a peak clears; DENY_LOG and the remote event FIFO give up their oldest entry; the low word of a 64-bit
register latches the high word, and NOW_0 the two words after it (R50, R51, R274, R326, R454).
The order of the checks and the latches of DENY_LOG are readings of the model (log entries 18, 21). -/
def Obligations.ReadsGiveTheRegister : Prop :=
  ∀ (s : State) (fn off : Nat) (p : Pg) (rel n : Nat),
    (s.answers fn off 4 = true → Completes (.rcFieldRead fn off 4) s fun t => t.out = .readData fn off (s.readValue fn off) :: s.out ∧
      (s.target fn off = (pgBank n, 0x064) → Tab.find s.host.highLatch (wordKey fn (pgBank n) 0x064) = none → s.frozen (pgBank n) = false →
        t.get (pgBank n) R.BANK_PEAK_MAX = 0x8001 ∧ t.get (pgBank n) R.BANK_PEAK_MIN = 0x7FFF)) ∧
    (s.answers fn 0x7060 8 = true → s.frozen pgSec = false → Completes (.denyLogRead fn true) s fun t =>
      t.denials = s.denials.drop 1 ∧ t.out = .readData fn 0x7060 (s.denyWord 0 + s.denyWord 1 * 2 ^ 32) :: s.out) ∧
    (s.answers fn 0x7060 4 = true → s.frozen pgSec = false → Tab.find s.host.highLatch (wordKey fn pgSec 0x060) = none →
      Completes (.denyLogRead fn false) s fun t => t.denials = s.denials.drop 1 ∧
        t.out = .readData fn 0x7060 (s.denyWord 0) :: s.out ∧ Tab.get t.sec.denyLatch 0 fn = s.denyWord 1) ∧
    (s.answers fn 0x44006C 4 = true → s.frozen pgFlink = false → Tab.find s.host.highLatch (wordKey fn pgFlink 0x06C) = none →
      Completes (.remoteEvtRead fn) s fun t => t.link.evFifo = s.link.evFifo.drop 1 ∧
        t.out = .readData fn 0x44006C s.remoteEvtWord :: s.out) ∧
    (s.target fn off = (p, rel) → s.answers fn off 4 = true → wideLow p rel = true → p.kind ≠ .sec →
      Tab.find s.host.highLatch (wordKey fn p rel) = none →
      Completes (.lowWordRead fn off) s fun t => t.out = .readData fn off (s.viewWord fn p rel) :: s.out ∧
        Tab.find t.host.highLatch (wordKey fn p (rel + 4)) = some (BitVec.ofNat 32 (s.viewWord fn p (rel + 4)))) ∧
    (s.answers fn 0x2070 4 = true → Tab.find s.host.highLatch (wordKey fn pgTime 0x070) = none →
      Completes (.timeNowRead fn) s fun t => t.out = .readData fn 0x2070 (qWord s.now 0) :: s.out ∧
        Tab.find t.host.highLatch (wordKey fn pgTime 0x074) = some (BitVec.ofNat 32 (qWord s.now 1)) ∧
        Tab.find t.host.highLatch (wordKey fn pgTime 0x078) = some (BitVec.ofNat 32 (qWord s.now 2)))

/-- Writes: a register takes the fields written, and nothing else changes; the low word of a 64-bit register is held, and the high word puts both in
force; BAR4 reaches HBM inside a window, and a denied access neither reads nor writes (R37, R49, R51, R448, R454).
The order of the checks is a reading of the model (log entry 18). -/
def Obligations.WritesReachTheRegister : Prop :=
  ∀ (s : State) (fn off : Nat) (p : Pg) (rel a : Nat) (v : BitVec 64) (x w : Word) (data : List Byte),
    (s.target fn off = (p, rel) → s.answers fn off 4 = true → p.kind ∈ [Kind.bank, .cal, .tu, .tcomb, .hist, .den, .st, .sq, .mc] →
      0x040 ≤ rel → wideLow p rel = false → wideLow p (rel - 4) = false → reservedWrite p rel [v.toNat % 2 ^ 32] = false →
      Completes (.registerWrite fn off 4 v) s fun t => t.holds p rel v.toNat ∧ CellOnly s t (p.base + rel)) ∧
    (s.answers fn 0x2044 4 = true → Completes (.xoAgeWrite fn x) s fun t => t.holds pgTime 0x044 x.toNat ∧ CellOnly s t (pgTime.base + 0x044)) ∧
    (a % 128 < 79 → s.answers fn (0x304100 + a % 128 * 4) 4 = true → Completes (.arbPrioWrite fn a rel) s fun t =>
      t.geti pgArb R.ARB_PRIO (a % 128) = rel % 8 ∧ CellOnly s t (0x304100 + a % 128 * 4)) ∧
    (s.target fn off = (p, rel) → s.answers fn off 4 = true → wideLow p rel = true → Completes (.lowWordWrite fn off x) s fun t =>
      t = { s with host := t.host } ∧ Tab.find t.host.lowHeld (wordKey fn p rel) = some x) ∧
    (s.target fn off = (p, rel + 4) → s.answers fn off 4 = true → wideLow p rel = true → wideLow p (rel + 4) = false →
      Tab.find s.host.lowHeld (wordKey fn p rel) = some w → p.kind ∈ [Kind.top, .flash, .tcomb, .ring, .qpc, .win, .msix] →
      reservedWrite p rel [w.toNat, x.toNat] = false → s.discards fn p rel [w.toNat, x.toNat] = none →
      Completes (.highWordWrite fn off x) s fun t => t.holds p rel w.toNat ∧ t.holds p (rel + 4) x.toNat ∧
        Tab.find t.host.lowHeld (wordKey fn p rel) = none) ∧
    (s.bar4Ok true off data.length = true → Completes (.bar4Access true off a data) s fun t =>
      ∀ b, t.hbmByte b = if off ≤ b ∧ b < off + data.length then data.getD (b - off) 0 else s.hbmByte b) ∧
    (s.bar4Ok false off a = true → Completes (.bar4Access false off a data) s fun t =>
      t.out = .memData off (s.hbmRead off a) :: s.out ∧ ∀ b, t.hbmByte b = s.hbmByte b) ∧
    (s.bar4Ok true off data.length = false → Completes (.bar4Access true off a data) s fun t =>
      (s.host.rings = [] → ∀ b, t.hbmByte b = s.hbmByte b) ∧ Counted s t pgSec R.SEC_CNT_DENIED 1)

/-- Registers that are not kept as written words: vector ranges, coalescing, limits, routing entries, notifications; EN of a ring, which starts it
from BASE or returns the entries it holds while its locked fields stay; and the doorbells DB64 and DB32 (R337, R340, R341, R348, R357, R359, R372).
That the other fields of a ring's word may be written with the values they have is a reading of the model (log entry 23). -/
def Obligations.TableRegistersAreWritten : Prop :=
  ∀ (s : State) (fn n : Nat) (v : BitVec 64) (x : Word),
    let lo := v.toNat % 2 ^ 32
    let hi := v.toNat / 2 ^ 32
    (let f := s.get pgPcie R.PCIE_VEC_SEL
     s.answers fn 0x400054 4 = true → reservedWrite pgPcie 0x054 [x.toNat] = false → s.vecMapOk f (bits x.toNat 10 0) (bits x.toNat 27 16) = true →
     Completes (.vecMapWrite fn x) s fun t => RegsOnly { s with host := t.host } t ∧
       Tab.find t.host.vecs f = some (bits x.toNat 10 0, bits x.toNat 27 16) ∧ ∀ g, g ≠ f → Tab.find t.host.vecs g = Tab.find s.host.vecs g) ∧
    (let f := s.get pgPcie R.PCIE_COAL_SEL
     s.answers fn 0x40005C 4 = true → reservedWrite pgPcie 0x05C [x.toNat] = false →
     Completes (.coalWrite fn x) s fun t => t.coal f = (bits x.toNat 7 0, bits x.toNat 31 16) ∧ ∀ g, g ≠ f → t.coal g = s.coal g) ∧
    (let c := n % 4096
     let off := 0x900028 + c * 64
     s.answers fn off 8 = true → (fn ≠ 0 ∨ s.owner (pgQpc c).ownReg = supervisor) → reservedWrite (pgQpc c) 0x028 [lo, hi] = false → s.get64 (pgQpc c) R.QPC_LIMIT_LO R.QPC_LIMIT_HI ≤ v.toNat →
     v.toNat ≤ s.get64 (pgQpc c) R.QPC_HEAD_LO R.QPC_HEAD_HI + s.get64 (pgQpc c) R.QPC_REGION_LO R.QPC_REGION_HI →
     Completes (.limitWrite fn n v) s fun t => t.get64 (pgQpc c) R.QPC_LIMIT_LO R.QPC_LIMIT_HI = v.toNat ∧ RegsOnly s t) ∧
    (let e := n % 2048
     let off := 0xB00000 + e * 8
     s.answers fn off 8 = true → reservedWrite (pgRoute e) 0 [lo, hi] = false → (fn = 0 ∨ s.routeReach fn e v.toNat = true) →
     Completes (.routingEntryWrite fn n v) s fun t => t.holds (pgRoute e) 0 lo ∧ t.holds (pgRoute e) 4 hi ∧ RegsOnly s t) ∧
    (let r := n % 8192
     let off := 0x800010 + r * 64
     s.answers fn off 4 = true → reservedWrite (pgRing r) 0x010 [x.toNat] = false → (fn = 0 ∨ s.notifyReach fn r x.toNat = true) →
     Completes (.ringNotifyWrite fn n x) s fun t => t.holds (pgRing r) 0x010 x.toNat ∧ CellOnly s t off) ∧
    (let r := n % 8192
     let p := pgRing r
     let off := 0x800008 + r * 64
     let rest (t : State) : Prop := RegsOnly { s with host := t.host } t ∧
       (∀ a, a < p.base ∨ p.base + 64 ≤ a → t.cell a = s.cell a) ∧ ∀ k, k ≠ r → t.ring k = s.ring k
     s.answers fn off 4 = true →
     (s.get p R.RING_EN = 0 → s.get p R.RING_RUNNING = 0 → reservedWrite p 0x008 [s.ringCfg r + 256] = false →
       (s.get p R.RING_TYPE = 0 → s.pairOk r = true) → Completes (.ringEnable fn n) s fun t =>
         t.get p R.RING_EN = 1 ∧ t.get p R.RING_RUNNING = 1 ∧ t.get p R.RING_HALTED = 0 ∧ t.get p R.RING_HALT_CODE = 0 ∧
         t.get p R.RING_DEV_PTR = 0 ∧ t.get p R.RING_DONE_PTR = 0 ∧ t.get p R.RING_HOST_PTR = 0 ∧ t.get p R.RING_CREDITS = 0 ∧
         t.get64 p R.RING_CUR_ADDR_LO R.RING_CUR_ADDR_HI = s.get64 p R.RING_BASE_LO R.RING_BASE_HI ∧ (t.ring r).ents = [] ∧ rest t) ∧
     (s.get p R.RING_EN = 1 → reservedWrite p 0x008 [s.ringCfg r] = false →
       ((s.ring r).ents = [] → Completes (.ringDisable fn n) s fun t => t.get p R.RING_EN = 0 ∧ t.get p R.RING_RUNNING = 0 ∧
         t.get p R.RING_HALTED = s.get p R.RING_HALTED ∧ rest t) ∧
       (∀ e, (s.ring r).ents = [e] → e.st ≠ .landing → e.st ≠ .reading → Completes (.ringDisable fn n) s fun t =>
         t.get p R.RING_EN = 0 ∧ t.get p R.RING_HALTED = s.get p R.RING_HALTED ∧
         ∃ y, (t.ring r).ents = [y] ∧ y.st = .landing ∧ y.addr = e.addr ∧ y.code = if 0 < e.filled then 1 else 2)) ∧
     ((s.get p R.RING_EN = 1 ∨ s.get p R.RING_RUNNING = 1) → reservedWrite p 0x008 [lo] = false →
       (bits lo 4 0 ≠ s.get p R.RING_LOG2_SIZE ∨ bits lo 6 5 ≠ s.get p R.RING_TYPE) → Completes (.registerWrite fn off 4 v) s fun t =>
         t.cell off = s.cell off ∧ Captured s t pgPcie 0x21 r)) ∧
    (∀ shell,
      let r := v.toNat % 8192
      let p := pgRing r
      s.mayRing fn shell = true → s.ringOwner r = shell → s.get p R.RING_EN = 1 →
      (s.chained r = false → (hi + 2 ^ 32 - s.get p R.RING_DONE_PTR) % 2 ^ 32 ≤ s.ringSize r →
        (hi + 2 ^ 32 - s.get p R.RING_HOST_PTR) % 2 ^ 32 < 2 ^ 31 → Completes (.db64 fn shell 0 8 v.toNat) s fun t =>
          t.get p R.RING_HOST_PTR = hi ∧ CellOnly s t (R.RING_HOST_PTR.addr p 0)) ∧
      (s.chained r = true → ∀ i ∈ [Instr.db64 fn shell 0 8 v.toNat, .db32 fn shell 8 4 v.toNat], Completes i s fun t =>
        (t.ring r).woken = true ∧ t = { s with host := t.host }) ∧
      (s.chained r = false → Completes (.db32 fn shell 8 4 v.toNat) s (· = s)))

/-! ### Commands of the acquisition pages -/

/-- SW_TRIG gives an event of each source written 1, EPOCH_GO closes an epoch or asks the segment in progress to, START begins a code-density test or
has it wait for the pod, and window writes and releases wait for the next step boundary (R130, R134, R204, R264, R271). -/
def Obligations.AcquisitionRegistersAct : Prop :=
  ∀ (s : State) (fn n k : Nat) (v : Word),
    (s.answers fn 0x29094 4 = true →
      (s.en pgText = true → ∃ u, RegsOnly s u ∧
        exec (.swTrig fn v) s = .next (run (.each (which 4 fun j => bit v.toNat j) fun j => srcEvent (40 + j) s.nowQ false) u)) ∧
      (s.en pgText = false → Completes (.swTrig fn v) s (RegsOnly s))) ∧
    (let m := n % 256
     s.answers fn 0x4104C 4 = true → s.fstate = 2 → s.binned m = true → s.slotOf m = none →
     (s.seg.extrs.any (fun e => e.2.req.stream = m) = true → Completes (.accEpochGo fn n) s fun t => (t.strm m).ep.goReq = true) ∧
     (s.seg.extrs.any (fun e => e.2.req.stream = m) = false → 0 < (s.strm m).ep.segs → (s.strm m).ep.closing = 0 →
       Completes (.accEpochGo fn n) s fun t => (t.strm m).ep.closing = 3 ∧ Counted s t pgAcc R.ACC_CNT_EPOCH_CMD 1)) ∧
    (let p := n % 64
     s.answers fn 0x43048 4 = true → s.fstate = 2 → s.df p R.DIFF_USE = 1 → s.df p R.DIFF_OUT = 1 →
     Completes (.diffEpochGo fn n) s fun t => Counted s t pgDiff R.DIFF_CNT_HEPOCH 1 ∧ (t.pair' p).hist = [] ∧ (t.pair' p).n = 0 ∧
       (t.pair' p).epoch = (s.pair' p).epoch + 1) ∧
    (let i := n % 16
     let off := 0x30050 + i * 4096
     s.answers fn off 4 = true → i < 2 → 16 ≤ k → k ≤ 26 →
     (s.td0 i R.TDC_CD_SRC = 0 → s.tdcArmed i s.time.cc = true →
       Completes (.codeDensityStart fn n k) s fun t => (t.tdc i).cdWait = true ∧ (t.tdc i).cd = (s.tdc i).cd) ∧
     ((s.td0 i R.TDC_CD_SRC ≠ 0 ∨ s.tdcArmed i s.time.cc = false) → (s.tdc i).cd = none →
       Completes (.codeDensityStart fn n k) s fun t => (t.tdc i).cd = some (2 ^ k, [], []) ∧ t.get (pgTdc i) R.TDC_CD_BUSY = 1)) ∧
    (let w := n % 2688
     s.answers fn (0x1C000 + w * 4) 4 = true → isParamWord w = true → (w < 2176 ∨ s.chanExists (wordUnit w) = true) →
     Completes (.legacyWindowWrite fn n v) s fun t =>
       t = { s with cal := { s.cal with ovrWait := s.cal.ovrWait ++ [(some w, some (BitVec.ofNat 32 (legacyMask w v.toNat)))] } }) ∧
    (s.answers fn 0x1FF00 4 = true → Completes (.legRelease fn v) s fun t =>
      t = { s with cal := { s.cal with ovrWait := s.cal.ovrWait ++ [(if v.toNat.testBit 31 then none else some (v.toNat % 4096), none)] } })

/-- The converter array: in one CCLK period a channel's samples pass its pipeline into its history, held ones during a hold; a die link that is lost,
trains again or does not; the end of settling (R72, R76, R79, R84, R108, R117, R164, R512).
That the run of an enable is a run of the controller, and holds no channel that settles, is a reading of the model (log entries 38, 39). -/
def Obligations.ConverterEventsAct : Prop :=
  ∀ (s : State) (words : List (List Nat)) (c d n q : Nat) (vals : List (Nat × Int)) (e : Nat × CalRun),
    (s.scsRun = true → c < 8 → s.diesOn = true → s.chanExists c = true → (s.chan c).stopped = false →
      let r := pipeGo (s.eqTaps c) (s.cclkIn words c) (s.chan c).pipe []
      let m := holdGo (s.chan c).hold (s.chan c).top (s.chan c).last r.2.reverse []
      Completes (.historyWrite words) s fun t => t.time.cc = s.time.cc + 1 ∧ t.time.coarse = (s.time.coarse + 1) % 2 ^ 48 ∧
        (t.chan c).pipe = r.1 ∧ (t.chan c).hold = m.1 ∧ (t.chan c).top = (s.chan c).top + m.2.length ∧
        (t.chan c).hist = (m.2.map (·.1) ++ (s.chan c).hist).take (s.histDepth c)) ∧
    (s.scsRun = true → c < 8 → s.diesOn = true → s.chanExists c = true → (s.chan c).stopped = true → Completes (.historyWrite words) s fun t =>
      (t.chan c).top = max (s.spc c * (s.time.cc + 1)) (s.chan c).top) ∧
    (d < 2 → s.get (pgBank (4 * d)) R.BANK_LINK_OK = 1 → Completes (.dieLinkLost d) s fun t =>
      (∀ i, i < 4 → t.get (pgBank (4 * d + i)) R.BANK_LINK_OK = 0 ∧ t.raised (pgBank (4 * d + i)) 3 = true) ∧
      Tab.find t.conv.lostAt d = some s.now ∧ t.faults.head? = some ⟨s.now, 0x0A, 0x10, Tab.get s.conv.retrains 0 d⟩) ∧
    (d < 2 → s.get (pgBank (4 * d)) R.BANK_LINK_OK = 0 → ((Tab.find s.conv.lostAt d).isSome = true ∨ Tab.get s.conv.dieRst false d = true) →
      Completes (.dieLinkRetrained d n) s fun t => (∀ i, i < 4 → t.get (pgBank (4 * d + i)) R.BANK_LINK_OK = 1) ∧
        Tab.find t.conv.lostAt d = none ∧ (Tab.get s.conv.dieRst false d = true → Tab.find t.cal.startup d = some 0)) ∧
    (d < 2 → Tab.find s.conv.lostAt d = some q → q + msQ 1 ≤ s.now → Tab.get s.conv.dieRst false d = false → s.seg.openWait = false →
      Completes (.dieLinkTimeout d) s fun t => Tab.get t.conv.dieRst false d = true ∧ bit (t.get pgTop R.TOP_FE_RST) d = true ∧
        t.raised pgTop 6 = true ∧ ∀ i, i < 4 → t.get (pgBank (4 * d + i)) R.BANK_LINK_OK = 0 ∧ t.get (pgBank (4 * d + i)) R.BANK_POWERED = 0) ∧
    (n < 8 → s.settling n = true → Tab.get s.conv.settle 0 n < 3 → s.ownRun (bankChan (s.mode (dieOf n)) n) = none →
      Completes (.settled n vals) s fun t => t.settling n = false ∧ t.raised (pgBank n) 2 = true ∧ Tab.find t.conv.settle n = none ∧
        t.cal = s.cal) ∧
    (n < 8 → s.settling n = true → (Tab.get s.conv.settle 0 n = 1 ∨ Tab.get s.conv.settle 0 n = 2) → c = bankChan (s.mode (dieOf n)) n →
      n ∈ s.banksOf c → c < 8 → s.ownRun c = some e → s.run? e.1 = some e.2 → e.2.chans.head? = some c → s.seg.openWait = false →
      Completes (.settled n vals) s fun t => t.settling n = false ∧ t.raised (pgBank n) 2 = true ∧ t.calBad c = false ∧
        ∃ x, t.run? e.1 = some x ∧ x.chans = e.2.chans.drop 1 ∧ x.named = e.2.named)

/-- The calibration controller: T_die and the run it makes due, step and idle boundaries, the ends of runs and of start-up calibration (R99, R107,
R109, R115, R116, R126).
Runs one channel at a time, and what a failed start-up calibration leaves, are readings of the model (log entries 52, 53). -/
def Obligations.CalibrationEventsAct : Prop :=
  ∀ (s : State) (d r c n : Nat) (cs : List Nat) (x : CalRun) (vals : List (Nat × Int)) (h : HoldSt),
    (d < 2 → Completes (.tDieUpdate d) s fun t => t.geti pgCal R.CAL_TEMP_NOW d = unsgn 12 (s.dieTemp d) ∧
      (bit (s.get pgCal R.CAL_START_DONE) d = true → s.dieRuns d = false → s.live pgCal R.CAL_AUTO_EN = 1 →
        s.live pgCal R.CAL_DTEMP < t.drift d → t.due d = true)) ∧
    (r ≠ 3 → r ≠ 4 → c < 8 → s.run? r = some x → x.chans = c :: cs → s.seg.openWait = false → (∀ b, Tab.get s.conv.rotDue false b = false) →
      Completes (.calStepBoundary r vals false) s (fun t => t.cal.ovrWait = [] ∧ t.cal.meas = [] ∧
        t.run? r = some { x with step := min 0xFFFF (x.step + 1), stepAt := s.now, meas := Tab.merge x.meas vals }) ∧
      Completes (.calStepBoundary r vals true) s (fun t => t.cal.ovrWait = [] ∧ t.cal.meas = [] ∧ t.calBad c = false ∧
        t.run? r = some { x with chans := cs, step := 0, meas := [], stepAt := s.now, chanAt := s.now })) ∧
    (d < 2 → Tab.find s.cal.startup d = some n → s.seg.openWait = false → Completes (.calStepBoundary (3 + d) vals false) s fun t =>
      Tab.find t.cal.startup d = some (min 0xFFFF (n + 1)) ∧ t.cal.ovrWait = []) ∧
    (s.cal.runs = [] → s.cal.startup = [] → s.seg.openWait = false → (∀ b, Tab.get s.conv.rotDue false b = false) → Completes .idleBoundary s fun t => t.cal.ovrWait = [] ∧ t.cal.meas = [] ∧
      t.cal.temp = [(0, s.tDie 0), (1, s.tDie 1)]) ∧
    (d < 2 → (s.fstate < 2 ∨ s.fstate = 2 ∧ s.hardDue d = true) → s.due d = true → s.live pgCal R.CAL_AUTO_EN = 1 →
      s.dieRuns d = false → s.dueChans d ≠ [] → Completes (.runStart d) s fun t => t.get pgCal R.CAL_RUN_ACTIVE = 1 ∧
        ∃ y, t.run? d = some y ∧ y.kind = 1 ∧ y.named = s.dueChans d ∧ y.chans = s.dueChans d ∧ y.hard = s.hardDue d ∧ y.cmd = none) ∧
    (s.run? r = some x → x.chans = [] → s.seg.openWait = false → Completes (.runDone r) s fun t => t.run? r = none ∧
      t.raised pgCal 4 = true ∧ Counted s t pgCal R.CAL_CNT_RUNS 1 ∧
      ∀ e, e < 2 → (∃ m ∈ x.named, dieOf m = e) → t.due e = false ∧ t.hardDue e = false ∧
        t.geti pgCal R.CAL_LAST_RUN e = unsgn 12 (x.temps.getD e 0)) ∧
    (r ≠ 3 → r ≠ 4 → s.run? r = some x → x.chans = c :: cs → c < 8 → s.seg.openWait = false →
      (x.stepAt + usQ (s.live pgCal R.CAL_CAL_STEP_TMO) ≤ s.now → Completes (.stepTmo r) s fun t => t.calBad c = true ∧ t.run? r = none ∧
        Counted s t pgCal R.CAL_CNT_STEP_TMO 1 ∧ Captured s t pgCal 0x21 (c + x.step * 2 ^ 8)) ∧
      (x.chanAt + usQ (s.live pgCal R.CAL_CAL_RUN_TMO) ≤ s.now → Completes (.runTmo r) s fun t => t.calBad c = true ∧ t.run? r = none ∧
        Counted s t pgCal R.CAL_CNT_RUN_TMO 1 ∧ Captured s t pgCal 0x22 (c + x.step * 2 ^ 8))) ∧
    (d < 2 → Tab.find s.cal.startup d = some n → (Tab.get s.cal.startAt (0, 0) d).1 + usQ 700000 ≤ s.now →
      Completes (.startupCalTimeout d) s fun t => Tab.find t.cal.startup d = none ∧ Counted s t pgCal R.CAL_CNT_RUN_TMO 1 ∧
        Captured s t pgCal 0x22 (4 * d + n * 2 ^ 8) ∧ ∀ m, m < 8 → dieOf m = d → s.chanExists m = true → t.calBad m = true) ∧
    (d < 2 → Tab.find s.cal.startup d = some n → Completes (.startDone d vals) s fun t => Tab.find t.cal.startup d = none ∧
      bit (t.get pgCal R.CAL_START_DONE) d = true ∧ t.due d = false ∧ t.hardDue d = false ∧ (∀ i, i < 4 → t.settling (4 * d + i) = false) ∧
      t.geti pgCal R.CAL_LAST_RUN d = unsgn 12 (Tab.get s.cal.startTemp 0 d) ∧
      (bit (s.get pgTop R.TOP_FE_RST) d = true → bit (t.get pgTop R.TOP_FE_RST) d = false ∧ t.raised pgTop 7 = true)) ∧
    (n < 8 → s.scsRun = true → Tab.get s.conv.rotPos 0 n < 64 →
      let p := Tab.get s.conv.rotPos 0 n
      (s.rotState n = 1 → ∀ b, Completes (.handover n vals b) s fun t => t.sliceAt n p = s.get (pgBank n) R.BANK_WAIT_SLICE ∧
        t.get (pgBank n) R.BANK_OUT_SLICE = s.sliceAt n p ∧ t.get (pgBank n) R.BANK_OUT_POS = p ∧ Tab.get t.conv.rotPos 0 n = (p + 1) % 64 ∧
        Counted s t (pgBank n) R.BANK_CNT_HANDOVER 1) ∧
      (s.rotState n = 2 → ∀ b, Completes (.handover n vals b) s fun t => Tab.get t.conv.rotDue false n = true ∧ t.regs = s.regs)) ∧
    (c < 8 → (s.chan c).hold = some h → h.started = true → h.value ≠ noData → h.upto = some n → n ≤ s.top c → Completes (.holdEnd c) s fun t =>
      (t.chan c).hold = none ∧ (t.chan c).holds.head? = some ⟨h.first, min n (s.chan c).top - h.first⟩ ∧ bit (t.get pgCal R.CAL_CHOLD) c = false ∧ t.raised pgCal 7 = true)

/-! ### Events of frames, segments and records -/

/-- The frame controller: a time open, each step of the drain and its abandonment, a close by time, and a step of Q-time that waited (R181, R182, R184,
R186, R188, R251). -/
def Obligations.FrameEventsAct : Prop :=
  ∀ (s : State) (u : Nat),
    (s.fstate = 1 → bits s.seg.cfg 1 0 = 2 → s.seg.openWait = false → s.seg.openAt ≤ s.nextQ → s.scsRun = true → s.runHolds = false →
      s.openRefused = none → Completes .timeOpen s fun t => t.fstate = 2 ∧ t.frameNum = s.nextFrame ∧ t.pstate = 3 ∧
        t.seg.tOpen = s.nextQ ∧ t.raised pgTop 1 = true) ∧
    (s.fcfg R.TOP_CLOSE_TIME_EN = 1 → s.seg.tOpen + nsQ s.seg.dur ≤ s.nowQ → s.fstate = 2 → Completes .frameDurExpiry s fun t =>
      t.fstate = 3 ∧ t.get pgTop R.TOP_CLOSE_CAUSE = 2 ∧ t.seg.tClose = some (max s.nowQ s.seg.tOpen) ∧
      t.trig.armUpto = some (max s.nowQ s.seg.tOpen) ∧ t.raised pgTop 2 = true) ∧
    (let v := run trigSettle s
     v.fstate = 3 → v.seg.drain = 0 → v.provsResolved = true → Completes .drainProvisionalResolved s fun t =>
      t = { v with seg := { v.seg with drain := 1 } }) ∧
    (let v := run stampRelease s
     v.fstate = 3 → v.seg.drain = 1 → v.requestsDone = true → Completes .drainRequestsDone s fun t => t.seg.drain = 2 ∧
      (∀ p, p < 64 → v.df p R.DIFF_USE = 1 → v.df p R.DIFF_OUT = 1 → (t.pair' p).hist = []) ∧
      ∀ n, n < 256 → (t.strm n).openRec = none) ∧
    (s.fstate = 3 → s.seg.drain = 2 → s.host.rings = [] → (∀ n, n < 256 → s.streamWritten n = true) → Completes .drainRecordsWritten s fun t =>
      t.seg.drain = 3 ∧ t.seg.podWait = s.podDests ∧ ∀ n, n < 256 → (s.strm n).inPod = true → t.get (pgSt n) R.ST_DRAINED = 1) ∧
    (s.fstate = 3 → s.get pgTop R.TOP_FRAME_REPEAT = 0 → s.pwr.shutPend = false →
      (s.seg.drain = 3 → s.seg.podWait = [] → Completes .podDone s fun t => t.fstate = 0 ∧ t.pstate = 2 ∧ t.raised pgTop 3 = true ∧
        t.get pgTop R.TOP_ABANDONED = 0 ∧ t.seg.reqs = [] ∧ t.get pgTop R.TOP_TRIG_COUNT = 0) ∧
      (s.seg.tClose = some u → u + msQ s.seg.drainTmo ≤ s.now → Completes .drainAbandoned s fun t => t.fstate = 0 ∧
        t.get pgTop R.TOP_ABANDONED = 1 ∧ Counted s t pgTop R.TOP_CNT_ABANDONED 1 ∧ t.raised pgTop 4 = true)) ∧
    (s.get pgTime R.TIME_STEP_PEND = 1 → s.fstate = 0 → s.seg.openWait = false → Completes .stepDone s fun t =>
      t.time.q = ((s.time.q : Int) + s.time.err * 2 ^ 32).toNat % 2 ^ 128 ∧ t.time.err = 0 ∧ t.get pgTime R.TIME_STEP_PEND = 0 ∧
        Counted s t pgTime R.TIME_CNT_STEP 1 ∧ t.raised pgTime 5 = true)

/-- Requests and extraction: a request becomes eligible once its window is readable, a CONTINUOUS stream requests the segment it has begun, a free
extractor takes the oldest request it may and hands its items on, and a closed epoch's pass clears its bins (R22, R170, R171, R173, R205, R212). -/
def Obligations.SegmentEventsAct : Prop :=
  ∀ (s : State) (n k seq : Nat) (r : Req) (e : Extr),
    Completes (.requestEligible n seq) s (fun t => t = { s with seg := t.seg } ∧ t.seg = { s.seg with reqs := t.seg.reqs } ∧
      t.seg.reqs = s.seg.reqs.map fun x =>
        if x.stream = n ∧ x.seq = some seq ∧ x.st = 1 ∧ s.waitEnd x ≤ s.top (s.srcChan n) then { x with st := 2 } else x) ∧
    (n < 256 → s.fstate = 2 → s.continuous n = true → s.instant (s.spc (s.srcChan n)) (s.contFirst n) < s.nowQ → s.seg.reqs.length < 262144 →
      (∀ x ∈ s.seg.reqs, x.code ≠ 0xFFFF ∨ x.cont = true) → Completes (.continuousSegment n) s fun t => (t.strm n).contK = (s.strm n).contK + 1 ∧
        Counted s t (pgSt n) R.ST_CNT_SEG 1 ∧ ∃ x ∈ t.seg.reqs, x.stream = n ∧ x.first = s.contFirst n ∧ x.len = s.segLen n ∧
          x.seq = some (s.nextSeq n) ∧ x.st = 1 ∧ x.cont = true) ∧
    (Tab.find s.seg.extrs k = none → s.seg.reqs.find? s.takeable = some r → Completes (.extractionStart k) s fun t =>
      t.seg.reqs = s.seg.reqs.erase r ∧ ∃ x, Tab.find t.seg.extrs k = some x ∧ x.req = r ∧ x.start = s.time.cc ∧
        x.data = (List.range r.len).map fun i => (s.chan (s.srcChan r.stream)).word (r.first + i)) ∧
    (Tab.find s.seg.extrs k = some e →
      Completes (.extractionDone k) s (fun t => Tab.find t.seg.extrs k = none) ∧
      (s.slotOf e.req.stream = none → s.binned e.req.stream = false → ∃ u, u.seg = { s.seg with extrs := Tab.del s.seg.extrs k } ∧
        exec (.extractionDone k) s = .next (run (.all [addBuilt e.req.stream (e.req.seq.getD 0) (segItems s e (windowCells s e)),
          pump e.req.stream]) u))) ∧
    ((s.strm n).ep.closing ≠ 0 → Completes (.binPassDone false n) s fun t => (t.strm n).bins = [] ∧
      (t.strm n).ep = { Epoch.reset with num := (s.strm n).ep.num + 1 }) ∧
    (n < 16 → (s.map n).ep.closing ≠ 0 → Completes (.binPassDone true n) s fun t => (t.map n).cells = [] ∧
      (t.map n).ep = { Epoch.reset with num := (s.map n).ep.num + 1 } ∧ t.geti pgDen R.DEN_SAT n = 0)

/-- Records and queues: a finished record enters its stream's queue where it fits, and is lost to a BUFFER_FULL pip where it does not and the policy
drops new records; a pending pip enters when there is room; open entry records close when FLUSH has passed (R172, R176 to R178, R266, R474). -/
def Obligations.RecordEventsAct : Prop :=
  ∀ (s : State) (n k : Nat) (r : Rec) (o : OpenRec),
    (let z := s.strm n
     n < 256 → z.built = [(k, [r])] → k ≤ z.outSeq → r.isData = true → r.stream = n → z.pend = none → s.seg.stopped.contains (s.dest n) = false →
     s.destDown (s.dest n) = false →
     (outUsed z.queue + r.bytes.length ≤ s.eqBytes n - pipReserve → Completes (.recordBuilt n) s fun t => (t.strm n).built = [] ∧
       (t.strm n).queue.length = z.queue.length + 1 ∧ t.get (pgSt n) R.ST_EQ_FULL = 0 ∧ Counted s t (pgSt n) R.ST_CNT_REC 1 ∧
       ∃ x, (t.strm n).queue.getLast? = some x ∧ x.ty = r.ty ∧ x.seq = r.seq ∧ x.first = r.first ∧ x.len = r.len ∧ x.dest = s.dest n) ∧
     (s.eqBytes n - pipReserve < outUsed z.queue + r.bytes.length → s.st n R.ST_POLICY = 0 → Completes (.recordBuilt n) s fun t =>
       (t.strm n).built = [] ∧ t.get (pgSt n) R.ST_EQ_FULL = 1 ∧ Counted s t (pgSt n) R.ST_CNT_BUF_FULL 1)) ∧
    (n < 256 → (s.strm n).pend = some r → resUsed (s.strm n).queue + 80 ≤ pipReserve → Completes (.pendingPipQueued n) s fun t => (t.strm n).pend = none ∧
      (t.strm n).queue.length = (s.strm n).queue.length + 1 ∧ Counted s t (pgSt n) R.ST_CNT_PIP 1) ∧
    ((s.strm n).openRec = some o → (s.st n R.ST_SRC_KIND = 1 ∨ s.st n R.ST_SRC_KIND = 2) → o.openedAt + s.flushQ ≤ s.now →
      Completes (.stampFlush n) s fun t => (t.strm n).openRec = none) ∧
    ((s.strm n).openRec = some o → s.st n R.ST_SRC_KIND = 3 → o.openedAt + usQ (s.get pgMon R.MON_FLUSH) ≤ s.now →
      Completes (.monFlush n) s fun t => (t.strm n).openRec = none)

/-! ### Events of triggers, event inputs, the time base and the clocks -/

/-- The trigger engine: a unit's comparators take a sample, pin edges, stuck sources, the end of a sequence's wait, deadlines and pulses (R134, R136,
R139, R141, R145, R151, R154).
The order of A and B at one anchor is a reading of the model (log entry 15). -/
def Obligations.TriggerEventsAct : Prop :=
  ∀ (s : State) (n c j m a d src : Nat),
    (n < 8 → s.en (pgTu n) = true → (s.tu n).next + 1 < (s.chan (s.tuChan n)).top → Completes (.triggerUnitSample n) s fun t =>
      let ch := s.chan (s.tuChan n)
      let w := ch.word (s.tu n).next
      let x := sgn 16 w
      let h : Int := s.live (pgTu n) R.TU_HYST
      (t.tu n).next = (s.tu n).next + 1 ∧
      (if w = 0x8000 ∨ w = 0x10000 ∨ bit (ch.marks (s.tu n).next) 1 = true then (t.tu n).qa = 2 ∧ (t.tu n).qb = 2
       else (t.tu n).qa = cmpStep (s.tu n).qa (sgn 16 (s.live (pgTu n) R.TU_LEVEL_A)) h x ∧
         (t.tu n).qb = cmpStep (s.tu n).qb (sgn 16 (s.live (pgTu n) R.TU_LEVEL_B)) h x)) ∧
    (n < 4 → s.coreOn = true → s.en pgText = true → s.pinStamp c j m = some a →
      Completes (.trigInEdge n c j m) s (fun t => t.geti pgText R.TEXT_LEVEL n = 1 ∧ Tab.find t.trig.tinAct n = some s.time.cc ∧
        Tab.find t.trig.levels (8 + n) = some (insertLevel a true ((Tab.find s.trig.levels (8 + n)).getD []))) ∧
      Completes (.trigInInactiveEdge n c j m) s (fun t => t.geti pgText R.TEXT_LEVEL n = 0 ∧ t.geti pgText R.TEXT_STUCK n = 0 ∧
        Tab.find t.trig.tinAct n = none ∧ Tab.find t.trig.levels (8 + n) = some (insertLevel a false ((Tab.find s.trig.levels (8 + n)).getD [])))) ∧
    (n < 4 → s.coreOn = true → s.en pgText = true → s.pinStamp c j m = none → Completes (.trigInEdge n c j m) s fun t =>
      t.geti pgText R.TEXT_LEVEL n = 1 ∧ t.seg = s.seg ∧
        Tab.find t.trig.levels (8 + n) = some (insertLevel s.nowQ true ((Tab.find s.trig.levels (8 + n)).getD []))) ∧
    (n < 4 → s.coreOn = true → s.en pgText = false →
      Completes (.trigInEdge n c j m) s (fun t => RegsOnly s t ∧ t.geti pgText R.TEXT_LEVEL n = 1) ∧
      Completes (.trigInInactiveEdge n c j m) s fun t => RegsOnly s t ∧ t.geti pgText R.TEXT_LEVEL n = 0) ∧
    (n < 8 → (s.tu n).actAt = some c → s.live (pgTu n) R.TU_STUCK_TIME ≠ 0 → c + s.live (pgTu n) R.TU_STUCK_TIME < s.time.cc →
      s.get (pgTu n) R.TU_STUCK = 0 → Completes (.stuck n) s fun t => t.get (pgTu n) R.TU_STUCK = 1 ∧ t.raised (pgTu n) 1 = true) ∧
    (n < 4 → Tab.find s.trig.tinAct n = some c → s.livei pgText R.TEXT_STUCK_TIME n ≠ 0 → c + s.livei pgText R.TEXT_STUCK_TIME n < s.time.cc →
      s.geti pgText R.TEXT_STUCK n = 0 → Completes (.stuck (8 + n)) s fun t => t.geti pgText R.TEXT_STUCK n = 1 ∧ t.raised pgText (1 + n) = true) ∧
    ((s.tdef d).firings = [] → (s.tdef d).seqWait = some (a, src) → s.seqEnd d a ≤ max s.now s.nowQ →
      s.seqReady d [1, 2] (s.seqEnd d a) = true → Completes (.seqWaitExpiry d) s fun t => (t.tdef d).seqWait = none) ∧
    ((∃ r ∈ s.trig.remotes, r.is src n a = true ∧ r.st = 0) → s.deadline a < s.nowQ → Completes (.deadline src n a) s fun t =>
      Counted s t pgText R.TEXT_CNT_DEADLINE 1 ∧ t.raised pgTcomb 2 = true ∧
      ∃ r ∈ t.trig.remotes, r.is src n a = true ∧ r.st = 2) ∧
    (n < 4 → ((s.tout n).outOn = true → (s.tout n).outEnd ≤ s.time.cc → Completes (.trigOutPulseEnd n false) s fun t => (t.tout n).outOn = false ∧
        t.out = .pin n (decide (s.livei pgText R.TEXT_OPOL n = 1)) :: s.out) ∧
      ((s.tout n).cxlOn = true → (s.tout n).cxlEnd ≤ s.time.cc → Completes (.trigOutPulseEnd n true) s fun t => (t.tout n).cxlOn = false ∧
        t.out = .pin (4 + n) (decide (s.livei pgText R.TEXT_OPOL n = 1)) :: s.out))

/-- Event inputs: an edge sets the level, and an armed input's edge is counted into its FIFO; the oldest stamp is converted; a pair's oldest A is
evaluated; the delay line locks; a code-density test gives a table or its failure (R261 to R264, R266, R269).
A stamp with no tie is a free value of the model (log entry 3). -/
def Obligations.EventInputsAct : Prop :=
  ∀ (s : State) (k j m p : Nat) (falling : Bool) (x : RawStamp) (rest : List RawStamp) (a b : Stamp) (as : List Stamp) (codes phases : List Nat)
    (z : Nat × Tab Nat × Tab Nat),
    (let at_ := if s.scsRun && s.tie.isSome then
        s.stampQ k { c := s.time.cc, j := j, m := m, falling := falling, presc := decide (s.td0 k R.TDC_PRESC ≠ 0), cnt := 0, ovf := false }
      else s.nowQ
     k < 16 → j < 8 → m < 128 → s.coreOn = true → Completes (.evEdge k falling j m) s fun t => (t.tdc k).level = !falling ∧
      t.get (pgTdc k) R.TDC_LEVEL = b2n (!falling) ∧
      Tab.find t.trig.levels (16 + k) = some (insertLevel at_ (!falling) ((Tab.find s.trig.levels (16 + k)).getD []))) ∧
    (let raw : RawStamp := { c := s.time.cc, j := j, m := m, falling := falling, presc := false, cnt := (s.tdc k).count + 1, ovf := (s.tdc k).ovf }
     k < 16 → j < 8 → m ≤ 100 → s.td0 k R.TDC_PRESC = 0 →
     (s.td0 k R.TDC_EDGE = 0 ∧ falling = false ∨ s.td0 k R.TDC_EDGE = 1 ∧ falling = true ∨ 2 ≤ s.td0 k R.TDC_EDGE) →
     (s.tdc k).cd = none → s.get (pgTdc k) R.TDC_LOCKED = 1 → s.tie.isSome = true → s.scsRun = true → s.coreOn = true → (s.tdc k).last = none →
     s.tdcOpen k s.time.cc = true → s.td0 k R.TDC_ARM_SRC = 0 → s.seg.tOpen ≤ s.stampQ k raw → s.seg.tClose = none →
     (s.tdc k).fifo.length < 64 → Completes (.evEdge k falling j m) s fun t => (t.tdc k).fifo = (s.tdc k).fifo ++ [raw] ∧
       (t.tdc k).count = (s.tdc k).count + 1 ∧ Counted s t (pgTdc k) R.TDC_CNT_STAMPS 1) ∧
    (k < 16 → (s.tdc k).fifo = x :: rest → s.tie.isSome = true → s.firstStamp k (s.stampQ k x) = true → Completes (.stampConvert k) s fun t =>
      (t.tdc k).fifo = rest) ∧
    (let hits := (s.pair' p).bs.filter fun y => s.inWindow p a y.q
     (s.pair' p).as = a :: as → (s.pair' p).gone.any (s.inWindow p a) = false → s.df p R.DIFF_MODE ≠ 2 → (a.q : Int) + s.winHi p < s.now → s.seg.tClose = none →
     (s.tdc (s.df p R.DIFF_B)).fifo = [] →
     (hits = [] → Completes (.diffEvaluate p) s fun t => (t.pair' p).as = as ∧ Counted s t pgDiff R.DIFF_CNT_NO_MATCH 1) ∧
     (hits.head? = some b → s.df p R.DIFF_MODE = 0 → s.time.diffSlot < 2 * s.time.cc + 2 → Completes (.diffEvaluate p) s fun t => (t.pair' p).as = as ∧
       Counted s t pgDiff R.DIFF_CNT_DIFFS 1)) ∧
    (k < 16 → s.scsRun = true → s.tie.isSome = true → Completes (.tdcLocked k) s fun t => t.get (pgTdc k) R.TDC_LOCKED = 1) ∧
    (k < 16 → (s.tdc k).cd = some z → s.td0 k R.TDC_CD_SRC = 0 →
      let h := codes.mapIdx fun i v => (i, v)
      let bad := cdFail h (phases.mapIdx fun i v => (i, v))
      Completes (.cdDone k codes phases) s fun t => (t.tdc k).cd = none ∧ t.get (pgTdc k) R.TDC_CD_BUSY = 0 ∧ t.raised (pgTdc k) 3 = true ∧
        (bad = 0 → t.get (pgTdc k) R.TDC_CD_VALID = 1 ∧ ∀ i, i < 128 → t.centre k i = cdCentre h i % 2 ^ 20) ∧
        (bad ≠ 0 → t.raised (pgTdc k) 4 = true ∧ Captured s t (pgTdc k) 0x20 bad ∧ ∀ i, i < 128 → t.centre k i = s.centre k i))

/-- The time base: steering, sources that qualify, are lost or regain their place, PPS_IN, whole seconds and the tie (R247 to R252, R255, R275).
What the tie is fitted to is a free value of the model (log entry 43). -/
def Obligations.TimeBaseEventsAct : Prop :=
  ∀ (s : State) (comp servo phase freq : Int) (src q p sec : Nat) (b : Bool),
    (let age := s.time.age + within 1000000 (sgn 24 (s.get pgTime R.TIME_XO_AGE) - s.time.age)
     Completes (.steerUpdate comp servo phase freq) s fun t => t.time.age = age ∧ t.time.servo = s.servoNow servo ∧
       t.get pgTime R.TIME_STEER = unsgn 32 (within 60000000 (comp - age + s.servoNow servo)) ∧
       (s.get pgTime R.TIME_SEL ≠ 5 →
         let ph : Int := if s.get pgTime R.TIME_SEL = 1 then s.time.theta else phase
         (s.get pgTime R.TIME_STATE = 2 → ph.natAbs * 10 ^ 8 < 2 ^ 48 → t.get pgTime R.TIME_STATE = 2) ∧
         (s.get pgTime R.TIME_STATE = 2 → 2 ^ 48 ≤ ph.natAbs * 10 ^ 8 → t.get pgTime R.TIME_STATE = 1) ∧
         (s.get pgTime R.TIME_STATE = 1 → ph.natAbs * 10 ^ 8 < 2 ^ 48 → s.get pgTime R.TIME_STEP_PEND = 0 →
           t.get pgTime R.TIME_STATE = 2 ∧ t.raised pgTime 2 = true))) ∧
    (s.mayQualify src = true → s.qualified src = false → s.pending.any changesSource = false →
      (s.qualified (s.get pgTime R.TIME_SEL) = true → s.get pgTime R.TIME_SEL ≠ 0 → Completes (.sourceQualify src phase) s fun t => t.qualified src = true ∧
        t.get pgTime R.TIME_SEL = s.get pgTime R.TIME_SEL) ∧
      (s.get pgTime R.TIME_SEL = 0 → s.prios = [src] → Completes (.sourceQualify src phase) s fun t => t.qualified src = true ∧
        t.get pgTime R.TIME_SEL = src ∧ t.get pgTime R.TIME_STATE = 1 ∧ Counted s t pgTime R.TIME_CNT_SWITCH 1)) ∧
    (s.qualified src = true → s.mayLose src = true → s.pending.any changesSource = false → s.get pgTime R.TIME_SEL = src → src ≠ 0 → (∀ x ∈ s.prios, x ≠ src → s.qualified x = false) →
      Completes (.sourceLost src phase) s fun t => t.qualified src = false ∧ t.get pgTime R.TIME_SEL = 0 ∧ t.get pgTime R.TIME_STATE = 3 ∧
        Captured s t pgTime 0x20 src) ∧
    (s.get pgTime R.TIME_REVERT = 1 → s.longSource ≠ 0 → s.slotOfSource s.longSource < s.slotOfSource (s.get pgTime R.TIME_SEL) →
      Completes (.revertTimer phase) s fun t => t.get pgTime R.TIME_SEL = s.longSource ∧ t.get pgTime R.TIME_STATE = 1) ∧
    (b ≠ decide (s.get pgTime R.TIME_PPS_IN_POL = 1) → s.get pgTime R.TIME_SEL ≠ 4 →
      (s.time.ppsSet = none → Completes (.ppsInEdge b q phase) s fun t => t.time.ppsLast = some q ∧
        t.time.ppsGood = (match s.time.ppsLast with
          | some p => if q ≤ p + secQ 1 + usQ 1 ∧ p + secQ 1 ≤ q + usQ 1 then s.time.ppsGood + 1 else 1
          | none => 1)) ∧
      (s.time.ppsSet = some sec → s.fstate = 0 → Completes (.ppsInEdge b q phase) s fun t => t.time.ppsSet = none ∧
        t.get pgTime R.TIME_TAI_VALID = 1 ∧ Counted s t pgTime R.TIME_CNT_STEP 1) ∧
      (s.time.ppsSet = some sec → s.fstate ≠ 0 → Completes (.ppsInEdge b q phase) s fun t => t.time.ppsSet = none ∧
        t.get pgTime R.TIME_STEP_PEND = 1 ∧ t.time.err = ((sec : Int) - nearestSecond q) * 2 ^ 48 ∧ t.raised pgTime 4 = true)) ∧
    (s.time.ppsLast = some p → p + secQ 1 + usQ 1 ≤ s.now → Completes (.ppsMiss phase) s fun t => t.time.ppsLast = none ∧ t.time.ppsGood = 0 ∧
      t.qualified 4 = false ∧ Counted s t pgTime R.TIME_CNT_PPS_MISS 1 ∧ t.raised pgTime 6 = true) ∧
    Completes .second s (fun t => t.raised pgTime 7 = true ∧ t.time.ppsOut = (s.cell (pgTime.base + 0x050)).toNat ∧
      (s.get pgTime R.TIME_PPS_OUT_EN = 1 → t.out.head? = some (.pin 12 (decide (s.get pgTime R.TIME_PPS_OUT_POL = 0))) ∧
        t.time.ppsOff = some (s.now + usQ (s.get pgTime R.TIME_PPS_OUT_WIDTH)))) ∧
    (s.scsRun = true → s.time.cc % 1024 = 0 → Completes (.tieMeasure q) s fun t =>
      let ms := ((s.time.cc, q) :: s.time.meas).take 64
      t.time.meas = ms ∧ t.time.ties = ⟨(Config.fitTie ms).1, s.time.cc, (Config.fitTie ms).2 % 2 ^ 48⟩ :: s.time.ties ∧
      t.get64 pgTime R.TIME_TIE_P_LO R.TIME_TIE_P_HI = (Config.fitTie ms).2 % 2 ^ 48)

/-- The clock loops: the states of a lock, its timeouts and failures, the losses of reference and of lock, the return of REF_IN, and SYNC_IN (R281,
R282, R284 to R286, R289).
RELOCK outside RUN, the CCLK count at RUN and the count of ignored edges are readings of the model (log entries 45, 47, 48). -/
def Obligations.ClockEventsAct : Prop :=
  ∀ (s : State) (x y : Nat) (err : Int) (b inPhase : Bool),
    let st := s.get pgClk R.CLK_STATE
    let cp := s.get pgClk R.CLK_CPLL_STATE
    (st = 1 → Completes (.scsSearchDone x y) s fun t => t.get pgClk R.CLK_STATE = 2 ∧ t.get pgClk R.CLK_BAND = x % 64 ∧
      t.get pgClk R.CLK_SEARCH_T = min 0xFFFF y ∧ RegsOnly s t) ∧
    (st = 2 → Completes (.scsLockingDone x err) s (fun t => t.get pgClk R.CLK_STATE = 3 ∧ t.get pgClk R.CLK_LOCK_T = min 0xFFFF x ∧
        t.time.coarse = 0) ∧
      Completes (.lockingTimeout 0) s fun t => t.get pgClk R.CLK_STATE = 1 ∧ t.time.lockTry = s.time.lockTry + 1) ∧
    (cp = 1 ∨ cp = 2 → Completes (.lockingTimeout 1) s (fun t => t.get pgClk R.CLK_CPLL_STATE = 1 ∧ t.time.cpllTry = s.time.cpllTry + 1) ∧
      Completes (.cpllLocked x) s fun t => t.get pgClk R.CLK_CPLL_STATE = 4 ∧ t.get pgClk R.CLK_CPLL_BAND = x % 64 ∧ t.time.cpllTry = 0) ∧
    (3 ≤ s.time.lockTry → Completes (.lockFail 0) s fun t => t.time.lockTry = 0 ∧ Captured s t pgClk 0x20 (s.get pgClk R.CLK_BAND * 2 ^ 8) ∧
      t.faults.head? = some ⟨s.now, 0x08, 2, s.get pgClk R.CLK_BAND * 2 ^ 8⟩) ∧
    (st = 3 → Completes (.scsLocked x y) s fun t => t.get pgClk R.CLK_STATE = 4 ∧ t.get pgClk R.CLK_GATED = 0 ∧ t.raised pgClk 1 = true ∧
      t.raised pgClk 9 = true ∧ t.get pgClk R.CLK_RELOCK = 0 ∧ t.time.ties.head? = some (s.lockTie t.time.cc x y)) ∧
    (∀ z cc, s.tie = some z → s.time.moved = false → s.time.lockCfg = s.fsbSet → s.live pgClk R.CLK_SCS_REF = 0 →
      s.lockTie cc x y = { qref := z.qref + (cc - z.cref) * z.per, cref := cc, per := z.per }) ∧
    (s.live pgClk R.CLK_SCS_REF = 1 → st ≠ 0 → st ≠ 5 → Completes .scsLostRef s fun t => t.get pgClk R.CLK_STATE = 5 ∧
      t.get pgClk R.CLK_GATED = 1 ∧ t.get pgClk R.CLK_REF_OK = 0 ∧ t.raised pgClk 3 = true ∧ Counted s t pgClk R.CLK_CNT_LOSS_REF 1) ∧
    (st = 4 → Completes .scsLostLock s fun t => t.get pgClk R.CLK_STATE = 1 ∧ t.get pgClk R.CLK_GATED = 1 ∧ t.raised pgClk 2 = true ∧
      Counted s t pgClk R.CLK_CNT_LOSS_LOCK 1) ∧
    (s.live pgClk R.CLK_REF_NOM ≠ 0 → s.get pgClk R.CLK_REF_OK = 0 → Completes (.refReturn err) s fun t => t.get pgClk R.CLK_REF_OK = 1 ∧
      t.raised pgClk 4 = true ∧ t.get pgClk R.CLK_STATE = if st = 5 ∧ s.live pgClk R.CLK_AUTO_RELOCK = 1 then 1 else st) ∧
    (b ≠ decide (s.live pgClk R.CLK_SYNC_POL = 1) → s.live pgClk R.CLK_SCS_REF = 1 →
      (s.live pgClk R.CLK_SYNC_MODE = 2 ∨ s.live pgClk R.CLK_SYNC_MODE = 1 ∧ s.get pgClk R.CLK_SYNC_ARM = 1) →
      (st = 4 → s.fstate = 0 → Completes (.syncInEdge b inPhase) s fun t => t.get pgClk R.CLK_SYNCED = 1 ∧ t.get pgClk R.CLK_SYNC_ARM = 0 ∧
        Counted s t pgClk R.CLK_CNT_SYNC_ACT 1 ∧ t.get pgClk R.CLK_STATE = (if inPhase then 4 else 3) ∧
        (inPhase = false → t.get pgClk R.CLK_GATED = 1 ∧ Counted s t pgClk R.CLK_CNT_SYNC_MOVED 1)) ∧
      (st ≠ 4 ∨ s.fstate ≠ 0 → Completes (.syncInEdge b inPhase) s fun t => Counted s t pgClk R.CLK_CNT_SYNC_IGNORED 1)) ∧
    (∀ fn, s.answers fn 0x104C 4 = true →
      (st = 4 ∨ st = 5 → Completes (.relock fn) s fun t => t.get pgClk R.CLK_STATE = 1 ∧ t.get pgClk R.CLK_GATED = 1 ∧
        t.get pgClk R.CLK_RELOCK = 1) ∧
      (st ≠ 4 → st ≠ 5 → Completes (.relock fn) s fun t => t.get pgClk R.CLK_STATE = st ∧ t.get pgClk R.CLK_RELOCK = s.get pgClk R.CLK_RELOCK) ∧
      Completes (.syncArm fn) s fun t => t.get pgClk R.CLK_SYNC_ARM = 1 ∧ t.get pgClk R.CLK_STATE = st)

/-! ### Commands of the Filmund link -/

/-- Training: each state of a port leads to the next, the peer's ADVERT is recorded and answered until a version is agreed or none is, and a
port that fails, is lost or is written RETRAIN trains again (R299 to R303, R322, R327, Tables 11-3 and 11-4).
When an ADVERT is repeated is a reading of the model (log entry 57). -/
def Obligations.PortsTrain : Prop :=
  ∀ (s : State) (n fn txDly rxDly content ver : Nat),
    n < 4 → (∀ r ∈ s.link.reqs, r.cmd < 256) →
    let st := s.portState n
    let cell := (pgFport n).base + 0x050
    let adv := content % 2 ^ 56
    let core := putBits adv 41 41 0
    let same := if (s.port n).advSame ≠ 0 ∧ (s.port n).adv = core then (s.port n).advSame + 1 else 1
    let v0 := min (s.get pgFlink R.FLINK_VER_MAX) (bits adv 7 4)
    let v := if s.get (pgFport n) R.FPORT_FALLBACK = 1 then min v0 1 else v0
    let none_ := v < s.get pgFlink R.FLINK_VER_MIN ∨ v < bits adv 3 0 ∨ v = 0
    let peer := (s.port n).adv
    let cellOf (t : State) : Prop := t = { s with regs := t.regs, link := t.link, tx := t.tx } ∧
      (s.txOf n = PortTx.reset → ∀ a, a ≠ cell → t.cell a = s.cell a)
    (st = 1 → Completes (.portSignalDetect n) s fun t => t.portState n = 2 ∧ cellOf t) ∧
    (st = 2 → Completes (.trainDone n txDly rxDly) s fun t =>
      t.get (pgFport n) R.FPORT_TX_DLY = txDly % 2 ^ 16 ∧ t.get (pgFport n) R.FPORT_RX_DLY = rxDly % 2 ^ 16 ∧
      (((s.port n).fast = true ∨ (s.port n).fromKa = true) → t.portState n = 4) ∧
      ((s.port n).fast = false → (s.port n).fromKa = false → t.portState n = 3 ∧ (t.port n).advSame = 0 ∧
        t.out.head? = some (.link n 0x2D (leBytes 7 (t.advert n))))) ∧
    (st = 3 → Completes (.advert n content) s fun t =>
      (t.port n).adv = core ∧ (t.port n).advSame = same ∧ t.get (pgFport n) R.FPORT_PEER_ID = bits adv 37 24 ∧
      t.get (pgFport n) R.FPORT_PEER_MIN = bits adv 3 0 ∧ t.get (pgFport n) R.FPORT_PEER_MAX = bits adv 7 4 ∧
      t.get (pgFport n) R.FPORT_PEER_FEAT = bits adv 23 8 ∧ t.get (pgFport n) R.FPORT_PEER_PORT = bits adv 40 39 ∧
      ((same < 3 ∨ bit adv 41 = false) → t.portState n = 3) ∧
      (3 ≤ same → bit adv 41 = true →
        (none_ → t.portState n = 8 ∧ Captured s t (pgFport n) 0x21 (bits adv 7 0) ∧ t.raised (pgFport n) 3 = true) ∧
        (¬ none_ → bits adv 38 38 = s.get (pgFport n) R.FPORT_ROLE → t.portState n = 9 ∧ Captured s t (pgFport n) 0x22 0) ∧
        (¬ none_ → bits adv 38 38 ≠ s.get (pgFport n) R.FPORT_ROLE → t.portVer n = v ∧ t.portState n = (if v = 2 then 2 else 4)))) ∧
    ((st = 3 → 3 ≤ (s.port n).advSame → min (s.get pgFlink R.FLINK_VER_MAX) (bits peer 7 4) = 2 → s.get (pgFport n) R.FPORT_FALLBACK ≠ 1 →
      s.get pgFlink R.FLINK_VER_MIN ≤ 2 → bits peer 3 0 ≤ 2 → bits peer 38 38 ≠ s.get (pgFport n) R.FPORT_ROLE →
      Completes (.rate n 2) s fun t => t.portState n = 2 ∧ t.portVer n = 2 ∧ (t.port n).fast = true ∧ t.out.head? = some (.link n 0x78 (leBytes 7 2))) ∧
     (st = 7 → Completes (.rate n ver) s fun t => t.portState n = 2 ∧ (t.port n).fromKa = true ∧ (t.port n).fast = decide (ver = 2))) ∧
    (st = 4 → Completes (.identifyDone n) s fun t =>
      ((s.port n).fromKa = true → t.portState n = 6 ∧ (t.port n).fromKa = false ∧ t.raised (pgFport n) 1 = true) ∧
      ((s.port n).fromKa = false → t.portState n = 5 ∧ (t.port n).exch = 0)) ∧
    (st = 5 → (s.facesUp n = true → 256 ≤ (s.port n).exch) → Completes (.calibrateDone n) s fun t =>
      t.portState n = 6 ∧ (t.port n).fails = 0 ∧ t.raised (pgFport n) 1 = true) ∧
    (2 ≤ st → st ≤ 5 → Completes (.portStateTimeout n) s fun t => Counted s t (pgFport n) R.FPORT_CNT_RETRAIN 1 ∧
      ((s.port n).fails + 1 < 3 → t.portState n = 1 ∧ (t.port n).fails = (s.port n).fails + 1) ∧
      (3 ≤ (s.port n).fails + 1 → t.portState n = 0 ∧ (t.port n).fails = min ((s.port n).fails + 1) 4 ∧
        ((s.port n).fails + 1 = 3 → Captured s t (pgFport n) 0x20 st))) ∧
    (st ∈ [0, 8, 9, 10] → s.en (pgFport n) = true → s.pstate ≠ 0 → Completes (.portRetry n) s fun t => t.portState n = 1 ∧ cellOf t) ∧
    (2 ≤ st → st ≤ 7 → Completes (.portLost n) s fun t => t.portState n = 1 ∧ t.portVer n = 0 ∧
      Counted s t (pgFport n) R.FPORT_CNT_RETRAIN 1 ∧ (st = 6 → t.raised (pgFport n) 2 = true)) ∧
    (st = 6 → s.portFeat n 3 = true → Completes (.kaEnter n) s fun t => t.portState n = 7 ∧ cellOf t) ∧
    (s.answers fn (0x441044 + n * 4096) 4 = true → Completes (.retrain fn n) s fun t => t.get (pgFport n) R.FPORT_FALLBACK = 0 ∧
      (2 ≤ st → st ≤ 7 → t.portState n = 1 ∧ Counted s t (pgFport n) R.FPORT_CNT_RETRAIN 1) ∧
      (st ∈ [0, 8, 9, 10] → s.en (pgFport n) = true → s.pstate ≠ 0 → t.portState n = 1))

/-- Identifiers and topology: DEV_ID waits for outstanding requests, UP_PORT sets the roles, RQ_ID is looked up, announcements are recorded or
found duplicate, withdrawals remove them, and the root is taken from the parent (R303, R305, R306, R331).
The detail of a loop is a reading of the model (log entry 58). -/
def Obligations.TopologyIsKept : Prop :=
  ∀ (s : State) (n fn id src hops root depth : Nat),
    (∀ r ∈ s.link.reqs, r.cmd < 256) →
    (s.answers fn 0x440040 4 = true →
      (s.link.reqs = [] → Completes (.devIdWrite fn id) s fun t => t.devId = id % 2 ^ 14 ∧ t.link.devIdWait = none) ∧
      (s.link.reqs ≠ [] → Completes (.devIdWrite fn id) s fun t => t.devId = s.devId ∧ t.link.devIdWait = some (id % 2 ^ 14))) ∧
    (s.answers fn 0x440044 4 = true → id % 8 < 5 → Completes (.upPortWrite fn id) s fun t =>
      t.get pgFlink R.FLINK_UP_PORT = id % 8 ∧ (id % 8 = s.get pgFlink R.FLINK_UP_PORT → CellOnly s t 0x440044) ∧
      (id % 8 ≠ s.get pgFlink R.FLINK_UP_PORT →
        ∀ p, p < 4 → t.get (pgFport p) R.FPORT_ROLE = b2n (decide (p ≠ id % 8)) ∧ t.get (pgFport p) R.FPORT_FALLBACK = 0)) ∧
    (s.answers fn 0x440068 4 = true → Completes (.rqIdLookup fn id) s fun t => t.get pgFlink R.FLINK_RQ_ID = id % 2 ^ 14 ∧
      t.get pgFlink R.FLINK_RQ_PORT = (Tab.find s.link.ids (id % 2 ^ 14)).getD 7 % 8 ∧ CellOnly s t 0x440068) ∧
    (n < 4 → s.portCarries n 0xB = true → (s.topoUp = none ∨ hops < 63) →
      (let dup := src = s.devId ∨ ∃ p, Tab.find s.link.ids src = some p ∧ p ≠ n
       (dup → Completes (.topoAnnounce n src hops true) s fun t => t.link = s.link ∧ Captured s t pgFlink 0x20 (src + n * 2 ^ 16) ∧
         t.raised pgFlink 2 = true) ∧
       (¬ dup → Completes (.topoAnnounce n src hops true) s fun t => t.link = { s.link with ids := Tab.put s.link.ids src n })) ∧
      (Tab.find s.link.ids id = some n → Completes (.topoWithdraw n src id hops true) s fun t => Tab.find t.link.ids id = none ∧
        ∀ j, j ≠ id → Tab.find t.link.ids j = Tab.find s.link.ids j) ∧
      (Tab.find s.link.ids id ≠ some n → Completes (.topoWithdraw n src id hops true) s fun t => t.link = s.link) ∧
      (s.facesUp n = true → depth < 63 → Completes (.topoRoot n root depth true) s fun t => t.link.up = some (root, depth + 1)) ∧
      (s.facesUp n = true → s.parentTrained = true → depth < 63 → Completes (.topoRoot n root depth true) s fun t =>
        t.get pgFlink R.FLINK_ROOT_ID = root % 2 ^ 14 ∧ t.get pgFlink R.FLINK_DEPTH = depth + 1) ∧
      (s.facesUp n = true → 63 ≤ depth → Completes (.topoRoot n root depth true) s fun t =>
        t.portState n = 10 ∧ t.link.up = none ∧ Captured s t (pgFport n) 0x23 (depth + 1)) ∧
      (s.facesUp n = false → Completes (.topoRoot n root depth true) s (· = s))) ∧
    (n < 4 → s.portCarries n 0xB = true → s.topoUp ≠ none → 63 ≤ hops →
      ∀ i ∈ [Instr.topoAnnounce n src hops true, .topoWithdraw n src id hops true],
        Completes i s fun t => Counted s t (pgFport n) R.FPORT_CNT_RX_DROP 1 ∧ RegsOnly s t)

/-- Trigger messages of a line delivered here become remote triggers, confirmed or cancelled once; gate levels wait for their CCLK boundary
(R151, R152, R318, R319, R321).
A provisional trigger on a line that is off is remembered for its repeats alone: a reading of the model (log entry 59). -/
def Obligations.TriggerAndGateMessagesAct : Prop :=
  ∀ (s : State) (n line src hops anchor g : Nat) (level : Bool) (m : Remote),
    let k := line % 16
    let q := anchor + nsQ (s.get pgFlink R.FLINK_GATE_LAT)
    let old := s.trig.remotes.find? fun r => r.own src k anchor
    let seen := s.provSeen src k anchor
    (n < 4 → s.portCarries n 1 = true → s.flOn k anchor = true → s.now ≤ s.deadline anchor → seen = false →
      ∃ u, u.trig = { s.trig with
          remotes := { src := src, line := k, anchor := anchor, st := 0, prov := true, kept := [], defs := [] } :: s.trig.remotes } ∧
        Counted s u pgText R.TEXT_CNT_REMOTE_PROV 1 ∧
        exec (.trigProv n line src hops anchor true) s = .next (run (srcEvent (48 + k) anchor true) u)) ∧
    (n < 4 → s.portCarries n 1 = true → s.flOn k anchor = false → s.now ≤ s.deadline anchor → seen = false →
      Completes (.trigProv n line src hops anchor true) s fun t => t.provSeen src k anchor = true ∧
        t.trig = { s.trig with remotes := t.trig.remotes } ∧ t.seg = s.seg) ∧
    (n < 4 → s.portCarries n 1 = true → 63 ≤ hops → (s.deadline anchor < s.now ∨ seen = true) →
      Completes (.trigProv n line src hops anchor true) s fun t => Counted s t (pgFport n) R.FPORT_CNT_RX_DROP 2 ∧ RegsOnly s t) ∧
    (n < 4 → s.portCarries n 2 = true → s.flOn k anchor = true →
      (old = some m → m.st = 0 → ∃ u, Counted s u pgText R.TEXT_CNT_REMOTE_CONF 1 ∧
        u.trig = { s.trig with remotes := modFirst (fun r => r.own src k anchor) (fun r => { r with st := 1 }) s.trig.remotes } ∧
        exec (.trigConf n line src hops anchor true) s = .next (run (srcResolve (48 + k) anchor true false) u)) ∧
      (old = none → ∃ u, Counted s u pgText R.TEXT_CNT_REMOTE_CONF 1 ∧
        u.trig = { s.trig with remotes := 
          { src := src, line := k, anchor := anchor, st := 1, prov := false, kept := [], defs := [] } :: s.trig.remotes } ∧
        exec (.trigConf n line src hops anchor true) s = .next (run (srcEvent (48 + k) anchor false) u))) ∧
    (n < 4 → s.portCarries n 3 = true → s.flOn k anchor = true →
      (old = some m → m.st = 0 → ∃ u, Counted s u pgText R.TEXT_CNT_REMOTE_CXL 1 ∧
        u.trig = { s.trig with remotes := modFirst (fun r => r.own src k anchor) (fun r => { r with st := 1 }) s.trig.remotes } ∧
        exec (.trigCxl n line src hops anchor true) s = .next (run (srcResolve (48 + k) anchor false false) u)) ∧
      (old = none → Completes (.trigCxl n line src hops anchor true) s fun t => Counted s t pgText R.TEXT_CNT_LATE 1 ∧ t.trig = s.trig)) ∧
    (n < 4 → g < 4 → s.portCarries n 4 = true →
      (bit (s.get pgFlink R.FLINK_GATE_SRC) g = true → s.nowQ ≤ q → Completes (.gate n g level src hops anchor true) s fun t =>
        t.link = { s.link with gateWait := s.link.gateWait ++ [(g, level, q)] }) ∧
      (bit (s.get pgFlink R.FLINK_GATE_SRC) g = true → q < s.nowQ → ∃ u, Counted s u pgFlink R.FLINK_CNT_GATE_LATE 1 ∧ u.link = s.link ∧
        exec (.gate n g level src hops anchor true) s = .next (run (lineApply g level) u)) ∧
      (bit (s.get pgFlink R.FLINK_GATE_SRC) g = false → Completes (.gate n g level src hops anchor true) s fun t =>
        t.link = { s.link with lineLvl := Tab.put s.link.lineLvl g level })) ∧
    (s.link.gateWait = [(g, level, q)] →
      (q ≤ s.nowQ → ∃ u, u = { s with link := { s.link with gateWait := [] } } ∧ exec .gateLevelApply s = .next (run (lineApply g level) u)) ∧
      (s.nowQ < q → Completes .gateLevelApply s (· = s)))

/-- Time transfer: a request is answered with its stamps, a response completes the exchange and corrects the time base where the parent is
selected, and a delay far from the mean is rejected (R314 to R316). -/
def Obligations.TimeIsTransferred : Prop :=
  ∀ (s : State) (n t1 t2 t3 t4 utc st : Nat) (tai : Bool),
    let delay := divAway (((t4 : Int) - t1) - ((t3 : Int) - t2)) 2
    let theta := divAway (((t2 : Int) - t1) - ((t4 : Int) - t3) - sgn 32 (s.get (pgFport n) R.FPORT_ASYM)) 2
    let past := (s.port n).delays
    let far := past ≠ [] ∧ 50 * 2 ^ 48 * past.length < (delay * past.length - past.foldl (· + ·) 0).natAbs * 10 ^ 12
    let good := s.parentTrained = true ∧ tai = true ∧ (st = 2 ∨ st = 3)
    (n < 4 → s.portCarries n 6 = true → s.facesUp n = false → s.portCarries n 7 = true → Completes (.timeReq n t2 t3 true) s fun t =>
      SentOnly s t ∧ Sends s t n (ownMsg s 7 0 0 0 0 [shortStamp t2, shortStamp t3,
        (t3 / 2 ^ 64) % 2 ^ 32 + s.get pgTime R.TIME_UTC_OFFSET * 2 ^ 32 + s.get pgTime R.TIME_STATE * 2 ^ 48 +
          s.get pgTime R.TIME_TAI_VALID * 2 ^ 50,
        s.get pgFlink R.FLINK_ROOT_ID + s.get pgFlink R.FLINK_DEPTH * 2 ^ 16])) ∧
    (n < 4 → s.portCarries n 7 = true → s.facesUp n = true → (s.port n).t1 = some t1 → Completes (.timeResp n t2 t3 t4 utc st tai true) s fun t =>
      (t.port n).t1 = none ∧ (t.port n).exch = (s.port n).exch + 1 ∧ t.link.parent = (st, tai, utc, t3 / 2 ^ 48) ∧
      (s.get pgTime R.TIME_SEL = 1 → t.get pgTime R.TIME_UTC_OFFSET = utc % 2 ^ 16) ∧ (¬ good → t.qualified 1 = false) ∧
      (far → Counted s t (pgFport n) R.FPORT_CNT_TIME_REJ 1 ∧ (t.port n).delays = past ∧ (good ∨ s.qualified 1 = false → t.time = s.time)) ∧
      (¬ far → Counted s t (pgFport n) R.FPORT_CNT_TIME_EXCH 1 ∧ (t.port n).delays = (delay :: past).take 256 ∧
        t.get (pgFport n) R.FPORT_THETA = unsgn 32 (clampS 32 theta) ∧
        (good ∨ s.qualified 1 = false → t.time = { s.time with
          theta := theta, err := if s.get pgTime R.TIME_SEL = 1 then theta else s.time.err }))) ∧
    (let u := s.get pgFlink R.FLINK_UP_PORT
     u < 4 → s.portCarries u 6 = true →
     ((∀ q, (s.port u).askAt = some q → q + s.askPeriod u ≤ s.now) → Completes (.ttPeriod t1) s fun t => (t.port u).t1 = some t1 ∧
       (t.port u).askAt = some s.now ∧ t.regs = s.regs ∧ Sends s t u (ownMsg s 6 0 0 0 0 [0])) ∧
     (∀ q, (s.port u).askAt = some q → s.now < q + s.askPeriod u → Completes (.ttPeriod t1) s (· = s)))

/-- Requests between devices, events and keep-alives: a request for this device is executed or refused, a response or its timeout ends the request,
an event enters the FIFO of 64, messages for others go on, and what a port cannot use is counted (R305, R307, R313, R322, R324 to R327). -/
def Obligations.MessagesBetweenDevices : Prop :=
  ∀ (s : State) (n p src dst hops tag op off data status num route utc : Nat) (tai : Bool) (i : Instr) (ty : Nat) (r : RemReq) (hdr : Option Nat)
    (got : List Nat),
    n < 4 →
    let rejected := s.remoteRefused op off = true
    (s.portCarries n 8 = true → dst = s.devId →
      (rejected → ∃ u, CellOnly s u (R.FLINK_CNT_REMOTE_REJ.addr pgFlink 0) ∧ Counted s u pgFlink R.FLINK_CNT_REMOTE_REJ 1 ∧
        exec (.rreq n src dst hops tag op off data true) s = .next (run (sendResponse src tag 1 0) u)) ∧
      (¬ rejected → ∃ u, CellOnly s u (R.FLINK_CNT_REMOTE_EXEC.addr pgFlink 0) ∧ Counted s u pgFlink R.FLINK_CNT_REMOTE_EXEC 1 ∧
        exec (.rreq n src dst hops tag op off data true) s = .next (run (match op with
          | 0 => readReg 0 off 4 fun v => sendResponse src tag 0 v
          | 1 => .all [hostWrite 0 off 4 data, sendResponse src tag 0 0]
          | _ => .all [sendResponse src tag 0 0, .each (s.routeTo src).toList txFlush, coreReset 4]) u))) ∧
    (s.portCarries n 8 = true → dst ≠ s.devId → hops < 63 → s.routeTo dst = some p → s.portCarries p 8 = true →
      Completes (.rreq n src dst hops tag op off data true) s fun t => ∃ m, SentOnly s t ∧ Sends s t p m ∧ m.ty = 8 ∧ m.src = src ∧ m.dst = dst ∧ m.hops = hops + 1 ∧ m.tag = tag) ∧
    ((s.link.reqs.find? fun x => x.tag = tag) = some r → r.cmd < 256 →
      ((i = .rresp n src s.devId hops tag status data true ∧ s.portCarries n 9 = true) ∨ (i = .remoteTmo tag ∧ r.due ≤ s.now)) →
      Completes i s fun t => t.link.reqs = s.link.reqs.filter (fun x => x.tag ≠ tag) ∧ t.heldAt (r.cmd / 8) (r.cmd % 8) = none) ∧
    (s.portCarries n 9 = true → (s.link.reqs.any fun x => x.tag = tag) = false →
      Completes (.rresp n src s.devId hops tag status data true) s fun t => Counted s t pgFlink R.FLINK_CNT_LATE_RESP 1 ∧
        CellOnly s t (R.FLINK_CNT_LATE_RESP.addr pgFlink 0)) ∧
    (s.portCarries n 12 = true → (route = 2 ∧ s.upPort = none ∨ route ≠ 2 ∧ dst = s.devId) →
      (s.link.evFifo.length < 64 → Completes (.event n src dst route hops num true) s fun t =>
        t.link = { s.link with evFifo := s.link.evFifo ++ [(src, num)] } ∧ t.raised pgFlink 3 = true) ∧
      (64 ≤ s.link.evFifo.length → Completes (.event n src dst route hops num true) s fun t => t.link = s.link ∧
        Counted s t pgFlink R.FLINK_CNT_EVT_LOST 1 ∧ t.raised pgFlink 4 = true)) ∧
    (s.portCarries n 12 = true → hops < 63 → (route = 2 ∧ s.upPort = some p ∨ route ≠ 2 ∧ dst ≠ s.devId ∧ s.routeTo dst = some p) →
      s.portCarries p 12 = true → Completes (.event n src dst route hops num true) s fun t =>
        ∃ m, SentOnly s t ∧ Sends s t p m ∧ m.ty = 12 ∧ m.src = src ∧ m.dst = dst ∧ m.hops = hops + 1 ∧ m.data = [num]) ∧
    (s.portCarries n 10 = true → Completes (.keepalive n true) s (· = s)) ∧
    (s.portState n = 6 ∨ s.portState n = 7 → s.portCarries n 10 = true → Completes (.keepaliveSend n) s fun t =>
      SentOnly s t ∧ Sends s t n (ownMsg s 0xA 0 0 0 0 [s.pstate])) ∧
    (Completes (.abort n none) s fun t => Counted s t (pgFport n) R.FPORT_CNT_RX_DROP 1 ∧ CellOnly s t (R.FPORT_CNT_RX_DROP.addr (pgFport n) 0)) ∧
    (Completes (.abort n (some (hdr, got))) s fun t => Counted s t (pgFport n) R.FPORT_CNT_RX_DROP 1 ∧ Counted s t (pgFport n) R.FPORT_CNT_ABORT 1 ∧
      SentOnly s t ∧ (hdr = none → RegsOnly s t)) ∧
    (∀ h, hdr = some h → let m := headerMsg h got
      s.portCarries n m.ty = true → m.hops < 63 → m.data ≠ [] → s.onward n m = [p] → s.portCarries p m.ty = true → s.txOf p = PortTx.reset →
      Completes (.abort n (some (hdr, got))) s fun t => t.out = .link p 0x33 (leBytes 7 0) ::
        .link p m.ty (leBytes 7 (msgHeader m (m.hops + 1)) ++ (m.data.take (min got.length (m.data.length - 1))).flatMap (leBytes 8)) :: s.out) ∧
    ((i, ty) ∈ [(Instr.gate n op tai src hops data true, 4), (.timeReq n off data true, 6), (.timeResp n off data num utc status tai true, 7),
        (.rreq n src dst hops tag op off data true, 8), (.rresp n src dst hops tag status data true, 9), (.keepalive n true, 10),
        (.topoAnnounce n src hops true, 11), (.topoWithdraw n src dst hops true, 11), (.topoRoot n src op true, 11),
        (.event n src dst route hops num true, 12), (.trigProv n op src hops data true, 1), (.trigConf n op src hops data true, 2),
        (.trigCxl n op src hops data true, 3)] → s.portCarries n ty = false →
      Completes i s fun t => Counted s t (pgFport n) R.FPORT_CNT_RX_DROP 1 ∧ CellOnly s t (R.FPORT_CNT_RX_DROP.addr (pgFport n) 0))

/-! ### Commands of rings, notifications and the network -/

/-- Rings: EN starts and stops one, entries are taken in order and read, the read of a fault halts the ring with the codes of Table 12-5, chains go on
from a link or from a parked end, and doorbells move HOST_PTR, wake a chain or are discarded (R341, R343 to R345, R348, R350, R352, R356).
Reads that return in order are a reading of the model (log entry 36). -/
def Obligations.RingsTakeEntries : Prop :=
  ∀ (s : State) (n fn shell v : Nat) (resp : Option (List Byte)) (e : RingEnt) (a : Nat) (bs : List Byte),
    n < 8192 →
    let p := pgRing n
    let size := entrySize (s.get p R.RING_TYPE)
    (s.answers fn (0x800008 + n * 64) 4 = true →
      (reservedWrite p 0x008 [s.ringCfg n + 256] = false → s.get p R.RING_EN = 0 → s.get p R.RING_RUNNING = 0 → Completes (.ringEnable fn n) s fun t =>
        t.get p R.RING_EN = 1 ∧ t.get p R.RING_DEV_PTR = 0 ∧ t.get p R.RING_DONE_PTR = 0 ∧
        t.get p R.RING_HOST_PTR = 0 ∧ t.get p R.RING_CREDITS = 0 ∧ (t.ring n).ents = [] ∧
        t.get64 p R.RING_CUR_ADDR_LO R.RING_CUR_ADDR_HI = s.get64 p R.RING_BASE_LO R.RING_BASE_HI ∧
        if s.get p R.RING_TYPE = 0 ∧ s.pairOk n = false then
          t.get p R.RING_RUNNING = 0 ∧ t.get p R.RING_HALTED = 1 ∧ t.get p R.RING_HALT_CODE = 5
        else t.get p R.RING_RUNNING = 1 ∧ t.get p R.RING_HALTED = 0) ∧
      (reservedWrite p 0x008 [s.ringCfg n] = false → s.get p R.RING_EN = 1 → Completes (.ringDisable fn n) s fun t =>
        t.get p R.RING_EN = 0 ∧ t.get p R.RING_HALTED = s.get p R.RING_HALTED ∧ ((s.ring n).ents = [] → t.get p R.RING_RUNNING = 0))) ∧
    ((s.ring n).atEnd = none → s.canTake n = true →
      ((s.get p R.RING_TYPE = 0 → s.pairOk n = true) → Completes (.entryTake n) s fun t =>
        t.get p R.RING_DEV_PTR = (s.get p R.RING_DEV_PTR + 1) % 2 ^ 32 ∧
        (s.get p R.RING_PACE_MODE ≠ 0 → t.get p R.RING_CREDITS = s.get p R.RING_CREDITS - 1) ∧
        (s.get p R.RING_LOCAL = 0 → t.out = .busRead (s.nextEntry n) size :: s.out) ∧
        ∃ x, (t.ring n).ents = (s.ring n).ents ++ [x] ∧ x.addr = s.nextEntry n ∧ x.st = .reading ∧ x.filled = 0) ∧
      (s.get p R.RING_TYPE = 0 → s.pairOk n = false → Completes (.entryTake n) s fun t => t.get p R.RING_HALTED = 1 ∧
        t.get p R.RING_HALT_CODE = 5 ∧ t.get p R.RING_RUNNING = 0 ∧ t.get p R.RING_DEV_PTR = s.get p R.RING_DEV_PTR)) ∧
    ((s.ring n).atEnd = none → (s.ring n).ents.find? (fun x => x.st = .reading) = some e → e.code = 0 →
      let b := s.readBack n e.addr resp
      let c := s.readCode n b
      ((s.ring n).ents = [e] → (s.ring n).waiting = [] → b = some bs → c = 0 → s.chained n = false → Completes (.entryReadComplete n resp) s fun t =>
        (t.ring n).ents = [{ e with st := .ready, bytes := bs, code := 0 }] ∧ t.out = s.out ∧ t.get p R.RING_RUNNING = s.get p R.RING_RUNNING ∧
        t.get p R.RING_DONE_PTR = s.get p R.RING_DONE_PTR ∧ RegsOnly { s with host := t.host } t) ∧
      ((s.ring n).ents = [e] → b = some bs → c = 0 → s.chained n = true → bit (field bs 12 4) 1 = false → Completes (.entryReadComplete n resp) s fun t =>
        ((t.ring n).atEnd = if bit (field bs 12 4) 0 then some e.addr else none) ∧ (t.ring n).next = e.addr + 32) ∧
      ((s.ring n).ents = [e] → s.get p R.RING_HALTED = 0 → c = 5 → Completes (.entryReadComplete n resp) s fun t =>
        t.get p R.RING_HALTED = 1 ∧ t.get p R.RING_HALT_CODE = 5 ∧ t.get p R.RING_RUNNING = 0 ∧
        ∃ y, (t.ring n).ents = [y] ∧ y.st = .landing ∧ y.code = 5) ∧
      (∃ u, u.regs = s.regs ∧ exec (.entryReadComplete n resp) s = .next (run (settleRing n) u) ∧
        (u.ring n).ents = modFirst (fun x => x.st = .reading)
          (fun x => { x with st := .ready, bytes := b.getD (List.replicate size 0), code := c }) (s.ring n).ents) ∧
      ((s.ring n).ents = [e] → s.get p R.RING_HALTED = 0 → c ∈ [6, 7, 8] → Completes (.entryReadComplete n resp) s fun t =>
        t.get p R.RING_HALTED = 1 ∧ t.get p R.RING_HALT_CODE = c ∧ t.get p R.RING_RUNNING = 0 ∧
        (c ≠ 7 → Counted s t pgPcie R.PCIE_CNT_FAULT 1)) ∧
      ((s.ring n).ents = [e] → s.get p R.RING_HALTED = 0 → s.get p R.RING_LOCAL = 0 → Completes (.readFault n) s fun t =>
        t.get p R.RING_HALTED = 1 ∧ t.get p R.RING_HALT_CODE = 8 ∧ Counted s t pgPcie R.PCIE_CNT_FAULT 1)) ∧
    ((s.ring n).atEnd = some a → (s.ring n).reread = true → s.readBack n a resp = some bs →
      (bit (field bs 12 4) 0 = true → Completes (.entryReadComplete n resp) s fun t => (t.ring n).reread = false ∧ (t.ring n).atEnd = some a) ∧
      (bit (field bs 12 4) 0 = false → Completes (.entryReadComplete n resp) s fun t => (t.ring n).reread = false ∧ (t.ring n).atEnd = none ∧
        (t.ring n).next = if bit (field bs 12 4) 1 = true then field bs 0 8 else a + 32)) ∧
    ((s.ring n).atEnd = some a → (s.ring n).reread = false → (s.ring n).ents = [] → s.get p R.RING_RUNNING = 1 →
      (s.ring n).parkedAt + (s.ring n).repoll ≤ s.now → Completes (.chainRepoll n) s fun t =>
        (t.ring n).reread = true ∧ (t.ring n).parkedAt = s.now ∧ (t.ring n).atEnd = some a ∧
        (s.get p R.RING_LOCAL = 0 → t.out = .busRead a 32 :: s.out)) ∧
    (s.mayRing fn shell = true → v % 8192 = n →
      let h := v / 2 ^ 32 % 2 ^ 32
      (s.ringOwner n = shell → s.get p R.RING_EN = 1 → s.chained n = false →
        (h + 2 ^ 32 - s.get p R.RING_DONE_PTR) % 2 ^ 32 ≤ s.ringSize n → (h + 2 ^ 32 - s.get p R.RING_HOST_PTR) % 2 ^ 32 < 2 ^ 31 →
        Completes (.db64 fn shell 0 8 v) s fun t => t.get p R.RING_HOST_PTR = h ∧ CellOnly s t (R.RING_HOST_PTR.addr p 0)) ∧
      (s.ringOwner n = shell → s.get p R.RING_EN = 0 →
        Completes (.db64 fn shell 0 8 v) s fun t => Counted s t pgPcie R.PCIE_CNT_DB_BAD 1 ∧ t.get p R.RING_HOST_PTR = s.get p R.RING_HOST_PTR) ∧
      (s.ringOwner n = shell → s.get p R.RING_EN = 1 → s.chained n = true →
        Completes (.db32 fn shell 8 4 v) s fun t => (t.ring n).woken = true ∧ t.regs = s.regs)) ∧
    (s.mayRing fn shell = false → Completes (.db64 fn shell 0 8 v) s fun t => Counted s t pgSec R.SEC_CNT_DENIED 1)

/-- Data buffers, write-back and notification: a buffer opens after a zero-length read, a record is written into it and leaves its queue, a landing
check that succeeds returns the entry and one that fails halts the ring, an open buffer is flushed after FLUSH_TMO, coalesced deliveries go out at
their time or when the vector is unmasked, and an EVENT_OUT pulse ends (R344, R346, R347, R353, R354, R359, R360).
A record leaves its queue when its transmission begins, the model's choice (log entry 28). -/
def Obligations.RingsReturnEntries : Prop :=
  ∀ (s : State) (n src fn v q d : Nat) (e : RingEnt) (es : List RingEnt) (r : Rec) (b c : Nat),
    n < 8192 →
    let p := pgRing n
    let key := 65536 + n
    let size := entrySize (s.get p R.RING_TYPE)
    (s.get p R.RING_TYPE = 2 → s.get p R.RING_RUNNING = 1 → s.get p R.RING_LOCAL = 0 → (s.ring n).part = none → src < 256 →
      s.nextRec key src = some r →
      ((s.ring n).ents.find? (fun x => x.st = .opened) = none → (s.ring n).ents.find? (fun x => x.st ≠ .landing) = some e →
        e.st = .ready → e.code = 0 → Completes (.recordPlace n src) s fun t => t.out = .busRead e.buf.1 0 :: s.out ∧
          (t.ring n).ents = modFirst (fun x => x.st = .ready) (fun x => { x with st := .opening }) (s.ring n).ents ∧
          (t.strm src).queue = (s.strm src).queue) ∧
      ((s.ring n).ents.find? (fun x => x.st = .opened) = some e → (e.filled = 0 ∨ ∀ x ∈ e.held, x.frame = r.frame) →
        r.bytes.length ≤ e.buf.2 - e.filled → Completes (.recordPlace n src) s fun t =>
          Out.busWrite (e.buf.1 + e.filled) r.bytes ∈ t.out ∧ (t.ring n).part = none ∧
          (t.strm src).queue = delFirst (fun x => x.dest = key) (s.strm src).queue)) ∧
    ((s.ring n).ents.find? (fun x => x.st = .opening) = some e →
      (Completes (.bufferOpenReadDone n true) s fun t => t = { s with host := t.host } ∧
        (t.ring n).ents = modFirst (fun x => x.st = .opening) (fun x => { x with st := .opened }) (s.ring n).ents) ∧
      (Completes (.bufferOpenReadDone n false) s fun t => t.get p R.RING_HALTED = 1 ∧ t.get p R.RING_HALT_CODE = 6 ∧
        t.get p R.RING_RUNNING = 0)) ∧
    ((s.ring n).ents = e :: es → e.st = .landing → s.get p R.RING_LOCAL = 0 →
      (Completes (.landingCheckDone n true) s fun t => t.get p R.RING_DONE_PTR = (s.get p R.RING_DONE_PTR + 1) % 2 ^ 32 ∧
        Counted s t p R.RING_CNT_DESC 1 ∧ Out.busWrite (e.addr + size - 4) (leBytes 4 e.own) ∈ t.out ∧
        (s.get p R.RING_TYPE ≠ 3 → (t.ring n).ents = es)) ∧
      (Completes (.landingCheckDone n false) s fun t => t.get p R.RING_HALTED = 1 ∧ t.get p R.RING_HALT_CODE = 6 ∧
        t.get p R.RING_DONE_PTR = s.get p R.RING_DONE_PTR)) ∧
    (s.get p R.RING_TYPE = 2 → (s.ring n).ents.find? (fun x => x.st ≠ .landing) = some e → e.st = .opened → 0 < e.filled →
      e.flushAt ≤ s.now → s.nextRec key src = none → s.queuedFor key = [] → s.nextRec key 256 = none →
      Completes (.flushTmo n src) s fun t => Counted s t p R.RING_CNT_PARTIAL 1) ∧
    (v < 2048 → s.vecFunc v = some fn → Tab.get s.host.flr false fn = false → Tab.get s.host.msixEn false fn = true →
      let message := Out.msix v (s.get64 (pgMsix v) R.MSIX_ADDR_LO R.MSIX_ADDR_HI) (s.get (pgMsix v) R.MSIX_DATA)
      (Tab.find s.host.pend v = some (d, q) → q + usQ (Tab.get s.host.coalUse (s.coal v) v).2 ≤ s.now → s.get (pgMsix v) R.MSIX_MASK = 0 →
        Completes (.coalTimer v) s fun t => Tab.find t.host.pend v = none ∧ t.out = message :: s.out ∧ Counted s t pgPcie R.PCIE_CNT_MSIX 1) ∧
      (Tab.find s.host.vecs fn = some (b, c) → b ≤ v → v < b + c → s.answers fn (0xC0000C + (v - b) * 16) 4 = true →
        s.get (pgMsix v) R.MSIX_MASK = 1 → Tab.get s.host.pba false v = true → Completes (.msixUnmask fn (v - b)) s fun t =>
          t.get (pgMsix v) R.MSIX_MASK = 0 ∧ Tab.get t.host.pba false v = false ∧ t.out = message :: s.out)) ∧
    (Tab.find s.host.evtOut d = some q → q ≤ s.now → Completes (.eventOutPulseEnd d) s fun t =>
      Tab.find t.host.evtOut d = none ∧ t.out = .pin (pinEventOut d) false :: s.out ∧ t.regs = s.regs)

/-- Sub-ports and queue pairs: contexts wait for a link or take their other path, records are sent in class order, acknowledgements, NAKs and timeouts
advance, repeat or end a context, and notifications set its rate (R365, R367, R369 to R371, R379, R382 to R384).
Messages and path switches follow readings of the model (log entries 29, 30). -/
def Obligations.QueuePairsCarryRecords : Prop :=
  ∀ (s : State) (x c psn delay corr unc k j m q : Nat) (an : Bool) (r : Rec),
    c < 4096 →
    let e := pgEnet (x / 4)
    let pe := pgEnet (s.pathSub c / 4)
    let rate := s.qp c R.QPC_RATE
    let floor := s.qp c R.QPC_MIN_RATE
    (x < 8 → s.subUp x = true → Completes (.subportDown x corr unc an) s fun t => t.subUp x = false ∧ t.raised e 2 = true ∧
      Counted s t e R.ENET_CNT_LINK_DOWN 1 ∧ Counted s t e R.ENET_CNT_FEC_CORR corr ∧ Counted s t e R.ENET_CNT_FEC_UNCORR unc ∧
      (an = true → Captured s t e 0x20 (x % 4)) ∧
      (c ∈ s.ctxList → s.qp c R.QPC_STATE = 1 → s.pathSub c = x → s.qp c R.QPC_ALT_EN = 0 → t.qp c R.QPC_STATE = 2)) ∧
    (x < 8 → 0 < s.lineRate x → s.subUp x = false → (∀ z, Tab.find s.net.downAt x = some z → z + msQ 10 ≤ s.now) → Completes (.subportUp x) s fun t => t.subUp x = true ∧ t.raised e 1 = true ∧
      Tab.find t.net.upAt x = some s.now ∧ (c ∈ s.ctxList → s.qp c R.QPC_STATE = 2 → s.pathSub c = x → t.qp c R.QPC_STATE = 1)) ∧
    (s.qp c R.QPC_STATE = 1 → s.qp c R.QPC_ON_ALT = 1 → s.get pgRdma R.RDMA_FAILBACK = 1 → s.subUp (subOf (s.qp c R.QPC_PORT)) = true →
      Tab.find s.net.upAt (subOf (s.qp c R.QPC_PORT)) = some q → q + secQ 1 ≤ s.now → (s.ctx c).sent = [] →
      Completes (.failback c) s fun t => t.qp c R.QPC_ON_ALT = 0 ∧ Counted s t pgRdma R.RDMA_CNT_FAILBACK 1 ∧ t.raised pgRdma 3 = true) ∧
    (s.qp c R.QPC_STATE = 2 → (s.ctx c).holdEnd = some q → q ≤ s.now → Completes (.linkHold c) s fun t => t.qp c R.QPC_STATE = 3 ∧
      t.qp c R.QPC_ERR_CAUSE = 5 ∧ Counted s t pgRdma R.RDMA_CNT_LINK_HOLD 1 ∧ Counted s t pgRdma R.RDMA_CNT_QP_ERR 1 ∧
      Captured s t pgRdma 0x20 (c + 5 * 65536)) ∧
    (x < 8 → (s.ctxList.filter fun y => s.pathSub y = x) = [c] → s.ctxClass c = some k → k < 3 →
      (exec (.egressSchedule x) s = .next (run (ctxSend c) { s with net := { s.net with turn := Tab.put s.net.turn (x * 4 + k) c } })) ∧
      ((s.ctx c).sent = [] → s.nextOf (s.ctxKey c) = some (j, m) → s.nextRec (s.ctxKey c) m = some r →
        (s.isUdp c = false → Completes (.egressSchedule x) s fun t => ∃ y, (t.ctx c).sent = [y] ∧ y.item.bytes = r.bytes ∧
          y.psn = s.qp c R.QPC_NEXT_PSN ∧ y.put = y.packets ∧ t.qp c R.QPC_NEXT_PSN = (s.qp c R.QPC_NEXT_PSN + y.packets) % 2 ^ 24 ∧
          t.head c = (s.head c + s.headStep c r.bytes.length) % 2 ^ 64) ∧
        (s.isUdp c = true → Completes (.egressSchedule x) s fun t =>
          t.head c = (s.head c + (chunks (s.fragSize c) (r.bytes.length + 1) r.bytes).length) % 2 ^ 64))) ∧
    ((s.host.rings.map (·.1)) = [c] → s.ringClass c = some k → k < 3 → (s.ring c).part = none → s.nextOf (65536 + c) = some (j, m) →
      exec (.egressSchedule 8) s = .next (run (recordPlace c m) { s with net := { s.net with turn := Tab.put s.net.turn (32 + k) c } })) ∧
    (s.accepts c = false → Completes (.roceAck c psn) s fun t => Counted s t pe R.ENET_CNT_RX_DISCARD 1 ∧ RegsOnly s t) ∧
    (s.accepts c = true → s.psnOpen c psn = true →
      (Completes (.roceAck c psn) s fun t => Counted s t pe R.ENET_CNT_RX_FRAMES 1 ∧ t.qp c R.QPC_ACK_PSN = (psn + 1) % 2 ^ 24 ∧
        (t.ctx c).retries = 0 ∧ ∃ i, (t.ctx c).sent = (s.ctx c).sent.drop i ∧ ∀ y ∈ (s.ctx c).sent.take i, y.put = y.packets) ∧
      (Completes (.roceNak c psn 0 delay) s fun t => Counted s t pe R.ENET_CNT_RX_FRAMES 1 ∧ t.qp c R.QPC_ACK_PSN = psn % 2 ^ 24) ∧
      (s.qp c R.QPC_RNR_RETRY = 7 → Completes (.roceNak c psn 1 delay) s fun t => Counted s t pgRdma R.RDMA_CNT_RNR 1 ∧
        (t.ctx c).rnrAt = some (s.now + nsQ delay)) ∧
      (∀ w, (w = 2 ∨ w = 3) → Completes (.roceNak c psn w delay) s fun t => t.qp c R.QPC_STATE = 3 ∧ t.qp c R.QPC_ERR_CAUSE = w + 1 ∧
        Counted s t pgRdma R.RDMA_CNT_QP_ERR 1)) ∧
    (s.qp c R.QPC_STATE = 1 → (s.ctx c).sent ≠ [] → (s.ctx c).rnrAt = none → (s.ctx c).timerAt + s.retryTmo c ≤ s.now →
      Completes (.retryTmo c) s fun t => Counted s t pgRdma R.RDMA_CNT_TIMEOUT 1 ∧
        ((s.ctx c).retries < s.qp c R.QPC_RETRY_CNT → (t.ctx c).retries = (s.ctx c).retries + 1 ∧ (t.ctx c).timerAt = s.now) ∧
        (s.qp c R.QPC_RETRY_CNT ≤ (s.ctx c).retries → s.qp c R.QPC_ALT_EN = 0 → t.qp c R.QPC_STATE = 3 ∧ t.qp c R.QPC_ERR_CAUSE = 1)) ∧
    ((s.ctx c).rnrAt = some q → q ≤ s.now → Completes (.rnrDelay c) s fun t => t = { s with net := t.net } ∧ (t.ctx c).rnrAt = none ∧
      (t.ctx c).timerAt = s.now) ∧
    (s.accepts c = true → Completes (.cnp c) s fun t => Counted s t pgRdma R.RDMA_CNT_CNP 1 ∧ (t.ctx c).incAt = s.now ∧
      (floor < rate → (s.ctx c).cnpAt = none → t.qp c R.QPC_RATE = max floor (rate - rate / 2 ^ s.get pgRdma R.RDMA_RP_DEC) ∧
        (t.ctx c).cnpAt = some s.now) ∧
      (rate < floor → (s.ctx c).cnpAt = none → t.qp c R.QPC_RATE = floor) ∧
      (rate = floor → t.qp c R.QPC_RATE = rate ∧ Counted s t pgRdma R.RDMA_CNT_RATE_FLOOR 1)) ∧
    (s.accepts c = true → (s.ctx c).incAt + usQ (s.get pgRdma R.RDMA_RP_PERIOD) ≤ s.now → Completes (.rpPeriod c) s fun t =>
      t.qp c R.QPC_RATE = max rate (min (s.lineRate (s.pathSub c)) (rate + s.get pgRdma R.RDMA_RP_AI)) ∧
      (t.ctx c).incAt = (s.ctx c).incAt + usQ (s.get pgRdma R.RDMA_RP_PERIOD))

/-- Shedding, pauses, discarded frames and the PTP clocks (R366, R367, R380, R385).
What a pause counts as is a reading of the model, and the PTP offset is presumed from IEEE 1588 (log entries 30, 56). -/
def Obligations.EthernetFramesAct : Prop :=
  ∀ (s : State) (n x k z stamp origin st t1 t2 t3 : Nat) (utc : Int) (blk : Bool) (corr unc : Nat) (r : Rec) (before after : List Rec),
    let e := pgEnet (x / 4)
    (n < 256 → (s.strm n).queue = before ++ r :: after → (∀ y ∈ before, (y.isData && !y.begun) = false) → r.isData = true → r.begun = false →
      s.st n R.ST_CLASS = 2 → r.queuedAt + s.shedAge r.queuedAt < s.now → Completes (.shed n) s fun t =>
        Counted s t pgRdma R.RDMA_CNT_SHED 1 ∧ t.raised pgRdma 4 = true ∧
        (t.strm n).queue.filter Rec.isData = before.filter Rec.isData ++ after.filter Rec.isData) ∧
    (x < 8 → k < 8 → bit (s.get e R.ENET_PFC_EN) k = true →
      (0 < z → Completes (.pfcFrame x [(k, z)]) s fun t => Tab.find t.net.paused (x * 8 + k) =
          some (s.now + z * 64 * 2 ^ 48 / (s.lineRate x * 1000000)) ∧ bit (t.get e R.ENET_PAUSED) k = true ∧
        Counted s t e R.ENET_CNT_PFC_RX 1 ∧ Counted s t e R.ENET_CNT_RX_FRAMES 1) ∧
      (Completes (.pfcFrame x [(k, 0)]) s fun t => t.isPaused x k = false)) ∧
    (x < 8 → bit (s.get e R.ENET_PFC_EN) k = false → Completes (.pfcFrame x [(k, z)]) s fun t => t.net = s.net ∧
      t.get e R.ENET_CNT_PFC_RX = s.get e R.ENET_CNT_PFC_RX) ∧
    (Tab.find s.net.paused (x * 8 + k) = some z → z ≤ s.now → Completes (.pfcPauseEnd x k) s fun t => t.isPaused x k = false) ∧
    (x < 8 → Completes (.rxDiscard x blk corr unc) s fun t => Counted s t e R.ENET_CNT_RX_DISCARD 1 ∧
      Counted s t e R.ENET_CNT_FEC_CORR corr ∧ Counted s t e R.ENET_CNT_FEC_UNCORR unc ∧
      Counted s t e R.ENET_CNT_PAUSE_GLOBAL (b2n blk) ∧ t.net = s.net) ∧
    (let p := pgEnet n
     let sub := s.ptpSub n
     let slave := s.get p R.ENET_PTP_STATE = 4 ∨ s.get p R.ENET_PTP_STATE = 5
     let free := s.isPaused sub (s.get p R.ENET_PCP_PTP) = false
     n < 2 → s.subUp sub = true →
     (s.get p R.ENET_PTP_EN = 0 → ∀ kind, Completes (.ptpMessage n kind stamp origin utc st) s fun t => Counted s t p R.ENET_CNT_RX_DISCARD 1 ∧ t.net = s.net) ∧
     (s.get p R.ENET_PTP_EN = 1 → ∀ kind, Completes (.ptpMessage n kind stamp origin utc st) s fun t => Counted s t p R.ENET_CNT_RX_FRAMES 1 ∧
       t.get p R.ENET_PTP_STATE = (if st % 8 = 2 ∧ s.get p R.ENET_SLAVE_ONLY = 1 then s.get p R.ENET_PTP_STATE else st % 8) ∧
       (t.get p R.ENET_PTP_STATE ≠ s.get p R.ENET_PTP_STATE → (t.ptp n).syncs = 0 ∧ t.raised p 3 = true) ∧
       (kind = 0 → t.ptp n = { t1 := none, t2 := some stamp, t3 := none, t4 := none, syncs := (t.ptp n).syncs, syncDue := (s.ptp n).syncDue } ∧
         (t.get p R.ENET_PTP_STATE = s.get p R.ENET_PTP_STATE →
           (t.ptp n).syncs = if (s.ptp n).t2.isSome && (s.ptp n).t1.isNone then 0 else (s.ptp n).syncs)) ∧
       (kind = 1 → slave → t.ptp n = { s.ptp n with t1 := some origin, t3 := some stamp, syncs := (t.ptp n).syncs } ∧
         (free → Counted s t p R.ENET_CNT_TX_FRAMES 1) ∧ (s.get p R.ENET_PTP_STATE = 5 → t.get p R.ENET_PTP_STATE = 5 → (s.ptp n).t2.isSome = true →
           (s.ptp n).t1 = none → (t.ptp n).syncs = (s.ptp n).syncs + 1)) ∧
       (kind = 2 → slave → (s.ptp n).t1 = some t1 → (s.ptp n).t2 = some t2 → (s.ptp n).t3 = some t3 →
         t.get p R.ENET_PTP_OFFSET = unsgn 32 (clampS 32 (divAway (s.ptpOffset n t1 t2 t3 origin * 10 ^ 12) (2 ^ 48)))) ∧
       (kind = 3 → s.get pgTime R.TIME_SEL = 2 + n → t.get pgTime R.TIME_UTC_OFFSET = unsgn 16 utc) ∧
       (kind = 4 → s.get p R.ENET_PTP_STATE = 2 → free → ∃ pre, Out.packet sub 4 (pre ++ qBytes stamp) ∈ t.out)) ∧
     (s.get p R.ENET_PTP_EN = 1 → s.get p R.ENET_PTP_STATE = 2 → free → (∀ z, (s.ptp n).syncDue = some z → z ≤ s.now) →
       Completes (.ptpSyncSend n stamp) s fun t => Counted s t p R.ENET_CNT_TX_FRAMES 2 ∧ (t.ptp n).syncDue = some (s.now + s.syncPeriod n) ∧
       ∃ pre, t.out.head? = some (.packet sub 4 (pre ++ qBytes stamp ++ leBytes 2 (s.get pgTime R.TIME_UTC_OFFSET)))))

/-! ### Commands of protection, the fabric, power and the monitor -/

/-- Publications, the end of revocation and debug sessions; arbitration grants the first by rank, priority and turn, a withdrawal arbitrates again,
and an unanswered request, or one to a pseudo-channel that is down, is aborted (R429, R431, R432, R435, R449, R450, R453, R517).
Hints and tokens at their bounds, and what a debug session does, are the model's choice (log entries 32, 65). -/
def Obligations.ProtectionAndFabric : Prop :=
  ∀ (s : State) (fn n w point cyc k sp req : Nat) (reqs : List (Nat × Nat × Bool)) (g : FabReq) (h : Held) (att acc : Bool),
    let bad := s.pubBad
    let rs := (reqs.map fun r => ({ num := r.1, bytes := r.2.1, write := r.2.2 } : FabReq)).filter fun r => admitted point r.unit
    (s.answers fn 0x7044 4 = true →
      (bad = none → Completes (.publish fn) s fun t => t.get pgSec R.SEC_GEN = (s.get pgSec R.SEC_GEN + 1) % 2 ^ 32 ∧
        t.get pgSec R.SEC_PEND = 0 ∧ t.sec.pendWin = [] ∧ t.sec.pendOwn = [] ∧ t.sec.wins = s.winsNext ∧
        (∀ a ∈ s.sec.pendOwn, t.owner a = (s.cell a).toNat % 4096) ∧ (∀ a, a ∉ s.sec.pendOwn → t.owner a = s.owner a) ∧
        Counted s t pgSec R.SEC_CNT_PUBLISH 1 ∧ t.raised pgSec 2 = true) ∧
      (bad = some (n, w) → Completes (.publish fn) s fun t => t.sec = s.sec ∧ t.get pgSec R.SEC_GEN = s.get pgSec R.SEC_GEN ∧
        Counted s t pgSec R.SEC_CNT_PUB_REFUSED 1 ∧ Captured s t pgSec 0x20 (n + w * 2 ^ 12))) ∧
    (s.answers fn 0x7048 4 = true → Completes (.dbgLock fn) s fun t => t.get pgSec R.SEC_DBG_LOCK = 1 ∧ t.get pgSec R.SEC_DBG_ACTIVE = 0 ∧
      CellOnly s t 0x7048) ∧
    (s.get pgSec R.SEC_REVOKING = 1 → (s.allHeld.any fun e => e.2.2.ends.any fun x => x.1 = 3) = false → Completes .revokeDone s fun t =>
      t.get pgSec R.SEC_REVOKING = 0 ∧ t.sec.revoking = [] ∧ t.raised pgSec 3 = true) ∧
    (s.coreOn = true → (s.get pgSec R.SEC_DBG_LOCK = 1 ∨ s.get pgSec R.SEC_DBG_FUSE = 1) → Completes (.debugAttach att acc) s fun t =>
      t.get pgSec R.SEC_DBG_ACTIVE = 0 ∧ CellOnly s t 0x7048) ∧
    (s.coreOn = true → s.get pgSec R.SEC_DBG_LOCK = 0 → s.get pgSec R.SEC_DBG_FUSE = 0 → Completes (.debugAttach att acc) s fun t =>
      t.get pgSec R.SEC_DBG_ACTIVE = b2n att ∧ (att = true → s.get pgSec R.SEC_DBG_ACTIVE = 0 → t.raised pgSec 4 = true) ∧
      Counted s t pgSec R.SEC_CNT_DEBUG (b2n (att && acc))) ∧
    (Tab.find s.sys.pcTries point = none → s.winner point cyc (Tab.get s.fab.last 127 point) rs = some g → g ∈ rs →
      Completes (.arbitration point cyc false reqs) s fun t => (∃ x, Tab.find t.fab.granted point = some (g, x)) ∧
        Tab.find t.fab.last point = some g.unit ∧ Tab.find t.fab.waits (point * 256 + g.num) = none ∧ Out.grant point g.num 0 ∈ t.out ∧
        t.geti pgArb R.ARB_CNT_GRANT g.unit = min R.ARB_CNT_GRANT.max (s.geti pgArb R.ARB_CNT_GRANT g.unit + 1)) ∧
    (Tab.find s.sys.pcTries point = none → Completes (.arbitration point cyc true reqs) s fun t => Tab.find t.fab.granted point = none ∧
      ∀ r ∈ rs, Out.grant point r.num 255 ∈ t.out) ∧
    (∀ b, Tab.find s.sys.pcTries point = some n → rs = [g] → 76 ≤ g.unit → Completes (.arbitration point cyc b reqs) s fun t =>
      Tab.find t.fab.granted point = none ∧ Tab.find t.fab.waits (point * 256 + g.num) = none ∧ t.out = s.out ∧
      Counted s t pgArb R.ARB_CNT_TIMEOUT 1 ∧ Captured s t pgArb 6 g.unit) ∧
    (Tab.find s.fab.granted point = some (g, sp) → ∃ u, Counted s u pgArb R.ARB_CNT_WITHDRAW 1 ∧
      u.fab.granted = Tab.del s.fab.granted point ∧ exec (.withdrawal point cyc false reqs) s = .next (run (arbitrate point cyc false
        (reqs.map fun r => { num := r.1, bytes := r.2.1, write := r.2.2 })) u)) ∧
    (req < 79 →
      (Completes (.fabricTimeout req (false, none)) s fun t => Counted s t pgArb R.ARB_CNT_TIMEOUT 1 ∧ Captured s t pgArb 5 req ∧
        t.raised pgArb 1 = true) ∧
      (Completes (.fabricTimeout req (true, none)) s fun t => Counted s t pgArb R.ARB_CNT_TIMEOUT 1 ∧ Captured s t pgArb 6 req) ∧
      (44 ≤ req → req < 76 → s.current (req - 44) = some (k, h) → Completes (.fabricTimeout req (false, none)) s fun t =>
        t.heldAt (req - 44) k = some { h with flags := h.flags ||| 4, ends := h.ends ++ [(5, 5, 0)] })) ∧
    (Completes (.fabricTimeout 76 (false, some (n, w))) s fun t => t.out = .readData n w 0 :: s.out ∧ Captured s t pgArb 5 76)

/-- Power: a wake starts the transition to its state, STANDBY and READY are reached, leaving READY keeps the deltas, an idle stack refreshes itself,
and a GATE ball changes its signal (R321, R456, R459 to R463).
Merged wakes, and STATE_CHANGE at every change of STATE, are readings of the model (log entries 68, 73). -/
def Obligations.PowerStatesChange : Prop :=
  ∀ (s : State) (fn n target src hops stack q g : Nat) (v : Bool),
    (s.pstate = 0 → s.get pgPwr R.PWR_TRANSIT = 0 → s.get pgTop R.TOP_STAGE = 7 → bit (s.get pgPwr R.PWR_THERM_STAT) 3 = false →
      s.readyBarred = false → (target = 1 ∨ target = 2) →
      let awake (cause : Nat) (t : State) : Prop := t.get pgPwr R.PWR_TRANSIT = 1 ∧ t.get pgPwr R.PWR_TARGET = target ∧
        t.get pgPwr R.PWR_WAKE_CAUSE = 2 ^ cause ∧ Counted s t pgPwr R.PWR_CNT_WAKE 1 ∧ t.raised pgPwr 2 = true ∧ t.pstate = 0
      (s.answers fn 0x5044 4 = true → Completes (.pwrWake fn target) s (awake 0)) ∧
      (n < 4 → s.portCarries n 5 = true → s.get pgFlink R.FLINK_WAKE_EN = 1 →
        Completes (.wake n target src s.devId 0 hops true) s (awake 1))) ∧
    (s.get pgPwr R.PWR_TRANSIT = 1 → s.get pgPwr R.PWR_TARGET = 1 →
      (s.pstate = 0 → s.scsRun = true → s.get pgClk R.CLK_CPLL_STATE = 4 → Completes .standbyReached s fun t => t.pstate = 1 ∧ t.get pgPwr R.PWR_TRANSIT = 0 ∧ t.get pgPwr R.PWR_TARGET = 0 ∧
        t.get pgPcie R.PCIE_PM_STATE = 0 ∧ t.host.evtHeld = []) ∧
      (s.pstate = 2 → Completes .standbyReached s fun t => t.pstate = 1 ∧ t.get pgPwr R.PWR_TRANSIT = 0 ∧
        t.get pgPwr R.PWR_RETAIN_OK = 1 ∧ t.pwr.keptDelta = s.cal.delta ∧ t.pwr.keptOvr = s.cal.ovr ∧
        ∀ b, b < 8 → t.get (pgBank b) R.BANK_POWERED = 0)) ∧
    (s.get pgPwr R.PWR_TRANSIT = 1 → s.get pgPwr R.PWR_TARGET = 2 → s.pstate = 1 → s.calibrated = true → Completes (.readyReached ()) s fun t =>
      t.pstate = 2 ∧ t.get pgPwr R.PWR_TRANSIT = 0 ∧ t.get pgPwr R.PWR_TARGET = 0) ∧
    (stack < 2 → Tab.find s.pwr.used stack = some q → s.pstate = 1 → q + usQ 100 ≤ s.now → Completes (.hbmSelfRefresh stack) s fun t =>
      t.get (pgMc (2 * stack)) R.MC_MODE = 1 ∧ t.get (pgMc (2 * stack + 1)) R.MC_MODE = 1 ∧ Tab.find t.pwr.used stack = none) ∧
    (g < 4 → Tab.get s.link.ball false g ≠ v → s.pstate ≠ 0 → bit (s.get pgFlink R.FLINK_GATE_EXP) g = false →
      s.get pgPwr R.PWR_WAKE_EN_GATE = 0 →
      let u := { s with link := { s.link with ball := Tab.put s.link.ball g v } }
      (bit (s.get pgFlink R.FLINK_GATE_SRC) g = false → exec (.gateEdge g v) s = .next (run (gateLevel g v) u)) ∧
      (bit (s.get pgFlink R.FLINK_GATE_SRC) g = true → exec (.gateEdge g v) s = .next u))

/-- The monitor converter, the timers, the PWM outputs and SMBus: requests each millisecond, a start by class and age, a code with its window and
thermal levels, self-calibration, expiry at EXP, counts and answers (R464, R467, R469, R470, R475 to R477).
LATE and CNT_SKIP at their bounds are readings of the model, and the alert response is presumed from SMBus (log entries 72, 74). -/
def Obligations.MonitorAndTimersRun : Prop :=
  ∀ (s : State) (fn k n raw gain start : Nat) (offs : Int) (v : Word) (late : Bool) (r : MonReq),
    (s.answers fn 0x3040 4 = true → Completes (.selfcal fn) s fun t => t.get pgMon R.MON_SELFCAL = 1 ∧ t.pwr.selfcal = true ∧
      t.get pgMon R.MON_LOW_POWER = s.get pgMon R.MON_LOW_POWER) ∧
    (s.pwr.selfcal = true → Completes (.selfcalDone gain offs) s fun t => t.get pgMon R.MON_SELFCAL = 0 ∧ t.pwr.selfcal = false ∧
      t.pwr.first = true ∧ t.raised pgMon 5 = true ∧ (∀ i, i < 32 → t.geti pgMon R.MON_WIN i = 0) ∧
      (29491 ≤ gain ∧ gain ≤ 36044 ∧ -64 ≤ offs ∧ offs ≤ 63 → t.get pgMon R.MON_GAIN_CORR = gain ∧
        t.get pgMon R.MON_OFFS_CORR = unsgn 12 offs ∧ t.get pgMon R.MON_CAL_VALID = 1) ∧
      (¬ (29491 ≤ gain ∧ gain ≤ 36044 ∧ -64 ≤ offs ∧ offs ≤ 63) → t.get pgMon R.MON_GAIN_CORR = s.get pgMon R.MON_GAIN_CORR ∧
        Captured s t pgMon 0x20 (gain % 2 ^ 16))) ∧
    (Completes .housekeepingScan s fun t => t = { s with pwr := t.pwr } ∧ t.pwr.therm = (s.cell 0x5050).toNat ∧
      (∀ i, i < 16 → ∃ x ∈ t.pwr.reqs, x.cls = 2 ∧ x.input = i) ∧ ∀ x ∈ s.pwr.reqs, x ∈ t.pwr.reqs) ∧
    (s.pwr.running = none → s.pwr.selfcal = false → s.pwr.first = true → s.nextConv = some r → Completes .conversionStart s fun t =>
      t.pwr.running = some (r, s.now, decide (r.cls = 1) && decide (r.due + nsQ 20 ≤ s.now)) ∧ t.get pgMon R.MON_BUSY = 1 ∧
      t.get pgMon R.MON_CUR_INPUT = r.input % 32 ∧ t.pwr.lowPower = s.convLow ∧ t.pwr.setup = s.monSetup r.input) ∧
    (s.pwr.running = some (r, start, late) → r.input < 32 → s.convOver start = true → Completes (.conversionDone raw) s fun t => t.pwr.running = none ∧
      t.geti pgMon R.MON_CODE r.input = s.monCode raw ∧ t.geti pgMon R.MON_VALID r.input = 1 ∧ t.geti pgMon R.MON_LATE r.input = b2n late ∧
      t.get pgMon R.MON_BUSY = 0 ∧ Counted s t pgMon R.MON_CNT_CONV 1 ∧
      (r.input < 6 → 16 * limitOf r.input < (s.monCode raw : Int) - 800 → bit (t.get pgPwr R.PWR_THERM_STAT) 1 = true)) ∧
    (k < 8 →
      let e := s.timerExp k
      let per := s.geti pgTmr R.TMR_PERIOD_LO k + s.geti pgTmr R.TMR_PERIOD_HI k * 2 ^ 32
      let expired (t : State) : Prop := t.raised pgTmr (1 + k) = true ∧
        t.geti pgTmr R.TMR_CNT_EXP k = min R.TMR_CNT_EXP.max (s.geti pgTmr R.TMR_CNT_EXP k + 1)
      (s.answers fn (0x4108 + k * 32) 4 = true → Completes (.timerExpWrite fn k v) s fun t =>
        t.timerExp k = qOfWords (s.geti pgTmr R.TMR_EXP0 k) (s.geti pgTmr R.TMR_EXP1 k) v.toNat) ∧
      (s.answers fn (0x4114 + k * 32) 4 = true →
        (s.now < e → ∀ b, Completes (.timerArm fn k b) s fun t => t.geti pgTmr R.TMR_ARM k = 1 ∧ t.geti pgTmr R.TMR_PERIODIC k = b2n b ∧
          RegsOnly s t) ∧
        (e ≤ s.now → Completes (.timerArm fn k false) s fun t => t.geti pgTmr R.TMR_ARM k = 0 ∧ expired t)) ∧
      (s.geti pgTmr R.TMR_ARM k = 1 → e ≤ s.now →
        (s.geti pgTmr R.TMR_PERIODIC k = 0 → Completes (.timerExpiry k) s fun t => t.geti pgTmr R.TMR_ARM k = 0 ∧ expired t) ∧
        (s.geti pgTmr R.TMR_PERIODIC k = 1 → per ≠ 0 → s.now ≤ e + nsQ 20 → Completes (.timerExpiry k) s fun t =>
          t.geti pgTmr R.TMR_ARM k = 1 ∧ t.timerExp k = e + per ∧ expired t) ∧
        (s.geti pgTmr R.TMR_PERIODIC k = 1 → per ≠ 0 → e + nsQ 20 < s.now → Completes (.timerExpiry k) s fun t =>
          s.now < t.timerExp k ∧ t.timerExp k ≤ s.now + per ∧ expired t ∧
          t.geti pgTmr R.TMR_CNT_LATE k = min R.TMR_CNT_LATE.max (s.geti pgTmr R.TMR_CNT_LATE k + 1)))) ∧
    (n < 8 → s.geti pgTmr R.TMR_PWM_EN n = 1 →
      ((s.pwm n).mat < (s.pwm n).period → Completes (.pwmMatch n) s fun t => (t.pwm n).cnt = (s.pwm n).mat ∧ t.raised pgTmr (9 + n) = true) ∧
      ((s.pwm n).period ≤ (s.pwm n).mat → Completes (.pwmMatch n) s (· = s)) ∧
      (Completes (.pwmPeriodEnd n) s fun t => t.pwm n = { s.pwm n with
        cnt := 0, period := s.geti pgTmr R.TMR_PWM_PERIOD n, high := s.geti pgTmr R.TMR_PWM_HIGH n, mat := s.geti pgTmr R.TMR_PWM_MATCH n } ∧
        (s.geti pgTmr R.TMR_PWM_MATCH n = 0 → t.raised pgTmr (9 + n) = true))) ∧
    (Completes .smbusStatus s fun t => t = { s with out := .smbus [BitVec.ofNat 8 (s.pstate + s.get pgPwr R.PWR_TRANSIT * 4 +
      s.get pgPwr R.PWR_THERM_STAT * 16)] :: s.out }) ∧
    (∀ i is, (i, is) ∈ [(Instr.smbusTcore, [6]), (.smbusTfe0, [0, 1, 2]), (.smbusTfe1, [3, 4, 5])] →
      let codes := (is.map fun j => Tab.find s.pwr.house j).filterMap id
      (∀ c, codes.max? = some c → Completes i s fun t =>
        t = { s with out := .smbus (leBytes 2 (unsgn 16 (divAway ((c : Int) - 800) 2))) :: s.out }) ∧
      (codes = [] → Completes i s fun t => ∃ x, t = { s with free := s.free + 1, out := .smbus (leBytes 2 x) :: s.out })) ∧
    (Completes .smbusIdentity s fun t => t = { s with out := .smbus (("EA9180-FC70\x00".toList.map fun c => BitVec.ofNat 8 c.toNat) ++
      leBytes 4 (s.get pgSec R.SEC_BOOT_VER)) :: s.out }) ∧
    (s.alertOn = true → Completes .smbusAlertResponse s fun t => t.pwr = { s.pwr with alert := false } ∧
      Out.smbus [BitVec.ofNat 8 (s.get pgPwr R.PWR_SMB_ADDR * 2)] ∈ t.out ∧ t.regs = s.regs) ∧
    (s.alertOn = false → Completes .smbusAlertResponse s (· = s))

/-- The display: link, AUX, variable blanking, lines, underruns and renders (R486, R487, R489, R490, R492, R494 to R496, R498).
When a commit applies with no link is a reading of the model (log entry 77). -/
def Obligations.DisplayRuns : Prop :=
  ∀ (s : State) (fn cmd addr len porch layer x y lanes phase n b : Nat) (data : List Byte),
    let d := pgDisp
    let vt := s.vtotal porch
    (s.answers fn 0x450064 4 = true →
      (Completes (.dispReady fn) s fun t => t.get d R.DISP_READY = 1 ∧ CellOnly s t 0x450064) ∧
      (s.dense = true → s.disp.render = none → Completes (.renStart fn) s fun t => t.get d R.DISP_REN_START = 1 ∧
        t.disp = { s.disp with render := some (1 - s.disp.done) }) ∧
      (s.dense = false → s.disp.render = none → Completes (.renStart fn) s fun t => t.get d R.DISP_REN_START = 0 ∧ t.disp = s.disp)) ∧
    (s.answers fn 0x450070 4 = true → s.get d R.DISP_AUX_GO = 0 → cmd % 16 ∈ [0, 1, 4, 5, 8, 9] → Completes (.auxGo fn cmd addr len) s fun t =>
      t.get d R.DISP_AUX_GO = 1 ∧ t.disp = { s.disp with defers := 0, aux := t.auxBytes } ∧ t.out = .aux (cmd % 16) (addr % 2 ^ 20) t.auxBytes :: s.out) ∧
    (s.get d R.DISP_AUX_GO = 1 →
      (Completes (.auxReply 1 n data) s fun t => t.get d R.DISP_AUX_GO = 0 ∧ t.get d R.DISP_REPLY = 1 ∧ t.get d R.DISP_BYTES = min 16 n) ∧
      (s.disp.defers < 7 → Completes (.auxReply 2 n data) s fun t => t.get d R.DISP_AUX_GO = 1 ∧ t.disp.defers = s.disp.defers + 1) ∧
      (7 ≤ s.disp.defers → Completes (.auxReply 2 n data) s fun t => t.get d R.DISP_AUX_GO = 0 ∧ t.get d R.DISP_REPLY = 2) ∧
      (s.get d R.DISP_AUX_CMD % 2 = 1 → Completes (.auxReply 0 n data) s fun t => t.get d R.DISP_AUX_GO = 0 ∧ t.get d R.DISP_REPLY = 0 ∧
        t.get d R.DISP_BYTES = (data.take 16).length) ∧
      (Completes .auxTimeout s fun t => t.get d R.DISP_AUX_GO = 0 ∧ t.get d R.DISP_REPLY = 3 ∧ t.get d R.DISP_BYTES = 0)) ∧
    (s.disp.phase = 2 → s.dp R.DISP_VFP ≤ porch → vt < 2 ^ 14 →
      (s.dp R.DISP_ASYNC_EN = 0 → vt = s.dp R.DISP_VMIN → Completes (.frontPorchEnd porch) s fun t => t.disp.phase = 3 ∧
        t.get d R.DISP_LAST_VTOTAL = vt ∧ t.get d R.DISP_REPEAT = 0) ∧
      (s.dp R.DISP_ASYNC_EN = 1 → s.get d R.DISP_READY = 1 → s.dp R.DISP_VMIN ≤ vt → vt ≤ s.dp R.DISP_VMAX →
        Completes (.frontPorchEnd porch) s fun t => t.disp.phase = 3 ∧ t.get d R.DISP_LAST_VTOTAL = vt ∧ t.get d R.DISP_REPEAT = 0 ∧
          t.get d R.DISP_READY = 0)) ∧
    (s.disp.phase = 2 → s.dp R.DISP_ASYNC_EN = 1 → s.get d R.DISP_READY = 0 → Completes .vmaxRepeat s fun t => t.disp.phase = 3 ∧
      t.get d R.DISP_LAST_VTOTAL = s.dp R.DISP_VMAX ∧ t.get d R.DISP_REPEAT = 1 ∧ Counted s t d R.DISP_CNT_REPEAT 1) ∧
    (s.disp.phase = 3 → s.commitPend d = false → Completes .frameDone s fun t => t.disp = { s.disp with phase := 4, shown := s.disp.done } ∧
      Counted s t d R.DISP_CNT_FRAMES 1 ∧ t.raised d 3 = true) ∧
    (s.disp.phase = 4 → s.get d R.DISP_LINK_UP = 1 → Completes .activeStart s fun t => t.disp.phase = 1 ∧ t.disp.under = [] ∧
      t.get d R.DISP_IN_VBLANK = 0 ∧ t.get d R.DISP_LINE = 0 ∧ (s.dp R.DISP_LINE_MATCH = 0 → t.raised d 2 = true)) ∧
    (s.disp.phase = 1 →
      (Completes .vblankStart s fun t => Out.picture (s.dp R.DISP_HACTIVE) s.picture ∈ t.out ∧ t.disp.phase = 2 ∧
        t.get d R.DISP_IN_VBLANK = 1 ∧ t.get d R.DISP_LINE = s.dp R.DISP_VACTIVE ∧ t.raised d 1 = true) ∧
      (0 < s.dp R.DISP_LINE_MATCH → s.dp R.DISP_LINE_MATCH < s.dp R.DISP_VACTIVE → Completes .lineMatch s fun t =>
        t.get d R.DISP_LINE = s.dp R.DISP_LINE_MATCH ∧ t.raised d 2 = true) ∧
      (layer < 4 → s.dpi R.DISP_L_EN layer = 1 → (∀ e ∈ s.disp.under, e.1 ≠ layer) → Completes (.underrun layer x y) s fun t =>
        t.disp = { s.disp with under := s.disp.under ++ [(layer, y * s.dp R.DISP_HACTIVE + x)] } ∧ t.raised d (4 + layer) = true ∧
        t.geti d R.DISP_CNT_UNDERRUN layer = min R.DISP_CNT_UNDERRUN.max (s.geti d R.DISP_CNT_UNDERRUN layer + 1))) ∧
    (s.disp.render = some b → (s.map (s.dp R.DISP_DEN_SLOT)).ep.closing = 0 → Completes .renderDone s fun t =>
      t.disp = { s.disp with render := none, done := b } ∧ t.get d R.DISP_REN_START = 0 ∧ Counted s t d R.DISP_CNT_RENDER 1 ∧
      t.raised d 8 = true ∧ (s.dp R.DISP_REN_READY = 1 → t.get d R.DISP_READY = 1)) ∧
    (s.coreOn = true → s.get d R.DISP_HPD = 0 → Completes .hpdRise s fun t => t.get d R.DISP_HPD = 1 ∧
      (s.en d = true → 2 ≤ s.pstate → t.disp.training = true ∧ t.get d R.DISP_LINK_UP = 0)) ∧
    (s.coreOn = true → s.get d R.DISP_HPD = 1 →
      (Completes .hpdUnplug s fun t => t.get d R.DISP_HPD = 0 ∧ t.disp.training = false ∧ t.get d R.DISP_LINK_UP = 0 ∧ t.raised d 10 = true) ∧
      (Completes .hpdIrq s fun t => t.raised d 9 = true ∧ t.disp = s.disp)) ∧
    (s.disp.training = true →
      (s.commitPend d = false → Completes (.dpTrainingDone true lanes phase) s fun t => t.get d R.DISP_LINK_UP = 1 ∧ t.disp.phase = 4 ∧
        t.disp.training = false) ∧
      (Completes (.dpTrainingDone false lanes phase) s fun t => t.disp = { s.disp with training := false, failed := true } ∧
        Captured s t d 0x20 (lanes % 16 + phase % 2 * 2 ^ 8) ∧ t.raised d 11 = true))

/-! ### Commands of resets, the flash store and start-up -/

/-- Resets: a core reset starts from each of its causes, the front-end dies, shells and functions are reset, and POR_N and the supply monitor reset the
whole device (R338, R510, R512, R514, R515, R530).
What each reset keeps, beyond the rules' words, is a reading of the model (log entries 81 to 83). -/
def Obligations.ResetsAct : Prop :=
  ∀ (s : State) (fn d n cause straps pc tries : Nat) (i : Instr),
    let reset (c : Nat) (t : State) : Prop := t.get pgTop R.TOP_STAGE = 2 ∧ t.get pgTop R.TOP_RST_CAUSE = 2 ^ c ∧ t.pstate = 1 ∧
      t.fstate = 0 ∧ t.get pgPwr R.PWR_RETAIN_OK = 0 ∧ t.cmd.queue = [] ∧ t.sec.owners = [] ∧ t.sec.wins = [] ∧
      (∀ a, t.hbmByte a = 0) ∧ (∀ a, t.lmemByte a = 0) ∧ t.link.ball = s.link.ball
    ((i, cause) ∈ [(Instr.coreReset 3, 3), (.coreReset 4, 4), (.coreReset 5, 5), (.coreReset 6, 6), (.cpllLost, 3)] →
      Completes i s (reset cause)) ∧
    (s.answers fn 0x0C8 4 = true → Completes (.coreRst fn) s (reset 5)) ∧
    (s.sys.porLow = false → Completes .perstN s fun t => reset 2 t ∧ t.sys.perstLow = true) ∧
    (s.sys.porLow = true → Completes .perstN s (· = s)) ∧
    (Completes .perstNHigh s fun t => t = { s with sys := { s.sys with perstLow := false } }) ∧
    (pc < 64 → Tab.find s.sys.pcTries pc = some tries → 2 ≤ tries → Completes (.pcRetrainDone pc false) s (reset 6)) ∧
    (s.answers fn 0x0CC 4 = true → d < 2 → s.diesOn = true → Tab.get s.conv.dieRst false d = false →
      Completes (.feRst fn (2 ^ d)) s fun t => Tab.get t.conv.dieRst false d = true ∧ bit (t.get pgTop R.TOP_FE_RST) d = true ∧
        t.raised pgTop 6 = true ∧ ∀ b, b < 4 → t.get (pgBank (4 * d + b)) R.BANK_POWERED = 0 ∧ t.get (pgBank (4 * d + b)) R.BANK_LINK_OK = 0) ∧
    (s.answers fn 0x0D0 4 = true → n < 4095 →
      (s.shellOpen n = true → Completes (.shellRst fn n) s fun t => t.get pgTop R.TOP_GO = 1 ∧ t.get pgTop R.TOP_BUSY = 1 ∧
        t.get pgTop R.TOP_SHELL = n ∧ n ∈ t.sys.shellRst) ∧
      (s.shellOpen n = false → Completes (.shellRst fn n) s fun t => t.get pgTop R.TOP_GO = 0 ∧ Captured s t pgTop 0x02 0x0D0)) ∧
    (s.sys.shellRst.contains n = true → s.shellQuiet n = true → Completes (.shellResetDone n) s fun t =>
      t.sys.shellRst = s.sys.shellRst.filter (· ≠ n) ∧ t.raised pgTop 8 = true ∧
      (t.sys.shellRst = [] → t.get pgTop R.TOP_BUSY = 0 ∧ t.get pgTop R.TOP_GO = 0)) ∧
    (n < 64 → Tab.get s.host.flr false n = false → Completes (.flr n) s fun t => Tab.get t.host.flr false n = true ∧
      Counted s t pgPcie R.PCIE_CNT_FLR 1) ∧
    (Tab.get s.host.flr false n = true → Completes (.flrDone n) s fun t => Tab.get t.host.flr false n = false ∧
      Tab.get t.host.msixEn false n = false ∧ t.raised pgPcie 5 = true) ∧
    (Completes (.porN straps) s fun t => t.get pgTop R.TOP_STRAPS = straps % 8 ∧ t.get pgTop R.TOP_STAGE = 0 ∧
      t.get pgTop R.TOP_RST_CAUSE = 1 ∧ t.get pgSec R.SEC_DBG_LOCK = 0 ∧ t.faults = [] ∧ t.sys.porLow = false ∧ ∀ a, t.hbmByte a = 0) ∧
    (Completes .porNLow s fun t => t.sys.porLow = true ∧ t.get pgTop R.TOP_STAGE = 0 ∧ t.faults = [] ∧ ∀ a, t.hbmByte a = 0) ∧
    (s.sys.porLow = false → Completes .supplyMonitorTrip s fun t => t.sys.supply = true ∧ t.get pgTop R.TOP_STAGE = 0 ∧
      t.get pgTop R.TOP_STRAPS = s.get pgTop R.TOP_STRAPS ∧ ∀ a, t.hbmByte a = 0) ∧
    (s.sys.supply = true → Completes .supplyRestored s fun t => t.sys.supply = false ∧ t.get pgTop R.TOP_RST_CAUSE = 2 ∧
      t.get pgTop R.TOP_STRAPS = s.get pgTop R.TOP_STRAPS)

/-- The flash store: recovery reads an image and takes it when it verifies, pages are programmed and read back, sectors erased and counted, and the
directory write commits the new content (R503 to R507).
The order of equally worn sectors is the model's choice (log entry 85), and so is when the sectors of a recovery write are taken (log entry 147). -/
def Obligations.FlashIsWritten : Prop :=
  ∀ (s : State) (fn r k ms : Nat) (data : List Byte) (worn : Bool) (j : FlashJob) (js : List FlashJob),
    let f := pgFlash
    (s.answers fn 0x607C 4 = true → s.recovery = true → s.get f R.FLASH_RCV_STAT ≠ 1 → Completes (.rcvGo fn r) s fun t =>
      t.get f R.FLASH_RCV_STAT = 1 ∧ t.get f R.FLASH_RCV_REGION = r % 2 ∧ t.sys.rcv = (r % 2, s.get f R.FLASH_RCV_LEN) ∧
      t.out = .busRead (s.get64 f R.FLASH_RCV_SRC_LO R.FLASH_RCV_SRC_HI) (s.get f R.FLASH_RCV_LEN) :: s.out) ∧
    (s.get f R.FLASH_RCV_STAT = 1 → s.sys.rcv = (r, ms) →
      (ms ≤ regionMax r → s.signed data = true →
        (s.sys.jobs = [j] → j.region = r → j.half = none → data ≠ [] → j.secs.length = j.need → j.done = j.pages →
          Completes (.rcvDone data false) s fun t => t.get f R.FLASH_RCV_STAT = 2 ∧ t.flashRegion r = data ∧ t.raised f 3 = true ∧
            t.sys.jobs = [] ∧ ∀ x ∈ j.secs, Tab.find t.sys.held x = some r) ∧
        (s.sys.jobs = [] → Completes (.rcvDone data worn) s fun t => t.get f R.FLASH_RCV_STAT = 4 ∧ t.sys = s.sys)) ∧
      (regionMax r < ms → Completes (.rcvDone data worn) s fun t => t.get f R.FLASH_RCV_STAT = 5 ∧ t.sys = s.sys) ∧
      (ms ≤ regionMax r → s.signed data = false → s.sys.jobs = [j] → Completes (.rcvDone data worn) s fun t =>
        t.get f R.FLASH_RCV_STAT = 3 ∧ t.sys = { s.sys with jobs := [] })) ∧
    (s.sys.jobs = j :: js →
      (j.secs.length = j.need → j.done < j.pages →
        (Completes (.flashPageProgram true) s fun t => t = { s with sys := { s.sys with jobs := { j with done := j.done + 1, tries := 0 } :: js } }) ∧
        (j.tries < 7 → Completes (.flashPageProgram false) s fun t => t.sys.jobs = { j with tries := j.tries + 1 } :: js ∧
          Counted s t f R.FLASH_CNT_RETRY 1 ∧ (j.tries = 2 → t.raised f 1 = true))) ∧
      (j.erasing = some k → Tab.get s.sys.erases 0 k + 1 < 100000 →
        (j.secs.length + 1 = j.need → Completes (.flashEraseDone ms true) s fun t => Counted s t f R.FLASH_CNT_ERASE 1 ∧
          Tab.get t.sys.erases 0 k = Tab.get s.sys.erases 0 k + 1 ∧
          t.sys.jobs = { j with secs := j.secs ++ [k], erasing := none, eraseTries := 0 } :: js) ∧
        (j.eraseTries < 2 → Completes (.flashEraseDone ms false) s fun t => Counted s t f R.FLASH_CNT_ERASE 1 ∧
          t.sys.jobs = { j with eraseTries := j.eraseTries + 1 } :: js)) ∧
      (j.secs.length = j.need → j.done = j.pages → js = [] → s.sys.dirBad < 2 → j.half = none → j.data ≠ [] → j.cmd = some k →
        Completes (.writeDone 0) s fun t => t.sys.jobs = [] ∧ t.flashRegion j.region = j.data ∧ t.raised f 3 = true ∧
          t.get f R.FLASH_BUSY = 0 ∧ t.heldAt (k / 8) (k % 8) = none))

/-- Start-up runs through its stages, memory errors are counted and reported, pseudo-channels retrain, and the PCIe link and its configuration
space answer (R335, R337, R363, R438, R500, R501, R516, R517).
The place of a memory error is an operand, the model's choice (log entries 84, 88). -/
def Obligations.StartUpAndMemory : Prop :=
  ∀ (s : State) (img ver pc addr item speed width fn v part : Nat) (temp : Int) (ident : Option (Nat × Nat × List Nat))
    (sets : List (Nat × Nat)) (slots : List Nat),
    (s.sys.porLow = false → s.sys.supply = false →
      let st := s.get pgTop R.TOP_STAGE
      (st = 0 → Completes (.stageDone img ver ident sets slots) s fun t => t.get pgTop R.TOP_STAGE = 1 ∧ t.get pgMon R.MON_SELFCAL = 1) ∧
      (st = 1 → s.pwr.selfcal = false → Completes (.stageDone img ver ident sets slots) s fun t => t.get pgTop R.TOP_STAGE = 2) ∧
      (st = 2 → s.get pgTop R.TOP_STRAPS ≠ 5 → Completes (.stageDone 0 ver ident sets slots) s fun t => t.get pgTop R.TOP_STAGE = 3 ∧
        t.get pgSec R.SEC_BOOT_VER = ver % 2 ^ 32 ∧ t.get pgClk R.CLK_CPLL_STATE = 1) ∧
      (st = 3 → s.get pgClk R.CLK_CPLL_STATE = 4 → Completes (.stageDone img ver ident sets slots) s fun t => t.get pgTop R.TOP_STAGE = 4) ∧
      (st = 4 → s.recovery = false → s.get pgTop R.TOP_STRAPS ≠ 1 → s.sys.noReady = false →
        Completes (.stageDone 0 ver ident sets slots) s fun t => t.get pgTop R.TOP_STAGE = 5 ∧ t.pstate = 1 ∧ t.sys.cfgReady = true ∧
          t.get pgSec R.SEC_UCODE_VER = ver % 2 ^ 32 ∧ t.get pgClk R.CLK_STATE = 1) ∧
      (st = 5 → s.scsRun = true → Completes (.stageDone img ver ident sets slots) s fun t => t.get pgTop R.TOP_STAGE = 6) ∧
      (st = 6 → s.cal.startup = [] → Completes (.stageDone img ver ident sets slots) s fun t => t.get pgTop R.TOP_STAGE = 7 ∧ t.pstate = 2)) ∧
    (pc < 64 →
      let m := pgMc (pc / 16)
      (∀ b, Completes (.scrub 0 1 pc addr item b) s fun t => Counted s t m R.MC_CNT_ECC_CORR 1 ∧ t.raised m 1 = true) ∧
      (Completes (.scrub 0 2 pc addr item false) s fun t => Counted s t m R.MC_CNT_ECC_UNCORR 1 ∧ t.raised m 2 = true ∧
        t.get m R.MC_ECC_ADDR = addr / 64 % 2 ^ 29 ∧ Captured s t m 0x04 pc) ∧
      (bit (s.get m R.MC_PC_UP) (pc % 16) = true → Completes (.pcDown pc) s fun t => bit (t.get m R.MC_PC_UP) (pc % 16) = false ∧
        t.raised m 4 = true ∧ Tab.find t.sys.pcTries pc = some 0) ∧
      (∀ k, Tab.find s.sys.pcTries pc = some k →
        (Completes (.pcRetrainDone pc true) s fun t => bit (t.get m R.MC_PC_UP) (pc % 16) = true ∧ Tab.find t.sys.pcTries pc = none) ∧
        (k < 2 → Completes (.pcRetrainDone pc false) s fun t => t = { s with sys := { s.sys with pcTries := Tab.put s.sys.pcTries pc (k + 1) } }))) ∧
    ((∀ b, Completes (.scrub 1 1 pc addr item b) s fun t => Counted s t pgTop R.TOP_CNT_SRAM_CORR 1) ∧
     (∀ b, Completes (.scrub 1 2 pc 0 item b) s fun t => Counted s t pgTop R.TOP_CNT_SRAM_UNCORR 1 ∧ t.raised pgTop 9 = true ∧
       Captured s t pgTop 0x04 (item * 16)) ∧
     (∀ b, Completes (.scrub 2 1 pc addr item b) s fun t => Counted s t pgTop R.TOP_CNT_UCODE_CORR 1) ∧
     (∀ b, addr < 262144 → (b = true → s.current item = none) → Completes (.scrub 2 2 pc addr item b) s fun t => Counted s t pgTop R.TOP_CNT_UCODE_UNCORR 1 ∧
       t.raised pgTop 9 = true ∧ Captured s t pgTop 0x04 addr ∧ addr / 1024 ∈ t.sys.reload) ∧
     (Completes (.ucodeReloadDone part) s fun t => t = { s with sys := { s.sys with reload := t.sys.reload } } ∧ part ∉ t.sys.reload)) ∧
    (pc < 4 → Completes (.tempHigh pc temp) s fun t => t.get (pgMc pc) R.MC_STACK_TEMP = unsgn 8 (clampS 8 temp) ∧
      (sgn 8 (s.get (pgMc pc) R.MC_STACK_TEMP) < 95 → 95 ≤ temp → t.raised (pgMc pc) 3 = true)) ∧
    (Completes .pcieLinkDown s fun t => t.get pgPcie R.PCIE_SPEED = 0 ∧ t.get pgPcie R.PCIE_WIDTH = 0 ∧ t.raised pgPcie 6 = true) ∧
    (s.sys.perstLow = false → s.sys.porLow = false → 3 ≤ s.get pgTop R.TOP_STAGE → Completes (.pcieLinkUp speed width) s fun t =>
      t.get pgPcie R.PCIE_SPEED = speed % 16 ∧ t.get pgPcie R.PCIE_WIDTH = width % 64 ∧ t.raised pgPcie 7 = true) ∧
    (s.sys.cfgReady = false → ∀ k w, Completes (.configRequest fn k v w) s fun t => t = { s with out := .config fn k none :: s.out }) ∧
    (s.sys.cfgReady = true →
      (Completes (.configRequest fn 0 1 true) s fun t => Tab.get t.host.msixEn false fn = true) ∧
      (Completes (.configRequest fn 0 0 true) s fun t => Tab.get t.host.msixEn false fn = false ∧ t.out = .config fn 0 (some 0) :: s.out) ∧
      (Completes (.configRequest fn 1 v true) s fun t => Tab.get t.host.devCtl 0 fn = v % 2 ^ 16 ∧ t.out = .config fn 1 (some 0) :: s.out) ∧
      (Completes (.configRequest fn 1 v false) s fun t => t = { s with out := .config fn 1 (some (Tab.get s.host.devCtl 0 fn)) :: s.out }) ∧
      (∀ i, i < 6 → Completes (.configRequest fn (4 + i) v true) s fun t =>
        t.barWord fn i = (v &&& barMask fn i) + (if i = 4 ∧ fn ≠ 0 then 0 else barType i) ∧ t.regs = s.regs))

/-! ### The block as a whole -/

/-- A step with a command at the front of the queue is that command's effect, with the rest of the queue waiting; on an empty queue one XCLK
period passes, in which only Q-time, the PWM pages, the lock indications, what the link has to send and what goes out change (the model's choice, log
entry 5).  A command of software and one of hardware that come in one cycle are taken in the order that Table 2-16 gives (R56). -/
def Obligations.StepRunsTheFrontCommand : Prop :=
  ∀ (s : State) (c : Instr) (rest : List Instr),
    (s.pending = c :: rest → step s = exec c { s with pending := rest }) ∧
    (s.pending = [] → ∃ t, step s = .next t ∧ t.now = (s.time.q + 24178516392292583) % 2 ^ 128 / 2 ^ 32 ∧ t.pending = [] ∧
      t.hbm = s.hbm ∧ t.lmem = s.lmem ∧ t.cmd = s.cmd ∧ t.seg = s.seg ∧ t.trig = s.trig ∧ t.sec = s.sec ∧ t.host = s.host ∧ t.conv = s.conv ∧ t.cal = s.cal ∧ t.link = s.link ∧
      t.net = s.net ∧ t.sys = s.sys ∧ t.disp = s.disp) ∧
    (∀ sw hw : Instr, let a := if takesLast sw then hw else sw
      let b := if takesLast sw then sw else hw
      step (s.withCycle sw hw) = exec a { s with pending := b :: s.pending } ∧
      ∀ u, exec a { s with pending := b :: s.pending } = .next u → step u = exec b { u with pending := s.pending })

/-- Every step of a well-kept state leaves it well kept: registers and memories canonical, at most 16 denials held, at most 64 faults logged.
The canonical form is the model's (log entry 2). -/
def Obligations.StepsKeepTheStateWellKept : Prop :=
  ∀ s t : State, s.wf = true → step s = .next t → t.wf = true

/-- Every command answers a next state from every state, leaves the commands that wait as they are, and takes back nothing that went out.
That an event out of its place has no effect is the model's choice (log entry 6). -/
def Obligations.EveryCommandIsAnswered : Prop :=
  ∀ (i : Instr) (s : State), ∃ t l, exec i s = .next t ∧ t.pending = s.pending ∧ t.out = l ++ s.out

/-- After reset the state is well kept, no command waits, the device is in STANDBY with no frame, no denial and no fault, every shell is closed, the
supervisor owns every page, and the fields named read what their tables give.
Working state that no table gives a reset value is not among them (log entry 4). -/
def Obligations.ResetLeavesWhatTheTablesGive : Prop :=
  State.reset.wf = true ∧ State.reset.pending = [] ∧ State.reset.pstate = 1 ∧ State.reset.fstate = 0 ∧ State.reset.denials = [] ∧
  State.reset.faults = [] ∧ State.reset.out = [] ∧ (∀ n, n < 4095 → State.reset.shellOpen n = false) ∧
  (∀ p : Pg, State.reset.pgOwner p = supervisor) ∧ State.reset.en pgSec = true ∧ State.reset.scsRun = false ∧
  ∀ e ∈ [(pgTop, R.TOP_CLOSE_COUNT, 1), (pgTop, R.TOP_DRAIN_TMO, 1000), (pgTop, R.TOP_HOLD, 0), (pgTop, R.TOP_RST_CAUSE, 1),
      (pgBank 0, R.BANK_PEAK_MAX, 0x8001), (pgBank 7, R.BANK_PEAK_MIN, 0x7FFF), (pgSec, R.SEC_GEN, 0), (pgSec, R.SEC_PEND, 0),
      (pgRoute 2047, R.ROUTE_WIDTH, 16), (pgRoute 0, R.ROUTE_KIND, 0), (pgTime, R.TIME_SEL, 0), (pgFlink, R.FLINK_DEV_ID, 0)],
    State.reset.get e.1 e.2.1 = e.2.2

/-- ERR_INFO captures the first error while VALID is 0, with ERR raised where the page has sources; a further one sets LOST and nothing else.
The common codes of Table 2-12 are 1 for a misaligned or narrow access, 2 for a reserved encoding, 3 for a refused commit, 4 for an uncorrectable
error, 5 for a request unanswered and 6 for one to a part under reset, each with the detail the table gives (R46). -/
def Obligations.ErrorsAreCaptured : Prop :=
  ∀ (s : State) (p : Pg) (code detail fn off w rel addr item : Nat) (v : BitVec 64), p.kind.isBlock = true → p.inst < p.kind.count →
    (code < 64 → detail < 2 ^ 24 →
      let t := run (capture p code detail) s
      (bit (s.errInfo p) 31 = false → t.errInfo p = detail + code * 2 ^ 24 + 2 ^ 31 ∧ (1 ≤ p.events.2 → t.raised p 0 = true)) ∧
      (bit (s.errInfo p) 31 = true → CellOnly s t (p.base + 0x028) ∧ t.errInfo p = s.errInfo p ||| 2 ^ 30)) ∧
    (1 ≤ p.events.2 → evtPage p.events.1 = p) ∧
    (s.target fn off = (p, rel) → s.pstate ≠ 0 → s.recovery = false → s.mayReach fn off p = true → p.assigned rel w = true →
      goodWidth off w = false →
      Completes (.rcFieldRead fn off w) s (Captured s · p 1 rel) ∧ Completes (.registerWrite fn off w v) s (Captured s · p 1 rel)) ∧
    (s.target fn off = (p, rel) → s.answers fn off 4 = true → 0x040 ≤ rel → wideLow p rel = false → wideLow p (rel - 4) = false →
      reservedWrite p rel [v.toNat % 2 ^ 32] = true →
      Completes (.registerWrite fn off 4 v) s fun t => Captured s t p 2 rel ∧ (p.kind ≠ .pcie → t.cell (p.base + rel) = s.cell (p.base + rel))) ∧
    (s.answers 0 0x100C 4 = true → (s.with [pgClk]).clkBad = some rel → Completes (.commit 0 1) s (Captured s · pgClk 3 rel)) ∧
    (rel < 64 → Completes (.scrub 0 2 rel addr item false) s (Captured s · (pgMc (rel / 16)) 4 rel)) ∧
    (rel < 79 → Completes (.fabricTimeout rel (false, none)) s (Captured s · pgArb 5 rel) ∧
      Completes (.fabricTimeout rel (true, none)) s (Captured s · pgArb 6 rel))

/-- A source that is set anew and enabled is delivered once, to the destination its routing entry names; one that is set already, or is not enabled,
is set and not delivered, and one cleared by EVT_RAW is delivered again when it recurs (R64, R357 to R360). -/
def Obligations.EventsAreDeliveredOnce : Prop :=
  ∀ (s : State) (p : Pg) (k fn page : Nat) (v : Word), p.kind.isBlock = true → p.inst < p.kind.count → k < p.events.2 →
    let e := p.events.1 + k
    let t := run (raise p k) s
    let g := s.get (pgRoute e) R.ROUTE_TARGET
    let kind := s.get (pgRoute e) R.ROUTE_KIND
    (s.raised p k = true ∨ bit (s.evtEn p) k = false → CellOnly s t (p.base + 0x014) ∧ t.raised p k = true) ∧
    (s.pstate ≠ 0 → s.raised p k = false → bit (s.evtEn p) k = true →
      t.raised p k = true ∧
      (kind = 0 → CellOnly s t (p.base + 0x014)) ∧
      (∀ f, kind = 1 → s.vecFunc g = some f → Tab.find s.host.pend g = none → s.coal g = (1, 0) → Tab.get s.host.flr false f = false →
        s.get (pgMsix g) R.MSIX_MASK = 0 → Tab.get s.host.msixEn false f = true →
        t.out = .msix g (s.get64 (pgMsix g) R.MSIX_ADDR_LO R.MSIX_ADDR_HI) (s.get (pgMsix g) R.MSIX_DATA) :: s.out ∧
          Counted s t pgPcie R.PCIE_CNT_MSIX 1) ∧
      (kind = 1 → s.vecFunc g = none → bit (s.evtEn pgPcie) 3 = false → Counted s t pgPcie R.PCIE_CNT_EVT_DROP 1 ∧ t.out = s.out) ∧
      (kind = 2 → s.isEventRing g = true → (s.ring g).waiting.length < 64 → (∀ x ∈ (s.ring g).ents, x.st ≠ .ready) →
        ∃ w, (t.ring g).waiting = (s.ring g).waiting ++ [w] ∧
          w.bytes = leBytes 2 e ++ [0, 0] ++ leBytes 4 (t.evtRaw p) ++ qBytes s.now ++ leBytes 4 0 ++ leBytes 4 0) ∧
      (kind = 4 → Tab.find s.host.evtOut g = none → t.out = .pin (pinEventOut g) true :: s.out ∧
        Tab.find t.host.evtOut g = some (s.now + nsQ (8 * s.get (pgRoute e) R.ROUTE_WIDTH)))) ∧
    (s.target fn (pageReg page 0x014) = (p, 0x014) → s.answers fn (pageReg page 0x014) 4 = true → bit v.toNat k = true →
      bit (s.evtEn p) k = true → Completes (.evtRawClear fn page v) s fun u => run (raise p k) u =
        run (deliver e) (run (.one (.fld (p.base + 0x014) k k 1)) u))

/-- The edges of arithmetic, the flags of which stay until CLRF or the start of the next command: no arithmetic microword faults (R411). -/
def Obligations.ArithmeticEdges : Prop :=
  ∀ (s : State) (q k : Nat) (h : Held) (rd rs rt imm op fl : Nat) (i : Instr) (v : Word) (edge : Prop),
    let a := s.ureg q rs
    let b := s.ureg q rt
    let z := imm % 2 ^ 16
    let least := (0x80000000#32 : Word)
    let ones := (0xFFFFFFFF#32 : Word)
    let fill := if a.toInt < 0 then ones else 0
    (Executes s q k h maskAll (uword op rd rs (rt % 32)) →
      (i, op, edge, v, fl) ∈ [
        (Instr.div q rd rs rt, 0x0C, b = 0, ones, 1), (.divu q rd rs rt, 0x0E, b = 0, ones, 1),
        (.rem q rd rs rt, 0x0D, b = 0, a, 1), (.remu q rd rs rt, 0x0F, b = 0, a, 1),
        (.div q rd rs rt, 0x0C, a = least ∧ b = ones, least, 2), (.rem q rd rs rt, 0x0D, a = least ∧ b = ones, 0, 2),
        (.neg q rd rs rt, 0x12, a = least, least, 2), (.sll q rd rs rt, 0x05, 32 ≤ b.toNat, 0, 0), (.srl q rd rs rt, 0x06, 32 ≤ b.toNat, 0, 0),
        (.sra q rd rs rt, 0x07, 32 ≤ b.toNat, fill, 0), (.ror q rd rs rt, 0x08, True, a.rotateRight (b.toNat % 32), 0),
        (.mul q rd rs rt, 0x09, True, BitVec.ofInt 32 (a.toInt * b.toInt), 0)] →
      edge → ∃ t c, exec i s = .next t ∧ Wrote s t q k h rd v c fl) ∧
    (Executes s q k h maskAll (uword op rd rs imm) →
      (i, op, edge, v, fl) ∈ [
        (Instr.slli q rd rs imm, 0x18, 32 ≤ z, 0, 0), (.srli q rd rs imm, 0x19, 32 ≤ z, 0, 0), (.srai q rd rs imm, 0x1A, 32 ≤ z, fill, 0),
        (.rori q rd rs imm, 0x1B, True, a.rotateRight (z % 32), 0)] →
      edge → ∃ t c, exec i s = .next t ∧ Wrote s t q k h rd v c fl) ∧
    (Executes s q k h maskAll (uword op rd rs (rt % 32)) →
      (i, op) ∈ [(Instr.add q rd rs rt, 0x00), (.sub q rd rs rt, 0x01), (.sll q rd rs rt, 0x05), (.srl q rd rs rt, 0x06), (.sra q rd rs rt, 0x07),
        (.ror q rd rs rt, 0x08), (.mul q rd rs rt, 0x09), (.mulh q rd rs rt, 0x0A), (.mulhu q rd rs rt, 0x0B), (.div q rd rs rt, 0x0C),
        (.rem q rd rs rt, 0x0D), (.divu q rd rs rt, 0x0E), (.remu q rd rs rt, 0x0F), (.neg q rd rs rt, 0x12)] →
      ∃ t x c f, exec i s = .next t ∧ Wrote s t q k h rd x c f) ∧
    (Executes s q k h maskOp (uword 0x3D 0 0 0) → ∃ t h', exec (.clrf q) s = .next t ∧ t.current q = some (k, h') ∧ h'.flags % 4 = 0) ∧
    (q < 32 → (s.seqr q).cur = none → s.busy (pgSq q) = false → (∀ j x, s.heldAt q j = some x → x.ends = []) →
      (∀ m ∈ s.sys.slotWait, ∃ e ∈ s.allHeld, e.2.2.img = some m) → s.nextSlot q = some k → s.heldAt q k = some h → h.started = false →
      ∃ t h', exec (.sequencerStep q) s = .next t ∧ t.current q = some (k, h') ∧ h'.flags = 0)

/-- Block pages carry the type codes and the versions of Table 2-17, which no write changes; type 0 is read where no block is (R60). -/
def Obligations.PagesIdentifyThemselves : Prop :=
  (∀ e ∈ [(Kind.top, 0x0001, 2), (.clk, 0x0002, 2), (.time, 0x0003, 2), (.mon, 0x0004, 2), (.tmr, 0x0005, 1), (.pwr, 0x0006, 2), (.flash, 0x0007, 1),
      (.sec, 0x0008, 1), (.bank, 0x0010, 2), (.cal, 0x0011, 2), (.tu, 0x0020, 2), (.tcomb, 0x0021, 2), (.text, 0x0022, 1), (.tdc, 0x0030, 1),
      (.hist, 0x0040, 2), (.acc, 0x0041, 2), (.den, 0x0042, 2), (.diff, 0x0043, 1), (.st, 0x0100, 2), (.sq, 0x0200, 2), (.mc, 0x0300, 1),
      (.arb, 0x0301, 1), (.pcie, 0x0400, 1), (.enet, 0x0410, 1), (.rdma, 0x0430, 1), (.flink, 0x0440, 2), (.fport, 0x0441, 2), (.disp, 0x0450, 1)],
    ∀ n, n < e.1.count → (State.reset.cell (Pg.base ⟨e.1, n⟩)).toNat / 2 ^ 16 = e.2.1 ∧
      (State.reset.cell (Pg.base ⟨e.1, n⟩ + 4)).toNat = e.2.2 * 256) ∧
  (∀ (s : State) (fn off rel : Nat) (p : Pg) (v : BitVec 64), s.target fn off = (p, rel) → s.answers fn off 4 = true → p.kind.isBlock = true →
    rel = 0 ∨ rel = 4 → wideLow p rel = false →
    Completes (.registerWrite fn off 4 v) s fun t => t.cell (p.base + rel) = s.cell (p.base + rel) ∧ RegsOnly s t) ∧
  (∀ (s : State) (fn a : Nat) (v : BitVec 64), s.pstate ≠ 0 → s.recovery = false → a < 2 ^ 26 → a % 4 = 0 →
    (∀ e ∈ [(0, 0x8000), (0x10000, 0x9000), (0x1C000, 0x4000), (0x20000, 0xA000), (0x30000, 0x10000), (0x40000, 0x4000), (0x100000, 0x100000),
        (0x200000, 0x20000), (0x300000, 0x5000), (0x400000, 0x1000), (0x410000, 0x1000), (0x420000, 0x1000), (0x430000, 0x1000),
        (0x440000, 0x5000), (0x450000, 0x1000), (0x800000, 0x80000), (0x900000, 0x40000), (0xA00000, 0x40000), (0xA40000, 0x20000),
        (0xB00000, 0x4000), (0xC00000, 0x8000), (0xC08000, 0x100)], a < e.1 ∨ e.1 + e.2 ≤ a) →
    exec (.rcFieldRead fn a 4) s = .next { s with out := .readData fn a 0 :: s.out } ∧ exec (.registerWrite fn a 4 v) s = .next s)

/-- An access of a function to a page it may not reach reads 0 and writes nothing: no register of the page changes, ERR_INFO among them, and the
denial is counted and logged with its shell, function, kind and address where fewer than 16 are held (R48, R443, R454). -/
def Obligations.DeniedAccessesAreDiscarded : Prop :=
  ∀ (s : State) (fn off w rel : Nat) (p : Pg) (v : BitVec 64), s.target fn off = (p, rel) → s.mayReach fn off p = false → s.pstate ≠ 0 →
    s.recovery = false →
    let logged (kind : Nat) (t : State) : Prop := Counted s t pgSec R.SEC_CNT_DENIED 1 ∧
      (s.denials.length < 16 → t.denials = s.denials ++ [{ shell := s.funcShell fn, func := fn, kind := kind, addr := off / 8 % 2 ^ 32 }]) ∧
      (16 ≤ s.denials.length → t.denials = s.denials ∧ Counted s t pgSec R.SEC_CNT_LOG_LOST 1) ∧
      (p.kind ∉ [Kind.sec, .pcie, .shell] → ∀ a, p.base ≤ a → a < p.base + 0x1000 → t.cell a = s.cell a)
    Completes (.registerWrite fn off w v) s (logged (if (locate off).1.kind = .route then 6 else 1)) ∧
    Completes (.rcFieldRead fn off w) s fun t => logged 0 t ∧ t.out.head? = some (.readData fn off 0)

/-- What the events of one unit leave alone: every other unit, sequencer local memory, the denial FIFO and the fault log; HBM, the host interface and
what goes out may change beside the unit, for an event may be delivered (Scope.of names the commands and the unit of each). -/
def Obligations.EventsLeaveOtherUnitsAlone : Prop :=
  ∀ (i : Instr) (s t : State) (u : Scope), Scope.of i = some u → exec i s = .next t → Scope.Holds s t u

end
end

