-- ==== Sys2Proof/Laws/Tab.lean ====
section
/-! SUPPORT. Sparse tables: reading after writing, and the canonical form. -/

namespace Sys2Proof.Machine

/-- Every key of a table is above a bound. -/
def Tab.above {α : Type} (k : Nat) (t : Tab α) : Prop := ∀ c ∈ t, k < c.1

theorem Tab.sorted_cons {α : Type} (c : Nat × α) (t : Tab α) :
    Tab.sorted (c :: t) = true ↔ Tab.above c.1 t ∧ Tab.sorted t = true := by
  induction t generalizing c with
  | nil => simp [Tab.sorted, Tab.above]
  | cons d t ih =>
    obtain ⟨k, v⟩ := c
    obtain ⟨k', v'⟩ := d
    simp only [Tab.sorted, Bool.and_eq_true, decide_eq_true_eq, Tab.above, List.mem_cons, forall_eq_or_imp]
    constructor
    · rintro ⟨h, hs⟩
      refine ⟨⟨h, fun c hc => ?_⟩, hs⟩
      exact Nat.lt_trans h (((ih (k', v')).1 hs).1 c hc)
    · rintro ⟨⟨h, _⟩, hs⟩
      exact ⟨h, hs⟩

theorem Tab.mem_put {α : Type} (t : Tab α) (a : Nat) (x : α) (c : Nat × α) (h : c ∈ Tab.put t a x) :
    c = (a, x) ∨ c ∈ t := by
  induction t with
  | nil => simpa [Tab.put] using h
  | cons d t ih =>
    obtain ⟨k, v⟩ := d
    simp only [Tab.put] at h
    split at h
    · simp only [List.mem_cons] at h ⊢; tauto
    · split at h
      · simp only [List.mem_cons] at h ⊢; tauto
      · simp only [List.mem_cons] at h ⊢
        rcases h with h | h
        · tauto
        · rcases ih h with h | h <;> tauto

theorem Tab.mem_del {α : Type} (t : Tab α) (a : Nat) (c : Nat × α) (h : c ∈ Tab.del t a) : c ∈ t :=
  (List.mem_filter.1 h).1

theorem Tab.sorted_put {α : Type} (t : Tab α) (a : Nat) (x : α) (h : Tab.sorted t = true) :
    Tab.sorted (Tab.put t a x) = true := by
  induction t with
  | nil => simp [Tab.put, Tab.sorted]
  | cons d t ih =>
    obtain ⟨k, v⟩ := d
    obtain ⟨hk, ht⟩ := (Tab.sorted_cons _ _).1 h
    simp only [Tab.put]
    split
    · subst_vars; exact (Tab.sorted_cons _ _).2 ⟨hk, ht⟩
    · split
      · refine (Tab.sorted_cons _ _).2 ⟨fun c hc => ?_, h⟩
        rcases List.mem_cons.1 hc with rfl | hc
        · assumption
        · exact Nat.lt_trans ‹a < k› (hk c hc)
      · refine (Tab.sorted_cons _ _).2 ⟨fun c hc => ?_, ih ht⟩
        rcases Tab.mem_put t a x c hc with rfl | hc
        · show k < a; omega
        · exact hk c hc

theorem Tab.sorted_del {α : Type} (t : Tab α) (a : Nat) (h : Tab.sorted t = true) : Tab.sorted (Tab.del t a) = true := by
  induction t with
  | nil => rfl
  | cons d t ih =>
    obtain ⟨hk, ht⟩ := (Tab.sorted_cons _ _).1 h
    unfold Tab.del at ih ⊢
    rw [List.filter_cons]
    split
    · exact (Tab.sorted_cons _ _).2 ⟨fun c hc => hk c (List.mem_filter.1 hc).1, ih ht⟩
    · exact ih ht

@[simp] theorem Tab.find_nil {α : Type} (a : Nat) : Tab.find ([] : Tab α) a = none := rfl

/-- What a table lists at a key after one key has been set. -/
@[simp] theorem Tab.find_put {α : Type} (t : Tab α) (a b : Nat) (x : α) :
    Tab.find (Tab.put t a x) b = if b = a then some x else Tab.find t b := by
  induction t with
  | nil => simp only [Tab.put, Tab.find, eq_comm]
  | cons d t ih =>
    obtain ⟨k, v⟩ := d
    simp only [Tab.put]
    split
    · subst_vars
      simp only [Tab.find]
      repeat' split
      all_goals first | rfl | omega
    · split
      · simp only [Tab.find]
        repeat' split
        all_goals first | rfl | omega
      · simp only [Tab.find, ih]
        repeat' split
        all_goals first | rfl | omega

/-- What a table lists at a key after one key has been removed. -/
@[simp] theorem Tab.find_del {α : Type} (t : Tab α) (a b : Nat) :
    Tab.find (Tab.del t a) b = if b = a then none else Tab.find t b := by
  unfold Tab.del
  induction t with
  | nil => simp [Tab.find]
  | cons d t ih =>
    obtain ⟨k, v⟩ := d
    rw [List.filter_cons]
    split
    · rename_i hk
      have hk : k ≠ a := by simpa using hk
      simp only [Tab.find, ih]
      repeat' split
      all_goals first | rfl | omega
    · rename_i hk
      have hk : k = a := by simpa using hk
      simp only [Tab.find, ih]
      repeat' split
      all_goals first | rfl | omega

/-- What a table reads after one key has been set, from the default where it is not listed. -/
@[simp] theorem Tab.get_put {α : Type} (t : Tab α) (d : α) (a b : Nat) (x : α) :
    Tab.get (Tab.put t a x) d b = if b = a then x else Tab.get t d b := by
  simp only [Tab.get, Tab.find_put]; split <;> rfl

/-- What a table changed at one key by a function reads. -/
@[simp] theorem Tab.get_mod {α : Type} (t : Tab α) (d : α) (a b : Nat) (f : α → α) :
    Tab.get (Tab.mod t d a f) d b = if b = a then f (Tab.get t d a) else Tab.get t d b := by
  simp [Tab.mod]

/-- What a canonical table reads after one key has been set. -/
@[simp] theorem Tab.get_putC {α : Type} [DecidableEq α] (t : Tab α) (d : α) (a b : Nat) (x : α) :
    Tab.get (Tab.putC t d a x) d b = if b = a then x else Tab.get t d b := by
  unfold Tab.putC
  split
  · subst_vars; simp only [Tab.get, Tab.find_del]; split <;> rfl
  · exact Tab.get_put t d a b x

@[simp] theorem Tab.get_del {α : Type} (t : Tab α) (d : α) (a b : Nat) :
    Tab.get (Tab.del t a) d b = if b = a then d else Tab.get t d b := by
  simp only [Tab.get, Tab.find_del]; split <;> rfl

theorem Memory.wf_put (m : List Host.Cell) (a : Nat) (b : Byte) (h : Memory.wf m = true) : Memory.wf (Tab.putC m 0 a b) = true := by
  simp only [Memory.wf, Bool.and_eq_true, List.all_eq_true, decide_eq_true_eq] at h ⊢
  unfold Tab.putC
  split
  · exact ⟨Tab.sorted_del m a h.1, fun c hc => h.2 c (Tab.mem_del m a c hc)⟩
  · refine ⟨Tab.sorted_put m a b h.1, fun c hc => ?_⟩
    rcases Tab.mem_put m a b c hc with rfl | hc
    · assumption
    · exact h.2 c hc

/-- Writing bytes keeps a memory canonical. -/
theorem Memory.wf_putBytes (m : List Host.Cell) (a : Nat) (bs : List Byte) (h : Memory.wf m = true) :
    Memory.wf (putBytes m a bs) = true := by
  induction bs generalizing m a with
  | nil => exact h
  | cons b bs ih => exact ih _ _ (Memory.wf_put m a b h)

/-- Setting a register cell keeps the registers canonical. -/
theorem Registers.wf_putReg (t : Tab Word) (a : Nat) (v : Word) (h : Registers.wf t = true) :
    Registers.wf (putReg t a v) = true := by
  simp only [Registers.wf, Bool.and_eq_true, List.all_eq_true, decide_eq_true_eq] at h ⊢
  unfold putReg Tab.putC
  split
  · exact ⟨Tab.sorted_del t a h.1, fun c hc => h.2 c (Tab.mem_del t a c hc)⟩
  · refine ⟨Tab.sorted_put t a v h.1, fun c hc => ?_⟩
    rcases Tab.mem_put t a v c hc with rfl | hc
    · assumption
    · exact h.2 c hc

/-- What a byte memory reads after bytes have been written to it. -/
theorem Memory.get_putBytes (m : List Host.Cell) (a b : Nat) (bs : List Byte) :
    Tab.get (putBytes m a bs) 0 b = if a ≤ b ∧ b < a + bs.length then bs.getD (b - a) 0 else Tab.get m 0 b := by
  induction bs generalizing m a with
  | nil => simp only [putBytes, List.length_nil]; split <;> first | omega | rfl
  | cons x bs ih =>
    rw [putBytes, ih, Tab.get_putC]
    simp only [List.length_cons]
    by_cases hb : b = a
    · subst hb; simp
    · by_cases h1 : a + 1 ≤ b ∧ b < a + 1 + bs.length
      · have h2 : a ≤ b ∧ b < a + (bs.length + 1) := by omega
        have h3 : b - a = (b - (a + 1)) + 1 := by omega
        simp [h1, h2, h3]
      · have h2 : ¬ (a ≤ b ∧ b < a + (bs.length + 1)) := by omega
        simp only [h1, h2, hb, if_false]

end Sys2Proof.Machine
end

