-- ==== Sys2Proof/Laws/State.lean ====
section
/-! SUPPORT. What each act changes of the state and what it leaves: one rewriting rule for each field, by act. -/

namespace Sys2Proof.Machine

variable (s : State)

@[simp] theorem applyAct_fld (a hi lo v : Nat) :
    (applyAct (.fld a hi lo v) s).regs = putReg s.regs a (putField (s.cell a) hi lo v) ∧ (applyAct (.fld a hi lo v) s).hbm = s.hbm ∧
    (applyAct (.fld a hi lo v) s).lmem = s.lmem ∧ (applyAct (.fld a hi lo v) s).conv = s.conv ∧
    (applyAct (.fld a hi lo v) s).cal = s.cal ∧ (applyAct (.fld a hi lo v) s).trig = s.trig ∧
    (applyAct (.fld a hi lo v) s).seg = s.seg ∧ (applyAct (.fld a hi lo v) s).time = s.time ∧
    (applyAct (.fld a hi lo v) s).link = s.link ∧ (applyAct (.fld a hi lo v) s).tx = s.tx ∧ (applyAct (.fld a hi lo v) s).net = s.net ∧
    (applyAct (.fld a hi lo v) s).cmd = s.cmd ∧ (applyAct (.fld a hi lo v) s).fab = s.fab ∧ (applyAct (.fld a hi lo v) s).sec = s.sec ∧
    (applyAct (.fld a hi lo v) s).pwr = s.pwr ∧ (applyAct (.fld a hi lo v) s).disp = s.disp ∧
    (applyAct (.fld a hi lo v) s).sys = s.sys ∧ (applyAct (.fld a hi lo v) s).host = s.host ∧
    (applyAct (.fld a hi lo v) s).denials = s.denials ∧ (applyAct (.fld a hi lo v) s).faults = s.faults ∧
    (applyAct (.fld a hi lo v) s).out = s.out ∧ (applyAct (.fld a hi lo v) s).free = s.free ∧
    (applyAct (.fld a hi lo v) s).pending = s.pending :=
  ⟨rfl, rfl, rfl, rfl, rfl, rfl, rfl, rfl, rfl, rfl, rfl, rfl, rfl, rfl, rfl, rfl, rfl, rfl, rfl, rfl, rfl, rfl, rfl⟩

@[simp] theorem applyAct_wr (a : Nat) (v : Word) :
    (applyAct (.wr a v) s).regs = putReg s.regs a v ∧ (applyAct (.wr a v) s).hbm = s.hbm ∧ (applyAct (.wr a v) s).lmem = s.lmem ∧
    (applyAct (.wr a v) s).conv = s.conv ∧ (applyAct (.wr a v) s).cal = s.cal ∧ (applyAct (.wr a v) s).trig = s.trig ∧
    (applyAct (.wr a v) s).seg = s.seg ∧ (applyAct (.wr a v) s).time = s.time ∧ (applyAct (.wr a v) s).link = s.link ∧
    (applyAct (.wr a v) s).tx = s.tx ∧ (applyAct (.wr a v) s).net = s.net ∧ (applyAct (.wr a v) s).cmd = s.cmd ∧
    (applyAct (.wr a v) s).fab = s.fab ∧ (applyAct (.wr a v) s).sec = s.sec ∧ (applyAct (.wr a v) s).pwr = s.pwr ∧
    (applyAct (.wr a v) s).disp = s.disp ∧ (applyAct (.wr a v) s).sys = s.sys ∧ (applyAct (.wr a v) s).host = s.host ∧
    (applyAct (.wr a v) s).denials = s.denials ∧ (applyAct (.wr a v) s).faults = s.faults ∧ (applyAct (.wr a v) s).out = s.out ∧
    (applyAct (.wr a v) s).free = s.free ∧ (applyAct (.wr a v) s).pending = s.pending :=
  ⟨rfl, rfl, rfl, rfl, rfl, rfl, rfl, rfl, rfl, rfl, rfl, rfl, rfl, rfl, rfl, rfl, rfl, rfl, rfl, rfl, rfl, rfl, rfl⟩

@[simp] theorem applyAct_mem (a : Nat) (bs : List Byte) :
    (applyAct (.mem a bs) s).regs = s.regs ∧ (applyAct (.mem a bs) s).hbm = putBytes s.hbm a bs ∧
    (applyAct (.mem a bs) s).lmem = s.lmem ∧ (applyAct (.mem a bs) s).conv = s.conv ∧ (applyAct (.mem a bs) s).cal = s.cal ∧
    (applyAct (.mem a bs) s).trig = s.trig ∧ (applyAct (.mem a bs) s).seg = s.seg ∧ (applyAct (.mem a bs) s).time = s.time ∧
    (applyAct (.mem a bs) s).link = s.link ∧ (applyAct (.mem a bs) s).tx = s.tx ∧ (applyAct (.mem a bs) s).net = s.net ∧
    (applyAct (.mem a bs) s).cmd = s.cmd ∧ (applyAct (.mem a bs) s).fab = s.fab ∧ (applyAct (.mem a bs) s).sec = s.sec ∧
    (applyAct (.mem a bs) s).pwr = s.pwr ∧ (applyAct (.mem a bs) s).disp = s.disp ∧ (applyAct (.mem a bs) s).sys = s.sys ∧
    (applyAct (.mem a bs) s).host = s.host ∧ (applyAct (.mem a bs) s).denials = s.denials ∧ (applyAct (.mem a bs) s).faults = s.faults ∧
    (applyAct (.mem a bs) s).out = s.out ∧ (applyAct (.mem a bs) s).free = s.free ∧ (applyAct (.mem a bs) s).pending = s.pending :=
  ⟨rfl, rfl, rfl, rfl, rfl, rfl, rfl, rfl, rfl, rfl, rfl, rfl, rfl, rfl, rfl, rfl, rfl, rfl, rfl, rfl, rfl, rfl, rfl⟩

@[simp] theorem applyAct_lmem (a : Nat) (bs : List Byte) :
    (applyAct (.lmem a bs) s).regs = s.regs ∧ (applyAct (.lmem a bs) s).hbm = s.hbm ∧
    (applyAct (.lmem a bs) s).lmem = putBytes s.lmem a bs ∧ (applyAct (.lmem a bs) s).conv = s.conv ∧
    (applyAct (.lmem a bs) s).cal = s.cal ∧ (applyAct (.lmem a bs) s).trig = s.trig ∧ (applyAct (.lmem a bs) s).seg = s.seg ∧
    (applyAct (.lmem a bs) s).time = s.time ∧ (applyAct (.lmem a bs) s).link = s.link ∧ (applyAct (.lmem a bs) s).tx = s.tx ∧
    (applyAct (.lmem a bs) s).net = s.net ∧ (applyAct (.lmem a bs) s).cmd = s.cmd ∧ (applyAct (.lmem a bs) s).fab = s.fab ∧
    (applyAct (.lmem a bs) s).sec = s.sec ∧ (applyAct (.lmem a bs) s).pwr = s.pwr ∧ (applyAct (.lmem a bs) s).disp = s.disp ∧
    (applyAct (.lmem a bs) s).sys = s.sys ∧ (applyAct (.lmem a bs) s).host = s.host ∧ (applyAct (.lmem a bs) s).denials = s.denials ∧
    (applyAct (.lmem a bs) s).faults = s.faults ∧ (applyAct (.lmem a bs) s).out = s.out ∧ (applyAct (.lmem a bs) s).free = s.free ∧
    (applyAct (.lmem a bs) s).pending = s.pending :=
  ⟨rfl, rfl, rfl, rfl, rfl, rfl, rfl, rfl, rfl, rfl, rfl, rfl, rfl, rfl, rfl, rfl, rfl, rfl, rfl, rfl, rfl, rfl, rfl⟩

@[simp] theorem applyAct_emit (o : Out) :
    (applyAct (.emit o) s).regs = s.regs ∧ (applyAct (.emit o) s).hbm = s.hbm ∧ (applyAct (.emit o) s).lmem = s.lmem ∧
    (applyAct (.emit o) s).conv = s.conv ∧ (applyAct (.emit o) s).cal = s.cal ∧ (applyAct (.emit o) s).trig = s.trig ∧
    (applyAct (.emit o) s).seg = s.seg ∧ (applyAct (.emit o) s).time = s.time ∧ (applyAct (.emit o) s).link = s.link ∧
    (applyAct (.emit o) s).tx = s.tx ∧ (applyAct (.emit o) s).net = s.net ∧ (applyAct (.emit o) s).cmd = s.cmd ∧
    (applyAct (.emit o) s).fab = s.fab ∧ (applyAct (.emit o) s).sec = s.sec ∧ (applyAct (.emit o) s).pwr = s.pwr ∧
    (applyAct (.emit o) s).disp = s.disp ∧ (applyAct (.emit o) s).sys = s.sys ∧ (applyAct (.emit o) s).host = s.host ∧
    (applyAct (.emit o) s).denials = s.denials ∧ (applyAct (.emit o) s).faults = s.faults ∧ (applyAct (.emit o) s).out = o :: s.out ∧
    (applyAct (.emit o) s).free = s.free ∧ (applyAct (.emit o) s).pending = s.pending :=
  ⟨rfl, rfl, rfl, rfl, rfl, rfl, rfl, rfl, rfl, rfl, rfl, rfl, rfl, rfl, rfl, rfl, rfl, rfl, rfl, rfl, rfl, rfl, rfl⟩

@[simp] theorem applyAct_useFree :
    (applyAct .useFree s).regs = s.regs ∧ (applyAct .useFree s).hbm = s.hbm ∧ (applyAct .useFree s).lmem = s.lmem ∧
    (applyAct .useFree s).conv = s.conv ∧ (applyAct .useFree s).cal = s.cal ∧ (applyAct .useFree s).trig = s.trig ∧
    (applyAct .useFree s).seg = s.seg ∧ (applyAct .useFree s).time = s.time ∧ (applyAct .useFree s).link = s.link ∧
    (applyAct .useFree s).tx = s.tx ∧ (applyAct .useFree s).net = s.net ∧ (applyAct .useFree s).cmd = s.cmd ∧
    (applyAct .useFree s).fab = s.fab ∧ (applyAct .useFree s).sec = s.sec ∧ (applyAct .useFree s).pwr = s.pwr ∧
    (applyAct .useFree s).disp = s.disp ∧ (applyAct .useFree s).sys = s.sys ∧ (applyAct .useFree s).host = s.host ∧
    (applyAct .useFree s).denials = s.denials ∧ (applyAct .useFree s).faults = s.faults ∧ (applyAct .useFree s).out = s.out ∧
    (applyAct .useFree s).free = s.free + 1 ∧ (applyAct .useFree s).pending = s.pending :=
  ⟨rfl, rfl, rfl, rfl, rfl, rfl, rfl, rfl, rfl, rfl, rfl, rfl, rfl, rfl, rfl, rfl, rfl, rfl, rfl, rfl, rfl, rfl, rfl⟩

@[simp] theorem applyAct_deny (d : Denial) :
    (applyAct (.deny d) s).regs = s.regs ∧ (applyAct (.deny d) s).hbm = s.hbm ∧ (applyAct (.deny d) s).lmem = s.lmem ∧
    (applyAct (.deny d) s).conv = s.conv ∧ (applyAct (.deny d) s).cal = s.cal ∧ (applyAct (.deny d) s).trig = s.trig ∧
    (applyAct (.deny d) s).seg = s.seg ∧ (applyAct (.deny d) s).time = s.time ∧ (applyAct (.deny d) s).link = s.link ∧
    (applyAct (.deny d) s).tx = s.tx ∧ (applyAct (.deny d) s).net = s.net ∧ (applyAct (.deny d) s).cmd = s.cmd ∧
    (applyAct (.deny d) s).fab = s.fab ∧ (applyAct (.deny d) s).sec = s.sec ∧ (applyAct (.deny d) s).pwr = s.pwr ∧
    (applyAct (.deny d) s).disp = s.disp ∧ (applyAct (.deny d) s).sys = s.sys ∧ (applyAct (.deny d) s).host = s.host ∧
    (applyAct (.deny d) s).denials = (s.denials ++ [d]).take 16 ∧ (applyAct (.deny d) s).faults = s.faults ∧
    (applyAct (.deny d) s).out = s.out ∧ (applyAct (.deny d) s).free = s.free ∧ (applyAct (.deny d) s).pending = s.pending :=
  ⟨rfl, rfl, rfl, rfl, rfl, rfl, rfl, rfl, rfl, rfl, rfl, rfl, rfl, rfl, rfl, rfl, rfl, rfl, rfl, rfl, rfl, rfl, rfl⟩

@[simp] theorem applyAct_denyPop :
    (applyAct .denyPop s).regs = s.regs ∧ (applyAct .denyPop s).hbm = s.hbm ∧ (applyAct .denyPop s).lmem = s.lmem ∧
    (applyAct .denyPop s).conv = s.conv ∧ (applyAct .denyPop s).cal = s.cal ∧ (applyAct .denyPop s).trig = s.trig ∧
    (applyAct .denyPop s).seg = s.seg ∧ (applyAct .denyPop s).time = s.time ∧ (applyAct .denyPop s).link = s.link ∧
    (applyAct .denyPop s).tx = s.tx ∧ (applyAct .denyPop s).net = s.net ∧ (applyAct .denyPop s).cmd = s.cmd ∧
    (applyAct .denyPop s).fab = s.fab ∧ (applyAct .denyPop s).sec = s.sec ∧ (applyAct .denyPop s).pwr = s.pwr ∧
    (applyAct .denyPop s).disp = s.disp ∧ (applyAct .denyPop s).sys = s.sys ∧ (applyAct .denyPop s).host = s.host ∧
    (applyAct .denyPop s).denials = s.denials.drop 1 ∧ (applyAct .denyPop s).faults = s.faults ∧ (applyAct .denyPop s).out = s.out ∧
    (applyAct .denyPop s).free = s.free ∧ (applyAct .denyPop s).pending = s.pending :=
  ⟨rfl, rfl, rfl, rfl, rfl, rfl, rfl, rfl, rfl, rfl, rfl, rfl, rfl, rfl, rfl, rfl, rfl, rfl, rfl, rfl, rfl, rfl, rfl⟩

@[simp] theorem applyAct_flog (f : FaultRec) :
    (applyAct (.flog f) s).regs = s.regs ∧ (applyAct (.flog f) s).hbm = s.hbm ∧ (applyAct (.flog f) s).lmem = s.lmem ∧
    (applyAct (.flog f) s).conv = s.conv ∧ (applyAct (.flog f) s).cal = s.cal ∧ (applyAct (.flog f) s).trig = s.trig ∧
    (applyAct (.flog f) s).seg = s.seg ∧ (applyAct (.flog f) s).time = s.time ∧ (applyAct (.flog f) s).link = s.link ∧
    (applyAct (.flog f) s).tx = s.tx ∧ (applyAct (.flog f) s).net = s.net ∧ (applyAct (.flog f) s).cmd = s.cmd ∧
    (applyAct (.flog f) s).fab = s.fab ∧ (applyAct (.flog f) s).sec = s.sec ∧ (applyAct (.flog f) s).pwr = s.pwr ∧
    (applyAct (.flog f) s).disp = s.disp ∧ (applyAct (.flog f) s).sys = s.sys ∧ (applyAct (.flog f) s).host = s.host ∧
    (applyAct (.flog f) s).denials = s.denials ∧ (applyAct (.flog f) s).faults = (f :: s.faults).take 64 ∧
    (applyAct (.flog f) s).out = s.out ∧ (applyAct (.flog f) s).free = s.free ∧ (applyAct (.flog f) s).pending = s.pending :=
  ⟨rfl, rfl, rfl, rfl, rfl, rfl, rfl, rfl, rfl, rfl, rfl, rfl, rfl, rfl, rfl, rfl, rfl, rfl, rfl, rfl, rfl, rfl, rfl⟩

@[simp] theorem applyAct_flogClear :
    (applyAct .flogClear s).regs = s.regs ∧ (applyAct .flogClear s).hbm = s.hbm ∧ (applyAct .flogClear s).lmem = s.lmem ∧
    (applyAct .flogClear s).conv = s.conv ∧ (applyAct .flogClear s).cal = s.cal ∧ (applyAct .flogClear s).trig = s.trig ∧
    (applyAct .flogClear s).seg = s.seg ∧ (applyAct .flogClear s).time = s.time ∧ (applyAct .flogClear s).link = s.link ∧
    (applyAct .flogClear s).tx = s.tx ∧ (applyAct .flogClear s).net = s.net ∧ (applyAct .flogClear s).cmd = s.cmd ∧
    (applyAct .flogClear s).fab = s.fab ∧ (applyAct .flogClear s).sec = s.sec ∧ (applyAct .flogClear s).pwr = s.pwr ∧
    (applyAct .flogClear s).disp = s.disp ∧ (applyAct .flogClear s).sys = s.sys ∧ (applyAct .flogClear s).host = s.host ∧
    (applyAct .flogClear s).denials = s.denials ∧ (applyAct .flogClear s).faults = [] ∧ (applyAct .flogClear s).out = s.out ∧
    (applyAct .flogClear s).free = s.free ∧ (applyAct .flogClear s).pending = s.pending :=
  ⟨rfl, rfl, rfl, rfl, rfl, rfl, rfl, rfl, rfl, rfl, rfl, rfl, rfl, rfl, rfl, rfl, rfl, rfl, rfl, rfl, rfl, rfl, rfl⟩

@[simp] theorem applyAct_conv (f : Conv → Conv) :
    (applyAct (.conv f) s).regs = s.regs ∧ (applyAct (.conv f) s).hbm = s.hbm ∧ (applyAct (.conv f) s).lmem = s.lmem ∧
    (applyAct (.conv f) s).conv = f s.conv ∧ (applyAct (.conv f) s).cal = s.cal ∧ (applyAct (.conv f) s).trig = s.trig ∧
    (applyAct (.conv f) s).seg = s.seg ∧ (applyAct (.conv f) s).time = s.time ∧ (applyAct (.conv f) s).link = s.link ∧
    (applyAct (.conv f) s).tx = s.tx ∧ (applyAct (.conv f) s).net = s.net ∧ (applyAct (.conv f) s).cmd = s.cmd ∧
    (applyAct (.conv f) s).fab = s.fab ∧ (applyAct (.conv f) s).sec = s.sec ∧ (applyAct (.conv f) s).pwr = s.pwr ∧
    (applyAct (.conv f) s).disp = s.disp ∧ (applyAct (.conv f) s).sys = s.sys ∧ (applyAct (.conv f) s).host = s.host ∧
    (applyAct (.conv f) s).denials = s.denials ∧ (applyAct (.conv f) s).faults = s.faults ∧ (applyAct (.conv f) s).out = s.out ∧
    (applyAct (.conv f) s).free = s.free ∧ (applyAct (.conv f) s).pending = s.pending :=
  ⟨rfl, rfl, rfl, rfl, rfl, rfl, rfl, rfl, rfl, rfl, rfl, rfl, rfl, rfl, rfl, rfl, rfl, rfl, rfl, rfl, rfl, rfl, rfl⟩

@[simp] theorem applyAct_cal (f : Cal → Cal) :
    (applyAct (.cal f) s).regs = s.regs ∧ (applyAct (.cal f) s).hbm = s.hbm ∧ (applyAct (.cal f) s).lmem = s.lmem ∧
    (applyAct (.cal f) s).conv = s.conv ∧ (applyAct (.cal f) s).cal = f s.cal ∧ (applyAct (.cal f) s).trig = s.trig ∧
    (applyAct (.cal f) s).seg = s.seg ∧ (applyAct (.cal f) s).time = s.time ∧ (applyAct (.cal f) s).link = s.link ∧
    (applyAct (.cal f) s).tx = s.tx ∧ (applyAct (.cal f) s).net = s.net ∧ (applyAct (.cal f) s).cmd = s.cmd ∧
    (applyAct (.cal f) s).fab = s.fab ∧ (applyAct (.cal f) s).sec = s.sec ∧ (applyAct (.cal f) s).pwr = s.pwr ∧
    (applyAct (.cal f) s).disp = s.disp ∧ (applyAct (.cal f) s).sys = s.sys ∧ (applyAct (.cal f) s).host = s.host ∧
    (applyAct (.cal f) s).denials = s.denials ∧ (applyAct (.cal f) s).faults = s.faults ∧ (applyAct (.cal f) s).out = s.out ∧
    (applyAct (.cal f) s).free = s.free ∧ (applyAct (.cal f) s).pending = s.pending :=
  ⟨rfl, rfl, rfl, rfl, rfl, rfl, rfl, rfl, rfl, rfl, rfl, rfl, rfl, rfl, rfl, rfl, rfl, rfl, rfl, rfl, rfl, rfl, rfl⟩

@[simp] theorem applyAct_trig (f : Trig → Trig) :
    (applyAct (.trig f) s).regs = s.regs ∧ (applyAct (.trig f) s).hbm = s.hbm ∧ (applyAct (.trig f) s).lmem = s.lmem ∧
    (applyAct (.trig f) s).conv = s.conv ∧ (applyAct (.trig f) s).cal = s.cal ∧ (applyAct (.trig f) s).trig = f s.trig ∧
    (applyAct (.trig f) s).seg = s.seg ∧ (applyAct (.trig f) s).time = s.time ∧ (applyAct (.trig f) s).link = s.link ∧
    (applyAct (.trig f) s).tx = s.tx ∧ (applyAct (.trig f) s).net = s.net ∧ (applyAct (.trig f) s).cmd = s.cmd ∧
    (applyAct (.trig f) s).fab = s.fab ∧ (applyAct (.trig f) s).sec = s.sec ∧ (applyAct (.trig f) s).pwr = s.pwr ∧
    (applyAct (.trig f) s).disp = s.disp ∧ (applyAct (.trig f) s).sys = s.sys ∧ (applyAct (.trig f) s).host = s.host ∧
    (applyAct (.trig f) s).denials = s.denials ∧ (applyAct (.trig f) s).faults = s.faults ∧ (applyAct (.trig f) s).out = s.out ∧
    (applyAct (.trig f) s).free = s.free ∧ (applyAct (.trig f) s).pending = s.pending :=
  ⟨rfl, rfl, rfl, rfl, rfl, rfl, rfl, rfl, rfl, rfl, rfl, rfl, rfl, rfl, rfl, rfl, rfl, rfl, rfl, rfl, rfl, rfl, rfl⟩

@[simp] theorem applyAct_seg (f : Seg → Seg) :
    (applyAct (.seg f) s).regs = s.regs ∧ (applyAct (.seg f) s).hbm = s.hbm ∧ (applyAct (.seg f) s).lmem = s.lmem ∧
    (applyAct (.seg f) s).conv = s.conv ∧ (applyAct (.seg f) s).cal = s.cal ∧ (applyAct (.seg f) s).trig = s.trig ∧
    (applyAct (.seg f) s).seg = f s.seg ∧ (applyAct (.seg f) s).time = s.time ∧ (applyAct (.seg f) s).link = s.link ∧
    (applyAct (.seg f) s).tx = s.tx ∧ (applyAct (.seg f) s).net = s.net ∧ (applyAct (.seg f) s).cmd = s.cmd ∧
    (applyAct (.seg f) s).fab = s.fab ∧ (applyAct (.seg f) s).sec = s.sec ∧ (applyAct (.seg f) s).pwr = s.pwr ∧
    (applyAct (.seg f) s).disp = s.disp ∧ (applyAct (.seg f) s).sys = s.sys ∧ (applyAct (.seg f) s).host = s.host ∧
    (applyAct (.seg f) s).denials = s.denials ∧ (applyAct (.seg f) s).faults = s.faults ∧ (applyAct (.seg f) s).out = s.out ∧
    (applyAct (.seg f) s).free = s.free ∧ (applyAct (.seg f) s).pending = s.pending :=
  ⟨rfl, rfl, rfl, rfl, rfl, rfl, rfl, rfl, rfl, rfl, rfl, rfl, rfl, rfl, rfl, rfl, rfl, rfl, rfl, rfl, rfl, rfl, rfl⟩

@[simp] theorem applyAct_time (f : TimeB → TimeB) :
    (applyAct (.time f) s).regs = s.regs ∧ (applyAct (.time f) s).hbm = s.hbm ∧ (applyAct (.time f) s).lmem = s.lmem ∧
    (applyAct (.time f) s).conv = s.conv ∧ (applyAct (.time f) s).cal = s.cal ∧ (applyAct (.time f) s).trig = s.trig ∧
    (applyAct (.time f) s).seg = s.seg ∧ (applyAct (.time f) s).time = f s.time ∧ (applyAct (.time f) s).link = s.link ∧
    (applyAct (.time f) s).tx = s.tx ∧ (applyAct (.time f) s).net = s.net ∧ (applyAct (.time f) s).cmd = s.cmd ∧
    (applyAct (.time f) s).fab = s.fab ∧ (applyAct (.time f) s).sec = s.sec ∧ (applyAct (.time f) s).pwr = s.pwr ∧
    (applyAct (.time f) s).disp = s.disp ∧ (applyAct (.time f) s).sys = s.sys ∧ (applyAct (.time f) s).host = s.host ∧
    (applyAct (.time f) s).denials = s.denials ∧ (applyAct (.time f) s).faults = s.faults ∧ (applyAct (.time f) s).out = s.out ∧
    (applyAct (.time f) s).free = s.free ∧ (applyAct (.time f) s).pending = s.pending :=
  ⟨rfl, rfl, rfl, rfl, rfl, rfl, rfl, rfl, rfl, rfl, rfl, rfl, rfl, rfl, rfl, rfl, rfl, rfl, rfl, rfl, rfl, rfl, rfl⟩

@[simp] theorem applyAct_link (f : Link → Link) :
    (applyAct (.link f) s).regs = s.regs ∧ (applyAct (.link f) s).hbm = s.hbm ∧ (applyAct (.link f) s).lmem = s.lmem ∧
    (applyAct (.link f) s).conv = s.conv ∧ (applyAct (.link f) s).cal = s.cal ∧ (applyAct (.link f) s).trig = s.trig ∧
    (applyAct (.link f) s).seg = s.seg ∧ (applyAct (.link f) s).time = s.time ∧ (applyAct (.link f) s).link = f s.link ∧
    (applyAct (.link f) s).tx = s.tx ∧ (applyAct (.link f) s).net = s.net ∧ (applyAct (.link f) s).cmd = s.cmd ∧
    (applyAct (.link f) s).fab = s.fab ∧ (applyAct (.link f) s).sec = s.sec ∧ (applyAct (.link f) s).pwr = s.pwr ∧
    (applyAct (.link f) s).disp = s.disp ∧ (applyAct (.link f) s).sys = s.sys ∧ (applyAct (.link f) s).host = s.host ∧
    (applyAct (.link f) s).denials = s.denials ∧ (applyAct (.link f) s).faults = s.faults ∧ (applyAct (.link f) s).out = s.out ∧
    (applyAct (.link f) s).free = s.free ∧ (applyAct (.link f) s).pending = s.pending :=
  ⟨rfl, rfl, rfl, rfl, rfl, rfl, rfl, rfl, rfl, rfl, rfl, rfl, rfl, rfl, rfl, rfl, rfl, rfl, rfl, rfl, rfl, rfl, rfl⟩

@[simp] theorem applyAct_tx (f : Tab PortTx → Tab PortTx) :
    (applyAct (.tx f) s).regs = s.regs ∧ (applyAct (.tx f) s).hbm = s.hbm ∧ (applyAct (.tx f) s).lmem = s.lmem ∧
    (applyAct (.tx f) s).conv = s.conv ∧ (applyAct (.tx f) s).cal = s.cal ∧ (applyAct (.tx f) s).trig = s.trig ∧
    (applyAct (.tx f) s).seg = s.seg ∧ (applyAct (.tx f) s).time = s.time ∧ (applyAct (.tx f) s).link = s.link ∧
    (applyAct (.tx f) s).tx = f s.tx ∧ (applyAct (.tx f) s).net = s.net ∧ (applyAct (.tx f) s).cmd = s.cmd ∧
    (applyAct (.tx f) s).fab = s.fab ∧ (applyAct (.tx f) s).sec = s.sec ∧ (applyAct (.tx f) s).pwr = s.pwr ∧
    (applyAct (.tx f) s).disp = s.disp ∧ (applyAct (.tx f) s).sys = s.sys ∧ (applyAct (.tx f) s).host = s.host ∧
    (applyAct (.tx f) s).denials = s.denials ∧ (applyAct (.tx f) s).faults = s.faults ∧ (applyAct (.tx f) s).out = s.out ∧
    (applyAct (.tx f) s).free = s.free ∧ (applyAct (.tx f) s).pending = s.pending :=
  ⟨rfl, rfl, rfl, rfl, rfl, rfl, rfl, rfl, rfl, rfl, rfl, rfl, rfl, rfl, rfl, rfl, rfl, rfl, rfl, rfl, rfl, rfl, rfl⟩

@[simp] theorem applyAct_host (f : HostIf → HostIf) :
    (applyAct (.host f) s).regs = s.regs ∧ (applyAct (.host f) s).hbm = s.hbm ∧ (applyAct (.host f) s).lmem = s.lmem ∧
    (applyAct (.host f) s).conv = s.conv ∧ (applyAct (.host f) s).cal = s.cal ∧ (applyAct (.host f) s).trig = s.trig ∧
    (applyAct (.host f) s).seg = s.seg ∧ (applyAct (.host f) s).time = s.time ∧ (applyAct (.host f) s).link = s.link ∧
    (applyAct (.host f) s).tx = s.tx ∧ (applyAct (.host f) s).net = s.net ∧ (applyAct (.host f) s).cmd = s.cmd ∧
    (applyAct (.host f) s).fab = s.fab ∧ (applyAct (.host f) s).sec = s.sec ∧ (applyAct (.host f) s).pwr = s.pwr ∧
    (applyAct (.host f) s).disp = s.disp ∧ (applyAct (.host f) s).sys = s.sys ∧ (applyAct (.host f) s).host = f s.host ∧
    (applyAct (.host f) s).denials = s.denials ∧ (applyAct (.host f) s).faults = s.faults ∧ (applyAct (.host f) s).out = s.out ∧
    (applyAct (.host f) s).free = s.free ∧ (applyAct (.host f) s).pending = s.pending :=
  ⟨rfl, rfl, rfl, rfl, rfl, rfl, rfl, rfl, rfl, rfl, rfl, rfl, rfl, rfl, rfl, rfl, rfl, rfl, rfl, rfl, rfl, rfl, rfl⟩

@[simp] theorem applyAct_net (f : Net → Net) :
    (applyAct (.net f) s).regs = s.regs ∧ (applyAct (.net f) s).hbm = s.hbm ∧ (applyAct (.net f) s).lmem = s.lmem ∧
    (applyAct (.net f) s).conv = s.conv ∧ (applyAct (.net f) s).cal = s.cal ∧ (applyAct (.net f) s).trig = s.trig ∧
    (applyAct (.net f) s).seg = s.seg ∧ (applyAct (.net f) s).time = s.time ∧ (applyAct (.net f) s).link = s.link ∧
    (applyAct (.net f) s).tx = s.tx ∧ (applyAct (.net f) s).net = f s.net ∧ (applyAct (.net f) s).cmd = s.cmd ∧
    (applyAct (.net f) s).fab = s.fab ∧ (applyAct (.net f) s).sec = s.sec ∧ (applyAct (.net f) s).pwr = s.pwr ∧
    (applyAct (.net f) s).disp = s.disp ∧ (applyAct (.net f) s).sys = s.sys ∧ (applyAct (.net f) s).host = s.host ∧
    (applyAct (.net f) s).denials = s.denials ∧ (applyAct (.net f) s).faults = s.faults ∧ (applyAct (.net f) s).out = s.out ∧
    (applyAct (.net f) s).free = s.free ∧ (applyAct (.net f) s).pending = s.pending :=
  ⟨rfl, rfl, rfl, rfl, rfl, rfl, rfl, rfl, rfl, rfl, rfl, rfl, rfl, rfl, rfl, rfl, rfl, rfl, rfl, rfl, rfl, rfl, rfl⟩

@[simp] theorem applyAct_cmd (f : Cmd → Cmd) :
    (applyAct (.cmd f) s).regs = s.regs ∧ (applyAct (.cmd f) s).hbm = s.hbm ∧ (applyAct (.cmd f) s).lmem = s.lmem ∧
    (applyAct (.cmd f) s).conv = s.conv ∧ (applyAct (.cmd f) s).cal = s.cal ∧ (applyAct (.cmd f) s).trig = s.trig ∧
    (applyAct (.cmd f) s).seg = s.seg ∧ (applyAct (.cmd f) s).time = s.time ∧ (applyAct (.cmd f) s).link = s.link ∧
    (applyAct (.cmd f) s).tx = s.tx ∧ (applyAct (.cmd f) s).net = s.net ∧ (applyAct (.cmd f) s).cmd = f s.cmd ∧
    (applyAct (.cmd f) s).fab = s.fab ∧ (applyAct (.cmd f) s).sec = s.sec ∧ (applyAct (.cmd f) s).pwr = s.pwr ∧
    (applyAct (.cmd f) s).disp = s.disp ∧ (applyAct (.cmd f) s).sys = s.sys ∧ (applyAct (.cmd f) s).host = s.host ∧
    (applyAct (.cmd f) s).denials = s.denials ∧ (applyAct (.cmd f) s).faults = s.faults ∧ (applyAct (.cmd f) s).out = s.out ∧
    (applyAct (.cmd f) s).free = s.free ∧ (applyAct (.cmd f) s).pending = s.pending :=
  ⟨rfl, rfl, rfl, rfl, rfl, rfl, rfl, rfl, rfl, rfl, rfl, rfl, rfl, rfl, rfl, rfl, rfl, rfl, rfl, rfl, rfl, rfl, rfl⟩

@[simp] theorem applyAct_fab (f : Fab → Fab) :
    (applyAct (.fab f) s).regs = s.regs ∧ (applyAct (.fab f) s).hbm = s.hbm ∧ (applyAct (.fab f) s).lmem = s.lmem ∧
    (applyAct (.fab f) s).conv = s.conv ∧ (applyAct (.fab f) s).cal = s.cal ∧ (applyAct (.fab f) s).trig = s.trig ∧
    (applyAct (.fab f) s).seg = s.seg ∧ (applyAct (.fab f) s).time = s.time ∧ (applyAct (.fab f) s).link = s.link ∧
    (applyAct (.fab f) s).tx = s.tx ∧ (applyAct (.fab f) s).net = s.net ∧ (applyAct (.fab f) s).cmd = s.cmd ∧
    (applyAct (.fab f) s).fab = f s.fab ∧ (applyAct (.fab f) s).sec = s.sec ∧ (applyAct (.fab f) s).pwr = s.pwr ∧
    (applyAct (.fab f) s).disp = s.disp ∧ (applyAct (.fab f) s).sys = s.sys ∧ (applyAct (.fab f) s).host = s.host ∧
    (applyAct (.fab f) s).denials = s.denials ∧ (applyAct (.fab f) s).faults = s.faults ∧ (applyAct (.fab f) s).out = s.out ∧
    (applyAct (.fab f) s).free = s.free ∧ (applyAct (.fab f) s).pending = s.pending :=
  ⟨rfl, rfl, rfl, rfl, rfl, rfl, rfl, rfl, rfl, rfl, rfl, rfl, rfl, rfl, rfl, rfl, rfl, rfl, rfl, rfl, rfl, rfl, rfl⟩

@[simp] theorem applyAct_sec (f : Sec → Sec) :
    (applyAct (.sec f) s).regs = s.regs ∧ (applyAct (.sec f) s).hbm = s.hbm ∧ (applyAct (.sec f) s).lmem = s.lmem ∧
    (applyAct (.sec f) s).conv = s.conv ∧ (applyAct (.sec f) s).cal = s.cal ∧ (applyAct (.sec f) s).trig = s.trig ∧
    (applyAct (.sec f) s).seg = s.seg ∧ (applyAct (.sec f) s).time = s.time ∧ (applyAct (.sec f) s).link = s.link ∧
    (applyAct (.sec f) s).tx = s.tx ∧ (applyAct (.sec f) s).net = s.net ∧ (applyAct (.sec f) s).cmd = s.cmd ∧
    (applyAct (.sec f) s).fab = s.fab ∧ (applyAct (.sec f) s).sec = f s.sec ∧ (applyAct (.sec f) s).pwr = s.pwr ∧
    (applyAct (.sec f) s).disp = s.disp ∧ (applyAct (.sec f) s).sys = s.sys ∧ (applyAct (.sec f) s).host = s.host ∧
    (applyAct (.sec f) s).denials = s.denials ∧ (applyAct (.sec f) s).faults = s.faults ∧ (applyAct (.sec f) s).out = s.out ∧
    (applyAct (.sec f) s).free = s.free ∧ (applyAct (.sec f) s).pending = s.pending :=
  ⟨rfl, rfl, rfl, rfl, rfl, rfl, rfl, rfl, rfl, rfl, rfl, rfl, rfl, rfl, rfl, rfl, rfl, rfl, rfl, rfl, rfl, rfl, rfl⟩

@[simp] theorem applyAct_pwr (f : Pwr → Pwr) :
    (applyAct (.pwr f) s).regs = s.regs ∧ (applyAct (.pwr f) s).hbm = s.hbm ∧ (applyAct (.pwr f) s).lmem = s.lmem ∧
    (applyAct (.pwr f) s).conv = s.conv ∧ (applyAct (.pwr f) s).cal = s.cal ∧ (applyAct (.pwr f) s).trig = s.trig ∧
    (applyAct (.pwr f) s).seg = s.seg ∧ (applyAct (.pwr f) s).time = s.time ∧ (applyAct (.pwr f) s).link = s.link ∧
    (applyAct (.pwr f) s).tx = s.tx ∧ (applyAct (.pwr f) s).net = s.net ∧ (applyAct (.pwr f) s).cmd = s.cmd ∧
    (applyAct (.pwr f) s).fab = s.fab ∧ (applyAct (.pwr f) s).sec = s.sec ∧ (applyAct (.pwr f) s).pwr = f s.pwr ∧
    (applyAct (.pwr f) s).disp = s.disp ∧ (applyAct (.pwr f) s).sys = s.sys ∧ (applyAct (.pwr f) s).host = s.host ∧
    (applyAct (.pwr f) s).denials = s.denials ∧ (applyAct (.pwr f) s).faults = s.faults ∧ (applyAct (.pwr f) s).out = s.out ∧
    (applyAct (.pwr f) s).free = s.free ∧ (applyAct (.pwr f) s).pending = s.pending :=
  ⟨rfl, rfl, rfl, rfl, rfl, rfl, rfl, rfl, rfl, rfl, rfl, rfl, rfl, rfl, rfl, rfl, rfl, rfl, rfl, rfl, rfl, rfl, rfl⟩

@[simp] theorem applyAct_disp (f : Disp → Disp) :
    (applyAct (.disp f) s).regs = s.regs ∧ (applyAct (.disp f) s).hbm = s.hbm ∧ (applyAct (.disp f) s).lmem = s.lmem ∧
    (applyAct (.disp f) s).conv = s.conv ∧ (applyAct (.disp f) s).cal = s.cal ∧ (applyAct (.disp f) s).trig = s.trig ∧
    (applyAct (.disp f) s).seg = s.seg ∧ (applyAct (.disp f) s).time = s.time ∧ (applyAct (.disp f) s).link = s.link ∧
    (applyAct (.disp f) s).tx = s.tx ∧ (applyAct (.disp f) s).net = s.net ∧ (applyAct (.disp f) s).cmd = s.cmd ∧
    (applyAct (.disp f) s).fab = s.fab ∧ (applyAct (.disp f) s).sec = s.sec ∧ (applyAct (.disp f) s).pwr = s.pwr ∧
    (applyAct (.disp f) s).disp = f s.disp ∧ (applyAct (.disp f) s).sys = s.sys ∧ (applyAct (.disp f) s).host = s.host ∧
    (applyAct (.disp f) s).denials = s.denials ∧ (applyAct (.disp f) s).faults = s.faults ∧ (applyAct (.disp f) s).out = s.out ∧
    (applyAct (.disp f) s).free = s.free ∧ (applyAct (.disp f) s).pending = s.pending :=
  ⟨rfl, rfl, rfl, rfl, rfl, rfl, rfl, rfl, rfl, rfl, rfl, rfl, rfl, rfl, rfl, rfl, rfl, rfl, rfl, rfl, rfl, rfl, rfl⟩

@[simp] theorem applyAct_sys (f : Sys → Sys) :
    (applyAct (.sys f) s).regs = s.regs ∧ (applyAct (.sys f) s).hbm = s.hbm ∧ (applyAct (.sys f) s).lmem = s.lmem ∧
    (applyAct (.sys f) s).conv = s.conv ∧ (applyAct (.sys f) s).cal = s.cal ∧ (applyAct (.sys f) s).trig = s.trig ∧
    (applyAct (.sys f) s).seg = s.seg ∧ (applyAct (.sys f) s).time = s.time ∧ (applyAct (.sys f) s).link = s.link ∧
    (applyAct (.sys f) s).tx = s.tx ∧ (applyAct (.sys f) s).net = s.net ∧ (applyAct (.sys f) s).cmd = s.cmd ∧
    (applyAct (.sys f) s).fab = s.fab ∧ (applyAct (.sys f) s).sec = s.sec ∧ (applyAct (.sys f) s).pwr = s.pwr ∧
    (applyAct (.sys f) s).disp = s.disp ∧ (applyAct (.sys f) s).sys = f s.sys ∧ (applyAct (.sys f) s).host = s.host ∧
    (applyAct (.sys f) s).denials = s.denials ∧ (applyAct (.sys f) s).faults = s.faults ∧ (applyAct (.sys f) s).out = s.out ∧
    (applyAct (.sys f) s).free = s.free ∧ (applyAct (.sys f) s).pending = s.pending :=
  ⟨rfl, rfl, rfl, rfl, rfl, rfl, rfl, rfl, rfl, rfl, rfl, rfl, rfl, rfl, rfl, rfl, rfl, rfl, rfl, rfl, rfl, rfl, rfl⟩

/-- A register cell after an act that sets it or another. -/
@[simp] theorem cell_applyAct_wr (a b : Nat) (v : Word) :
    (applyAct (.wr a v) s).cell b = if b = a then v else s.cell b := by
  show Tab.get (putReg s.regs a v) (resetWord b) b = _
  unfold putReg Tab.putC State.cell
  by_cases hb : b = a
  · subst hb; split
    · subst_vars; simp
    · simp
  · split
    · simp [Tab.get, hb]
    · simp [hb]

/-- A register cell after an act that sets a field of it or of another. -/
@[simp] theorem cell_applyAct_fld (a b hi lo v : Nat) :
    (applyAct (.fld a hi lo v) s).cell b = if b = a then putField (s.cell a) hi lo v else s.cell b :=
  cell_applyAct_wr s a b (putField (s.cell a) hi lo v)

/-- The register cells do not depend on any other field of the state. -/
theorem cell_congr (s t : State) (a : Nat) (h : t.regs = s.regs) : t.cell a = s.cell a := by simp [State.cell, h]

end Sys2Proof.Machine
end

