-- ==== Sys2Proof/Laws/Prog.lean ====
section
/-! SUPPORT. Programs of acts: how they run, and what every one of them keeps. -/

namespace Sys2Proof.Machine

@[simp] theorem run_nil (s : State) : run .nil s = s := rfl

@[simp] theorem run_ask (k : State → Prog) (s : State) : run (.ask k) s = run (k s) s := rfl

@[simp] theorem run_act (a : Act) (k : Prog) (s : State) : run (.act a k) s = run k (applyAct a s) := rfl

@[simp] theorem run_seq (p q : Prog) (s : State) : run (p.seq q) s = run q (run p s) := by
  induction p generalizing s with
  | nil => rfl
  | ask k ih => exact ih s s
  | act a k ih => exact ih (applyAct a s)

@[simp] theorem run_all_nil (s : State) : run (.all []) s = s := rfl

@[simp] theorem run_all_cons (p : Prog) (ps : List Prog) (s : State) : run (.all (p :: ps)) s = run (.all ps) (run p s) := by
  simp [Prog.all]

@[simp] theorem run_all_append (ps qs : List Prog) (s : State) : run (.all (ps ++ qs)) s = run (.all qs) (run (.all ps) s) := by
  induction ps generalizing s with
  | nil => rfl
  | cons p ps ih => simp [ih]

@[simp] theorem run_each_nil {α : Type} (f : α → Prog) (s : State) : run (.each [] f) s = s := rfl

@[simp] theorem run_each_cons {α : Type} (x : α) (l : List α) (f : α → Prog) (s : State) :
    run (.each (x :: l) f) s = run (.each l f) (run (f x) s) := by simp [Prog.each]

@[simp] theorem run_when (c : Bool) (p : Prog) (s : State) : run (.when c p) s = if c then run p s else s := by
  cases c <;> rfl

@[simp] theorem run_ite (c : Prop) [Decidable c] (p q : Prog) (s : State) :
    run (if c then p else q) s = if c then run p s else run q s := by split <;> rfl

@[simp] theorem run_one (a : Act) (s : State) : run (.one a) s = applyAct a s := rfl

@[simp] theorem run_out (o : Out) (s : State) : run (.out o) s = { s with out := o :: s.out } := rfl

/-- What every act keeps, every program keeps. -/
theorem run_keeps (P : State → Prop) (h : ∀ a s, P s → P (applyAct a s)) (p : Prog) (s : State) (hs : P s) : P (run p s) := by
  induction p generalizing s with
  | nil => exact hs
  | ask k ih => exact ih s s hs
  | act a k ih => exact ih _ (h a s hs)

/-- A program leaves the queue of commands as it is. -/
@[simp] theorem run_pending (p : Prog) (s : State) : (run p s).pending = s.pending :=
  run_keeps (fun t => t.pending = s.pending) (fun a t h => by cases a <;> exact h) p s rfl

/-- Every program keeps the state well kept. -/
theorem run_wf (p : Prog) (s : State) (h : s.wf = true) : (run p s).wf = true := by
  refine run_keeps (fun t => t.wf = true) (fun a t h => ?_) p s h
  simp only [State.wf, Bool.and_eq_true, decide_eq_true_eq] at h ⊢
  obtain ⟨⟨⟨⟨h1, h2⟩, h3⟩, h4⟩, h5⟩ := h
  cases a <;> simp [h1, h2, h3, h4, h5, Registers.wf_putReg, Memory.wf_putBytes]
  omega

/-- What is put on the outer interfaces is only added to. -/
theorem run_out_grows (p : Prog) (s : State) : ∃ l, (run p s).out = l ++ s.out :=
  run_keeps (fun t => ∃ l, t.out = l ++ s.out)
    (fun a t h => by obtain ⟨l, hl⟩ := h; cases a <;> simp [hl]; exact ⟨_ :: l, rfl⟩) p s ⟨[], rfl⟩

end Sys2Proof.Machine
end

