-- ==== Sys2Proof/Laws/Exec.lean ====
section
/-! SUPPORT. Every command runs a program of acts, and so completes. -/

namespace Sys2Proof.Machine

/-- The meaning of every command is the run of one program of acts. -/
theorem exec_runs (i : Instr) (s : State) : ∃ p, exec i s = .next (run p s) := by
  cases i <;> exact ⟨_, rfl⟩

end Sys2Proof.Machine
end

