-- ==== Sys2Proof/Laws/Fields.lean ====
section
/-! SUPPORT. Bit fields of register words: what a field reads after it, or another, has been set. -/

namespace Sys2Proof.Machine

theorem bits_eq (v hi lo : Nat) : bits v hi lo = v / 2 ^ lo % 2 ^ (hi + 1 - lo) := by
  simp [bits, Nat.shiftRight_eq_div_pow]

theorem bits_lt (v hi lo : Nat) : bits v hi lo < 2 ^ (hi + 1 - lo) := by
  rw [bits_eq]; exact Nat.mod_lt _ (Nat.two_pow_pos _)

/-- A number in three parts: below a field, the field, above it. -/
theorem split_field (v hi lo : Nat) (h : lo ≤ hi + 1) :
    v = v / 2 ^ (hi + 1) * 2 ^ (hi + 1) + bits v hi lo * 2 ^ lo + v % 2 ^ lo := by
  have h1 : 2 ^ (hi + 1) = 2 ^ lo * 2 ^ (hi + 1 - lo) := by rw [← Nat.pow_add]; congr 1; omega
  rw [bits_eq, h1, ← Nat.div_div_eq_div_mul]
  have a := Nat.div_add_mod v (2 ^ lo)
  have b := Nat.div_add_mod (v / 2 ^ lo) (2 ^ (hi + 1 - lo))
  generalize v / 2 ^ lo = q at *
  generalize 2 ^ (hi + 1 - lo) = m at *
  generalize 2 ^ lo = l at *
  generalize q / m = c at *
  generalize q % m = d at *
  subst b
  rw [← a]
  have hmod : (l * (m * c + d) + v % l) % l = v % l := by simp
  rw [hmod]
  ring

/-- A number with a field replaced. -/
theorem putBits_eq (v hi lo x : Nat) (h : lo ≤ hi + 1) :
    putBits v hi lo x = v / 2 ^ (hi + 1) * 2 ^ (hi + 1) + x % 2 ^ (hi + 1 - lo) * 2 ^ lo + v % 2 ^ lo := by
  unfold putBits
  have := split_field v hi lo h
  generalize v / 2 ^ (hi + 1) * 2 ^ (hi + 1) = A at *
  generalize bits v hi lo * 2 ^ lo = B at *
  generalize v % 2 ^ lo = C at *
  omega

theorem putBits_lt (v hi lo x n : Nat) (h : lo ≤ hi) (hn : hi < n) (hv : v < 2 ^ n) : putBits v hi lo x < 2 ^ n := by
  rw [putBits_eq v hi lo x (by omega)]
  have h1 : v / 2 ^ (hi + 1) < 2 ^ (n - (hi + 1)) := by
    apply Nat.div_lt_of_lt_mul; rw [← Nat.pow_add]; convert hv using 2; omega
  have h2 : x % 2 ^ (hi + 1 - lo) < 2 ^ (hi + 1 - lo) := Nat.mod_lt _ (Nat.two_pow_pos _)
  have h3 : v % 2 ^ lo < 2 ^ lo := Nat.mod_lt _ (Nat.two_pow_pos _)
  have e1 : 2 ^ n = 2 ^ (n - (hi + 1)) * 2 ^ (hi + 1) := by rw [← Nat.pow_add]; congr 1; omega
  have e2 : 2 ^ (hi + 1) = 2 ^ (hi + 1 - lo) * 2 ^ lo := by rw [← Nat.pow_add]; congr 1; omega
  rw [e1]
  have m1 : (v / 2 ^ (hi + 1) + 1) * 2 ^ (hi + 1) ≤ 2 ^ (n - (hi + 1)) * 2 ^ (hi + 1) := Nat.mul_le_mul_right _ h1
  have m2 : (x % 2 ^ (hi + 1 - lo) + 1) * 2 ^ lo ≤ 2 ^ (hi + 1 - lo) * 2 ^ lo := Nat.mul_le_mul_right _ h2
  rw [Nat.add_mul, Nat.one_mul] at m1 m2
  rw [← e2] at m2
  omega

/-- A field that has been replaced. -/
theorem bits_putBits_same (v hi lo x : Nat) (h : lo ≤ hi) : bits (putBits v hi lo x) hi lo = x % 2 ^ (hi + 1 - lo) := by
  rw [putBits_eq v hi lo x (by omega), bits_eq]
  have e2 : 2 ^ (hi + 1) = 2 ^ (hi + 1 - lo) * 2 ^ lo := by rw [← Nat.pow_add]; congr 1; omega
  have h2 : x % 2 ^ (hi + 1 - lo) < 2 ^ (hi + 1 - lo) := Nat.mod_lt _ (Nat.two_pow_pos _)
  have h3 : v % 2 ^ lo < 2 ^ lo := Nat.mod_lt _ (Nat.two_pow_pos _)
  rw [e2, ← Nat.mul_assoc, ← Nat.add_mul, Nat.mul_comm _ (2 ^ lo), Nat.mul_add_div (Nat.two_pow_pos _), Nat.div_eq_of_lt h3,
    Nat.add_zero, Nat.mul_comm, Nat.mul_add_mod, Nat.mod_eq_of_lt h2]

/-- A bit of a number with a field replaced. -/
theorem testBit_putBits (v hi lo x k : Nat) (h : lo ≤ hi) :
    (putBits v hi lo x).testBit k = if lo ≤ k ∧ k ≤ hi then x.testBit (k - lo) else v.testBit k := by
  have key : ∀ w i, (bits w hi lo).testBit i = (decide (i < hi + 1 - lo) && w.testBit (lo + i)) := by
    intro w i; simp [bits, Nat.testBit_mod_two_pow, Nat.testBit_shiftRight]
  by_cases hk : lo ≤ k ∧ k ≤ hi
  · rw [if_pos hk]
    have := key (putBits v hi lo x) (k - lo)
    rw [bits_putBits_same v hi lo x h, Nat.testBit_mod_two_pow] at this
    have h1 : k - lo < hi + 1 - lo := by omega
    have h2 : lo + (k - lo) = k := by omega
    simpa [h1, h2] using this.symm
  · rw [if_neg hk]
    have low : putBits v hi lo x % 2 ^ lo = v % 2 ^ lo := by
      rw [putBits_eq v hi lo x (by omega)]
      have e2 : 2 ^ (hi + 1) = 2 ^ (hi + 1 - lo) * 2 ^ lo := by rw [← Nat.pow_add]; congr 1; omega
      rw [e2, ← Nat.mul_assoc, ← Nat.add_mul, Nat.mul_comm _ (2 ^ lo), Nat.mul_add_mod, Nat.mod_mod]
    have high : putBits v hi lo x / 2 ^ (hi + 1) = v / 2 ^ (hi + 1) := by
      rw [putBits_eq v hi lo x (by omega)]
      have e2 : 2 ^ (hi + 1) = 2 ^ (hi + 1 - lo) * 2 ^ lo := by rw [← Nat.pow_add]; congr 1; omega
      have h2 : x % 2 ^ (hi + 1 - lo) < 2 ^ (hi + 1 - lo) := Nat.mod_lt _ (Nat.two_pow_pos _)
      have h3 : v % 2 ^ lo < 2 ^ lo := Nat.mod_lt _ (Nat.two_pow_pos _)
      have m2 : (x % 2 ^ (hi + 1 - lo) + 1) * 2 ^ lo ≤ 2 ^ (hi + 1 - lo) * 2 ^ lo := Nat.mul_le_mul_right _ h2
      rw [Nat.add_mul, Nat.one_mul, ← e2] at m2
      have hx : x % 2 ^ (hi + 1 - lo) * 2 ^ lo + v % 2 ^ lo < 2 ^ (hi + 1) :=
        Nat.lt_of_lt_of_le (Nat.add_lt_add_left h3 _) m2
      rw [Nat.add_assoc, Nat.mul_comm (v / _) (2 ^ (hi + 1)), Nat.mul_add_div (Nat.two_pow_pos _), Nat.div_eq_of_lt hx, Nat.add_zero]
    rcases Nat.lt_or_ge k lo with hlo | hlo
    · have := congrArg (fun w => w.testBit k) low
      simpa [Nat.testBit_mod_two_pow, hlo] using this
    · have hhi : hi + 1 ≤ k := by omega
      have := congrArg (fun w => w.testBit (k - (hi + 1))) high
      simpa [Nat.testBit_div_two_pow, Nat.sub_add_cancel hhi] using this

/-- A field that does not meet the one replaced. -/
theorem bits_putBits_other (v hi lo x hi' lo' : Nat) (h : lo ≤ hi) (hd : hi' < lo ∨ hi < lo') :
    bits (putBits v hi lo x) hi' lo' = bits v hi' lo' := by
  apply Nat.eq_of_testBit_eq
  intro i
  simp only [bits, Nat.testBit_mod_two_pow, Nat.testBit_shiftRight, testBit_putBits v hi lo x _ h]
  by_cases hi2 : i < hi' + 1 - lo'
  · have : ¬ (lo ≤ lo' + i ∧ lo' + i ≤ hi) := by omega
    simp [this]
  · simp [hi2]

theorem putField_toNat (w : Word) (hi lo x : Nat) (h : lo ≤ hi) (hn : hi < 32) : (putField w hi lo x).toNat = putBits w.toNat hi lo x := by
  simp only [putField, BitVec.toNat_ofNat]
  exact Nat.mod_eq_of_lt (putBits_lt _ _ _ _ 32 h hn w.isLt)

/-! ### Registers -/

/-- A field of a row of sound bounds. -/
def Row.sound (r : Row) : Bool := decide (r.lo ≤ r.hi) && decide (r.hi < 32)

theorem geti_seti_same (s : State) (p : Pg) (r : Row) (i v : Nat) (h : r.sound = true) :
    (run (.seti p r i v) s).geti p r i = v % 2 ^ (r.hi + 1 - r.lo) := by
  simp only [Row.sound, Bool.and_eq_true, decide_eq_true_eq] at h
  simp [Prog.seti, State.geti, putField_toNat _ _ _ _ h.1 h.2, bits_putBits_same _ _ _ _ h.1]

theorem cell_seti (s : State) (p : Pg) (r : Row) (i v a : Nat) :
    (run (.seti p r i v) s).cell a = if a = r.addr p i then putField (s.cell (r.addr p i)) r.hi r.lo v else s.cell a := by
  simp [Prog.seti]

/-- A field at another offset, or beside the one set in its word. -/
theorem geti_seti_other (s : State) (p q : Pg) (r t : Row) (i j v : Nat) (h : r.sound = true)
    (hd : t.addr q j ≠ r.addr p i ∨ t.hi < r.lo ∨ r.hi < t.lo) :
    (run (.seti p r i v) s).geti q t j = s.geti q t j := by
  simp only [Row.sound, Bool.and_eq_true, decide_eq_true_eq] at h
  simp only [State.geti, cell_seti]
  split
  · rename_i ha
    rcases hd with hd | hd
    · exact absurd ha hd
    · rw [putField_toNat _ _ _ _ h.1 h.2, bits_putBits_other _ _ _ _ _ _ h.1 hd, ha]
  · rfl

theorem get_set_same (s : State) (p : Pg) (r : Row) (v : Nat) (h : r.sound = true) :
    (run (.set p r v) s).get p r = v % 2 ^ (r.hi + 1 - r.lo) := geti_seti_same s p r 0 v h

theorem get_set_other (s : State) (p q : Pg) (r t : Row) (v : Nat) (h : r.sound = true)
    (hd : t.addr q 0 ≠ r.addr p 0 ∨ t.hi < r.lo ∨ r.hi < t.lo) : (run (.set p r v) s).get q t = s.get q t :=
  geti_seti_other s p q r t 0 0 v h hd

/-- A field holds no more than its bits. -/
theorem geti_lt (s : State) (p : Pg) (r : Row) (i : Nat) : s.geti p r i < 2 ^ (r.hi + 1 - r.lo) := bits_lt _ _ _

end Sys2Proof.Machine
end

