-- ==== Sys2Proof/Laws/Only.lean ====
section
/-! SUPPORT. Which acts a program is made of, and what follows of what it keeps: the frame of every shared operation. -/

namespace Sys2Proof.Machine

/-- Every act a program may come to take satisfies a condition. -/
def Prog.Only (W : Act → Prop) : Prog → Prop
  | .nil => True
  | .ask k => ∀ s, Prog.Only W (k s)
  | .act a k => W a ∧ Prog.Only W k

variable {W : Act → Prop}

@[simp] theorem only_nil : Prog.Only W .nil := trivial
@[simp] theorem only_ask (k : State → Prog) : Prog.Only W (.ask k) ↔ ∀ s, Prog.Only W (k s) := Iff.rfl
@[simp] theorem only_act (a : Act) (k : Prog) : Prog.Only W (.act a k) ↔ W a ∧ Prog.Only W k := Iff.rfl
@[simp] theorem only_one (a : Act) : Prog.Only W (.one a) ↔ W a := by simp [Prog.one]
@[simp] theorem only_out (o : Out) : Prog.Only W (.out o) ↔ W (.emit o) := by simp [Prog.out]

@[simp] theorem only_seq (p q : Prog) : Prog.Only W (p.seq q) ↔ Prog.Only W p ∧ Prog.Only W q := by
  induction p with
  | nil => simp [Prog.seq]
  | ask k ih => simp only [Prog.seq, only_ask, ih]; exact ⟨fun h => ⟨fun s => (h s).1, (h State.reset).2⟩, fun h s => ⟨h.1 s, h.2⟩⟩
  | act a k ih => simp [Prog.seq, ih, and_assoc]

@[simp] theorem only_all_nil : Prog.Only W (.all []) := trivial
@[simp] theorem only_all_cons (p : Prog) (ps : List Prog) : Prog.Only W (.all (p :: ps)) ↔ Prog.Only W p ∧ Prog.Only W (.all ps) := by
  simp [Prog.all]

theorem only_all (ps : List Prog) (h : ∀ p ∈ ps, Prog.Only W p) : Prog.Only W (.all ps) := by
  induction ps with
  | nil => trivial
  | cons p ps ih => exact (only_all_cons p ps).2 ⟨h p (by simp), ih fun q hq => h q (by simp [hq])⟩

@[simp] theorem only_each {α : Type} (l : List α) (f : α → Prog) (h : ∀ x ∈ l, Prog.Only W (f x)) : Prog.Only W (.each l f) := by
  apply only_all
  intro p hp
  obtain ⟨x, hx, rfl⟩ := List.mem_map.1 hp
  exact h x hx

@[simp] theorem only_when (c : Bool) (p : Prog) : Prog.Only W (.when c p) ↔ (c = true → Prog.Only W p) := by
  cases c <;> simp [Prog.when]

@[simp] theorem only_ite (c : Prop) [Decidable c] (p q : Prog) :
    Prog.Only W (if c then p else q) ↔ (c → Prog.Only W p) ∧ (¬ c → Prog.Only W q) := by
  split <;> simp_all

theorem Prog.Only.mono {V : Act → Prop} (h : ∀ a, W a → V a) (p : Prog) (hp : Prog.Only W p) : Prog.Only V p := by
  induction p with
  | nil => trivial
  | ask k ih => exact fun s => ih s (hp s)
  | act a k ih => exact ⟨h a hp.1, ih hp.2⟩

/-- What every permitted act leaves, the program leaves. -/
theorem Prog.Only.keeps {β : Type} {p : Prog} (hp : Prog.Only W p) (π : State → β) (h : ∀ a s, W a → π (applyAct a s) = π s) (s : State) :
    π (run p s) = π s := by
  induction p generalizing s with
  | nil => rfl
  | ask k ih => exact ih s (hp s) s
  | act a k ih => exact (ih hp.2 _).trans (h a s hp.1)

/-! ### Acts by what they touch -/

/-- The act does not write a register cell. -/
def Act.spares (a : Nat) : Act → Prop
  | .fld b _ _ _ => a ≠ b
  | .wr b _ => a ≠ b
  | _ => True

/-- Cells that the delivery of an event may write: counters of the PCIE page, and its EVT_RAW. -/
def deliveryCells : List Nat :=
  [pgPcie.base + 0x014, R.PCIE_CNT_EVT_DROP.addr pgPcie 0, R.PCIE_CNT_MSIX.addr pgPcie 0, R.PCIE_CNT_ZLR.addr pgPcie 0]

/-- The acts that delivering an event consists of. -/
def Act.delivers : Act → Prop
  | .fld b _ _ _ => b ∈ deliveryCells
  | .mem _ _ => True
  | .emit _ => True
  | .host _ => True
  | .tx _ => True
  | _ => False

/-- The acts of registers, memories, logs, the host interface and what the Filmund ports have to send: none of another unit's hidden state. -/
def Act.light : Act → Prop
  | .fld _ _ _ _ | .wr _ _ | .mem _ _ | .lmem _ _ | .emit _ | .useFree | .deny _ | .denyPop | .flog _ | .flogClear | .host _ | .tx _ => True
  | _ => False

@[simp] theorem delivers_mem (a : Nat) (bs : List Byte) : (Act.mem a bs).delivers := trivial
@[simp] theorem delivers_emit (o : Out) : (Act.emit o).delivers := trivial
@[simp] theorem delivers_host (f : HostIf → HostIf) : (Act.host f).delivers := trivial
@[simp] theorem delivers_tx (f : Tab PortTx → Tab PortTx) : (Act.tx f).delivers := trivial
@[simp] theorem delivers_fld (b hi lo v : Nat) : (Act.fld b hi lo v).delivers ↔ b ∈ deliveryCells := Iff.rfl

theorem light_of_delivers (a : Act) (h : a.delivers) : a.light := by cases a <;> trivial

theorem only_cell {p : Prog} {a : Nat} (h : Prog.Only (Act.spares a) p) (s : State) : (run p s).cell a = s.cell a :=
  h.keeps (fun t => t.cell a) (fun b t hb => by
    cases b with
    | fld b hi lo v => rw [cell_applyAct_fld, if_neg hb]
    | wr b v => rw [cell_applyAct_wr, if_neg hb]
    | _ => rfl) s

theorem only_geti {p : Prog} {q : Pg} {r : Row} {i : Nat} (h : Prog.Only (Act.spares (r.addr q i)) p) (s : State) :
    (run p s).geti q r i = s.geti q r i := by simp [State.geti, only_cell h]

theorem only_get {p : Prog} {q : Pg} {r : Row} (h : Prog.Only (Act.spares (r.addr q 0)) p) (s : State) :
    (run p s).get q r = s.get q r := only_geti h s

/-- What a program of light acts leaves. -/
theorem only_light {p : Prog} (h : Prog.Only Act.light p) (s : State) :
    (run p s).conv = s.conv ∧ (run p s).cal = s.cal ∧ (run p s).trig = s.trig ∧ (run p s).seg = s.seg ∧ (run p s).time = s.time ∧
    (run p s).link = s.link ∧ (run p s).net = s.net ∧ (run p s).cmd = s.cmd ∧ (run p s).fab = s.fab ∧ (run p s).sec = s.sec ∧
    (run p s).pwr = s.pwr ∧ (run p s).disp = s.disp ∧ (run p s).sys = s.sys := by
  refine ⟨h.keeps State.conv ?_ s, h.keeps State.cal ?_ s, h.keeps State.trig ?_ s, h.keeps State.seg ?_ s, h.keeps State.time ?_ s,
    h.keeps State.link ?_ s, h.keeps State.net ?_ s, h.keeps State.cmd ?_ s, h.keeps State.fab ?_ s, h.keeps State.sec ?_ s,
    h.keeps State.pwr ?_ s, h.keeps State.disp ?_ s, h.keeps State.sys ?_ s⟩ <;>
  · intro a t ha
    cases a <;> first | rfl | exact ha.elim

/-! ### Register operations -/

@[simp] theorem only_seti (p : Pg) (r : Row) (i v : Nat) : Prog.Only W (.seti p r i v) ↔ W (.fld (r.addr p i) r.hi r.lo v) := by
  simp [Prog.seti]
@[simp] theorem only_set (p : Pg) (r : Row) (v : Nat) : Prog.Only W (.set p r v) ↔ W (.fld (r.addr p 0) r.hi r.lo v) := by
  simp [Prog.set]
@[simp] theorem only_setLivei (p : Pg) (r : Row) (i v : Nat) :
    Prog.Only W (.setLivei p r i v) ↔ W (.fld (r.addr p i + 0x800) r.hi r.lo v) := by simp [Prog.setLivei]
@[simp] theorem only_addi (p : Pg) (r : Row) (i n : Nat) (h : ∀ v, W (.fld (r.addr p i) r.hi r.lo v)) : Prog.Only W (.addi p r i n) := by
  simp [Prog.addi, h]
@[simp] theorem only_inc (p : Pg) (r : Row) (h : ∀ v, W (.fld (r.addr p 0) r.hi r.lo v)) : Prog.Only W (.inc p r) := only_addi p r 0 1 h
@[simp] theorem only_add (p : Pg) (r : Row) (n : Nat) (h : ∀ v, W (.fld (r.addr p 0) r.hi r.lo v)) : Prog.Only W (.add p r n) :=
  only_addi p r 0 n h
@[simp] theorem only_set64 (p : Pg) (lo hi : Row) (v : Nat) (h : ∀ v, W (.fld (lo.addr p 0) lo.hi lo.lo v))
    (h' : ∀ v, W (.fld (hi.addr p 0) hi.hi hi.lo v)) : Prog.Only W (.set64 p lo hi v) := by simp [Prog.set64, h, h']
@[simp] theorem only_add64 (p : Pg) (lo hi : Row) (n : Nat) (h : ∀ v, W (.fld (lo.addr p 0) lo.hi lo.lo v))
    (h' : ∀ v, W (.fld (hi.addr p 0) hi.hi hi.lo v)) : Prog.Only W (.add64 p lo hi n) := fun _ => only_set64 p lo hi _ h h'
@[simp] theorem only_setBit (p : Pg) (r : Row) (k : Nat) (v : Bool) :
    Prog.Only W (.setBit p r k v) ↔ W (.fld (r.addr p 0) (r.lo + k) (r.lo + k) (b2n v)) := by simp [Prog.setBit]
@[simp] theorem only_setQ (p : Pg) (r : Row) (q : Nat) (h : ∀ i v, W (.fld (r.addr p i) r.hi r.lo v)) : Prog.Only W (.setQ p r q) := by
  simp [Prog.setQ, h]

/-! ### Delivery, events, errors (R46, R63, R64) -/

theorem only_modRing (n : Nat) (f : Ring → Ring) (h : ∀ a : Act, a.delivers → W a) : Prog.Only W (modRing n f) := by
  simp [modRing, Prog.host]; exact h _ trivial

theorem only_ringStore (n a : Nat) (bs : List Byte) (h : ∀ a : Act, a.delivers → W a) : Prog.Only W (ringStore n a bs) := by
  intro s
  dsimp only
  split
  · split
    · exact (only_one _).2 (h _ trivial)
    · trivial
  · exact (only_out _).2 (h _ trivial)

theorem only_ringFlush1 (n : Nat) (h : ∀ a : Act, a.delivers → W a) : Prog.Only W (ringFlush1 n) := by
  intro s
  dsimp only
  split
  · rw [only_when]
    intro _
    simp only [only_all_cons, only_all_nil, and_true, only_when]
    refine ⟨only_ringStore _ _ _ h, only_modRing _ _ h, fun _ => ?_⟩
    simp only [only_out]
    exact ⟨only_inc _ _ fun v => h _ (by simp [Act.delivers, deliveryCells]), h _ trivial⟩
  · trivial

theorem only_ringFlush (n : Nat) (h : ∀ a : Act, a.delivers → W a) : Prog.Only W (ringFlush n) := fun _ =>
  only_each _ _ fun _ _ => only_ringFlush1 n h

theorem only_sendMsix (v : Nat) (h : ∀ a : Act, a.delivers → W a) : Prog.Only W (sendMsix v) := by
  intro s
  dsimp only
  split
  · exact only_inc _ _ fun v => h _ (by simp [Act.delivers, deliveryCells])
  · split
    · trivial
    · split
      · simp [Prog.host]; exact h _ trivial
      · simp only [only_all_cons, only_all_nil, and_true, only_out]
        exact ⟨h _ trivial, only_inc _ _ fun v => h _ (by simp [Act.delivers, deliveryCells])⟩

theorem only_msixDeliver (v : Nat) (h : ∀ a : Act, a.delivers → W a) : Prog.Only W (msixDeliver v) := by
  intro s
  simp only [coalSend, only_all_cons, only_all_nil, and_true, only_when, Prog.host, only_act, only_nil]
  exact ⟨h _ trivial, fun _ => ⟨h _ trivial, only_sendMsix v h⟩⟩

theorem only_emitMsg (n : Nat) (m : Msg) (h : ∀ o, W (.emit o)) : Prog.Only W (emitMsg n m) := by
  unfold emitMsg
  split <;> simp [h]

/-- A message that a port carries changes what the ports have to send, and what has left them. -/
theorem only_txSend (n : Nat) (m : Msg) (h : ∀ o, W (.emit o)) (ht : ∀ f, W (.tx f)) : Prog.Only W (txSend n m) := by
  intro s
  dsimp only
  split
  · simp only [only_all_cons, only_all_nil, and_true, putTx, Prog.tx, only_act, only_nil]
    exact ⟨ht _, only_emitMsg n m h⟩
  · exact ⟨ht _, trivial⟩

theorem only_sendLink (n : Nat) (m : Msg) (h : ∀ o, W (.emit o)) (ht : ∀ f, W (.tx f)) (h' : ∀ v, W (.fld (R.FPORT_CNT_TX_DROP.addr (pgFport n) 0)
    R.FPORT_CNT_TX_DROP.hi R.FPORT_CNT_TX_DROP.lo v)) : Prog.Only W (sendLink n m) := by
  intro s
  dsimp only
  split
  · exact only_txSend n m h ht
  · exact only_inc _ _ h'

theorem only_deliverN (n e : Nat) (h : ∀ a : Act, a.delivers → W a) : Prog.Only W (deliverN n e) := by
  induction n generalizing e with
  | zero => trivial
  | succ n ih =>
    have drop : ∀ v, W (.fld (R.PCIE_CNT_EVT_DROP.addr pgPcie 0) R.PCIE_CNT_EVT_DROP.hi R.PCIE_CNT_EVT_DROP.lo v) := fun v =>
      h _ (by simp [Act.delivers, deliveryCells])
    have again : ∀ q : Prog, (q = .ask fun t => .all [.one (.fld (pgPcie.base + 0x014) 3 3 1),
        .when (!(bit (t.evtRaw pgPcie) 3) && bit (t.evtEn pgPcie) 3) (deliverN n 899)]) → Prog.Only W (evtDrop q) := by
      rintro q rfl
      simp only [evtDrop, only_all_cons, only_all_nil, and_true, only_ask, only_one, only_when]
      exact ⟨only_inc _ _ drop, fun t => ⟨h _ (by simp [Act.delivers, deliveryCells]), fun _ => ih 899⟩⟩
    intro s
    simp only
    split
    · simp [Prog.host]; exact h _ trivial
    · split
      · split
        · exact only_msixDeliver _ h
        · exact again _ rfl
      · split
        · intro t
          dsimp only
          split
          · simp only [only_all_cons, only_all_nil, and_true]
            exact ⟨only_modRing _ _ h, again _ rfl⟩
          · simp only [only_all_cons, only_all_nil, and_true]
            exact ⟨only_modRing _ _ h, only_ringFlush _ h⟩
        · exact again _ rfl
      · split
        · split
          · exact only_txSend _ _ (fun _ => h _ trivial) fun _ => h _ trivial
          · exact again _ rfl
        · exact again _ rfl
      · simp only [only_all_cons, only_all_nil, and_true, only_when, Prog.host, only_act, only_nil, only_out]
        exact ⟨h _ trivial, fun _ => h _ trivial⟩
      · trivial

theorem only_deliver (e : Nat) (h : ∀ a : Act, a.delivers → W a) : Prog.Only W (deliver e) := only_deliverN 2 e h

theorem only_raise (p : Pg) (k : Nat) (h : ∀ a : Act, a.delivers → W a) (h' : W (.fld (p.base + 0x014) k k 1)) :
    Prog.Only W (raise p k) := by
  intro s
  simp only [only_all_cons, only_all_nil, and_true, only_when, only_one]
  exact ⟨h', fun _ => only_deliver _ h⟩

theorem only_incRaise (p : Pg) (r : Row) (k : Nat) (h : ∀ a : Act, a.delivers → W a) (h' : W (.fld (p.base + 0x014) k k 1))
    (h'' : ∀ v, W (.fld (r.addr p 0) r.hi r.lo v)) : Prog.Only W (incRaise p r k) := by
  simp only [incRaise, only_all_cons, only_all_nil, and_true]
  exact ⟨only_inc _ _ h'', only_raise p k h h'⟩

theorem only_capture (p : Pg) (c d : Nat) (h : ∀ a : Act, a.delivers → W a) (h' : W (.fld (p.base + 0x014) 0 0 1))
    (h1 : W (.fld (p.base + 0x028) 30 30 1)) (h2 : ∀ v, W (.wr (p.base + 0x028) v)) : Prog.Only W (capture p c d) := by
  intro s
  dsimp only
  split
  · exact (only_one _).2 h1
  · simp only [only_all_cons, only_all_nil, and_true, only_when, only_one]
    exact ⟨h2 _, fun _ => only_raise p 0 h h'⟩

theorem only_logFault (c t d : Nat) (h : ∀ a : Act, a.delivers → W a) (h' : W (.fld (pgTop.base + 0x014) 10 10 1))
    (h1 : ∀ f, W (.flog f)) (h2 : ∀ v, W (.fld (R.TOP_FLOG_COUNT.addr pgTop 0) R.TOP_FLOG_COUNT.hi R.TOP_FLOG_COUNT.lo v)) :
    Prog.Only W (logFault c t d) := by
  intro s
  simp only [only_all_cons, only_all_nil, and_true, only_one]
  exact ⟨h1 _, only_inc _ _ h2, only_raise _ _ h h'⟩

theorem only_denyAccess (sh f k a : Nat) (h : ∀ a : Act, a.delivers → W a) (hd : ∀ d, W (.deny d)) (hf : ∀ b hi lo v, W (.fld b hi lo v)) :
    Prog.Only W (denyAccess sh f k a) := by
  intro s
  simp only [only_all_cons, only_all_nil, and_true, only_when]
  refine ⟨only_inc _ _ fun v => hf _ _ _ _, fun _ => only_add _ _ _ fun v => hf _ _ _ _, ?_⟩
  split
  · simp only [only_all_cons, only_all_nil, and_true, only_one]
    exact ⟨hd _, only_raise _ _ h (hf _ _ _ _)⟩
  · exact only_incRaise _ _ _ h (hf _ _ _ _) fun v => hf _ _ _ _

theorem light_raise (p : Pg) (k : Nat) : Prog.Only Act.light (raise p k) := only_raise p k light_of_delivers trivial
theorem light_incRaise (p : Pg) (r : Row) (k : Nat) : Prog.Only Act.light (incRaise p r k) :=
  only_incRaise p r k light_of_delivers trivial fun _ => trivial
theorem light_capture (p : Pg) (c d : Nat) : Prog.Only Act.light (capture p c d) :=
  only_capture p c d light_of_delivers trivial trivial fun _ => trivial
theorem light_logFault (c t d : Nat) : Prog.Only Act.light (logFault c t d) :=
  only_logFault c t d light_of_delivers trivial (fun _ => trivial) fun _ => trivial
theorem light_denyAccess (sh f k a : Nat) : Prog.Only Act.light (denyAccess sh f k a) :=
  only_denyAccess sh f k a light_of_delivers (fun _ => trivial) fun _ _ _ _ => trivial

theorem spares_of_delivers (b : Nat) (hb : b ∉ deliveryCells) (a : Act) (h : a.delivers) : a.spares b := by
  cases a <;> first | trivial | exact fun e => hb (e ▸ h)

/-- A cell that an event's delivery leaves, besides EVT_RAW of the event's own page. -/
theorem cell_raise (p : Pg) (k a : Nat) (s : State) (h : a ∉ deliveryCells) (h' : a ≠ p.base + 0x014) :
    (run (raise p k) s).cell a = s.cell a :=
  only_cell (only_raise p k (spares_of_delivers a h) h') s

end Sys2Proof.Machine
end

