-- ==== Sys2Proof/Laws/Steps.lean ====
section
/-! SUPPORT. The steps of a sequencer: what each operation of Machine/Operands.lean changes and leaves. -/

namespace Sys2Proof.Machine

@[simp] theorem run_onCmd (f : Cmd → Cmd) (s : State) : run (.cmd f) s = { s with cmd := f s.cmd } := rfl

theorem run_modSeqr (q : Nat) (f : Seqr → Seqr) (s : State) :
    run (modSeqr q f) s = { s with cmd := { s.cmd with seqs := Tab.mod s.cmd.seqs Seqr.reset q f } } := rfl

@[simp] theorem seqr_modSeqr (q p : Nat) (f : Seqr → Seqr) (s : State) :
    (run (modSeqr q f) s).seqr p = if p = q then f (s.seqr q) else s.seqr p := by
  simp [run_modSeqr, State.seqr]

/-- A step of a sequencer runs exactly where a command of it is current. -/
theorem current_iff (s : State) (q k : Nat) (h : Held) :
    s.current q = some (k, h) ↔ (s.seqr q).cur = some k ∧ s.heldAt q k = some h := by
  unfold State.current
  cases (s.seqr q).cur with
  | none => simp
  | some j =>
    simp only [Option.map_eq_some_iff, Prod.mk.injEq, Option.some.injEq]
    constructor
    · rintro ⟨a, ha, rfl, rfl⟩; exact ⟨rfl, ha⟩
    · rintro ⟨rfl, hh⟩; exact ⟨h, hh, rfl, rfl⟩

/-- A microword that the step executes next has its effect. -/
theorem run_microword {s : State} {q k mask word : Nat} {h : Held} {body : Nat → Held → Prog} (he : Executes s q k h mask word) :
    run (microword q mask word body) s = run (body k h) s := by
  simp [microword, he.1, he.2]

/-- The cells of a page that the display of a step writes. -/
theorem spares_sqShow (q : Nat) (h : Held) (a : Nat) (ha : a < (pgSq q).base ∨ (pgSq q).base + 0x1000 ≤ a) :
    Prog.Only (Act.spares a) (sqShow q h) := by
  simp only [sqShow, only_all_cons, only_all_nil, only_set, Act.spares, Row.addr, R.SQ_OPCODE, R.SQ_SHELL, R.SQ_PC, R.SQ_FLAGS, and_true]
  generalize (pgSq q).base = b at *
  refine ⟨?_, ?_, ?_, ?_⟩ <;> omega

theorem run_sqShow (q : Nat) (h : Held) (s : State) : run (sqShow q h) s = { s with regs := (run (sqShow q h) s).regs } := rfl

theorem run_showCur (q : Nat) (s : State) : run (showCur q) s = { s with regs := (run (showCur q) s).regs } := by
  unfold showCur
  rw [run_ask]
  split
  · exact run_sqShow _ _ _
  · rfl

theorem spares_showCur (q a : Nat) (ha : a < (pgSq q).base ∨ (pgSq q).base + 0x1000 ≤ a) : Prog.Only (Act.spares a) (showCur q) := by
  intro s
  dsimp only
  split
  · exact spares_sqShow q _ a ha
  · trivial

theorem run_modHeld (q k : Nat) (f : Held → Held) (s : State) (h : Held) (hh : s.heldAt q k = some h) :
    (run (modHeld q k f) s).seqr q = { s.seqr q with held := Tab.put (s.seqr q).held k (f h) } := by
  unfold State.heldAt at hh
  simp [modHeld, hh]

/-- A microword goes on: the sequencer after it. -/
theorem seqr_goTo (q k pc cyc fl : Nat) (s : State) (h : Held) (hh : s.heldAt q k = some h) :
    (run (goTo q k pc cyc fl) s).seqr q = { s.seqr q with
      held := Tab.put (s.seqr q).held k { h with pc := pc % 2 ^ 18, flags := h.flags ||| fl }, cyc := (s.seqr q).cyc + cyc } := by
  have hm : (run (modHeld q k fun h => { h with pc := pc % 2 ^ 18, flags := h.flags ||| fl }) s).seqr q = _ := run_modHeld q k _ s h hh
  simp only [goTo, run_all_cons, run_all_nil]
  rw [run_showCur]
  show (run (modSeqr q _) _).seqr q = _
  rw [seqr_modSeqr, if_pos rfl, hm]

/-- A microword goes on: everything but its sequencer is as it was. -/
theorem frame_goTo (q k pc cyc fl : Nat) (s : State) : SeqrFrame s (run (goTo q k pc cyc fl) s) q := by
  refine ⟨?_, fun p hp => ?_, fun a ha => ?_⟩
  · simp only [goTo, run_all_cons, run_all_nil]
    rw [run_showCur]
    rfl
  · simp only [goTo, run_all_cons, run_all_nil]
    rw [run_showCur]
    show (run (modSeqr q _) (run (modSeqr q _) s)).seqr p = _
    simp [hp]
  · simp only [goTo, run_all_cons, run_all_nil]
    rw [only_cell (spares_showCur q a ha)]
    rfl

theorem current_goTo (q k pc cyc fl : Nat) (s : State) (h : Held) (hc : s.current q = some (k, h)) :
    GoesOn s (run (goTo q k pc cyc fl) s) q k h pc cyc fl := by
  obtain ⟨h1, h2⟩ := (current_iff s q k h).1 hc
  have hs := seqr_goTo q k pc cyc fl s h h2
  refine ⟨(current_iff _ _ _ _).2 ⟨by rw [hs]; exact h1, by simp [State.heldAt, hs]⟩, by rw [hs], by rw [hs], fun j hj => ?_⟩
  simp [State.heldAt, hs, hj]

theorem run_setUreg (q rd : Nat) (v : Word) (s : State) :
    run (setUreg q rd v) s = { s with cmd := { s.cmd with seqs := (run (setUreg q rd v) s).cmd.seqs } } := by
  unfold setUreg
  rw [run_when]
  split <;> rfl

theorem seqr_setUreg (q rd p : Nat) (v : Word) (s : State) :
    (run (setUreg q rd v) s).seqr p =
      if p = q ∧ rd % 32 ≠ 0 then { s.seqr q with regs := Tab.putC (s.seqr q).regs 0#32 (rd % 32) v } else s.seqr p := by
  unfold setUreg
  rw [run_when]
  by_cases h : rd % 32 = 0 <;> by_cases hp : p = q <;> simp [h, hp]

/-- A register is written and the step goes on. -/
theorem wrote (s : State) (q k rd cyc fl : Nat) (h : Held) (v : Word) (hc : s.current q = some (k, h)) :
    Wrote s (run (.all [setUreg q rd v, goOn q k h cyc fl]) s) q k h rd v cyc fl := by
  simp only [run_all_cons, run_all_nil, goOn]
  obtain ⟨h1, h2⟩ := (current_iff s q k h).1 hc
  have hu := seqr_setUreg q rd q v s
  have hh : (run (setUreg q rd v) s).heldAt q k = some h := by
    unfold State.heldAt at h2 ⊢; rw [hu]; split <;> exact h2
  have hc' : (run (setUreg q rd v) s).current q = some (k, h) := by
    refine (current_iff _ _ _ _).2 ⟨?_, hh⟩; rw [hu]; split <;> exact h1
  have hg := current_goTo q k (h.pc + 1) cyc fl _ h hc'
  have hs := seqr_goTo q k (h.pc + 1) cyc fl _ h hh
  have hf := frame_goTo q k (h.pc + 1) cyc fl (run (setUreg q rd v) s)
  refine ⟨fun r => ?_, ⟨hg.1, ?_, ?_, fun j hj => ?_⟩, ?_, ?_, fun p hp => ?_, fun a ha => ?_⟩
  · unfold State.ureg
    rw [hs, hu]
    by_cases h0 : r % 32 = 0
    · simp [h0]
    · by_cases hr : rd % 32 = 0
      · have : ¬ r % 32 = 0 := h0
        simp [h0, hr]
      · simp [h0, hr]
  · rw [hg.2.1, hu]; split <;> rfl
  · rw [hg.2.2.1, hu]; split <;> rfl
  · rw [hg.2.2.2 j hj]; unfold State.heldAt; rw [hu]; split <;> rfl
  · rw [hs, hu]; split <;> rfl
  · rw [hf.1, run_setUreg]
  · rw [hf.2.1 p hp, seqr_setUreg]; simp [hp]
  · rw [hf.2.2 a ha, run_setUreg]; rfl

end Sys2Proof.Machine
end

