-- ==== Sys2Proof/Tests/Slice0.lean ====
section
/-! SUPPORT. Tests: decoding, well-formedness, worked examples of the spec, and for the statements a state and operands that meet the hypotheses. -/

namespace Sys2Proof.Tests

open Sys2Proof Sys2Proof.Machine

set_option Elab.async false

/-- A state after some acts from reset, and one in READY. -/
def st (ps : List Prog) : State := run (.all ps) State.reset
def rdy (ps : List Prog) : State := st (.set pgPwr R.PWR_STATE 2 :: ps)

/-- A command of the supervisor, with the words from P0 on. -/
def held (op : Nat) (ps : List Nat) : Held :=
  { ring := 0, shell := 0xFFF, bytes := leBytes 2 op ++ [0, 0] ++ leBytes 4 7 ++ (ps.flatMap (leBytes 4)) ++ List.replicate (56 - 4 * ps.length) 0,
    order := 0, started := true, wait := .running, flags := 0, pc := 0, img := none, args := [], ends := [], work := 0 }

/-- The command runs in slot 0 of sequencer 0. -/
def cur (h : Held) : Prog := modSeqr 0 fun z => { z with held := [(0, h)], cur := some 0 }
def cmd (op : Nat) (ps : List Nat) (more : List Prog) : State := rdy (cur (held op ps) :: more)

/-- A register of sequencer 0 takes a value. -/
def reg (r v : Nat) : Prog := setUreg 0 r (BitVec.ofNat 32 v)

def hw : Held := held 0x80 []
def mw (more : List Prog) : State := rdy (cur hw :: more)
def hs : Held := { hw with shell := 5 }
def hu : Held := { hw with wait := .until 0 }
def hd : Held := { hw with wait := .dma 3 }
def hc : Held := { hw with img := some 0, pc := 0x123 }
def he : Held := { hw with pc := 0x3FFFF }
def entB (b : List Byte) : RingEnt :=
  { addr := 0, st := .ready, bytes := b, filled := 0, recs := 0, frags := 0, pod := false, drain := false, code := 0, own := 0, held := [], flushAt := 0 }
def ent : RingEnt := entB ((held 1 []).bytes)
def hr : Held := { hw with wait := .ready, started := false, flags := 3 }
/-- BLK_CTRL.EN of a page is 1; the sample clock runs. -/
def enable (p : Pg) : Prog := .one (.fld (p.base + 0x00C) 0 0 1)
def clock : Prog := .set pgClk R.CLK_STATE 4
def job : FlashJob :=
  { region := 3, data := [], half := none, cmd := none, need := 1, secs := [], erasing := none, pages := 1, done := 0, tries := 0, eraseTries := 0, restarts := 0 }
def hcm (op : Nat) (ps : List Nat) : Held := { held op ps with
    bytes := leBytes 2 op ++ [2, 0] ++ leBytes 4 7 ++ (ps.flatMap (leBytes 4)) ++
  List.replicate (56 - 4 * ps.length) 0 }
def hl (op : Nat) (ps : List Nat) : Held := { held op ps with
    bytes := leBytes 2 op ++ [4, 0] ++ leBytes 4 7 ++ (ps.flatMap (leBytes 4)) ++
  List.replicate (56 - 4 * ps.length) 0 }
def win : Win := { base := 0x1000, size := 0x100, off := 0, rd := true, wr := true, host := true }
def stream (n : Nat) (f : Strm → Strm) : Prog := .seg fun g => { g with strms := [(n, f Strm.reset)] }
def req : Req := { stream := 255, seq := some 0, anchor := 0, first := 0, len := 32, code := 0, st := 2, unconf := false, cont := false, cut := false }
def extr : Extr := { req := req, start := 0, data := [], safe := 0, acc := none, den := none }
def on0 : List Prog := [enable (pgBank 0), clock, .set (pgBank 0) R.BANK_SETTLING 0]
def chan (f : Chan → Chan) : Prog := .conv fun c => { c with chans := [(0, f Chan.reset)] }
def run0 : CalRun := { kind := 1, named := [0], chans := [0], step := 3, hard := false, cmd := none, temps := [200, 300], stepAt := 0, chanAt := 0, meas := [] }
def hold0 : HoldSt := { first := 0, started := true, upto := none, value := 77, kind := 1, hard := false, inFrame := false }
def own0 : CalRun := { run0 with kind := 2, hard := false }
def rec0 (b : Nat) : Rec :=
  { ty := 1, bytes := List.replicate b 0, stream := 255, dest := 0, frame := 0, seq := 0, segs := 1, first := 0, len := 4, cause := 0, merged := false,
    inRes := false, begun := false, queuedAt := 0, code := 0, qt := 0, qFirst := 0 }
def open0 : OpenRec := { body := [1], n := 1, firstNo := 0, qt := 0, openedAt := 0 }
def raw0 : RawStamp := ⟨100, 7, 100, false, false, 1, false⟩
def pair0 : Pair := { Pair.reset with as := [⟨2^40, 1, false, false, false⟩], bs := [⟨2^40, 1, false, false, false⟩] }
def port (n st : Nat) (f : Port → Port) : Prog := .all [enable (pgFport n), .set (pgFport n) R.FPORT_STATE st, modPort n f]
def rem0 (st : Nat) (prov : Bool) : Remote := { src := 5, line := 15, anchor := 0, st := st, prov := prov, kept := [], defs := [] }
def rr (tag : Nat) : RemReq := { tag := tag, target := 5, port := 3, cmd := 255, due := 0 }
def s0 : State := State.reset
def ring (n : Nat) (ty : Nat) (ps : List (Row × Nat)) (f : Ring → Ring) : Prog :=
  .all ((([(R.RING_TYPE, ty), (R.RING_LOG2_SIZE, 4), (R.RING_EN, 1), (R.RING_RUNNING, 1)] ++ ps).map fun (e : Row × Nat) => Prog.set (pgRing n) e.1 e.2) ++ [modRing n f])
def entSt (x : EntSt) (b : List Byte) : RingEnt := { entB b with st := x, addr := 0x40 }
def desc (w3 : Nat) : List Byte := leBytes 8 0x5000 ++ leBytes 4 0x100 ++ leBytes 4 w3 ++ List.replicate 12 0 ++ leBytes 4 0x80000001
def recD (b : Nat) : Rec := { rec0 b with dest := 65536 + 8191 }
def bound : Prog := stream 255 fun z => { z with queue := [recD 128], inPod := true }
def qpc (c : Nat) (ps : List (Row × Nat)) (f : Ctx → Ctx) : Prog :=
  .all ((([(R.QPC_STATE, 1), (R.QPC_KIND, 2), (R.QPC_PORT, 7)] ++ ps).map fun (e : Row × Nat) => Prog.set (pgQpc c) e.1 e.2) ++ [modCtx c f])
def mode2 : Prog := .all [.set (pgEnet 0) R.ENET_MODE 2, .set (pgEnet 1) R.ENET_MODE 2, .set (pgEnet 1) R.ENET_LINK 8]
def sent0 (k : Nat) : Sent := { item := rec0 128, src := 255, head := 0, psn := 2 ^ 24 - 1, packets := 1, put := k, again := false, imm := none }
def recQ : Rec := { rec0 128 with dest := 2 * 65536 + 4095 }
def qd (n : Nat) (r : Rec) : Prog := stream n fun z => { z with queue := [r], inPod := true }
def fr (n : Nat) : FabReq := { num := n, bytes := 64, write := false }
def rs (point : Nat) (l : List (Nat × Nat × Bool)) : List FabReq :=
  (l.map fun r => ({ num := r.1, bytes := r.2.1, write := r.2.2 } : FabReq)).filter fun r => admitted point r.unit
def mr : MonReq := { cls := 1, input := 5, due := 0, cmd := none }
def m31 : MonReq := { mr with input := 31 }
/-- An image that names the vendor key: its check is a free value, so that it verifies is a premise no state can show. -/
def img0 : List Byte := List.replicate 6 0 ++ [0xFF, 0xFF]
def s1 : State := mw [reg 2 0x80000000, reg 3 0xFFFFFFFF]
def s3 : State := mw [reg 2 0xFFFC]
def s4 : State := mw [reg 2 0x100, modSeqr 0 fun z => { z with buf := [(0x100, [1#8, 2#8, 3#8, 4#8]), (0x102, [9#8])] }]
def s5 : State := mw [reg 2 0x100, modSeqr 0 fun z => { z with buf := [(0x100, [1#8, 2#8, 3#8, 4#8]), (0x102, [0x80#8])] }]
def s6 : State := mw [reg 2 0xFFFE, reg 1 0x1234]
def s7 : State := mw [reg 2 0xFFFE, reg 1 0xFFFE]
def s8 : State := mw [reg 2 0xFFFE, reg 1 0xFFFF]
def s9 : State := mw [reg 2 0x40010, reg 1 0xFFFE]
def s10 : State := mw [reg 2 0xFFFE]
def s12 : State := mw [reg 2 0x2058]
def s14 : State := rdy [cur hs, reg 2 0x2058]
def s15 : State := mw [reg 2 0x10040, reg 1 5]
def s16 : State := mw [modSeqr 0 fun z => { z with buf := [(0x100, [1#8, 2#8])] }]
def s17 : State := mw [reg 2 9, modSeqr 0 fun z => { z with buf := [(0x100, [1#8, 2#8])] }]
def s18 : State := mw [reg 2 9, reg 1 11]
def s19 : State := rdy [cur hu]
def s20 : State := rdy [cur hd, .cmd fun c => { c with dmas := [⟨3, 0, 0, false⟩] }]
def s21 : State := mw []
def s22 : State := rdy [cur hc, modSeqr 0 fun z => { z with cyc := 1250 }]
def s23 : State := rdy [cur he]
def s24 : State := rdy [cur hw, .set (pgRing 0) R.RING_TYPE 1]
def s25 : State := cmd 1 [] []
def s26 : State := cmd 2 [] []
def s27 : State := cmd 3 [] []
def s28 : State := rdy [.set pgTop R.TOP_STAGE 7, .set (pgRing 9) R.RING_EN 1, modRing 9 fun r => { r with ents := [ent] }]
def s29 : State := rdy [.cmd fun c => { c with queue := [hw] }, .one (.fld ((pgSq 0).base + 12) 0 0 1), .one (.fld ((pgSq 31).base + 12) 0 0 1)]
def s30 : State := rdy [modSeqr 31 fun z => { z with held := [(7, hr)] }]
def s31 : State := cmd 0x10 [] [.set pgClk R.CLK_STATE 4, .set pgTop R.TOP_OPEN_SRC 1]
def s32 : State := cmd 0x10 [] [.set pgTop R.TOP_STATE 2]
def s33 : State := cmd 0x11 [] [.set pgTop R.TOP_STATE 2]
def s34 : State := cmd 0x11 [] [.set pgTop R.TOP_STATE 1]
def s35 : State := cmd 0x11 [] [.set pgTop R.TOP_STATE 3]
def s36 : State := cmd 0x11 [] [.set pgTop R.TOP_STATE 0]
def s37 : State := cmd 0x12 [255, 0x201] []
def s38 : State := rdy [cur (hcm 0x12 [3, 1, 0]), .set pgTop R.TOP_STATE 2]
def s39 : State := cmd 0x14 [0x700, 1, 0] []
def s40 : State := cmd 0x14 [0x3F02, 15, 0, 0, 0, 0] []
def s41 : State := cmd 0x13 [255, 0, 0] []
def s42 : State := cmd 0x13 [0x101, 8191, 1] [.set (pgRing 8191) R.RING_TYPE 2]
def s43 : State := cmd 0x13 [0x201, 4095, 1] [.set (pgQpc 4095) R.QPC_STATE 1, .set (pgQpc 4095) R.QPC_KIND 3]
def s44 : State := cmd 0x18 [0x102] [enable (pgBank 0), clock, .set (pgBank 0) R.BANK_SETTLING 0]
def s45 : State := cmd 0x1A [] [enable (pgBank 0), enable (pgBank 4), .cal fun c => { c with delta := [(1, 5)] }]
def s46 : State := cmd 0x19 [0x305] [.sys fun x => { x with halves := [], jobs := [job] }]
def s47 : State := cmd 0x20 [0x40, 0, 0x80, 0, 0x04030201, 0x08070605] []
def s48 : State := rdy [cur (hl 0x21 [0x40, 0, 0x80, 0, 0x40, 0]), .one (.mem 0x40 [7#8])]
def s49 : State := rdy [cur (held 0x21 [0x40, 0, 0x80, 0, 0x40, 0, 0]), .one (.mem 0x40 [7#8])]
def s50 : State := rdy [cur (held 0x21 [0x40, 0, 0x80, 0, 0x40, 0, 1]), .one (.mem 0x40 [7#8])]
def s51 : State := cmd 0x22 [0, 0, 97, 8] [.sys fun x => { x with jobs := [job] }]
def s52 : State := cmd 0x28 [4095] []
def s53 : State := cmd 0x29 [4095] [.set (pgQpc 4095) R.QPC_STATE 1]
def s54 : State := cmd 0x30 [2, 0x40] [.set (pgFport 3) R.FPORT_STATE 6, .set (pgFport 3) R.FPORT_VER 2, .link fun l => { l with ids := [(2, 3)] }]
def s55 : State := cmd 0x31 [2] []
def s56 : State := cmd 0x31 [1] [clock]
def s57 : State := rdy [cur (held 0x31 [2]), .set pgPwr R.PWR_STATE 1]
def s58 : State := cmd 0x31 [0] []
def s59 : State := cmd 0x32 [5, 0, 0] []
def s60 : State := cmd 0x32 [5, 0, 0] [.set pgTime R.TIME_SEL 4]
def s61 : State := cmd 0x32 [5, 0, 0] [.set pgTop R.TOP_STATE 2, .set pgTime R.TIME_SEL 0]
def s62 : State := cmd 0x33 [31] []
def s63 : State := cmd 0x40 [4094, 5] []
def s64 : State := cmd 0x41 [4094] [.set (pgShell 4094) R.SHELL_OPEN 1, .sec fun x => { x with owners := [((pgRing 3).ownReg, 4094)] }]
def s65 : State := cmd 0x42 [5, 0x30, 0x10000, 0x1FFF, 0x10002] []
def s66 : State := cmd 0xBF [1] [.cmd fun c => { c with images := [(3, ⟨0x3F000, 16, List.replicate 16 0x3F000⟩)] }]
def s67 : State := rdy []
def s68 : State := rdy [.set pgTop R.TOP_STATE 2]
def s69 : State := rdy [.set pgTop R.TOP_HOLD 1]
def s70 : State := rdy [.one (.fld ((pgSt 255).base + 16) 1 1 1), .one (.fld ((pgSt 255).base + 12) 1 1 1)]
def s71 : State := rdy [.one (.wr 0x14 0xFFFFFFFF#32)]
def s72 : State := rdy [capture (pgTu 0) 1 2]
def s73 : State := rdy [.set (pgBank 7) R.BANK_PEAK_MAX 5]
def s74 : State := rdy [denyAccess 3 4 5 64]
def s75 : State := rdy [.link fun l => { l with evFifo := [(5, 7)] }]
def s76 : State := rdy [.set (pgQpc 4095) R.QPC_LIMIT_HI 9]
def s77 : State := rdy [.time fun x => { x with q := 2^127 + 2^80 + 2^70 }]
def s78 : State := rdy [.host fun h => { h with lowHeld := [(wordKey 0 (pgRing 8191) 0, 0x40#32)] }]
def s79 : State := rdy [.sec fun x => { x with wins := [(4095, win)] }]
def s80 : State := rdy [.set pgPcie R.PCIE_VEC_SEL 5, .host fun h => { h with vecs := [] }]
def s81 : State := rdy [.set pgPcie R.PCIE_COAL_SEL 2047]
def s82 : State := rdy [.set (pgQpc 4095) R.QPC_REGION_LO 0x1000]
def s83 : State := rdy [enable pgText]
def s84 : State := rdy [.one (.fld (pgText.base + 12) 0 0 0)]
def s85 : State := rdy [.set (pgSt 255) R.ST_ACC_EN 1, .setLivei (pgSt 255) R.ST_ACC_EN 0 1, .set pgTop R.TOP_STATE 2, stream 255 fun z => { z with ep := { z.ep with segs := 1 } }]
def s86 : State := rdy [.set (pgSt 255) R.ST_ACC_EN 1, .setLivei (pgSt 255) R.ST_ACC_EN 0 1, .set pgTop R.TOP_STATE 2, .seg fun g => { g with extrs := [(0, extr)] }]
def s87 : State := rdy [.set pgTop R.TOP_STATE 2, .seti pgDiff R.DIFF_USE 63 1, .setLivei pgDiff R.DIFF_USE 63 1, .seti pgDiff R.DIFF_OUT 63 1, .setLivei pgDiff R.DIFF_OUT 63 1, .time fun t => { t with pairs := [(63, { Pair.reset with n := 3, hist := [(0, 3)] })] }]
def s88 : State := rdy [.set pgTop R.TOP_STATE 2, enable (pgTdc 1), .set (pgTdc 1) R.TDC_CD_SRC 0]
def s89 : State := rdy on0
def s90 : State := rdy (on0 ++ [chan fun c => { c with hold := some hold0 }])
def s91 : State := rdy (on0 ++ [chan fun c => { c with stops := [{ first := 0, upto := none, cause := 4 }] }])
def s92 : State := rdy [.set (pgBank 4) R.BANK_LINK_OK 1]
def s93 : State := rdy [.set (pgBank 4) R.BANK_LINK_OK 0, .conv fun c => { c with lostAt := [(1, 0)] }]
def s94 : State := rdy [.set (pgBank 4) R.BANK_LINK_OK 0, .conv fun c => { c with dieRst := [(1, true)] }]
def s95 : State := rdy [.conv fun c => { c with lostAt := [(1, 0)] }, .time fun x => { x with q := 2^80 }]
def s96 : State := rdy [.set (pgBank 7) R.BANK_SETTLING 1]
def s97 : State := rdy (on0 ++ [.set (pgBank 0) R.BANK_SETTLING 1, .conv fun c => { c with settle := [(0, 1)] }, .cal fun c => { c with runs := [(8, own0)] }])
def s98 : State := rdy (on0 ++ [.set (pgBank 0) R.BANK_SETTLING 1, .conv fun c => { c with settle := [(0, 2)] }, .cal fun c => { c with runs := [(8, own0)] }])
def s99 : State := rdy [.set pgCal R.CAL_AUTO_EN 1, .setLivei pgCal R.CAL_AUTO_EN 0 1, .set pgCal R.CAL_START_DONE 3, .setLivei pgCal R.CAL_DTEMP 0 5, .seti pgCal R.CAL_LAST_RUN 1 3000]
def s100 : State := rdy (on0 ++ [.cal fun c => { c with runs := [(2, run0)] }])
def s101 : State := rdy [.cal fun c => { c with startup := [(1, 65535)], startTemp := [(1, -1)] }]
def s102 : State := rdy (on0 ++ [.set pgCal R.CAL_AUTO_EN 1, .setLivei pgCal R.CAL_AUTO_EN 0 1, .set pgCal R.CAL_DUE 1])
def s103 : State := rdy (on0 ++ [.cal fun c => { c with runs := [(2, { run0 with chans := [] })] }])
def s104 : State := rdy (on0 ++ [.cal fun c => { c with runs := [(2, run0)] }, .time fun x => { x with q := 2^90 }])
def s105 : State := rdy [.cal fun c => { c with startup := [(1, 7)], startTemp := [(1, -1)] }, .time fun x => { x with q := 2^90 }]
def s107 : State := rdy (on0 ++ [.set (pgBank 0) R.BANK_POWERED 1, .setLivei pgCal R.CAL_ROT_EN 0 1, .conv fun c => { c with rotPos := [(0, 63)] }])
def s108 : State := rdy (on0 ++ [chan fun c => { c with top := 9, hold := some { hold0 with first := 4, upto := some 8 } }])
def s109 : State := rdy [clock, .set pgTop R.TOP_STATE 1, .seg fun g => { g with cfg := 2 }]
def s110 : State := rdy [.set pgTop R.TOP_STATE 2, .seg fun g => { g with cfg := 512 }]
def s111 : State := rdy [.set pgTop R.TOP_STATE 3, .seg fun g => { g with tClose := some 0 }]
def s112 : State := rdy [.set pgTop R.TOP_STATE 3, .seg fun g => { g with drain := 1 }]
def s113 : State := rdy [.set pgTop R.TOP_STATE 3, .seg fun g => { g with drain := 2, strms := [(255, { Strm.reset with inPod := true })] }]
def s114 : State := rdy [.set pgTop R.TOP_STATE 3, .seg fun g => { g with drain := 3, tClose := some 0 }, .time fun x => { x with q := 2^90 }]
def s115 : State := rdy [.set pgTime R.TIME_STEP_PEND 1, .time fun x => { x with err := 5 }]
def s116 : State := rdy [.seg fun g => { g with reqs := [{ req with st := 1 }] }, chan fun c => { c with top := 100000 }]
def s117 : State := rdy (on0 ++ [.set (pgSt 255) R.ST_IN_FRAME 1, .setLivei (pgSt 255) R.ST_TRIG_MODE 0 1, .set pgTop R.TOP_STATE 2, chan fun c => { c with top := 100000 }, .time fun x => { x with q := 2^90, ties := [⟨0, 0, 2^40⟩], cc := 12500 }, .seg fun g => { g with strms := [(255, { Strm.reset with inPod := true })] }])
def s118 : State := rdy (on0 ++ [.seg fun g => { g with reqs := [req] }])
def s119 : State := rdy (on0 ++ [.seg fun g => { g with extrs := [(15, extr)] }])
def s120 : State := rdy [stream 255 fun z => { z with ep := { z.ep with closing := 3, num := 4 }, bins := [(1, 2, 3)] }]
def s121 : State := rdy [.seg fun g => { g with maps := [(15, { cells := [(0, 1)], ep := { Epoch.reset with closing := 1 } })] }]
def s122 : State := rdy [stream 255 fun z => { z with built := [(0, [rec0 128])] }]
def s123 : State := rdy [stream 255 fun z => { z with built := [(0, [rec0 128])] }, .setLivei (pgSt 255) R.ST_EQ_SIZE 0 1]
def s124 : State := rdy [stream 255 fun z => { z with pend := some (rec0 80) }]
def s125 : State := rdy [stream 255 fun z => { z with openRec := some open0 }, .setLivei (pgSt 255) R.ST_SRC_KIND 0 2, .time fun x => { x with q := 2^90 }]
def s126 : State := rdy [stream 255 fun z => { z with openRec := some open0 }, .setLivei (pgSt 255) R.ST_SRC_KIND 0 3, .time fun x => { x with q := 2^90 }]
def s127 : State := rdy (on0 ++ [enable (pgTu 0), .setLivei (pgTu 0) R.TU_LEVEL_A 0 100, .setLivei (pgTu 0) R.TU_HYST 0 5, chan fun c => { c with top := 2, hist := [150, 120] }])
def s129 : State := rdy (on0 ++ [enable pgText, .time fun x => { x with ties := [⟨0, 0, 2^40⟩], cc := 100000, q := 2^100 }])
def s130 : State := rdy [.one (.fld (pgText.base + 0x00C) 0 0 0)]
def s131 : State := rdy [.trig fun x => { x with tus := [(7, { Tu.reset with actAt := some 0 })] }, .setLivei (pgTu 7) R.TU_STUCK_TIME 0 5, .time fun x => { x with cc := 6 }]
def s132 : State := rdy [.trig fun x => { x with tinAct := [(3, 0)] }, .setLivei pgText R.TEXT_STUCK_TIME 3 5, .time fun x => { x with cc := 6 }]
def s133 : State := rdy (on0 ++ [.time fun x => { x with ties := [⟨0, 0, 2^40⟩], cc := 100000, q := 2^100 }, .trig fun x => { x with defs := [(15, { TDef.reset with seqWait := some (0, 0) })] }])
def s134 : State := rdy (on0 ++ [.time fun x => { x with ties := [⟨0, 0, 2^40⟩], cc := 100000, q := 2^100 }, .trig fun x => { x with remotes := [{ src := 5, line := 15, anchor := 0, st := 0, kept := [], defs := [], prov := true }] }])
def s135 : State := rdy [.trig fun x => { x with touts := [(3, { start := none, prov := none, outOn := true, cxlOn := true, outEnd := 0, cxlEnd := 0 })] }]
def s137 : State := rdy (on0 ++ [.time fun x => { x with ties := [⟨0, 0, 2^40⟩], cc := 100000, q := 2^100 }, enable (pgTdc 15), .set (pgTdc 15) R.TDC_LOCKED 1, .set pgTop R.TOP_STATE 2])
def s138 : State := rdy (on0 ++ [.time fun x => { x with ties := [⟨0, 0, 2^40⟩], cc := 100000, q := 2^100 }, .time fun x => { x with tdcs := [(15, { Tdc.reset with fifo := [raw0] })] }])
def s139 : State := rdy (on0 ++ [.time fun x => { x with ties := [⟨0, 0, 2^40⟩], cc := 100000, q := 2^100 }, .time fun x => { x with pairs := [(63, { pair0 with bs := [] })] }])
def s140 : State := rdy (on0 ++ [.time fun x => { x with ties := [⟨0, 0, 2^40⟩], cc := 100000, q := 2^100 }, .time fun x => { x with pairs := [(63, pair0)] }])
def s141 : State := rdy (on0 ++ [.time fun x => { x with ties := [⟨0, 0, 2^40⟩], cc := 100000, q := 2^100 }])
def s142 : State := rdy [.time fun x => { x with tdcs := [(1, { Tdc.reset with cd := some (65536, [], []) })] }]
def s143 : State := rdy [.set pgTime R.TIME_STATE 2, .set pgTime R.TIME_SEL 4, .set pgTime R.TIME_XO_AGE 0xFFFFFF]
def s144 : State := rdy [.set pgTime R.TIME_STATE 1, .set pgTime R.TIME_SEL 4, .set pgTime R.TIME_XO_AGE 0xFFFFFF]
def s145 : State := rdy [.set pgTime R.TIME_STATE 2, .set pgTime R.TIME_SEL 1, .time fun x => { x with theta := 2814750 }]
def s146 : State := rdy [.set pgTime R.TIME_SEL 1, .time fun x => { x with ppsGood := 4, qual := [(1, 0)] }]
def s147 : State := rdy [.set pgTime R.TIME_PRIO0 4, .set pgTime R.TIME_PRIO1 0, .set pgTime R.TIME_PRIO2 0, .set pgTime R.TIME_PRIO3 0, .time fun x => { x with ppsGood := 4 }]
def s148 : State := rdy [.set pgTime R.TIME_SEL 4, .set pgTime R.TIME_STATE 2, .time fun x => { x with qual := [(4, 0)], ppsLast := some 0, q := 2^100 }]
def s149 : State := rdy [.set pgTime R.TIME_SEL 1, .set pgTime R.TIME_REVERT 1, .set pgTime R.TIME_PRIO0 4, .set pgTime R.TIME_PRIO1 1, .time fun x => { x with qual := [(1, 0), (4, 0)], q := 2^100 }]
def s150 : State := rdy [.time fun x => { x with ppsLast := none, ppsGood := 2, q := 2^100 }, .set pgTime R.TIME_PPS_IN_POL 0]
def s151 : State := rdy [.time fun x => { x with ppsLast := some 0, ppsGood := 2, q := 2^100 }, .set pgTime R.TIME_PPS_IN_POL 0]
def s152 : State := rdy [.time fun x => { x with ppsSet := some 9 }]
def s153 : State := rdy [.set pgTop R.TOP_STATE 2, .time fun x => { x with ppsSet := some 9 }]
def s154 : State := rdy [.time fun x => { x with ppsLast := some 0, ppsGood := 2, q := 2^100, qual := [(4, 0)] }]
def s155 : State := rdy [.set pgTime R.TIME_PPS_OUT_EN 1]
def s156 : State := rdy (on0 ++ [.time fun x => { x with cc := 1024 }])
def s157 : State := rdy [.set pgClk R.CLK_STATE 1]
def s158 : State := rdy [.set pgClk R.CLK_STATE 2]
def s159 : State := rdy [.set pgClk R.CLK_CPLL_STATE 2]
def s160 : State := rdy [.set pgClk R.CLK_CPLL_STATE 1]
def s161 : State := rdy [.time fun x => { x with lockTry := 3 }, .set pgClk R.CLK_BAND 63]
def s162 : State := rdy [.set pgClk R.CLK_STATE 3]
def s163 : State := rdy [.set pgClk R.CLK_STATE 3, .time fun x => { x with ties := [⟨10, 0, 2^40⟩], lockCfg := 10000 }, .setLivei pgClk R.CLK_SCS_REF 0 0]
def s164 : State := rdy [.set pgClk R.CLK_STATE 1, .setLivei pgClk R.CLK_SCS_REF 0 1, .set pgClk R.CLK_REF_OK 1]
def s165 : State := rdy [.set pgClk R.CLK_STATE 4, .setLivei pgClk R.CLK_SCS_REF 0 1, .set pgClk R.CLK_REF_OK 1]
def s166 : State := rdy [.set pgClk R.CLK_STATE 4]
def s167 : State := rdy [.set pgClk R.CLK_STATE 5, .setLivei pgClk R.CLK_REF_NOM 0 1, .setLivei pgClk R.CLK_SCS_REF 0 1, .setLivei pgClk R.CLK_AUTO_RELOCK 0 1]
def s168 : State := rdy [.set pgClk R.CLK_STATE 5, .setLivei pgClk R.CLK_REF_NOM 0 1, .setLivei pgClk R.CLK_SCS_REF 0 1, .setLivei pgClk R.CLK_AUTO_RELOCK 0 0]
def s169 : State := rdy [.set pgClk R.CLK_STATE 4, .setLivei pgClk R.CLK_REF_NOM 0 1, .setLivei pgClk R.CLK_SCS_REF 0 1, .setLivei pgClk R.CLK_AUTO_RELOCK 0 1]
def s170 : State := rdy [.set pgClk R.CLK_STATE 4, .setLivei pgClk R.CLK_SYNC_POL 0 0, .setLivei pgClk R.CLK_SCS_REF 0 1, .setLivei pgClk R.CLK_SYNC_MODE 0 1, .set pgClk R.CLK_SYNC_ARM 1]
def s171 : State := rdy [.set pgClk R.CLK_STATE 4, .setLivei pgClk R.CLK_SYNC_POL 0 0, .setLivei pgClk R.CLK_SCS_REF 0 1, .setLivei pgClk R.CLK_SYNC_MODE 0 2, .set pgClk R.CLK_SYNC_ARM 1]
def s172 : State := rdy [.set pgClk R.CLK_STATE 3, .setLivei pgClk R.CLK_SYNC_POL 0 0, .setLivei pgClk R.CLK_SCS_REF 0 1, .setLivei pgClk R.CLK_SYNC_MODE 0 2, .set pgClk R.CLK_SYNC_ARM 1]
def s173 : State := rdy [.set pgClk R.CLK_STATE 5]
def s174 : State := rdy [.set pgClk R.CLK_STATE 0]
def s175 : State := rdy [port 3 1 (id)]
def s176 : State := rdy [port 3 2 (id)]
def s177 : State := rdy [port 3 2 (fun p => { p with fast := true })]
def s178 : State := rdy [port 3 2 (fun p => { p with fromKa := true })]
def s179 : State := rdy [port 3 3 (id)]
def s180 : State := rdy [port 3 3 (fun p => { p with advSame := 2, adv := 33 })]
def s181 : State := rdy [port 3 3 (fun p => { p with advSame := 2, adv := 17 })]
def s182 : State := rdy [port 3 3 (fun p => { p with advSame := 2, adv := 254 })]
def s183 : State := rdy [port 3 3 (fun p => { p with advSame := 2, adv := 274877906977 })]
def s184 : State := rdy [port 3 3 (fun p => { p with advSame := 3, adv := 0x21 })]
def s185 : State := rdy [port 3 7 (id)]
def s186 : State := rdy [port 3 4 (id)]
def s187 : State := rdy [port 3 4 (fun p => { p with fromKa := true })]
def s188 : State := rdy [port 3 5 (id)]
def s189 : State := rdy [port 3 5 (fun p => { p with exch := 256 }), .set pgFlink R.FLINK_UP_PORT 3]
def s190 : State := rdy [port 3 5 (fun p => { p with fails := 2 })]
def s191 : State := rdy [port 3 5 (fun p => { p with fails := 4 })]
def s192 : State := rdy [port 3 0 (id)]
def s193 : State := rdy [port 3 8 (id)]
def s194 : State := rdy [port 3 9 (id)]
def s195 : State := rdy [port 3 10 (id)]
def s196 : State := rdy [port 3 6 (id)]
def s197 : State := rdy [port 3 6 (id), .set (pgFport 3) R.FPORT_VER 2, .set pgFlink R.FLINK_FEAT_EN 0xFFFF, .set (pgFport 3) R.FPORT_PEER_FEAT 8]
def s198 : State := rdy [.link fun l => { l with reqs := [rr 15] }]
def s199 : State := rdy [.link fun l => { l with ids := [(0x3FFF, 3)] }]
def s200 : State := rdy [port 3 4 (id), .link fun l => { l with ids := [(9, 3), (77, 0)] }]
def s201 : State := rdy [port 3 6 (id), .set pgFlink R.FLINK_UP_PORT 3]
def s202 : State := rdy [port 3 4 (id), .set pgFlink R.FLINK_UP_PORT 3]
def s203 : State := rdy [port 3 6 (id), .link fun l => { l with ids := [(9, 3), (77, 0)] }, .set pgFlink R.FLINK_UP_PORT 2, .set (pgFport 2) R.FPORT_STATE 6, enable (pgFport 2)]
def s204 : State := rdy [port 3 6 (id), .set (pgFport 3) R.FPORT_VER 2, .set pgFlink R.FLINK_FEAT_EN 0xFFFF, .set (pgFport 3) R.FPORT_PEER_FEAT 0xFFFF, enable pgText, .setLivei pgText R.TEXT_FL_EN 0 0x8000]
def s205 : State := rdy [port 3 6 (id), .set (pgFport 3) R.FPORT_VER 2, .set pgFlink R.FLINK_FEAT_EN 0xFFFF, .set (pgFport 3) R.FPORT_PEER_FEAT 0xFFFF, .setLivei pgText R.TEXT_FL_EN 0 0]
def s206 : State := rdy [port 3 6 (id), .set (pgFport 3) R.FPORT_VER 2, .set pgFlink R.FLINK_FEAT_EN 0xFFFF, .set (pgFport 3) R.FPORT_PEER_FEAT 0xFFFF, enable pgText, .setLivei pgText R.TEXT_FL_EN 0 0x8000, .trig fun x => { x with remotes := [rem0 0 true] }]
def s207 : State := rdy [port 3 6 (id), .set (pgFport 3) R.FPORT_VER 2, .set pgFlink R.FLINK_FEAT_EN 0xFFFF, .set (pgFport 3) R.FPORT_PEER_FEAT 0xFFFF, enable pgText, .setLivei pgText R.TEXT_FL_EN 0 0x8000, .set pgFlink R.FLINK_GATE_SRC 8, .time fun x => { x with ties := [⟨0, 0, 2^40⟩], cc := 100000, q := 2^100 }]
def s208 : State := rdy [port 3 6 (id), .set (pgFport 3) R.FPORT_VER 2, .set pgFlink R.FLINK_FEAT_EN 0xFFFF, .set (pgFport 3) R.FPORT_PEER_FEAT 0xFFFF, enable pgText, .setLivei pgText R.TEXT_FL_EN 0 0x8000, .set pgFlink R.FLINK_GATE_SRC 8, .time fun x => { x with ties := [⟨0, 0, 2^40⟩], cc := 100000, q := 2^100 }, .link fun l => { l with gateWait := [(3, true, nsQ (s0.get pgFlink R.FLINK_GATE_LAT))] }]
def s209 : State := rdy [port 3 6 (id), .set (pgFport 3) R.FPORT_VER 2, .set pgFlink R.FLINK_FEAT_EN 0xFFFF, .set (pgFport 3) R.FPORT_PEER_FEAT 0xFFFF, enable pgText, .setLivei pgText R.TEXT_FL_EN 0 0x8000, .link fun l => { l with gateWait := [(3, true, 2 ^ 100 + nsQ (s0.get pgFlink R.FLINK_GATE_LAT))] }]
def s210 : State := rdy [port 3 6 (fun p => { p with t1 := some 0, delays := [] }), .set pgFlink R.FLINK_UP_PORT 3, .set pgTime R.TIME_SEL 1]
def s211 : State := rdy [port 3 6 (fun p => { p with t1 := some 0 }), .set pgFlink R.FLINK_UP_PORT 3, .time fun x => { x with qual := [(1, 0)] }]
def s212 : State := rdy [port 3 5 (fun p => { p with t1 := some 0, delays := [2^40] }), .set pgFlink R.FLINK_UP_PORT 3, .set pgTime R.TIME_SEL 0]
def s213 : State := rdy [port 3 6 (fun p => { p with askAt := none }), .set pgFlink R.FLINK_UP_PORT 3, .time fun x => { x with q := 2^100 }]
def s214 : State := rdy [port 3 6 (fun p => { p with askAt := some 0 }), .set pgFlink R.FLINK_UP_PORT 3, .time fun x => { x with q := 2^100 }]
def s215 : State := rdy [port 3 6 (fun p => { p with askAt := some (2^100) }), .set pgFlink R.FLINK_UP_PORT 3, .time fun x => { x with q := 2^100 }]
def s216 : State := rdy [port 3 6 (id), .set (pgFport 3) R.FPORT_VER 2, .set pgFlink R.FLINK_FEAT_EN 0xFFFF, .set (pgFport 3) R.FPORT_PEER_FEAT 0xFFFF, .link fun l => { l with ids := [(77, 3)] }]
def s217 : State := rdy [port 3 6 (id), .set (pgFport 3) R.FPORT_VER 2, .set pgFlink R.FLINK_FEAT_EN 0xFFFF, .set (pgFport 3) R.FPORT_PEER_FEAT 0xFFFF, .link fun l => { l with ids := [(77, 3)] }, .set pgFlink R.FLINK_RD_EN 1]
def s218 : State := rdy [port 3 6 (id), .set (pgFport 3) R.FPORT_VER 2, .set pgFlink R.FLINK_FEAT_EN 0xFFFF, .set (pgFport 3) R.FPORT_PEER_FEAT 0xFFFF, .link fun l => { l with ids := [(77, 3)] }, .set pgFlink R.FLINK_WR_EN 1]
def s219 : State := rdy [port 3 6 (id), .set (pgFport 3) R.FPORT_VER 2, .set pgFlink R.FLINK_FEAT_EN 0xFFFF, .set (pgFport 3) R.FPORT_PEER_FEAT 0xFFFF, .link fun l => { l with ids := [(77, 3)] }, .set pgFlink R.FLINK_RST_EN 1]
def s220 : State := rdy [port 3 6 (id), .set (pgFport 3) R.FPORT_VER 2, .set pgFlink R.FLINK_FEAT_EN 0xFFFF, .set (pgFport 3) R.FPORT_PEER_FEAT 0xFFFF, .link fun l => { l with reqs := [rr 15], devIdWait := some 9 }, modSeqr 31 fun z => { z with held := [(7, held 0x30 [])] }]
def s221 : State := rdy [port 3 6 (id), .set (pgFport 3) R.FPORT_VER 2, .set pgFlink R.FLINK_FEAT_EN 0xFFFF, .set (pgFport 3) R.FPORT_PEER_FEAT 0xFFFF, .link fun l => { l with evFifo := List.replicate 63 (1, 2) }]
def s222 : State := rdy [port 3 6 (id), .set (pgFport 3) R.FPORT_VER 2, .set pgFlink R.FLINK_FEAT_EN 0xFFFF, .set (pgFport 3) R.FPORT_PEER_FEAT 0xFFFF, .link fun l => { l with evFifo := List.replicate 64 (1, 2) }]
def s223 : State := rdy [port 3 6 (id), .set (pgFport 3) R.FPORT_VER 2, .set pgFlink R.FLINK_FEAT_EN 0xFFFF, .set (pgFport 3) R.FPORT_PEER_FEAT 0xFFFF, .set pgFlink R.FLINK_UP_PORT 3]
def s224 : State := rdy [port 3 6 (id), .set (pgFport 3) R.FPORT_VER 2, .set pgFlink R.FLINK_FEAT_EN 0xFFFF, .set (pgFport 3) R.FPORT_PEER_FEAT 0xFFFF]
def s225 : State := rdy [port 3 7 (id), .set (pgFport 3) R.FPORT_VER 2, .set pgFlink R.FLINK_FEAT_EN 0xFFFF, .set (pgFport 3) R.FPORT_PEER_FEAT 0xFFFF]
def s226 : State := rdy [ring 8191 2 [(R.RING_EN, 0), (R.RING_RUNNING, 0)] (id)]
def s227 : State := rdy [ring 8191 0 [(R.RING_EN, 0), (R.RING_RUNNING, 0)] (id)]
def s228 : State := rdy [ring 8191 2 [] (id)]
def s229 : State := rdy [ring 8191 2 [(R.RING_HOST_PTR, 0xFFFFFFFF), (R.RING_DEV_PTR, 0xFFFFFFFE), (R.RING_PACE_MODE, 1), (R.RING_CREDITS, 1)] (id)]
def s230 : State := rdy [ring 8191 0 [(R.RING_HOST_PTR, 0xFFFFFFFF), (R.RING_DEV_PTR, 0xFFFFFFFE), (R.RING_PACE_MODE, 1), (R.RING_CREDITS, 1), (R.RING_PAIR, 8190)] (id), ring 8190 1 [] id]
def s231 : State := rdy [ring 8191 0 [(R.RING_HOST_PTR, 0xFFFFFFFF), (R.RING_DEV_PTR, 0xFFFFFFFE), (R.RING_PACE_MODE, 1), (R.RING_CREDITS, 1)] (id)]
def s232 : State := rdy [ring 8191 2 [] (fun r => { r with ents := [entSt .reading []] })]
def s233 : State := rdy [ring 8191 2 [(R.RING_CHAIN, 0)] (fun r => { r with ents := [entSt .reading []] })]
def s234 : State := rdy [ring 8191 2 [(R.RING_CHAIN, 1)] (fun r => { r with ents := [entSt .reading []] })]
def s235 : State := rdy [ring 8191 2 [(R.RING_LOCAL, 1)] (fun r => { r with ents := [{ entSt .reading [] with addr := 2 ^ 50 }] })]
def s236 : State := rdy [ring 8191 2 [(R.RING_CHAIN, 1)] (fun r => { r with atEnd := some 0x40, reread := true })]
def s237 : State := rdy [ring 8191 2 [(R.RING_CHAIN, 1)] (fun r => { r with atEnd := some 0x40, reread := false }), .time fun x => { x with q := 2 ^ 100 }]
def s238 : State := rdy [ring 8191 2 [(R.RING_EN, 0)] (id)]
def s239 : State := rdy [ring 8191 2 [(R.RING_CHAIN, 1)] (id)]
def s240 : State := rdy [ring 8191 2 [(R.RING_EN, 0), (R.RING_RUNNING, 0), (R.RING_BASE_LO, 0x1000), (R.RING_HALTED, 1)] (id)]
def s241 : State := rdy [ring 8191 2 [(R.RING_HALTED, 1)] (id)]
def s242 : State := rdy [ring 8191 2 [] (fun r => { r with ents := [{ entSt .opened (desc 0) with filled := 0 }] })]
def s243 : State := rdy [ring 8191 2 [] (fun r => { r with ents := [{ entSt .opened (desc 0) with filled := 1 }] })]
def s244 : State := rdy [ring 8191 2 [] (fun r => { r with ents := [entSt .ready (desc 0)] }), bound]
def s245 : State := rdy [ring 8191 2 [] (fun r => { r with ents := [entSt .opened (desc 0)] }), bound]
def s246 : State := rdy [ring 8191 2 [] (fun r => { r with ents := [entSt .opening (desc 0)] })]
def s247 : State := rdy [ring 8191 2 [(R.RING_DONE_PTR, 0xFFFFFFFF)] (fun r => { r with ents := [entSt .landing (desc 0)] })]
def s248 : State := rdy [ring 8191 2 [] (fun r => { r with ents := [{ entSt .opened (desc 0) with filled := 1 }] }), .time fun x => { x with q := 2 ^ 100 }]
def s249 : State := rdy [.host fun h => { h with vecs := [(63, (2000, 48))], msixEn := [(63, true)], pend := [(2047, (1, 0))], pba := [(2047, true)] }, .set (pgMsix 2047) R.MSIX_MASK 0, .time fun x => { x with q := 2 ^ 100 }]
def s250 : State := rdy [.host fun h => { h with vecs := [(63, (2000, 48))], msixEn := [(63, true)], pend := [(2047, (1, 0))], pba := [(2047, true)] }]
def s251 : State := rdy [.host fun h => { h with evtOut := [(3, 0)] }]
def s252 : State := rdy [mode2, qpc 4095 [] (id)]
def s253 : State := rdy [mode2, qpc 4095 [(R.QPC_STATE, 2)] (id), .set (pgEnet 1) R.ENET_LINK 0]
def s254 : State := rdy [mode2, qpc 4095 [(R.QPC_ON_ALT, 1), (R.QPC_ALT_EN, 1)] (id), .set pgRdma R.RDMA_FAILBACK 1, .net fun n => { n with upAt := [(7, 0)] }, .time fun x => { x with q := 2 ^ 100 }]
def s255 : State := rdy [mode2, qpc 4095 [(R.QPC_STATE, 2)] (fun z => { z with holdEnd := some 0 })]
def s256 : State := rdy [mode2, qpc 4095 [(R.QPC_KIND, 2), (R.QPC_DQPN, 0x1000), (R.QPC_PMTU, 2)] (fun z => { z with path := List.replicate 48 0, alt := List.replicate 48 0 }), qd 255 recQ]
def s257 : State := rdy [mode2, qpc 4095 [(R.QPC_KIND, 3), (R.QPC_DQPN, 0x1000), (R.QPC_PMTU, 2)] (fun z => { z with path := List.replicate 48 0, alt := List.replicate 48 0 }), qd 255 { recQ with dest := 3 * 65536 + 4095 }]
def s258 : State := rdy [mode2, qpc 4095 [(R.QPC_KIND, 3)] (id)]
def s259 : State := rdy [mode2, qpc 4095 [(R.QPC_ACK_PSN, 16777215), (R.QPC_NEXT_PSN, 0)] (fun z => { z with sent := [sent0 1] }), .time fun x => { x with q := 2 ^ 100 }]
def s260 : State := rdy [mode2, qpc 4095 [(R.QPC_ACK_PSN, 16777215), (R.QPC_NEXT_PSN, 0), (R.QPC_RNR_RETRY, 7)] (fun z => { z with sent := [sent0 1] }), .time fun x => { x with q := 2 ^ 100 }]
def s261 : State := rdy [mode2, qpc 4095 [(R.QPC_ACK_PSN, 16777215), (R.QPC_NEXT_PSN, 0), (R.QPC_RETRY_CNT, 0)] (fun z => { z with sent := [sent0 1] }), .time fun x => { x with q := 2 ^ 100 }]
def s262 : State := rdy [mode2, qpc 4095 [(R.QPC_ACK_PSN, 16777215), (R.QPC_NEXT_PSN, 0), (R.QPC_RETRY_CNT, 7)] (fun z => { z with sent := [sent0 1] }), .time fun x => { x with q := 2 ^ 100 }]
def s263 : State := rdy [mode2, qpc 4095 [] (fun z => { z with rnrAt := some 0 })]
def s264 : State := rdy [mode2, qpc 4095 [(R.QPC_RATE, 1000), (R.QPC_MIN_RATE, 999)] (id)]
def s265 : State := rdy [mode2, qpc 4095 [(R.QPC_RATE, 999), (R.QPC_MIN_RATE, 999)] (id)]
def s266 : State := rdy [mode2, qpc 4095 [(R.QPC_RATE, 999)] (id), .time fun x => { x with q := 2 ^ 100 }]
def s267 : State := rdy [qd 255 (rec0 128), .setLivei (pgSt 255) R.ST_CLASS 0 2, .set (pgSt 255) R.ST_CLASS 2, .time fun x => { x with q := 2 ^ 100 }]
def s268 : State := rdy [mode2, .set (pgEnet 1) R.ENET_PFC_EN 128, .net fun n => { n with paused := [(63, 0)] }]
def s269 : State := rdy [mode2, .set (pgEnet 1) R.ENET_PTP_EN 1, .set (pgEnet 1) R.ENET_PTP_SUB 3, .set (pgEnet 1) R.ENET_PTP_STATE 5, modPtp 1 (id)]
def s270 : State := rdy [mode2, .set (pgEnet 1) R.ENET_PTP_EN 1, .set (pgEnet 1) R.ENET_PTP_SUB 3, .set (pgEnet 1) R.ENET_PTP_STATE 5, modPtp 1 (fun _ => { t1 := none, t2 := some 20, t3 := none, t4 := none, syncs := 3, syncDue := none })]
def s271 : State := rdy [mode2, .set (pgEnet 1) R.ENET_PTP_EN 1, .set (pgEnet 1) R.ENET_PTP_SUB 3, .set (pgEnet 1) R.ENET_PTP_STATE 4, modPtp 1 (id)]
def s272 : State := rdy [mode2, .set (pgEnet 1) R.ENET_PTP_EN 1, .set (pgEnet 1) R.ENET_PTP_SUB 3, .set (pgEnet 1) R.ENET_PTP_STATE 5, modPtp 1 (fun _ => { t1 := some 2, t2 := some 20, t3 := some 30, t4 := none, syncs := 0, syncDue := none })]
def s273 : State := rdy [mode2, .set (pgEnet 1) R.ENET_PTP_EN 1, .set (pgEnet 1) R.ENET_PTP_SUB 3, .set (pgEnet 1) R.ENET_PTP_STATE 5, modPtp 1 (id), .set pgTime R.TIME_SEL 3]
def s274 : State := rdy [mode2, .set (pgEnet 1) R.ENET_PTP_EN 1, .set (pgEnet 1) R.ENET_PTP_SUB 3, .set (pgEnet 1) R.ENET_PTP_STATE 5, modPtp 1 (id), .set (pgEnet 1) R.ENET_SLAVE_ONLY 0]
def s275 : State := rdy [mode2, .set (pgEnet 1) R.ENET_PTP_EN 1, .set (pgEnet 1) R.ENET_PTP_SUB 3, .set (pgEnet 1) R.ENET_PTP_STATE 2, modPtp 1 (id)]
def s276 : State := rdy [.sec fun x => { x with pendOwn := [(pgRing 8191).ownReg], pendWin := [4095] }, .one (.wr (pgRing 8191).ownReg 5)]
def s277 : State := rdy [.sec fun x => { x with pendWin := [4095] }, .one (.wr (pgWin 4095).base 1), .one (.wr ((pgWin 4095).base + 8) 1)]
def s278 : State := rdy [.set pgSec R.SEC_REVOKING 1]
def s279 : State := rdy [.set pgSec R.SEC_DBG_LOCK 1]
def s280 : State := rdy [.set pgSec R.SEC_DBG_FUSE 1]
def s281 : State := rdy [.sys fun y => { y with pcTries := [(63, 2)] }]
def s282 : State := rdy [.fab fun f => { f with granted := [(63, (fr 77, 0))] }]
def s283 : State := rdy [modSeqr 31 fun z => { z with held := [(7, hw)], cur := some 7 }]
def s284 : State := st [.set pgPwr R.PWR_STATE 0, .set pgTop R.TOP_STAGE 7]
def s285 : State := st [.set pgPwr R.PWR_STATE 0, .set pgTop R.TOP_STAGE 7, port 3 7 id, .set (pgFport 3) R.FPORT_VER 2, .set pgFlink R.FLINK_FEAT_EN 0xFFFF, .set (pgFport 3) R.FPORT_PEER_FEAT 0xFFFF, .set pgFlink R.FLINK_WAKE_EN 1]
def s286 : State := st [.set pgPwr R.PWR_STATE 0, .set pgTop R.TOP_STAGE 7, .set pgPwr R.PWR_TRANSIT 1, .set pgPwr R.PWR_TARGET 1, clock, .set pgClk R.CLK_CPLL_STATE 4]
def s287 : State := rdy [.set pgPwr R.PWR_TRANSIT 1, .set pgPwr R.PWR_TARGET 1, .cal fun c => { c with delta := [(3, 5)] }]
def s288 : State := st [.each (List.range 8) (fun b => .set (pgBank b) R.BANK_SETTLING 0), .set pgPwr R.PWR_TRANSIT 1, .set pgPwr R.PWR_TARGET 2]
def s289 : State := st [.set pgPwr R.PWR_STATE 1, .pwr fun x => { x with used := [(1, 0)] }, .time fun x => { x with q := 2 ^ 90 }]
def s290 : State := rdy [.set pgFlink R.FLINK_GATE_SRC 0]
def s291 : State := rdy [.set pgFlink R.FLINK_GATE_SRC 8]
def s292 : State := rdy [.pwr fun x => { x with selfcal := true }]
def s293 : State := rdy [.pwr fun x => { x with first := true, reqs := [mr] }, .time fun x => { x with q := 2 ^ 90 }]
def s294 : State := rdy [.pwr fun x => { x with running := some (mr, 0, true), lowPower := true }, .time fun x => { x with q := 2 ^ 90 }]
def s295 : State := rdy [.pwr fun x => { x with running := some (m31, 0, true), lowPower := true }, .time fun x => { x with q := 2 ^ 90 }]
def s296 : State := rdy [.pwr fun x => { x with exps := [(7, 2 ^ 90)] }, .seti pgTmr R.TMR_ARM 7 1, .seti pgTmr R.TMR_PERIODIC 7 0, .seti pgTmr R.TMR_PERIOD_LO 7 0x80000000, .time fun x => { x with q := 2 ^ 90 }]
def s297 : State := rdy [.pwr fun x => { x with exps := [(7, 2 ^ 58)] }, .seti pgTmr R.TMR_ARM 7 1, .seti pgTmr R.TMR_PERIODIC 7 0, .seti pgTmr R.TMR_PERIOD_LO 7 0x80000000, .time fun x => { x with q := 2 ^ 90 }]
def s298 : State := rdy [.pwr fun x => { x with exps := [(7, 2 ^ 58 - nsQ 20)] }, .seti pgTmr R.TMR_ARM 7 1, .seti pgTmr R.TMR_PERIODIC 7 1, .seti pgTmr R.TMR_PERIOD_LO 7 0x80000000, .time fun x => { x with q := 2 ^ 90 }]
def s299 : State := rdy [.pwr fun x => { x with exps := [(7, 2 ^ 58 - nsQ 20 - 1)] }, .seti pgTmr R.TMR_ARM 7 1, .seti pgTmr R.TMR_PERIODIC 7 1, .seti pgTmr R.TMR_PERIOD_LO 7 0x80000000, .time fun x => { x with q := 2 ^ 90 }]
def s300 : State := rdy [.seti pgTmr R.TMR_PWM_EN 7 1, .seti pgTmr R.TMR_PWM_HIGH 7 9]
def s301 : State := rdy [.seti pgTmr R.TMR_PWM_EN 7 1, .pwr fun p => { p with pwms := [(7, { Pwm.reset with period := 2, mat := 2 })] }]
def s302 : State := rdy [.pwr fun x => { x with house := [(6, 1206)] }]
def s303 : State := rdy [.pwr fun x => { x with house := [(0, 1200), (1, 1201), (2, 1202)] }]
def s304 : State := rdy [.pwr fun x => { x with house := [(3, 1203), (4, 1204), (5, 1205)] }]
def s305 : State := rdy [.pwr fun x => { x with alert := true }]
def s306 : State := rdy [enable pgDisp, .disp fun d => { d with phase := 1 }]
def s307 : State := rdy [enable pgDisp, .setLivei pgDisp R.DISP_L_EN 0 1, .setLivei pgDisp R.DISP_L_SRC 0 1, .set pgDisp R.DISP_L_EN 1, .set pgDisp R.DISP_L_SRC 1]
def s308 : State := rdy [enable pgDisp, .set pgDisp R.DISP_AUX_GO 1, .set pgDisp R.DISP_AUX_CMD 1, .disp fun d => { d with defers := 0 }]
def s309 : State := rdy [enable pgDisp, .set pgDisp R.DISP_AUX_GO 1, .set pgDisp R.DISP_AUX_CMD 1, .disp fun d => { d with defers := 6 }]
def s310 : State := rdy [enable pgDisp, .set pgDisp R.DISP_AUX_GO 1, .set pgDisp R.DISP_AUX_CMD 1, .disp fun d => { d with defers := 7 }]
def s311 : State := rdy [enable pgDisp, .set pgDisp R.DISP_AUX_GO 1, .set pgDisp R.DISP_AUX_CMD 9, .disp fun d => { d with defers := 0 }]
def s312 : State := rdy [enable pgDisp, .disp fun d => { d with phase := 2 }, .setLivei pgDisp R.DISP_VACTIVE 0 64, .setLivei pgDisp R.DISP_VFP 0 5, .setLivei pgDisp R.DISP_VSYNC_W 0 2, .setLivei pgDisp R.DISP_VBP 0 3, .setLivei pgDisp R.DISP_VMIN 0 74, .setLivei pgDisp R.DISP_VMAX 0 80]
def s313 : State := rdy [enable pgDisp, .disp fun d => { d with phase := 2 }, .setLivei pgDisp R.DISP_VACTIVE 0 64, .setLivei pgDisp R.DISP_VFP 0 5, .setLivei pgDisp R.DISP_VSYNC_W 0 2, .setLivei pgDisp R.DISP_VBP 0 3, .setLivei pgDisp R.DISP_VMIN 0 70, .setLivei pgDisp R.DISP_VMAX 0 74, .setLivei pgDisp R.DISP_ASYNC_EN 0 1, .set pgDisp R.DISP_READY 1]
def s314 : State := rdy [enable pgDisp, .disp fun d => { d with phase := 2 }, .setLivei pgDisp R.DISP_ASYNC_EN 0 1, .setLivei pgDisp R.DISP_VMAX 0 99]
def s315 : State := rdy [enable pgDisp, .disp fun d => { d with phase := 3 }]
def s316 : State := rdy [enable pgDisp, .disp fun d => { d with phase := 4 }, .set pgDisp R.DISP_LINK_UP 1, .setLivei pgDisp R.DISP_LINE_MATCH 0 0]
def s317 : State := rdy [enable pgDisp, .disp fun d => { d with phase := 1 }, .setLivei pgDisp R.DISP_VACTIVE 0 2, .setLivei pgDisp R.DISP_HACTIVE 0 2]
def s318 : State := rdy [enable pgDisp, .disp fun d => { d with phase := 1 }, .setLivei pgDisp R.DISP_VACTIVE 0 64, .setLivei pgDisp R.DISP_LINE_MATCH 0 63]
def s319 : State := rdy [enable pgDisp, .disp fun d => { d with phase := 1 }, .setLivei pgDisp R.DISP_L_EN 3 1]
def s320 : State := rdy [enable pgDisp, .disp fun d => { d with render := some 1 }, .setLivei pgDisp R.DISP_REN_READY 0 1, .setLivei pgDisp R.DISP_L_H 0 0]
def s321 : State := rdy [enable pgDisp, .disp fun d => { d with phase := 0 }]
def s322 : State := rdy [enable pgDisp, .set pgDisp R.DISP_HPD 1, .disp fun d => { d with training := true }]
def s323 : State := rdy [.set pgTop R.TOP_STATE 2, .cmd fun c => { c with queue := [hw] }, .one (.mem 5 [1#8])]
def s324 : State := rdy [.sys fun y => { y with porLow := true }]
def s326 : State := rdy [.sys fun y => { y with pcTries := [(63, 3)] }]
def s327 : State := rdy [.one (.fld (pgShell 4094).base 0 0 1)]
def s328 : State := rdy [.sys fun y => { y with shellRst := [4094] }]
def s329 : State := rdy [.host fun h => { h with flr := [(63, true)] }]
def s330 : State := rdy [.sys fun y => { y with supply := true }]
def s331 : State := rdy [.set pgTop R.TOP_NO_IMAGE 1, .set pgFlash R.FLASH_RCV_STAT 0, .set pgFlash R.FLASH_RCV_REGION 1, .set pgFlash R.FLASH_RCV_LEN 5]
def s332 : State := rdy [.set pgFlash R.FLASH_RCV_STAT 1, .sys fun y => { y with rcv := (1, 1048576), jobs := [{ job with region := 1, secs := [2], done := 1 }] }]
def s333 : State := rdy [.set pgFlash R.FLASH_RCV_STAT 1, .sys fun y => { y with rcv := (1, 1048576), jobs := [] }]
def s334 : State := rdy [.set pgFlash R.FLASH_RCV_STAT 1, .sys fun y => { y with rcv := (1, 1048577), jobs := [] }]
def s335 : State := rdy [.sys fun y => { y with jobs := [{ job with secs := [2] }] }]
def s336 : State := rdy [.sys fun y => { y with jobs := [{ job with secs := [2], tries := 2 }] }]
def s337 : State := rdy [.sys fun y => { y with jobs := [{ job with secs := [2], tries := 6 }] }]
def s338 : State := rdy [.sys fun y => { y with jobs := [{ job with erasing := some 1023 }], erases := [(1023, 99998)] }]
def s339 : State := rdy [.sys fun y => { y with jobs := [{ job with secs := [2], done := 1, data := [7], cmd := some 255 }] }, modSeqr 31 fun z => { z with held := [(7, hw)] }]
def s340 : State := st [.set pgTop R.TOP_STAGE 0]
def s341 : State := st [.set pgTop R.TOP_STAGE 1]
def s342 : State := st [.set pgTop R.TOP_STAGE 2]
def s343 : State := st [.set pgTop R.TOP_STAGE 3, .set pgClk R.CLK_CPLL_STATE 4]
def s344 : State := st [.set pgTop R.TOP_STAGE 4]
def s345 : State := st [.set pgTop R.TOP_STAGE 5, clock]
def s346 : State := st [.set pgTop R.TOP_STAGE 6]
def s347 : State := rdy [.set (pgMc 3) R.MC_PC_UP 0x8000]
def s348 : State := rdy [.sys fun y => { y with pcTries := [(63, 1)] }]
def s350 : State := rdy [.set pgTop R.TOP_STAGE 3]
def s351 : State := rdy [.sys fun y => { y with cfgReady := true }]
def s352 : State := { State.reset with pending := [.smbusStatus, .second] }
def s353 : State := State.reset
def s354 : State := rdy [.one (.mem (2 ^ 35 - 1) [1#8])]
def s355 : State := rdy [capture (pgSt 255) 63 (2 ^ 24 - 1)]
def s356 : State := rdy [.set pgClk R.CLK_SCS_REF 1]
def s357 : State := rdy [raise (pgTu 7) 1]
def s358 : State := rdy [.set (pgRoute ((pgTu 7).events.1 + 1)) R.ROUTE_KIND 0, .set (pgRoute ((pgTu 7).events.1 + 1)) R.ROUTE_TARGET 0, .one (.fld ((pgTu 7).base + 0x018) 1 1 1)]
def s359 : State := rdy [.set (pgRoute ((pgTu 7).events.1 + 1)) R.ROUTE_KIND 1, .set (pgRoute ((pgTu 7).events.1 + 1)) R.ROUTE_TARGET 2047, .one (.fld ((pgTu 7).base + 0x018) 1 1 1), .host fun h => { h with vecs := [(63, (2000, 48))], msixEn := [(63, true)], pend := [(2047, (1, 0))], pba := [(2047, true)] }, .set (pgMsix 2047) R.MSIX_MASK 0, .host fun h => { h with pend := [] }]
def s360 : State := rdy [.set (pgRoute ((pgTu 7).events.1 + 1)) R.ROUTE_KIND 1, .set (pgRoute ((pgTu 7).events.1 + 1)) R.ROUTE_TARGET 2047, .one (.fld ((pgTu 7).base + 0x018) 1 1 1), .host fun h => { h with vecs := [] }]
def s361 : State := rdy [.set (pgRoute ((pgTu 7).events.1 + 1)) R.ROUTE_KIND 2, .set (pgRoute ((pgTu 7).events.1 + 1)) R.ROUTE_TARGET 8191, .one (.fld ((pgTu 7).base + 0x018) 1 1 1), ring 8191 3 [] id]
def s362 : State := rdy [.set (pgRoute ((pgTu 7).events.1 + 1)) R.ROUTE_KIND 4, .set (pgRoute ((pgTu 7).events.1 + 1)) R.ROUTE_TARGET 3, .one (.fld ((pgTu 7).base + 0x018) 1 1 1)]
def s363 : State := rdy [.set (pgRoute ((pgTu 7).events.1 + 1)) R.ROUTE_KIND 0, .set (pgRoute ((pgTu 7).events.1 + 1)) R.ROUTE_TARGET 0, .one (.fld ((pgTu 7).base + 0x018) 1 1 1), raise (pgTu 7) 1]
def s364 : State := mw [reg 2 0x80000000, reg 3 0]
def s365 : State := mw [reg 2 0x80000000, reg 3 4294967295]
def s366 : State := mw [reg 2 0x80000000, reg 3 32]
def s367 : State := mw [reg 2 0x80000000, reg 3 3]
def s368 : State := rdy [.each (List.range 16) fun n => .one (.deny { shell := n, func := n, kind := 0, addr := 0 })]

/-! ### Well-formedness: one ill-formed command for each check, at the first value out of its range -/

theorem test_ill_formed_refused_a : ∀ i ∈ (
    [.nop 32, .add 0 32 0 0, .add 0 0 32 0, .add 0 0 0 32, .addi 0 0 0 65536, .lw 0 0 0 0 9, .wait 0 0 3, .csrr 0 0 16,
     .illegal 0 (2 ^ 32), .dmaDone 0 (2 ^ 32) 0 0 [], .dmaDone 0 0 3 0 [], .blkCtrlEn 64 0 false, .blkCtrlEn 0 (2 ^ 14) false,
     .softResetDone (2 ^ 26), .registerWrite 0 0 9 0, .accEpochGo 0 256, .diffEpochGo 0 64, .codeDensityStart 0 2 0, .retrain 0 4,
     .devIdWrite 0 (2 ^ 14), .upPortWrite 0 8, .db64 0 4096 0 0 0, .db64 0 0 4096 0 0, .ringEnable 0 8192, .limitWrite 0 4096 0,
     .routingEntryWrite 0 2048 0, .msixUnmask 0 2048, .pwrWake 0 4, .feRst 0 4, .legacyWindowWrite 0 4096 0, .rcvGo 0 16,
     .arbPrioWrite 0 79 0, .arbPrioWrite 0 0 8, .timerExpWrite 0 8 0, .dieLinkLost 2, .settled 8 [], .calStepBoundary 18 [] false,
     .holdEnd 8, .triggerUnitSample 8, .trigInEdge 4 0 0 0, .gateEdge 4 false, .stuck 64, .seqWaitExpiry 16] : List Instr), wellFormedInstr i = false := by decide +kernel

theorem test_ill_formed_refused_b : ∀ i ∈ (
    [.deadline 0 16 0, .trigOutPulseEnd 4 false, .requestEligible 0 (2 ^ 64), .extractionStart 16, .binPassDone false 256,
     .sourceQualify 5 0, .ppsInEdge false (2 ^ 128) 0, .evEdge 16 false 0 0, .lockingTimeout 2, .trigProv 0 0 (2 ^ 14) 0 0 false,
     .trigProv 0 0 0 64 0 false, .wake 0 0 0 (2 ^ 14) 0 0 false, .wake 0 0 0 0 4 0 false, .rreq 0 0 0 0 16 0 0 0 false,
     .rreq 0 0 0 0 0 4 0 0 false, .rresp 0 0 0 0 0 8 0 false, .coalTimer 2048, .subportDown 8 0 0 false, .egressSchedule 9,
     .roceAck 0 (2 ^ 24), .roceNak 0 0 4 0, .ptpMessage 2 0 0 0 0 0, .arbitration 321 0 false [], .conversionDone 4096, .timerExpiry 8,
     .pwmMatch 8, .hbmSelfRefresh 2, .underrun 4 0 0, .dpTrainingDone false 5 0, .porN 8, .coreReset 8, .stageDone 3 0 none [] [],
     .writeDone 3, .scrub 4 0 0 0 0 false, .scrub 0 3 0 0 0 false, .scrub 0 0 64 0 0 false, .waitElapsed 0 8, .tempHigh 4 0,
     .ucodeReloadDone 256, .fabricTimeout 0 (false, some (64, 0)), .fabricTimeout 0 (false, some (0, 2 ^ 24)),
     .abort 0 (some (some (2 ^ 56), [])), .abort 0 (some (none, List.replicate 8 0)), .abort 0 (some (none, [2 ^ 64]))] : List Instr), wellFormedInstr i = false := by decide +kernel

theorem test_well_formed_accepted : Instr.WellFormed (.add 31 31 31 31) ∧ Instr.WellFormed (.timerArm 63 7 true) ∧
    Instr.WellFormed (.arbitration 320 0 false []) := by decide

/-! ### No table word has bits -/

theorem test_no_word_decodes : decodeTableWord 32 0xFFFFFFFF = none ∧ State.reset.withFetchWord 32 0xFFFFFFFF = State.reset := ⟨rfl, rfl⟩

/-! ### Worked examples of the spec -/

/-- R63: event 517 is TDC0 source 5, and event 305 is source 1 of BANK3. -/
theorem test_global_events : (evtPage 517, (pgTdc 0).events.1 + 5, evtPage 305, (pgBank 3).events.1 + 1) = (pgTdc 0, 517, pgBank 3, 305) := by
  decide +kernel

/-- R239: the check value of CRC-32C. -/
theorem test_crc32c_check_value : crc32c ([49, 50, 51, 52, 53, 54, 55, 56, 57].map (BitVec.ofNat 8)) = 0xE3069283 := by decide +kernel

/-- Table 8-12: +412, -15, over-range and +2,046. -/
theorem test_p12_first_values :
    (packP12 [6592, 65536 - 240, 32752, 32736]).take 6 = [0x9C, 0x11, 0xFF, 0xFF, 0xE7, 0x7F] := by decide +kernel

/-- Table 7-10: the valid samples of the interval in P24, S32 and as bin input. -/
theorem test_average_of_table_7_10 :
    ([(256, 24), (65536, 32), (1, 16)].map fun e =>
      average e.1 e.2 [100, 103, 101, 98, 97, 102, 104, 99, 100, 101, 103, 96, 98, 102]) = [25673, 6572325, 100] := by decide +kernel

/-- Spec 09, example: P, the tie, and the edge at c - c_ref = 700, j = 5, m = 40 on EV3. -/
def evExample : State := rdy (on0 ++ [.time fun x => { x with
  ties := [⟨(1700000000 * 2 ^ 48 + 0x200000000000) * 2 ^ 16, 1000, 14757395259⟩], cc := 2000 }])

theorem test_stamp_of_ev3 :
    centre0 40 = 27648 ∧ evExample.edgePos 3 1700 5 40 - 1000 * 2 ^ 19 = 367301632 ∧
    evExample.stampQ 3 ⟨1700, 5, 40, false, false, 500, false⟩ = 1700000000 * 2 ^ 48 + 0x2000096725E2 := by decide +kernel

/-- Table 14-14: the words of its microwords. -/
theorem test_words_of_table_14_14 :
    [uword 0x16 2 0 0xC000, uword 0x1C 3 0 0x1234, uword 0x16 3 3 0x5678, uword 0x25 3 2 0, uword 0x22 4 2 2, uword 0x27 0 2 1, uword 0x20 5 2 0,
     uword 0x0E 6 5 0, uword 0x0F 7 5 0, uword 0x1A 8 3 40, uword 0x38 0 0 0] =
    [0x5840C000, 0x70601234, 0x58635678, 0x94620000, 0x88820002, 0x9C020001, 0x80A20000, 0x38C50000, 0x3CE50000, 0x69030028, 0xE0000000] := by
  decide +kernel

/-- Table 14-14, offsets 4 and 6: the load of two bytes is forwarded, that of four waits for the stores to retire. -/
def bufExample (more : List (Nat × List Byte)) : State :=
  mw [reg 2 0xC000, modSeqr 0 fun z => { z with buf := (0xC000, [0x78#8, 0x56#8, 0x34#8, 0x12#8]) :: more }]

/-- What a command leaves of interest. -/
def after {α : Type} (i : Instr) (s : State) (f : State → α) : Option α := match exec i s with | .next t => some (f t) | _ => none

theorem test_lhu_is_forwarded :
    after (.lhu 0 4 2 2 0) (bufExample []) (fun t => (t.ureg 0 4, t.get (pgSq 0) R.SQ_CNT_FWD)) = some (0x1234#32, 1) := by decide +kernel

theorem test_lw_waits_for_the_stores :
    after (.lw 0 5 2 0 0) (bufExample [(0xC001, [0#8])]) (fun t => (t.ureg 0 5, (t.seqr 0).buf.length)) = some (0x12340078#32, 0) := by decide +kernel

/-- Table 15-3, c0: EX3 at priority 4 wins, and SQ5 at 2, above AE1 at 1, is told two cycles. -/
theorem test_grant_of_table_15_3 :
    after (.arbitration 0 0 false [(0x0B, 64, false), (0x31, 64, false), (0x19, 64, false)])
      (rdy [.seti pgArb R.ARB_PRIO 0x0B 4, .seti pgArb R.ARB_PRIO 0x31 2, .seti pgArb R.ARB_PRIO 0x19 1])
      (fun t => t.out) = some [.grant 0 0x0B 0, .grant 0 0x19 4, .grant 0 0x31 2] := by decide +kernel

/-- R406, R411: the division of the most negative number by -1, and the shift by 40. -/
theorem test_division_overflows :
    after (.div 0 1 2 3) (mw [reg 2 0x80000000, reg 3 0xFFFFFFFF]) (fun t => (t.ureg 0 1, (t.current 0).map (·.2.flags))) =
      some (0x80000000#32, some 2) := by decide +kernel

/-- R303: an identifier that this device has, or that came by another port, is a duplicate. -/
theorem test_duplicate_identifier :
    after (.topoAnnounce 3 77 0 true) (rdy [port 3 4 id, .link fun l => { l with ids := [(77, 0)] }])
      (fun t => (t.raised pgFlink 2, t.errInfo pgFlink)) = some (true, 77 + 3 * 2 ^ 16 + 0x20 * 2 ^ 24 + 2 ^ 31) := by decide +kernel

/-- R48, R454: a function that may not reach a page writes nothing, and the denial is logged. -/
theorem test_denied_write :
    after (.registerWrite 63 0x1FF040 4 5) (rdy []) (fun t => t.denials) = some [⟨0xFFE, 63, 1, 0x1FF040 / 8⟩] := by decide +kernel

/-! ### Witnesses: for each statement, states and operands that meet its hypotheses, clause by clause -/

theorem witness_RegisterFormsWriteTheirResult :
    s1.current 0 = some (0, hw) ∧
    s1.fetches 0 hw maskAll (uword 0x0C 1 2 3) = true := by decide +kernel

theorem witness_ImmediateFormsWriteTheirResult :
    s1.current 0 = some (0, hw) ∧
    s1.fetches 0 hw maskAll (uword 0x1A 1 2 32) = true ∧
    s1.fetches 0 hw maskNoRs (uword 0x1C 1 0 32) = true := by decide +kernel

theorem witness_LoadsSeeTheYoungestBytes :
    s3.current 0 = some (0, hw) ∧
    s3.fetches 0 hw maskAll (uword 0x20 1 2 0) = true ∧
    s3.localAddr 0 2 0 % 4 = 0 ∧
    badLocal 0 hw (s3.localAddr 0 2 0) 4 = false ∧
    s4.localAddr 0 2 0 % 4 = 0 ∧
    s5.localAddr 0 2 2 % 1 = 0 := by decide +kernel

theorem witness_StoresPlaceTheirBytes :
    s6.current 0 = some (0, hw) ∧
    s6.fetches 0 hw maskAll (uword 0x26 1 2 0) = true ∧
    s6.localAddr 0 2 0 % 2 = 0 ∧
    badLocal 0 hw (s6.localAddr 0 2 0) 2 = false := by decide +kernel

theorem witness_BranchesGoWhereTheySay :
    s7.current 0 = some (0, hw) ∧
    s7.fetches 0 hw maskAll (uword 0x30 1 2 0xFFFF) = true ∧
    hw.img = none ∧
    s7.ureg 0 1 = s7.ureg 0 2 ∧
    s8.ureg 0 1 ≠ s8.ureg 0 2 ∧
    s7.fetches 0 hw maskNoRs (uword 0x36 5 0 4) = true ∧
    s9.fetches 0 hw maskAll (uword 0x37 2 2 0xFFFF) = true := by decide +kernel

theorem witness_CsrsAndFlags :
    s10.current 0 = some (0, hw) ∧
    s10.fetches 0 hw maskNoRs (uword 0x3B 1 0 15) = true ∧
    s10.fetches 0 hw maskNoRd (uword 0x3C 0 2 8) = true ∧
    s10.fetches 0 hw maskOp (uword 0x3D 0 0 0) = true := by decide +kernel

theorem witness_ControlSpaceAndTransfers :
    s12.current 0 = some (0, hw) ∧
    s12.fetches 0 hw maskAll (uword 0x28 1 2 0) = true ∧
    s12.localAddr 0 2 0 % 4 = 0 ∧
    s12.shellReaches hw.shell (s12.localAddr 0 2 0) = true ∧
    s12.answers (s12.shellFunc hw.shell) (s12.localAddr 0 2 0) 4 = true ∧
    s14.shellReaches hs.shell (s14.localAddr 0 2 0) = false ∧
    s14.localAddr 0 2 0 % 4 = 0 ∧
    s14.current 0 = some (0, hs) ∧
    s14.fetches 0 hs maskAll (uword 0x28 1 2 0) = true ∧
    s15.fetches 0 hw maskAll (uword 0x29 1 2 0) = true ∧
    s15.localAddr 0 2 0 % 4 = 0 ∧
    s15.shellReaches hw.shell (s15.localAddr 0 2 0) = true ∧
    s16.fetches 0 hw maskOp (uword 0x2B 0 0 0) = true := by decide +kernel

theorem witness_StepsEnd :
    s17.current 0 = some (0, hw) ∧
    s17.fetches 0 hw maskOp (uword 0x38 0 0 0) = true ∧
    s17.fetches 0 hw maskNoRd (uword 0x39 0 2 0) = true ∧
    s17.fetches 0 hw maskNoRd (uword 0x39 0 2 1) = true ∧
    s17.fetches 0 hw maskNoRd (uword 0x39 0 2 2) = true ∧
    s18.fetches 0 hw maskNoImm (uword 0x3A 1 2 0) = true ∧
    hw.ends = [] ∧
    ((s18.ureg 0 1).toNat % 256 ≤ 11 ∧ (s18.ureg 0 1).toNat % 256 ≠ 7) ∧
    s19.heldAt 0 0 = some hu ∧
    hu.wait = .until 0 ∧
    0 ≤ s19.now ∧
    (s20.cmd.dmas.find? fun x => x.sq = 0 && x.handle = 3 && !x.done) = some ⟨3, 0, 0, false⟩ ∧
    s20.heldAt 0 0 = some hd ∧
    badLocal 0 hd 0xFFFE 2 = false ∧
    hd.wait = .dma 3 := by decide +kernel

theorem witness_FaultsEndTheCommand :
    s21.current 0 = some (0, hw) ∧
    s21.fetches 0 hw maskAll (0xF8000000 % 2 ^ 32) = true ∧
    0xF8000000 / 2 ^ 26 % 64 ∈ [0x13, 0x1F, 0x2C, 0x2D, 0x2E, 0x2F, 0x3E, 0x3F] ∧
    s21.errInfo (pgSq 0) < 2 ^ 31 ∧
    s22.current 0 = some (0, hc) ∧
    hc.img ≠ none ∧
    s22.stepEnd 0 ≤ (s22.seqr 0).cyc ∧
    s23.current 0 = some (0, he) ∧
    he.pc = 0x3FFFF ∧
    he.pc < 262144 ∧
    s23.errInfo (pgSq 0) < 2 ^ 31 := by decide +kernel

theorem witness_CompletionsAreWritten :
    s24.heldAt 0 0 = some hw ∧
    s24.get (pgRing (s24.get (pgRing hw.ring) R.RING_PAIR)) R.RING_TYPE = 1 ∧
    (∀ e ∈ (s24.ring (s24.get (pgRing hw.ring) R.RING_PAIR)).ents, e.st ≠ .ready) := by decide +kernel

theorem witness_NopFenceAndReserved :
    s25.current 0 = some (0, held 1 []) ∧
    (held 1 []).op = 1 ∧
    s25.opDefined (held 1 []) = true ∧
    s25.cmdDenied (held 1 []) = false ∧
    s25.badForm (held 1 []) = false ∧
    (held 1 []).ends = [] ∧
    s26.current 0 = some (0, held 2 []) ∧
    (held 2 []).op = 2 ∧
    s26.opDefined (held 2 []) = true ∧
    s26.cmdDenied (held 2 []) = false ∧
    s26.badForm (held 2 []) = false ∧
    (held 2 []).ends = [] ∧
    s27.current 0 = some (0, held 3 []) ∧
    s27.opDefined (held 3 []) = false ∧
    (held 3 []).img = none := by decide +kernel

theorem witness_CommandsAreTakenAndDispatched :
    s28.takesCommands = true ∧
    s28.cmd.queue.length < 4096 ∧
    s28.takeFrom = some 9 ∧
    s28.ringCommand 9 = some ent ∧
    s29.cmd.queue.head? = some hw ∧
    hw.ends = [] ∧
    s29.seqFor = some 0 ∧
    s29.heldAt 0 0 = none ∧
    (s30.seqr 31).cur = none ∧
    s30.busy (pgSq 31) = false ∧
    (∀ e ∈ (s30.seqr 31).held, e.2.ends = []) ∧
    s30.sys.slotWait = [] ∧
    s30.nextSlot 31 = some 7 ∧
    s30.heldAt 31 7 = some hr := by decide +kernel

theorem witness_FrameCommands :
    s31.current 0 = some (0, held 0x10 []) ∧
    (held 0x10 []).op = 0x10 ∧
    s31.opDefined (held 0x10 []) = true ∧
    s31.cmdDenied (held 0x10 []) = false ∧
    s31.badForm (held 0x10 []) = false ∧
    (held 0x10 []).ends = [] ∧
    s31.openBusy = false ∧
    s31.get pgTime R.TIME_STEP_PEND = 0 ∧
    s31.get pgTop R.TOP_OPEN_SRC = 1 ∧
    s32.current 0 = some (0, held 0x10 []) ∧
    s32.opDefined (held 0x10 []) = true ∧
    s32.cmdDenied (held 0x10 []) = false ∧
    s32.badForm (held 0x10 []) = false ∧
    s32.openBusy = true := by decide +kernel

theorem witness_FrameCommands_2 :
    s33.current 0 = some (0, held 0x11 []) ∧
    (held 0x11 []).op = 0x11 ∧
    s33.opDefined (held 0x11 []) = true ∧
    s33.cmdDenied (held 0x11 []) = false ∧
    s33.badForm (held 0x11 []) = false ∧
    (held 0x11 []).ends = [] ∧
    s33.seg.openWait = false ∧
    s33.fstate = 2 ∧
    s34.current 0 = some (0, held 0x11 []) ∧
    s34.opDefined (held 0x11 []) = true ∧
    s34.cmdDenied (held 0x11 []) = false ∧
    s34.badForm (held 0x11 []) = false ∧
    s34.seg.openWait = false ∧
    s34.fstate = 1 := by decide +kernel

theorem witness_FrameCommands_3 :
    s35.current 0 = some (0, held 0x11 []) ∧
    s35.opDefined (held 0x11 []) = true ∧
    s35.cmdDenied (held 0x11 []) = false ∧
    s35.badForm (held 0x11 []) = false ∧
    s35.seg.openWait = false ∧
    s35.fstate = 3 ∧
    s36.current 0 = some (0, held 0x11 []) ∧
    s36.opDefined (held 0x11 []) = true ∧
    s36.cmdDenied (held 0x11 []) = false ∧
    s36.badForm (held 0x11 []) = false ∧
    s36.seg.openWait = false ∧
    s36.fstate = 0 := by decide +kernel

theorem witness_StreamAndTriggerCommands :
    s37.current 0 = some (0, held 0x12 [255, 0x201]) ∧
    (held 0x12 [255, 0x201]).op = 0x12 ∧
    s37.opDefined (held 0x12 [255, 0x201]) = true ∧
    s37.cmdDenied (held 0x12 [255, 0x201]) = false ∧
    s37.badForm (held 0x12 [255, 0x201]) = false ∧
    (held 0x12 [255, 0x201]).ends = [] ∧
    s37.shellVer (held 0x12 [255, 0x201]).shell ≠ 1 ∧
    (held 0x12 [255, 0x201]).commit = false ∧
    s37.busy (pgSt 255) = false ∧
    (∀ w ∈ List.range 10, bit ((held 0x12 [255, 0x201]).pf 1 9 0) w = true → reservedWrite (pgSt 255) (0x040 + 4 * w) [(held 0x12 [255, 0x201]).p (2 + w)] = false) ∧
    s38.current 0 = some (0, hcm 0x12 [3, 1, 0]) ∧
    (hcm 0x12 [3, 1, 0]).op = 0x12 ∧
    s38.opDefined (hcm 0x12 [3, 1, 0]) = true ∧
    s38.cmdDenied (hcm 0x12 [3, 1, 0]) = false ∧
    s38.badForm (hcm 0x12 [3, 1, 0]) = false ∧
    (hcm 0x12 [3, 1, 0]).ends = [] ∧
    (hcm 0x12 [3, 1, 0]).commit = true ∧
    s38.frameOpen = true := by decide +kernel

theorem witness_StreamAndTriggerCommands_2 :
    s39.current 0 = some (0, held 0x14 [0x700, 1, 0]) ∧
    (held 0x14 [0x700, 1, 0]).op = 0x14 ∧
    s39.opDefined (held 0x14 [0x700, 1, 0]) = true ∧
    s39.cmdDenied (held 0x14 [0x700, 1, 0]) = false ∧
    s39.badForm (held 0x14 [0x700, 1, 0]) = false ∧
    (held 0x14 [0x700, 1, 0]).ends = [] ∧
    (held 0x14 [0x700, 1, 0]).pf 0 1 0 = 0 ∧
    (held 0x14 [0x700, 1, 0]).pf 0 11 8 = 7 ∧
    s39.busy (pgTu 7) = false ∧
    (∀ e ∈ trigWords (held 0x14 [0x700, 1, 0]), reservedWrite (pgTu 7) e.1 [e.2] = false) := by decide +kernel

theorem witness_StreamAndTriggerCommands_3 :
    s40.current 0 = some (0, held 0x14 [0x3F02, 15, 0, 0, 0, 0]) ∧
    (held 0x14 [0x3F02, 15, 0, 0, 0, 0]).op = 0x14 ∧
    s40.opDefined (held 0x14 [0x3F02, 15, 0, 0, 0, 0]) = true ∧
    s40.cmdDenied (held 0x14 [0x3F02, 15, 0, 0, 0, 0]) = false ∧
    s40.badForm (held 0x14 [0x3F02, 15, 0, 0, 0, 0]) = false ∧
    (held 0x14 [0x3F02, 15, 0, 0, 0, 0]).ends = [] ∧
    (held 0x14 [0x3F02, 15, 0, 0, 0, 0]).pf 0 1 0 = 2 ∧
    (held 0x14 [0x3F02, 15, 0, 0, 0, 0]).pf 1 6 0 < 16 ∧
    s40.busy pgTcomb = false ∧
    (∀ e ∈ trigWords (held 0x14 [0x3F02, 15, 0, 0, 0, 0]), reservedWrite pgTcomb e.1 [e.2] = false) := by decide +kernel

theorem witness_StreamAndTriggerCommands_4 :
    s41.current 0 = some (0, held 0x13 [255, 0, 0]) ∧
    (held 0x13 [255, 0, 0]).op = 0x13 ∧
    s41.opDefined (held 0x13 [255, 0, 0]) = true ∧
    s41.cmdDenied (held 0x13 [255, 0, 0]) = false ∧
    s41.badForm (held 0x13 [255, 0, 0]) = false ∧
    (held 0x13 [255, 0, 0]).ends = [] ∧
    s41.busy (pgSt 255) = false ∧
    (¬ (s41.en (pgSt 255) = true ∧ s41.frameOpen = true)) ∧
    (held 0x13 [255, 0, 0]).pf 0 9 8 = 0 ∧
    s42.current 0 = some (0, held 0x13 [0x101, 8191, 1]) ∧
    (held 0x13 [0x101, 8191, 1]).op = 0x13 ∧
    s42.opDefined (held 0x13 [0x101, 8191, 1]) = true ∧
    s42.cmdDenied (held 0x13 [0x101, 8191, 1]) = false ∧
    s42.badForm (held 0x13 [0x101, 8191, 1]) = false ∧
    (held 0x13 [0x101, 8191, 1]).ends = [] ∧
    (held 0x13 [0x101, 8191, 1]).pf 0 9 8 = 1 ∧
    s42.get (pgRing 8191) R.RING_TYPE = 2 ∧
    (s42.st 1 R.ST_CLASS = 2 ∨ s42.admits 1 (65536 + 8191) 1 = true) := by decide +kernel

theorem witness_StreamAndTriggerCommands_5 :
    s43.current 0 = some (0, held 0x13 [0x201, 4095, 1]) ∧
    (held 0x13 [0x201, 4095, 1]).op = 0x13 ∧
    s43.opDefined (held 0x13 [0x201, 4095, 1]) = true ∧
    s43.cmdDenied (held 0x13 [0x201, 4095, 1]) = false ∧
    s43.badForm (held 0x13 [0x201, 4095, 1]) = false ∧
    (held 0x13 [0x201, 4095, 1]).ends = [] ∧
    (held 0x13 [0x201, 4095, 1]).pf 0 9 8 = 2 ∧
    s43.qp 4095 R.QPC_STATE = 1 ∧
    (s43.st 1 R.ST_CLASS = 2 ∨ s43.admits 1 (s43.ctxKey 4095) 1 = true) := by decide +kernel

theorem witness_CalibrationCommands :
    s44.current 0 = some (0, held 0x18 [0x102]) ∧
    (held 0x18 [0x102]).op = 0x18 ∧
    s44.opDefined (held 0x18 [0x102]) = true ∧
    s44.cmdDenied (held 0x18 [0x102]) = false ∧
    s44.badForm (held 0x18 [0x102]) = false ∧
    (held 0x18 [0x102]).ends = [] ∧
    (held 0x18 [0x102]).pf 0 1 0 ≠ 0 ∧
    which 8 (fun c => bit ((held 0x18 [0x102]).pf 0 15 8) c) = [0] ∧
    s44.chanOn 0 = true ∧
    s44.settling 0 = false ∧
    s44.get pgCal R.CAL_RUN_ACTIVE = 0 ∧
    s44.frameOpen = false ∧
    s44.diesOn = true := by decide +kernel

theorem witness_CalibrationCommands_2 :
    s45.current 0 = some (0, held 0x1A []) ∧
    (held 0x1A []).op = 0x1A ∧
    s45.opDefined (held 0x1A []) = true ∧
    s45.cmdDenied (held 0x1A []) = false ∧
    s45.badForm (held 0x1A []) = false ∧
    (held 0x1A []).ends = [] ∧
    s45.frameOpen = false ∧
    s45.get pgCal R.CAL_RUN_ACTIVE = 0 ∧
    s45.diesOn = true ∧
    which 8 s45.chanOn ≠ [] := by decide +kernel

theorem witness_CalibrationCommands_3 :
    s46.current 0 = some (0, held 0x19 [0x305]) ∧
    (held 0x19 [0x305]).op = 0x19 ∧
    s46.opDefined (held 0x19 [0x305]) = true ∧
    s46.cmdDenied (held 0x19 [0x305]) = false ∧
    s46.badForm (held 0x19 [0x305]) = false ∧
    (held 0x19 [0x305]).ends = [] ∧
    which 2 (fun d => bit ((held 0x19 [0x305]).pf 0 9 8) d) ≠ [] ∧
    (∀ d ∈ List.range 2, s46.nearSet ((held 0x19 [0x305]).pf 0 2 0) d = false) ∧
    s46.sys.jobs ≠ [] := by decide +kernel

theorem witness_HbmMoves :
    s47.current 0 = some (0, held 0x20 [0x40, 0, 0x80, 0, 0x04030201, 0x08070605]) ∧
    (held 0x20 [0x40, 0, 0x80, 0, 0x04030201, 0x08070605]).op = 0x20 ∧
    s47.opDefined (held 0x20 [0x40, 0, 0x80, 0, 0x04030201, 0x08070605]) = true ∧
    s47.cmdDenied (held 0x20 [0x40, 0, 0x80, 0, 0x04030201, 0x08070605]) = false ∧
    s47.badForm (held 0x20 [0x40, 0, 0x80, 0, 0x04030201, 0x08070605]) = false ∧
    (held 0x20 [0x40, 0, 0x80, 0, 0x04030201, 0x08070605]).ends = [] ∧
    (held 0x20 [0x40, 0, 0x80, 0, 0x04030201, 0x08070605]).p64 2 % 64 = 0 ∧
    64 ≤ (held 0x20 [0x40, 0, 0x80, 0, 0x04030201, 0x08070605]).p64 2 ∧
    s47.resolve (held 0x20 [0x40, 0, 0x80, 0, 0x04030201, 0x08070605]).shell ((held 0x20 [0x40, 0, 0x80, 0, 0x04030201, 0x08070605]).p64 0) ((held 0x20 [0x40, 0, 0x80, 0, 0x04030201, 0x08070605]).p64 2) true = some 0x40 ∧
    (held 0x20 [0x40, 0, 0x80, 0, 0x04030201, 0x08070605]).work % 64 = 0 := by decide +kernel

theorem witness_HbmMoves_2 :
    s48.current 0 = some (0, hl 0x21 [0x40, 0, 0x80, 0, 0x40, 0]) ∧
    (hl 0x21 [0x40, 0, 0x80, 0, 0x40, 0]).op = 0x21 ∧
    s48.opDefined (hl 0x21 [0x40, 0, 0x80, 0, 0x40, 0]) = true ∧
    s48.cmdDenied (hl 0x21 [0x40, 0, 0x80, 0, 0x40, 0]) = false ∧
    s48.badForm (hl 0x21 [0x40, 0, 0x80, 0, 0x40, 0]) = false ∧
    (hl 0x21 [0x40, 0, 0x80, 0, 0x40, 0]).ends = [] ∧
    (hl 0x21 [0x40, 0, 0x80, 0, 0x40, 0]).isLocal = true ∧
    s48.resolve 0xFFF 0x40 0x40 false = some 0x40 ∧
    s48.resolve 0xFFF 0x80 0x40 true = some 0x80 ∧
    s49.current 0 = some (0, held 0x21 [0x40, 0, 0x80, 0, 0x40, 0, 0]) ∧
    (held 0x21 [0x40, 0, 0x80, 0, 0x40, 0, 0]).op = 0x21 ∧
    s49.opDefined (held 0x21 [0x40, 0, 0x80, 0, 0x40, 0, 0]) = true ∧
    s49.cmdDenied (held 0x21 [0x40, 0, 0x80, 0, 0x40, 0, 0]) = false ∧
    s49.badForm (held 0x21 [0x40, 0, 0x80, 0, 0x40, 0, 0]) = false ∧
    (held 0x21 [0x40, 0, 0x80, 0, 0x40, 0, 0]).ends = [] ∧
    (held 0x21 [0x40, 0, 0x80, 0, 0x40, 0, 0]).isLocal = false ∧
    (held 0x21 [0x40, 0, 0x80, 0, 0x40, 0, 0]).pf 6 0 0 = 0 := by decide +kernel

theorem witness_HbmMoves_3 :
    s50.current 0 = some (0, held 0x21 [0x40, 0, 0x80, 0, 0x40, 0, 1]) ∧
    (held 0x21 [0x40, 0, 0x80, 0, 0x40, 0, 1]).op = 0x21 ∧
    s50.opDefined (held 0x21 [0x40, 0, 0x80, 0, 0x40, 0, 1]) = true ∧
    s50.cmdDenied (held 0x21 [0x40, 0, 0x80, 0, 0x40, 0, 1]) = false ∧
    s50.badForm (held 0x21 [0x40, 0, 0x80, 0, 0x40, 0, 1]) = false ∧
    (held 0x21 [0x40, 0, 0x80, 0, 0x40, 0, 1]).ends = [] ∧
    (held 0x21 [0x40, 0, 0x80, 0, 0x40, 0, 1]).pf 6 0 0 = 1 := by decide +kernel

theorem witness_FlashAndQueuePairCommands :
    s51.current 0 = some (0, held 0x22 [0, 0, 97, 8]) ∧
    (held 0x22 [0, 0, 97, 8]).op = 0x22 ∧
    s51.opDefined (held 0x22 [0, 0, 97, 8]) = true ∧
    s51.cmdDenied (held 0x22 [0, 0, 97, 8]) = false ∧
    s51.badForm (held 0x22 [0, 0, 97, 8]) = false ∧
    (held 0x22 [0, 0, 97, 8]).ends = [] ∧
    (held 0x22 [0, 0, 97, 8]).isLocal = false ∧
    s51.sys.jobs ≠ [] ∧
    keyFault ((([4] : List Byte) ++ List.replicate 96 0).take 97) = none ∧
    s52.current 0 = some (0, held 0x28 [4095]) ∧
    (held 0x28 [4095]).op = 0x28 ∧
    s52.opDefined (held 0x28 [4095]) = true ∧
    s52.cmdDenied (held 0x28 [4095]) = false ∧
    s52.badForm (held 0x28 [4095]) = false ∧
    (held 0x28 [4095]).ends = [] ∧
    (held 0x28 [4095]).isLocal = false ∧
    s52.ctxLive 4095 = false := by decide +kernel

theorem witness_FlashAndQueuePairCommands_2 :
    s53.current 0 = some (0, held 0x29 [4095]) ∧
    (held 0x29 [4095]).op = 0x29 ∧
    s53.opDefined (held 0x29 [4095]) = true ∧
    s53.cmdDenied (held 0x29 [4095]) = false ∧
    s53.badForm (held 0x29 [4095]) = false ∧
    (held 0x29 [4095]).ends = [] ∧
    (∀ n ∈ s53.boundTo (s53.ctxKey 4095), s53.en (pgSt n) = false) := by decide +kernel

theorem witness_LinkPowerTimeAndMonitorCommands :
    s54.current 0 = some (0, held 0x30 [2, 0x40]) ∧
    (held 0x30 [2, 0x40]).op = 0x30 ∧
    s54.opDefined (held 0x30 [2, 0x40]) = true ∧
    s54.cmdDenied (held 0x30 [2, 0x40]) = false ∧
    s54.badForm (held 0x30 [2, 0x40]) = false ∧
    (held 0x30 [2, 0x40]).ends = [] ∧
    (held 0x30 [2, 0x40]).pf 0 17 16 ≠ 3 ∧
    s54.link.reqs.length < 16 ∧
    s54.routeTo 2 = some 3 ∧
    s54.portCarries 3 8 = true ∧
    s55.current 0 = some (0, held 0x31 [2]) ∧
    (held 0x31 [2]).op = 0x31 ∧
    s55.opDefined (held 0x31 [2]) = true ∧
    s55.cmdDenied (held 0x31 [2]) = false ∧
    s55.badForm (held 0x31 [2]) = false ∧
    (held 0x31 [2]).ends = [] ∧
    s55.pstate = 2 := by decide +kernel

theorem witness_LinkPowerTimeAndMonitorCommands_2 :
    s56.current 0 = some (0, held 0x31 [1]) ∧
    (held 0x31 [1]).op = 0x31 ∧
    s56.opDefined (held 0x31 [1]) = true ∧
    s56.cmdDenied (held 0x31 [1]) = false ∧
    s56.badForm (held 0x31 [1]) = false ∧
    (held 0x31 [1]).ends = [] ∧
    s56.pstate ≠ 1 ∧
    s56.powerRefused 1 = false ∧
    s57.pstate ≠ 2 ∧
    s57.powerRefused 2 = false ∧
    s57.current 0 = some (0, held 0x31 [2]) ∧
    s57.opDefined (held 0x31 [2]) = true ∧
    s57.cmdDenied (held 0x31 [2]) = false ∧
    s57.badForm (held 0x31 [2]) = false := by decide +kernel

theorem witness_LinkPowerTimeAndMonitorCommands_3 :
    s58.current 0 = some (0, held 0x31 [0]) ∧
    (held 0x31 [0]).op = 0x31 ∧
    s58.opDefined (held 0x31 [0]) = true ∧
    s58.cmdDenied (held 0x31 [0]) = false ∧
    s58.badForm (held 0x31 [0]) = false ∧
    (held 0x31 [0]).ends = [] ∧
    s58.pstate ≠ 0 ∧
    s58.powerRefused 0 = false ∧
    s59.current 0 = some (0, held 0x32 [5, 0, 0]) ∧
    (held 0x32 [5, 0, 0]).op = 0x32 ∧
    s59.opDefined (held 0x32 [5, 0, 0]) = true ∧
    s59.cmdDenied (held 0x32 [5, 0, 0]) = false ∧
    s59.badForm (held 0x32 [5, 0, 0]) = false ∧
    (held 0x32 [5, 0, 0]).ends = [] ∧
    s59.timeSetStatus = 0 ∧
    s59.get pgTime R.TIME_SEL ≠ 4 ∧
    s60.timeSetStatus = 0 ∧
    s60.get pgTime R.TIME_SEL = 4 := by decide +kernel

theorem witness_LinkPowerTimeAndMonitorCommands_4 :
    s61.timeSetStatus ≠ 0 ∧
    s62.current 0 = some (0, held 0x33 [31]) ∧
    (held 0x33 [31]).op = 0x33 ∧
    s62.opDefined (held 0x33 [31]) = true ∧
    s62.cmdDenied (held 0x33 [31]) = false ∧
    s62.badForm (held 0x33 [31]) = false ∧
    (held 0x33 [31]).ends = [] := by decide +kernel

theorem witness_ShellCommands :
    s63.current 0 = some (0, held 0x40 [4094, 5]) ∧
    (held 0x40 [4094, 5]).op = 0x40 ∧
    s63.opDefined (held 0x40 [4094, 5]) = true ∧
    s63.cmdDenied (held 0x40 [4094, 5]) = false ∧
    s63.badForm (held 0x40 [4094, 5]) = false ∧
    (held 0x40 [4094, 5]).ends = [] ∧
    s63.sec.owners = [] ∧
    min 2 ((held 0x40 [4094, 5]).pf 1 3 0) = 2 ∧
    s63.shellOpen 4094 = false ∧
    s63.pubRefused (openEdit 4094 2) = none ∧
    s64.current 0 = some (0, held 0x41 [4094]) ∧
    (held 0x41 [4094]).op = 0x41 ∧
    s64.opDefined (held 0x41 [4094]) = true ∧
    s64.cmdDenied (held 0x41 [4094]) = false ∧
    s64.badForm (held 0x41 [4094]) = false ∧
    (held 0x41 [4094]).ends = [] ∧
    (∀ e ∈ s64.sec.owners, e.1 < Kind.shell.base ∨ Kind.win.base ≤ e.1) ∧
    s64.pubRefused (closeEdit 4094) = none := by decide +kernel

theorem witness_ShellCommands_2 :
    s65.current 0 = some (0, held 0x42 [5, 0x30, 0x10000, 0x1FFF, 0x10002]) ∧
    (held 0x42 [5, 0x30, 0x10000, 0x1FFF, 0x10002]).op = 0x42 ∧
    s65.opDefined (held 0x42 [5, 0x30, 0x10000, 0x1FFF, 0x10002]) = true ∧
    s65.cmdDenied (held 0x42 [5, 0x30, 0x10000, 0x1FFF, 0x10002]) = false ∧
    s65.badForm (held 0x42 [5, 0x30, 0x10000, 0x1FFF, 0x10002]) = false ∧
    (held 0x42 [5, 0x30, 0x10000, 0x1FFF, 0x10002]).ends = [] ∧
    s65.pubRefused (editEdit 5 0 [0x10000, 0x1FFF, 0x10002]) = none := by decide +kernel

theorem witness_CustomerCommandsStart :
    s66.current 0 = some (0, held 0xBF [1]) ∧
    (held 0xBF [1]).img = none ∧
    s66.opDefined (held 0xBF [1]) = true ∧
    s66.entryPoint 0xBF = some (3, 0x3F000) ∧
    s66.cmdDenied (held 0xBF [1]) = false ∧
    s66.badForm (held 0xBF [1]) = false := by decide +kernel

theorem witness_HeaderRegistersAct :
    (pgSq 0).kind.isBlock = true ∧
    s67.target 0 (pageReg 0x200 0x00C) = (pgSq 0, 0x00C) ∧
    s67.answers 0 (pageReg 0x200 0x00C) 4 = true ∧
    s68.target 0 (pageReg 0x20 0x00C) = (pgTu 0, 0x00C) ∧
    s68.answers 0 (pageReg 0x20 0x00C) 4 = true ∧
    (pgTu 0).kind.shadowed = true ∧
    s68.frameOpen = true ∧
    s69.target 0 (pageReg 0x1FF 0x00C) = (pgSt 255, 0x00C) ∧
    s69.answers 0 (pageReg 0x1FF 0x00C) 4 = true ∧
    s69.get pgTop R.TOP_HOLD = 1 ∧
    s67.target 0 (pageReg 0x18 0x00C) = (pgCal, 0x00C) ∧
    s67.answers 0 (pageReg 0x18 0x00C) 4 = true ∧
    pgCal.kind = .cal ∧
    (locate 0x1FF000).1 = pgSt 255 ∧
    (pgSt 255).inst < (pgSt 255).kind.count ∧
    s70.busy (pgSt 255) = true ∧
    s71.target 0 (pageReg 0 0x014) = (pgTop, 0x014) ∧
    s71.answers 0 (pageReg 0 0x014) 4 = true := by decide +kernel

theorem witness_HeaderRegistersAct_2 :
    s67.target 0 (pageReg 0x20 0x018) = (pgTu 0, 0x018) ∧
    s67.answers 0 (pageReg 0x20 0x018) 4 = true ∧
    s67.target 0 (pageReg 0x20 0x024) = (pgTu 0, 0x024) ∧
    s67.answers 0 (pageReg 0x20 0x024) 4 = true ∧
    7 < (pgTu 0).events.2 ∧
    s72.target 0 (pageReg 0x20 0x028) = (pgTu 0, 0x028) ∧
    s72.answers 0 (pageReg 0x20 0x028) 4 = true ∧
    s67.answers 0 0x040 4 = true := by decide +kernel

theorem witness_ReadsGiveTheRegister :
    s73.answers 0 0x17064 4 = true ∧
    s73.target 0 0x17064 = (pgBank 7, 0x064) ∧
    Tab.find s73.host.highLatch (wordKey 0 (pgBank 7) 0x064) = none ∧
    s73.frozen (pgBank 7) = false ∧
    s74.answers 0 0x7060 8 = true ∧
    s74.frozen pgSec = false ∧
    s74.answers 0 0x7060 4 = true ∧
    Tab.find s74.host.highLatch (wordKey 0 pgSec 0x060) = none ∧
    s75.answers 0 0x44006C 4 = true ∧
    s75.frozen pgFlink = false ∧
    Tab.find s75.host.highLatch (wordKey 0 pgFlink 0x06C) = none ∧
    s76.target 0 (0x900028 + 4095 * 64) = (pgQpc 4095, 0x028) ∧
    s76.answers 0 (0x900028 + 4095 * 64) 4 = true ∧
    wideLow (pgQpc 4095) 0x028 = true ∧
    Tab.find s76.host.highLatch (wordKey 0 (pgQpc 4095) 0x028) = none ∧
    s77.answers 0 0x2070 4 = true ∧
    Tab.find s77.host.highLatch (wordKey 0 pgTime 0x070) = none := by decide +kernel

theorem witness_WritesReachTheRegister :
    s67.target 0 0x1FF040 = (pgSt 255, 0x040) ∧
    s67.answers 0 0x1FF040 4 = true ∧
    (pgSt 255).kind ∈ [Kind.bank, .cal, .tu, .tcomb, .hist, .den, .st, .sq, .mc] ∧
    wideLow (pgSt 255) 0x040 = false ∧
    wideLow (pgSt 255) (0x040 - 4) = false ∧
    reservedWrite (pgSt 255) 0x040 [5] = false ∧
    s67.answers 0 0x2044 4 = true ∧
    78 % 128 < 79 ∧
    s67.answers 0 (0x304100 + 78 % 128 * 4) 4 = true ∧
    wideLow (pgQpc 4095) 0x028 = true ∧
    s67.answers 0 (0x900028 + 4095 * 64) 4 = true ∧
    s78.target 0 0x87FFC4 = (pgRing 8191, 0 + 4) ∧
    s78.answers 0 0x87FFC4 4 = true ∧
    wideLow (pgRing 8191) 0 = true ∧
    wideLow (pgRing 8191) 4 = false ∧
    Tab.find s78.host.lowHeld (wordKey 0 (pgRing 8191) 0) = some 0x40#32 ∧
    reservedWrite (pgRing 8191) 0 [0x40, 3] = false ∧
    (s78.discards 0 (pgRing 8191) 0 [0x40, 3]).isNone = true := by decide +kernel

theorem witness_WritesReachTheRegister_2 :
    s79.bar4Ok true 0x10FE 2 = true ∧
    s79.bar4Ok true 0x10FF 2 = false ∧
    s79.host.rings = [] ∧
    s79.bar4Ok false 0x10FF 1 = true := by decide +kernel

theorem witness_TableRegistersAreWritten :
    s80.answers 0 0x400054 4 = true ∧
    reservedWrite pgPcie 0x054 [0x10010] = false ∧
    s80.vecMapOk 5 16 1 = true ∧
    s80.get pgPcie R.PCIE_VEC_SEL = 5 ∧
    s81.answers 0 0x40005C 4 = true ∧
    reservedWrite pgPcie 0x05C [0x640003] = false ∧
    s82.answers 0 (0x900028 + 4095 * 64) 8 = true ∧
    reservedWrite (pgQpc 4095) 0x028 [0x1000, 0] = false ∧
    s82.get64 (pgQpc 4095) R.QPC_LIMIT_LO R.QPC_LIMIT_HI ≤ 0x1000 ∧
    0x1000 ≤ s82.get64 (pgQpc 4095) R.QPC_HEAD_LO R.QPC_HEAD_HI + s82.get64 (pgQpc 4095) R.QPC_REGION_LO R.QPC_REGION_HI ∧
    s67.answers 0 (0xB00000 + 2047 * 8) 8 = true ∧
    reservedWrite (pgRoute 2047) 0 [0x104, 0x10000] = false ∧
    s67.answers 0 (0x800010 + 8191 * 64) 4 = true ∧
    reservedWrite (pgRing 8191) 0x010 [1] = false := by decide +kernel

theorem witness_TableRegistersAreWritten_2 :
    s240.answers 0 (0x800008 + 8191 % 8192 * 64) 4 = true ∧
    s240.get (pgRing 8191) R.RING_EN = 0 ∧
    s240.get (pgRing 8191) R.RING_RUNNING = 0 ∧
    reservedWrite (pgRing 8191) 0x008 [s240.ringCfg 8191 + 256] = false ∧
    (s240.get (pgRing 8191) R.RING_TYPE = 0 → s240.pairOk 8191 = true) ∧
    s241.answers 0 (0x800008 + 8191 % 8192 * 64) 4 = true ∧
    s241.get (pgRing 8191) R.RING_EN = 1 ∧
    reservedWrite (pgRing 8191) 0x008 [s241.ringCfg 8191] = false ∧
    (s241.ring 8191).ents = [] ∧
    (s242.ring 8191).ents = [{ entSt .opened (desc 0) with filled := 0 }] ∧
    ({ entSt .opened (desc 0) with filled := 0 }).st ≠ .landing ∧
    ({ entSt .opened (desc 0) with filled := 0 }).st ≠ .reading ∧
    (s243.ring 8191).ents = [{ entSt .opened (desc 0) with filled := 1 }] ∧
    ({ entSt .opened (desc 0) with filled := 1 }).st ≠ .landing ∧
    ({ entSt .opened (desc 0) with filled := 1 }).st ≠ .reading ∧
    s228.get (pgRing 8191) R.RING_EN = 1 ∧
    reservedWrite (pgRing 8191) 0x008 [0x145] = false ∧
    bits 0x145 4 0 ≠ s228.get (pgRing 8191) R.RING_LOG2_SIZE := by decide +kernel

theorem witness_TableRegistersAreWritten_3 :
    s228.mayRing 0 4095 = true ∧
    s228.ringOwner 8191 = 4095 ∧
    s228.chained 8191 = false ∧
    (16 + 2 ^ 32 - s228.get (pgRing 8191) R.RING_DONE_PTR) % 2 ^ 32 ≤ s228.ringSize 8191 ∧
    (16 + 2 ^ 32 - s228.get (pgRing 8191) R.RING_HOST_PTR) % 2 ^ 32 < 2 ^ 31 ∧
    s239.chained 8191 = true ∧
    s239.get (pgRing 8191) R.RING_EN = 1 ∧
    s239.ringOwner 8191 = 4095 := by decide +kernel

theorem witness_AcquisitionRegistersAct :
    s83.answers 0 0x29094 4 = true ∧
    s83.en pgText = true ∧
    s84.en pgText = false ∧
    s85.answers 0 0x4104C 4 = true ∧
    s85.fstate = 2 ∧
    s85.binned 255 = true ∧
    s85.slotOf 255 = none ∧
    s85.seg.extrs.any (fun e => e.2.req.stream = 255) = false ∧
    0 < (s85.strm 255).ep.segs ∧
    (s85.strm 255).ep.closing = 0 ∧
    s86.binned 255 = true ∧
    s86.slotOf 255 = none ∧
    s86.seg.extrs.any (fun e => e.2.req.stream = 255) = true ∧
    s87.answers 0 0x43048 4 = true ∧
    s87.fstate = 2 ∧
    s87.df 63 R.DIFF_USE = 1 ∧
    s87.df 63 R.DIFF_OUT = 1 := by decide +kernel

theorem witness_AcquisitionRegistersAct_2 :
    s88.answers 0 (0x30050 + 1 * 4096) 4 = true ∧
    s88.td0 1 R.TDC_CD_SRC = 0 ∧
    s88.en (pgTdc 1) = true ∧
    2 ≤ s88.fstate ∧
    s67.answers 0 0x30050 4 = true ∧
    s67.fstate < 2 ∧
    (s67.tdc 0).cd = none ∧
    s67.answers 0 (0x1C000 + 2140 * 4) 4 = true ∧
    isParamWord 2140 = true ∧
    isParamWord 2176 = true ∧
    s67.chanExists (wordUnit 2176) = true ∧
    s67.answers 0 0x1FF00 4 = true := by decide +kernel

theorem witness_ConverterEventsAct :
    s89.scsRun = true ∧
    s89.diesOn = true ∧
    s89.chanExists 0 = true ∧
    (s89.chan 0).stopped = false ∧
    s90.chanExists 0 = true ∧
    (s90.chan 0).hold = some hold0 ∧
    s91.scsRun = true ∧
    s91.diesOn = true ∧
    s91.chanExists 0 = true ∧
    (s91.chan 0).stopped = true ∧
    s92.get (pgBank (4 * 1)) R.BANK_LINK_OK = 1 ∧
    s93.get (pgBank (4 * 1)) R.BANK_LINK_OK = 0 ∧
    (Tab.find s93.conv.lostAt 1).isSome = true ∧
    Tab.get s94.conv.dieRst false 1 = true ∧
    Tab.find s95.conv.lostAt 1 = some 0 ∧
    0 + msQ 1 ≤ s95.now ∧
    Tab.get s95.conv.dieRst false 1 = false ∧
    s95.seg.openWait = false := by decide +kernel

theorem witness_ConverterEventsAct_2 :
    s96.settling 7 = true ∧
    Tab.get s96.conv.settle 0 7 < 3 ∧
    s96.ownRun (bankChan (s96.mode (dieOf 7)) 7) = none ∧
    s97.settling 0 = true ∧
    Tab.get s97.conv.settle 0 0 = 1 ∧
    0 ∈ s97.banksOf (bankChan (s97.mode (dieOf 0)) 0) ∧
    s97.ownRun (bankChan (s97.mode (dieOf 0)) 0) = some (8, own0) ∧
    s97.run? 8 = some own0 ∧
    own0.chans.head? = some 0 ∧
    s97.seg.openWait = false ∧
    s98.settling 0 = true ∧
    Tab.get s98.conv.settle 0 0 = 2 ∧
    0 ∈ s98.banksOf (bankChan (s98.mode (dieOf 0)) 0) ∧
    s98.ownRun (bankChan (s98.mode (dieOf 0)) 0) = some (8, own0) ∧
    s98.run? 8 = some own0 ∧
    s98.seg.openWait = false := by decide +kernel

theorem witness_CalibrationEventsAct :
    bit (s99.get pgCal R.CAL_START_DONE) 1 = true ∧
    s99.dieRuns 1 = false ∧
    s99.live pgCal R.CAL_AUTO_EN = 1 ∧
    s100.run? 2 = some run0 ∧
    run0.chans = [0] ∧
    s100.seg.openWait = false ∧
    s100.conv.rotDue = [] ∧
    Tab.find s101.cal.startup 1 = some 65535 ∧
    s101.seg.openWait = false ∧
    s67.cal.runs = [] ∧
    s67.cal.startup = [] ∧
    s67.seg.openWait = false ∧
    s67.conv.rotDue = [] ∧
    s102.due 0 = true ∧
    s102.live pgCal R.CAL_AUTO_EN = 1 ∧
    s102.dieRuns 0 = false ∧
    s102.dueChans 0 ≠ [] ∧
    s102.fstate < 2 := by decide +kernel

theorem witness_CalibrationEventsAct_2 :
    s103.run? 2 = some { run0 with chans := [] } ∧
    s103.seg.openWait = false ∧
    run0.stepAt + usQ (s104.live pgCal R.CAL_CAL_STEP_TMO) ≤ s104.now ∧
    run0.chanAt + usQ (s104.live pgCal R.CAL_CAL_RUN_TMO) ≤ s104.now ∧
    s104.seg.openWait = false ∧
    (Tab.get s105.cal.startAt (0, 0) 1).1 + usQ 700000 ≤ s105.now ∧
    Tab.find s105.cal.startup 1 = some 7 ∧
    Tab.get s107.conv.rotPos 0 0 = 63 ∧
    s107.rotState 0 = 1 ∧
    s107.scsRun = true ∧
    (s108.chan 0).hold = some { hold0 with first := 4, upto := some 8 } ∧
    hold0.started = true ∧
    hold0.value ≠ noData ∧
    8 ≤ s108.top 0 := by decide +kernel

theorem witness_FrameEventsAct :
    s109.fstate = 1 ∧
    bits s109.seg.cfg 1 0 = 2 ∧
    s109.seg.openWait = false ∧
    s109.seg.openAt ≤ s109.nowQ ∧
    s109.scsRun = true ∧
    s109.runHolds = false ∧
    s109.openRefused = none ∧
    s110.fcfg R.TOP_CLOSE_TIME_EN = 1 ∧
    s110.seg.tOpen + nsQ s110.seg.dur ≤ s110.nowQ ∧
    s110.fstate = 2 ∧
    s111.fstate = 3 ∧
    s111.seg.drain = 0 ∧
    s111.provsResolved = true ∧
    s112.fstate = 3 ∧
    s112.seg.drain = 1 ∧
    s112.requestsDone = true := by decide +kernel

theorem witness_FrameEventsAct_2 :
    s113.seg.drain = 2 ∧
    s113.host.rings = [] ∧
    (List.range 256).all s113.streamWritten = true ∧
    s114.get pgTop R.TOP_FRAME_REPEAT = 0 ∧
    s114.pwr.shutPend = false ∧
    s114.seg.podWait = [] ∧
    s114.seg.tClose = some 0 ∧
    0 + msQ (s114.get pgTop R.TOP_DRAIN_TMO) ≤ s114.now ∧
    s115.get pgTime R.TIME_STEP_PEND = 1 ∧
    s115.fstate = 0 ∧
    s115.seg.openWait = false := by decide +kernel

theorem witness_SegmentEventsAct :
    s116.seg.reqs.length = 1 ∧
    s117.fstate = 2 ∧
    s117.continuous 255 = true ∧
    s117.instant (s117.spc (s117.srcChan 255)) (s117.contFirst 255) < s117.nowQ ∧
    s117.seg.reqs.length < 262144 ∧
    s117.seg.reqs = [] ∧
    Tab.find s118.seg.extrs 15 = none ∧
    s118.seg.reqs.find? s118.takeable = some req ∧
    Tab.find s119.seg.extrs 15 = some extr ∧
    s119.slotOf 255 = none ∧
    s119.binned 255 = false ∧
    (s120.strm 255).ep.closing ≠ 0 ∧
    (s121.map 15).ep.closing ≠ 0 := by decide +kernel

theorem witness_RecordEventsAct :
    (s122.strm 255).built = [(0, [rec0 128])] ∧
    0 ≤ (s122.strm 255).outSeq ∧
    (rec0 128).isData = true ∧
    (s122.strm 255).pend = none ∧
    s122.seg.stopped.contains (s122.dest 255) = false ∧
    s122.destDown (s122.dest 255) = false ∧
    outUsed (s122.strm 255).queue + (rec0 128).bytes.length ≤ s122.eqBytes 255 - pipReserve ∧
    s123.eqBytes 255 - pipReserve < outUsed (s123.strm 255).queue + (rec0 128).bytes.length ∧
    s123.st 255 R.ST_POLICY = 0 ∧
    (s124.strm 255).pend = some (rec0 80) ∧
    resUsed (s124.strm 255).queue + 80 ≤ pipReserve ∧
    (s125.strm 255).openRec = some open0 ∧
    s125.st 255 R.ST_SRC_KIND = 2 ∧
    open0.openedAt + s125.flushQ ≤ s125.now ∧
    (s126.strm 255).openRec = some open0 ∧
    s126.st 255 R.ST_SRC_KIND = 3 ∧
    open0.openedAt + usQ (s126.get pgMon R.MON_FLUSH) ≤ s126.now := by decide +kernel

theorem witness_TriggerEventsAct :
    s127.en (pgTu 0) = true ∧
    (s127.tu 0).next + 1 < (s127.chan (s127.tuChan 0)).top ∧
    s129.coreOn = true ∧
    s129.en pgText = true ∧
    (s129.pinStamp 100 7 100).isSome = true ∧
    s83.coreOn = true ∧
    s83.en pgText = true ∧
    s83.pinStamp 100 7 100 = none ∧
    s130.coreOn = true ∧
    s130.en pgText = false ∧
    (s131.tu 7).actAt = some 0 ∧
    s131.live (pgTu 7) R.TU_STUCK_TIME ≠ 0 ∧
    0 + s131.live (pgTu 7) R.TU_STUCK_TIME < s131.time.cc ∧
    s131.get (pgTu 7) R.TU_STUCK = 0 ∧
    Tab.find s132.trig.tinAct 3 = some 0 ∧
    s132.livei pgText R.TEXT_STUCK_TIME 3 ≠ 0 ∧
    0 + s132.livei pgText R.TEXT_STUCK_TIME 3 < s132.time.cc ∧
    s132.geti pgText R.TEXT_STUCK 3 = 0 := by decide +kernel

theorem witness_TriggerEventsAct_2 :
    (s133.tdef 15).firings = [] ∧
    (s133.tdef 15).seqWait = some (0, 0) ∧
    s133.seqEnd 15 0 ≤ max s133.now s133.nowQ ∧
    s133.seqReady 15 [1, 2] (s133.seqEnd 15 0) = true ∧
    (∃ r ∈ s134.trig.remotes, r.is 5 15 0 = true ∧ r.st = 0) ∧
    s134.deadline 0 < s134.nowQ ∧
    (s135.tout 3).outOn = true ∧
    (s135.tout 3).cxlOn = true ∧
    (s135.tout 3).outEnd ≤ s135.time.cc ∧
    (s135.tout 3).cxlEnd ≤ s135.time.cc := by decide +kernel

theorem witness_EventInputsAct :
    s137.coreOn = true ∧
    s137.td0 15 R.TDC_PRESC = 0 ∧
    s137.td0 15 R.TDC_EDGE = 0 ∧
    (s137.tdc 15).cd = none ∧
    s137.get (pgTdc 15) R.TDC_LOCKED = 1 ∧
    s137.tie.isSome = true ∧
    s137.scsRun = true ∧
    (s137.tdc 15).last = none ∧
    s137.tdcOpen 15 s137.time.cc = true ∧
    s137.td0 15 R.TDC_ARM_SRC = 0 ∧
    s137.seg.tOpen ≤ s137.stampQ 15 ⟨s137.time.cc, 7, 100, false, false, 1, false⟩ ∧
    s137.seg.tClose = none ∧
    (s138.tdc 15).fifo = [raw0] ∧
    s138.tie.isSome = true ∧
    s138.firstStamp 15 (s138.stampQ 15 raw0) = true := by decide +kernel

theorem witness_EventInputsAct_2 :
    (s139.pair' 63).as.length = 1 ∧
    s139.df 63 R.DIFF_MODE ≠ 2 ∧
    (s139.pair' 63).gone.any (s139.inWindow 63 ⟨2^40, 1, false, false, false⟩) = false ∧
    ((2^40 : Nat) : Int) + s139.winHi 63 < s139.now ∧
    s139.seg.tClose = none ∧
    (s139.tdc (s139.df 63 R.DIFF_B)).fifo = [] ∧
    s140.df 63 R.DIFF_MODE = 0 ∧
    ((s140.pair' 63).bs.filter fun y => s140.inWindow 63 ⟨2^40, 1, false, false, false⟩ y.q).head? = some ⟨2^40, 1, false, false, false⟩ ∧
    s140.time.diffSlot < 2 * s140.time.cc + 2 ∧
    s141.scsRun = true ∧
    s141.tie.isSome = true ∧
    (s142.tdc 1).cd = some (65536, [], []) ∧
    s142.td0 1 R.TDC_CD_SRC = 0 ∧
    cdFail ((List.replicate 96 100).mapIdx fun i v => (i, v)) ((List.replicate 8 1200).mapIdx fun i v => (i, v)) = 0 ∧
    cdFail ([5].mapIdx fun i v => (i, v)) ([6].mapIdx fun i v => (i, v)) ≠ 0 := by decide +kernel

theorem witness_TimeBaseEventsAct :
    s143.get pgTime R.TIME_STATE = 2 ∧
    s143.get pgTime R.TIME_SEL ≠ 5 ∧
    s143.get pgTime R.TIME_STEP_PEND = 0 ∧
    s144.get pgTime R.TIME_STATE = 1 ∧
    s144.get pgTime R.TIME_SEL ≠ 5 ∧
    s144.get pgTime R.TIME_STEP_PEND = 0 ∧
    s145.get pgTime R.TIME_SEL = 1 ∧
    s146.mayQualify 4 = true ∧
    s146.qualified 4 = false ∧
    s146.pending.any changesSource = false ∧
    s146.qualified (s146.get pgTime R.TIME_SEL) = true ∧
    s146.get pgTime R.TIME_SEL ≠ 0 ∧
    s147.get pgTime R.TIME_SEL = 0 ∧
    s147.prios = [4] ∧
    s147.mayQualify 4 = true := by decide +kernel

theorem witness_TimeBaseEventsAct_2 :
    s148.qualified 4 = true ∧
    s148.mayLose 4 = true ∧
    s148.get pgTime R.TIME_SEL = 4 ∧
    (∀ x ∈ s148.prios, x ≠ 4 → s148.qualified x = false) ∧
    s149.get pgTime R.TIME_REVERT = 1 ∧
    s149.longSource ≠ 0 ∧
    s149.slotOfSource s149.longSource < s149.slotOfSource (s149.get pgTime R.TIME_SEL) ∧
    true ≠ decide (s150.get pgTime R.TIME_PPS_IN_POL = 1) ∧
    s150.get pgTime R.TIME_SEL ≠ 4 ∧
    s150.time.ppsSet = none ∧
    true ≠ decide (s151.get pgTime R.TIME_PPS_IN_POL = 1) ∧
    s151.get pgTime R.TIME_SEL ≠ 4 ∧
    s151.time.ppsSet = none ∧
    s152.time.ppsSet = some 9 ∧
    s152.fstate = 0 ∧
    s153.time.ppsSet = some 9 ∧
    s153.fstate ≠ 0 := by decide +kernel

theorem witness_TimeBaseEventsAct_3 :
    s154.time.ppsLast = some 0 ∧
    0 + secQ 1 + usQ 1 ≤ s154.now ∧
    s155.get pgTime R.TIME_PPS_OUT_EN = 1 ∧
    s156.scsRun = true ∧
    s156.time.cc % 1024 = 0 := by decide +kernel

theorem witness_ClockEventsAct :
    s157.get pgClk R.CLK_STATE = 1 ∧
    s158.get pgClk R.CLK_STATE = 2 ∧
    s159.get pgClk R.CLK_CPLL_STATE = 2 ∧
    s160.get pgClk R.CLK_CPLL_STATE = 1 ∧
    3 ≤ s161.time.lockTry ∧
    s162.get pgClk R.CLK_STATE = 3 ∧
    s163.tie.isSome = true ∧
    s163.time.moved = false ∧
    s163.time.lockCfg = s163.fsbSet ∧
    s163.live pgClk R.CLK_SCS_REF = 0 ∧
    s164.live pgClk R.CLK_SCS_REF = 1 ∧
    s164.get pgClk R.CLK_STATE = 1 ∧
    s165.live pgClk R.CLK_SCS_REF = 1 ∧
    s165.get pgClk R.CLK_STATE = 4 ∧
    s166.get pgClk R.CLK_STATE = 4 ∧
    s167.live pgClk R.CLK_REF_NOM ≠ 0 ∧
    s167.get pgClk R.CLK_REF_OK = 0 := by decide +kernel

theorem witness_ClockEventsAct_2 :
    s168.live pgClk R.CLK_REF_NOM ≠ 0 ∧
    s168.get pgClk R.CLK_REF_OK = 0 ∧
    s169.live pgClk R.CLK_REF_NOM ≠ 0 ∧
    s169.get pgClk R.CLK_REF_OK = 0 ∧
    true ≠ decide (s170.live pgClk R.CLK_SYNC_POL = 1) ∧
    s170.live pgClk R.CLK_SCS_REF = 1 ∧
    s170.live pgClk R.CLK_SYNC_MODE = 1 ∧
    s170.get pgClk R.CLK_SYNC_ARM = 1 ∧
    s170.get pgClk R.CLK_STATE = 4 ∧
    s170.fstate = 0 ∧
    true ≠ decide (s171.live pgClk R.CLK_SYNC_POL = 1) ∧
    s171.live pgClk R.CLK_SCS_REF = 1 ∧
    s171.live pgClk R.CLK_SYNC_MODE = 2 ∧
    s171.get pgClk R.CLK_SYNC_ARM = 1 ∧
    s171.get pgClk R.CLK_STATE = 4 ∧
    s171.fstate = 0 ∧
    s172.get pgClk R.CLK_STATE = 3 ∧
    s166.answers 0 0x104C 4 = true := by decide +kernel

theorem witness_ClockEventsAct_3 :
    s173.answers 0 0x104C 4 = true ∧
    s158.answers 0 0x104C 4 = true ∧
    s174.answers 0 0x104C 4 = true := by decide +kernel

theorem witness_PortsTrain :
    (∀ r ∈ s175.link.reqs, r.cmd < 256) ∧
    s175.portState 3 = 1 ∧
    s176.portState 3 = 2 ∧
    (s176.port 3).fast = false ∧
    (s176.port 3).fromKa = false ∧
    s177.portState 3 = 2 ∧
    (s177.port 3).fast = true ∧
    s178.portState 3 = 2 ∧
    (s178.port 3).fromKa = true ∧
    s179.portState 3 = 3 ∧
    s180.portState 3 = 3 ∧
    (s180.port 3).advSame = 2 ∧
    (s180.port 3).adv = 33 ∧
    s180.get (pgFport 3) R.FPORT_FALLBACK = 0 ∧
    s180.get pgFlink R.FLINK_VER_MIN ≤ min (s180.get pgFlink R.FLINK_VER_MAX) (bits 33 7 4) ∧
    bits 33 3 0 ≤ min (s180.get pgFlink R.FLINK_VER_MAX) (bits 33 7 4) ∧
    min (s180.get pgFlink R.FLINK_VER_MAX) (bits 33 7 4) ≠ 0 ∧
    bits 33 38 38 ≠ s180.get (pgFport 3) R.FPORT_ROLE := by decide +kernel

theorem witness_PortsTrain_2 :
    s181.portState 3 = 3 ∧
    (s181.port 3).advSame = 2 ∧
    (s181.port 3).adv = 17 ∧
    s181.get (pgFport 3) R.FPORT_FALLBACK = 0 ∧
    s181.get pgFlink R.FLINK_VER_MIN ≤ min (s181.get pgFlink R.FLINK_VER_MAX) (bits 17 7 4) ∧
    bits 17 3 0 ≤ min (s181.get pgFlink R.FLINK_VER_MAX) (bits 17 7 4) ∧
    min (s181.get pgFlink R.FLINK_VER_MAX) (bits 17 7 4) ≠ 0 ∧
    bits 17 38 38 ≠ s181.get (pgFport 3) R.FPORT_ROLE ∧
    s182.portState 3 = 3 ∧
    (s182.port 3).advSame = 2 ∧
    (s182.port 3).adv = 254 ∧
    s182.get (pgFport 3) R.FPORT_FALLBACK = 0 ∧
    min (s182.get pgFlink R.FLINK_VER_MAX) (bits 254 7 4) < bits 254 3 0 := by decide +kernel

theorem witness_PortsTrain_3 :
    s183.portState 3 = 3 ∧
    (s183.port 3).advSame = 2 ∧
    (s183.port 3).adv = 274877906977 ∧
    s183.get (pgFport 3) R.FPORT_FALLBACK = 0 ∧
    s183.get pgFlink R.FLINK_VER_MIN ≤ min (s183.get pgFlink R.FLINK_VER_MAX) (bits 274877906977 7 4) ∧
    bits 274877906977 3 0 ≤ min (s183.get pgFlink R.FLINK_VER_MAX) (bits 274877906977 7 4) ∧
    min (s183.get pgFlink R.FLINK_VER_MAX) (bits 274877906977 7 4) ≠ 0 ∧
    bits 274877906977 38 38 = s183.get (pgFport 3) R.FPORT_ROLE ∧
    s184.portState 3 = 3 ∧
    3 ≤ (s184.port 3).advSame ∧
    min (s184.get pgFlink R.FLINK_VER_MAX) (bits 0x21 7 4) = 2 ∧
    s184.get (pgFport 3) R.FPORT_FALLBACK ≠ 1 ∧
    s184.get pgFlink R.FLINK_VER_MIN ≤ 2 ∧
    bits 0x21 3 0 ≤ 2 ∧
    bits 0x21 38 38 ≠ s184.get (pgFport 3) R.FPORT_ROLE ∧
    s185.portState 3 = 7 ∧
    s186.portState 3 = 4 ∧
    (s186.port 3).fromKa = false := by decide +kernel

theorem witness_PortsTrain_4 :
    s187.portState 3 = 4 ∧
    (s187.port 3).fromKa = true ∧
    s188.portState 3 = 5 ∧
    s188.facesUp 3 = false ∧
    s189.portState 3 = 5 ∧
    s189.facesUp 3 = true ∧
    256 ≤ (s189.port 3).exch ∧
    2 ≤ s176.portState 3 ∧
    s176.portState 3 ≤ 5 ∧
    (s176.port 3).fails + 1 < 3 ∧
    3 ≤ (s190.port 3).fails + 1 ∧
    s190.portState 3 = 5 ∧
    3 ≤ (s191.port 3).fails + 1 ∧
    s192.portState 3 ∈ [0, 8, 9, 10] ∧
    s192.en (pgFport 3) = true ∧
    s192.pstate ≠ 0 := by decide +kernel

theorem witness_PortsTrain_5 :
    s193.portState 3 ∈ [0, 8, 9, 10] ∧
    s193.en (pgFport 3) = true ∧
    s193.pstate ≠ 0 ∧
    s194.portState 3 ∈ [0, 8, 9, 10] ∧
    s194.en (pgFport 3) = true ∧
    s194.pstate ≠ 0 ∧
    s195.portState 3 ∈ [0, 8, 9, 10] ∧
    s195.en (pgFport 3) = true ∧
    s195.pstate ≠ 0 ∧
    s196.portState 3 = 6 ∧
    s197.portState 3 = 6 ∧
    s197.portFeat 3 3 = true ∧
    s185.answers 0 (0x441044 + 3 * 4096) 4 = true ∧
    s195.answers 0 (0x441044 + 3 * 4096) 4 = true ∧
    s192.answers 0 (0x441044 + 3 * 4096) 4 = true := by decide +kernel

theorem witness_TopologyIsKept :
    (∀ r ∈ s67.link.reqs, r.cmd < 256) ∧
    s67.answers 0 0x440040 4 = true ∧
    s67.link.reqs = [] ∧
    (∀ r ∈ s198.link.reqs, r.cmd < 256) ∧
    s198.link.reqs ≠ [] ∧
    s67.answers 0 0x440044 4 = true ∧
    s199.answers 0 0x440068 4 = true ∧
    s200.portCarries 3 0xB = true ∧
    (∃ p ∈ List.range 4, Tab.find s200.link.ids 77 = some p ∧ p ≠ 3) ∧
    s200.devId = 0 ∧
    s200.devId ≠ 16383 ∧
    Tab.find s200.link.ids 16383 = none ∧
    Tab.find s200.link.ids 9 = some 3 ∧
    Tab.find s200.link.ids 77 ≠ some 3 ∧
    s201.facesUp 3 = true ∧
    s201.parentTrained = true ∧
    s201.portCarries 3 0xB = true := by decide +kernel

theorem witness_TopologyIsKept_2 :
    s202.facesUp 3 = true ∧
    s202.portCarries 3 0xB = true ∧
    (s202.topoUp = none ∨ 62 < 63) ∧
    s186.facesUp 3 = false ∧
    s186.portCarries 3 0xB = true ∧
    s203.portCarries 3 0xB = true ∧
    s203.topoUp ≠ none := by decide +kernel

theorem witness_TriggerAndGateMessagesAct :
    s204.portCarries 3 1 = true ∧
    s204.flOn 15 0 = true ∧
    s204.now ≤ s204.deadline 0 ∧
    s204.provSeen 5 15 0 = false ∧
    s205.portCarries 3 1 = true ∧
    s205.flOn 15 0 = false ∧
    s205.now ≤ s205.deadline 0 ∧
    s205.provSeen 5 15 0 = false ∧
    s206.portCarries 3 1 = true ∧
    s206.provSeen 5 15 0 = true ∧
    s206.portCarries 3 2 = true ∧
    s206.flOn 15 0 = true ∧
    (s206.trig.remotes.find? fun r => r.own 5 15 0) = some (rem0 0 true) ∧
    (rem0 0 true).st = 0 ∧
    s206.portCarries 3 3 = true ∧
    (s204.trig.remotes.find? fun r => r.own 5 15 0) = none := by decide +kernel

theorem witness_TriggerAndGateMessagesAct_2 :
    s207.portCarries 3 4 = true ∧
    bit (s207.get pgFlink R.FLINK_GATE_SRC) 3 = true ∧
    s207.nowQ ≤ 2 ^ 100 + nsQ (s207.get pgFlink R.FLINK_GATE_LAT) ∧
    nsQ (s207.get pgFlink R.FLINK_GATE_LAT) < s207.nowQ ∧
    bit (s204.get pgFlink R.FLINK_GATE_SRC) 3 = false ∧
    s208.link.gateWait = [(3, true, 0 + nsQ (s208.get pgFlink R.FLINK_GATE_LAT))] ∧
    0 + nsQ (s208.get pgFlink R.FLINK_GATE_LAT) ≤ s208.nowQ ∧
    s209.link.gateWait = [(3, true, 2 ^ 100 + nsQ (s209.get pgFlink R.FLINK_GATE_LAT))] ∧
    s209.nowQ < 2 ^ 100 + nsQ (s209.get pgFlink R.FLINK_GATE_LAT) := by decide +kernel

theorem witness_TimeIsTransferred :
    s188.portCarries 3 6 = true ∧
    s188.portCarries 3 7 = true ∧
    s188.facesUp 3 = false ∧
    s210.portCarries 3 7 = true ∧
    s210.facesUp 3 = true ∧
    (s210.port 3).t1 = some 0 ∧
    s210.parentTrained = true ∧
    s210.get pgTime R.TIME_SEL = 1 ∧
    (s210.port 3).delays = [] ∧
    s211.qualified 1 = true ∧
    (s211.port 3).t1 = some 0 ∧
    (s212.port 3).delays ≠ [] ∧
    50 * 2 ^ 48 * (s212.port 3).delays.length < ((11 : Int) * (s212.port 3).delays.length - (s212.port 3).delays.foldl (· + ·) 0).natAbs * 10 ^ 12 ∧
    s213.get pgFlink R.FLINK_UP_PORT < 4 ∧
    s213.portCarries (s213.get pgFlink R.FLINK_UP_PORT) 6 = true ∧
    (s213.port 3).askAt = none := by decide +kernel

theorem witness_TimeIsTransferred_2 :
    s214.get pgFlink R.FLINK_UP_PORT < 4 ∧
    s214.portCarries (s214.get pgFlink R.FLINK_UP_PORT) 6 = true ∧
    ((s214.port 3).askAt = some 0 ∧ 0 + s214.askPeriod 3 ≤ s214.now) ∧
    s215.get pgFlink R.FLINK_UP_PORT < 4 ∧
    s215.portCarries (s215.get pgFlink R.FLINK_UP_PORT) 6 = true ∧
    ((s215.port 3).askAt = some (2^100) ∧ s215.now < 2^100 + s215.askPeriod 3) := by decide +kernel

theorem witness_MessagesBetweenDevices :
    s216.portCarries 3 8 = true ∧
    s216.devId = 0 ∧
    s216.remoteRefused 0 0x7040 = true ∧
    s217.remoteRefused 0 0x10040 = false ∧
    s216.remoteRefused 1 0x7040 = true ∧
    s218.remoteRefused 1 0x10040 = false ∧
    s216.remoteRefused 2 0x7040 = true ∧
    s219.remoteRefused 2 0x10040 = false ∧
    77 ≠ s216.devId ∧
    s216.routeTo 77 = some 3 ∧
    (s220.link.reqs.find? fun x => x.tag = 15) = some (rr 15) ∧
    (rr 15).cmd < 256 ∧
    s220.portCarries 3 9 = true ∧
    s220.devId = 0 ∧
    (rr 15).due ≤ s220.now ∧
    (s220.link.reqs.any fun x => x.tag = 4) = false := by decide +kernel

theorem witness_MessagesBetweenDevices_2 :
    s221.portCarries 3 12 = true ∧
    s221.upPort = none ∧
    s221.devId = 0 ∧
    s221.link.evFifo.length = 63 ∧
    s222.portCarries 3 12 = true ∧
    s222.upPort = none ∧
    s222.devId = 0 ∧
    s222.link.evFifo.length = 64 ∧
    s223.upPort = some 3 ∧
    s223.portCarries 3 12 = true ∧
    s216.portCarries 3 10 = true ∧
    s224.portState 3 = 6 ∧
    s224.portCarries 3 10 = true ∧
    s225.portState 3 = 7 ∧
    s225.portCarries 3 10 = true := by decide +kernel

theorem witness_MessagesBetweenDevices_3 :
    s216.portCarries 3 (headerMsg (8 + 5 * 2 ^ 10 + 77 * 2 ^ 24 + 62 * 2 ^ 38 + 2 * 2 ^ 44) [9]).ty = true ∧
    (headerMsg (8 + 5 * 2 ^ 10 + 77 * 2 ^ 24 + 62 * 2 ^ 38 + 2 * 2 ^ 44) [9]).hops < 63 ∧
    (headerMsg (8 + 5 * 2 ^ 10 + 77 * 2 ^ 24 + 62 * 2 ^ 38 + 2 * 2 ^ 44) [9]).data ≠ [] ∧
    s216.onward 3 (headerMsg (8 + 5 * 2 ^ 10 + 77 * 2 ^ 24 + 62 * 2 ^ 38 + 2 * 2 ^ 44) [9]) = [3] ∧
    s216.txOf 3 = PortTx.reset ∧
    s179.portCarries 3 4 = false ∧
    s179.portCarries 3 6 = false ∧
    s179.portCarries 3 7 = false ∧
    s179.portCarries 3 8 = false ∧
    s179.portCarries 3 9 = false ∧
    s179.portCarries 3 10 = false ∧
    s179.portCarries 3 11 = false ∧
    s179.portCarries 3 12 = false ∧
    s179.portCarries 3 1 = false ∧
    s179.portCarries 3 2 = false ∧
    s179.portCarries 3 3 = false := by decide +kernel

theorem witness_RingsTakeEntries :
    s226.answers 0 (0x800008 + 8191 * 64) 4 = true ∧
    s226.get (pgRing 8191) R.RING_RUNNING = 0 ∧
    reservedWrite (pgRing 8191) 0x008 [s226.ringCfg 8191 + 256] = false ∧
    s226.get (pgRing 8191) R.RING_EN = 0 ∧
    s227.answers 0 (0x800008 + 8191 * 64) 4 = true ∧
    s227.get (pgRing 8191) R.RING_RUNNING = 0 ∧
    reservedWrite (pgRing 8191) 0x008 [s227.ringCfg 8191 + 256] = false ∧
    s227.get (pgRing 8191) R.RING_EN = 0 ∧
    s227.get (pgRing 8191) R.RING_TYPE = 0 ∧
    s227.pairOk 8191 = false ∧
    reservedWrite (pgRing 8191) 0x008 [s228.ringCfg 8191] = false ∧
    s228.get (pgRing 8191) R.RING_EN = 1 ∧
    (s229.ring 8191).atEnd = none ∧
    s229.canTake 8191 = true ∧
    s229.get (pgRing 8191) R.RING_TYPE ≠ 0 ∧
    s230.get (pgRing 8191) R.RING_TYPE = 0 ∧
    s230.pairOk 8191 = true ∧
    s230.canTake 8191 = true := by decide +kernel

theorem witness_RingsTakeEntries_2 :
    s231.pairOk 8191 = false ∧
    s231.canTake 8191 = true ∧
    (s232.ring 8191).atEnd = none ∧
    (s232.ring 8191).ents.find? (fun x => x.st = .reading) = some (entSt .reading []) ∧
    (entSt .reading []).code = 0 ∧
    s232.readCode 8191 (s232.readBack 8191 0x40 (some (desc 0))) = 0 ∧
    s232.get (pgRing 8191) R.RING_HALTED = 0 ∧
    s232.readCode 8191 (s232.readBack 8191 0x40 none) = 8 ∧
    s232.readCode 8191 (s232.readBack 8191 0x40 (some (List.replicate 32 0))) = 7 ∧
    (s233.ring 8191).ents = [entSt .reading []] ∧
    (s233.ring 8191).waiting = [] ∧
    s233.readBack 8191 0x40 (some (desc 0)) = some (desc 0) ∧
    s233.readCode 8191 (some (desc 0)) = 0 ∧
    s233.chained 8191 = false ∧
    bit (field (desc 0) 12 4) 1 = false := by decide +kernel

theorem witness_RingsTakeEntries_3 :
    (s234.ring 8191).ents = [entSt .reading []] ∧
    (s234.ring 8191).waiting = [] ∧
    s234.readBack 8191 0x40 (some (desc 1)) = some (desc 1) ∧
    s234.readCode 8191 (some (desc 1)) = 0 ∧
    s234.chained 8191 = true ∧
    bit (field (desc 1) 12 4) 1 = false ∧
    s232.readCode 8191 (s232.readBack 8191 0x40 (some (leBytes 8 0x5001 ++ (desc 0).drop 8))) = 5 ∧
    s235.readCode 8191 (s235.readBack 8191 (2 ^ 50) none) = 6 ∧
    s232.get (pgRing 8191) R.RING_LOCAL = 0 ∧
    (s232.ring 8191).ents = [entSt .reading []] ∧
    (s236.ring 8191).atEnd = some 0x40 ∧
    (s236.ring 8191).reread = true ∧
    s236.readBack 8191 0x40 (some (desc 1)) = some (desc 1) ∧
    bit (field (desc 1) 12 4) 0 = true ∧
    s236.readBack 8191 0x40 (some (desc 0)) = some (desc 0) ∧
    bit (field (desc 0) 12 4) 0 = false ∧
    s236.readBack 8191 0x40 (some (desc 2)) = some (desc 2) ∧
    bit (field (desc 2) 12 4) 0 = false := by decide +kernel

theorem witness_RingsTakeEntries_4 :
    (s237.ring 8191).atEnd = some 0x40 ∧
    (s237.ring 8191).reread = false ∧
    (s237.ring 8191).ents = [] ∧
    s237.get (pgRing 8191) R.RING_RUNNING = 1 ∧
    (s237.ring 8191).parkedAt + (s237.ring 8191).repoll ≤ s237.now ∧
    s228.mayRing 0 4095 = true ∧
    (8191 + 16 * 2 ^ 32) % 8192 = 8191 ∧
    s228.ringOwner 8191 = 4095 ∧
    s228.chained 8191 = false ∧
    (16 + 2 ^ 32 - s228.get (pgRing 8191) R.RING_DONE_PTR) % 2 ^ 32 ≤ s228.ringSize 8191 ∧
    (16 + 2 ^ 32 - s228.get (pgRing 8191) R.RING_HOST_PTR) % 2 ^ 32 < 2 ^ 31 ∧
    s238.get (pgRing 8191) R.RING_EN = 0 ∧
    s239.chained 8191 = true ∧
    s239.get (pgRing 8191) R.RING_EN = 1 ∧
    s228.mayRing 63 4094 = false := by decide +kernel

theorem witness_RingsReturnEntries :
    s244.get (pgRing 8191) R.RING_RUNNING = 1 ∧
    (s244.ring 8191).part = none ∧
    s244.nextRec (65536 + 8191) 255 = some (recD 128) ∧
    (s244.ring 8191).ents.find? (fun x => x.st = .opened) = none ∧
    (s244.ring 8191).ents.find? (fun x => x.st ≠ .landing) = some (entSt .ready (desc 0)) ∧
    (recD 128).bytes.length ≤ (entSt .ready (desc 0)).buf.2 - (entSt .ready (desc 0)).filled ∧
    (entSt .ready (desc 0)).filled = 0 ∧
    s245.get (pgRing 8191) R.RING_RUNNING = 1 ∧
    (s245.ring 8191).part = none ∧
    s245.nextRec (65536 + 8191) 255 = some (recD 128) ∧
    (s245.ring 8191).ents.find? (fun x => x.st = .opened) = some (entSt .opened (desc 0)) ∧
    (s245.ring 8191).ents.find? (fun x => x.st ≠ .landing) = some (entSt .opened (desc 0)) ∧
    (recD 128).bytes.length ≤ (entSt .opened (desc 0)).buf.2 - (entSt .opened (desc 0)).filled ∧
    (entSt .opened (desc 0)).filled = 0 ∧
    (s246.ring 8191).ents.find? (fun x => x.st = .opening) = some (entSt .opening (desc 0)) ∧
    (s247.ring 8191).ents = [entSt .landing (desc 0)] ∧
    (entSt .landing (desc 0)).st = .landing ∧
    s247.get (pgRing 8191) R.RING_LOCAL = 0 := by decide +kernel

theorem witness_RingsReturnEntries_2 :
    (s248.ring 8191).ents.find? (fun x => x.st ≠ .landing) = some { entSt .opened (desc 0) with filled := 1 } ∧
    0 + usQ (s248.get (pgRing 8191) R.RING_FLUSH_TMO) ≤ s248.now ∧
    s248.nextRec (65536 + 8191) 0 = none ∧
    s248.queuedFor (65536 + 8191) = [] ∧
    s248.nextRec (65536 + 8191) 256 = none ∧
    s249.vecFunc 2047 = some 63 ∧
    Tab.get s249.host.flr false 63 = false ∧
    Tab.get s249.host.msixEn false 63 = true ∧
    Tab.find s249.host.pend 2047 = some (1, 0) ∧
    0 + usQ (Tab.get s249.host.coalUse (s249.coal 2047) 2047).2 ≤ s249.now ∧
    s249.get (pgMsix 2047) R.MSIX_MASK = 0 ∧
    Tab.find s250.host.vecs 63 = some (2000, 48) ∧
    s250.answers 63 (0xC0000C + (2047 - 2000) * 16) 4 = true ∧
    s250.get (pgMsix 2047) R.MSIX_MASK = 1 ∧
    Tab.get s250.host.pba false 2047 = true ∧
    Tab.find s251.host.evtOut 3 = some 0 ∧
    0 ≤ s251.now := by decide +kernel

theorem witness_QueuePairsCarryRecords :
    s252.subUp 7 = true ∧
    4095 ∈ s252.ctxList ∧
    s252.qp 4095 R.QPC_STATE = 1 ∧
    s252.pathSub 4095 = 7 ∧
    s252.qp 4095 R.QPC_ALT_EN = 0 ∧
    0 < s253.lineRate 7 ∧
    s253.subUp 7 = false ∧
    4095 ∈ s253.ctxList ∧
    s253.qp 4095 R.QPC_STATE = 2 ∧
    s253.pathSub 4095 = 7 ∧
    s254.qp 4095 R.QPC_STATE = 1 ∧
    s254.qp 4095 R.QPC_ON_ALT = 1 ∧
    s254.get pgRdma R.RDMA_FAILBACK = 1 ∧
    s254.subUp (subOf (s254.qp 4095 R.QPC_PORT)) = true ∧
    Tab.find s254.net.upAt (subOf (s254.qp 4095 R.QPC_PORT)) = some 0 ∧
    0 + secQ 1 ≤ s254.now ∧
    (s254.ctx 4095).sent = [] := by decide +kernel

theorem witness_QueuePairsCarryRecords_2 :
    s255.qp 4095 R.QPC_STATE = 2 ∧
    (s255.ctx 4095).holdEnd = some 0 ∧
    0 ≤ s255.now ∧
    (s256.ctxList.filter fun y => s256.pathSub y = 7) = [4095] ∧
    s256.ctxClass 4095 = some 1 ∧
    (s256.ctx 4095).sent = [] ∧
    s256.nextOf (s256.ctxKey 4095) = some (1, 255) ∧
    s256.nextRec (s256.ctxKey 4095) 255 = some recQ ∧
    s256.isUdp 4095 = false ∧
    (s257.ctxList.filter fun y => s257.pathSub y = 7) = [4095] ∧
    s257.ctxClass 4095 = some 1 ∧
    (s257.ctx 4095).sent = [] ∧
    s257.nextOf (s257.ctxKey 4095) = some (1, 255) ∧
    s257.nextRec (s257.ctxKey 4095) 255 = some { recQ with dest := 3 * 65536 + 4095 } ∧
    s257.isUdp 4095 = true := by decide +kernel

theorem witness_QueuePairsCarryRecords_3 :
    s244.host.rings.map (·.1) = [8191] ∧
    s244.ringClass 8191 = some 1 ∧
    (s244.ring 8191).part = none ∧
    s244.nextOf (65536 + 8191) = some (1, 255) ∧
    s258.accepts 4095 = false ∧
    s259.accepts 4095 = true ∧
    s259.psnOpen 4095 (2 ^ 24 - 1) = true ∧
    s260.qp 4095 R.QPC_RNR_RETRY = 7 ∧
    s260.psnOpen 4095 (2 ^ 24 - 1) = true ∧
    s261.qp 4095 R.QPC_STATE = 1 ∧
    (s261.ctx 4095).sent ≠ [] ∧
    (s261.ctx 4095).rnrAt = none ∧
    (s261.ctx 4095).timerAt + s261.retryTmo 4095 ≤ s261.now ∧
    s261.qp 4095 R.QPC_ALT_EN = 0 ∧
    s261.qp 4095 R.QPC_RETRY_CNT = 0 := by decide +kernel

theorem witness_QueuePairsCarryRecords_4 :
    s262.qp 4095 R.QPC_STATE = 1 ∧
    (s262.ctx 4095).sent ≠ [] ∧
    (s262.ctx 4095).rnrAt = none ∧
    (s262.ctx 4095).timerAt + s262.retryTmo 4095 ≤ s262.now ∧
    s262.qp 4095 R.QPC_ALT_EN = 0 ∧
    s262.qp 4095 R.QPC_RETRY_CNT = 7 ∧
    (s263.ctx 4095).rnrAt = some 0 ∧
    0 ≤ s263.now ∧
    s264.accepts 4095 = true ∧
    s264.qp 4095 R.QPC_MIN_RATE < s264.qp 4095 R.QPC_RATE ∧
    (s264.ctx 4095).cnpAt = none ∧
    s265.qp 4095 R.QPC_RATE = s265.qp 4095 R.QPC_MIN_RATE ∧
    s266.accepts 4095 = true ∧
    (s266.ctx 4095).incAt + usQ (s266.get pgRdma R.RDMA_RP_PERIOD) ≤ s266.now := by decide +kernel

theorem witness_EthernetFramesAct :
    (s267.strm 255).queue = [] ++ rec0 128 :: [] ∧
    (rec0 128).isData = true ∧
    (rec0 128).begun = false ∧
    s267.st 255 R.ST_CLASS = 2 ∧
    (rec0 128).queuedAt + s267.shedAge (rec0 128).queuedAt < s267.now ∧
    bit (s268.get (pgEnet 1) R.ENET_PFC_EN) 7 = true ∧
    bit (s268.get (pgEnet 1) R.ENET_PFC_EN) 6 = false ∧
    Tab.find s268.net.paused (7 * 8 + 7) = some 0 ∧
    0 ≤ s268.now ∧
    s269.get (pgEnet 1) R.ENET_PTP_EN = 1 ∧
    s269.subUp (s269.ptpSub 1) = true ∧
    s270.get (pgEnet 1) R.ENET_PTP_EN = 1 ∧
    s270.subUp (s270.ptpSub 1) = true ∧
    s270.get (pgEnet 1) R.ENET_PTP_STATE = 5 ∧
    (s270.ptp 1).t2.isSome = true ∧
    (s270.ptp 1).t1 = none := by decide +kernel

theorem witness_EthernetFramesAct_2 :
    s271.get (pgEnet 1) R.ENET_PTP_EN = 1 ∧
    s271.subUp (s271.ptpSub 1) = true ∧
    s271.get (pgEnet 1) R.ENET_PTP_STATE = 4 ∧
    s269.get (pgEnet 1) R.ENET_PTP_STATE = 5 ∧
    s272.get (pgEnet 1) R.ENET_PTP_EN = 1 ∧
    s272.subUp (s272.ptpSub 1) = true ∧
    (s272.ptp 1).t1 = some 2 ∧
    (s272.ptp 1).t2 = some 20 ∧
    (s272.ptp 1).t3 = some 30 ∧
    s273.get pgTime R.TIME_SEL = 2 + 1 ∧
    s273.get (pgEnet 1) R.ENET_SLAVE_ONLY = 1 ∧
    s274.get (pgEnet 1) R.ENET_SLAVE_ONLY = 0 ∧
    s275.get (pgEnet 1) R.ENET_PTP_EN = 1 ∧
    s275.subUp (s275.ptpSub 1) = true ∧
    s275.get (pgEnet 1) R.ENET_PTP_STATE = 2 := by decide +kernel

theorem witness_ProtectionAndFabric :
    s276.answers 0 0x7044 4 = true ∧
    s276.pubBad = none ∧
    s276.sec.pendOwn ≠ [] ∧
    s277.pubBad = some (4095, 4095) ∧
    s67.answers 0 0x7048 4 = true ∧
    s278.get pgSec R.SEC_REVOKING = 1 ∧
    (s278.allHeld.any fun e => e.2.2.ends.any fun x => x.1 = 3) = false ∧
    s279.coreOn = true ∧
    s279.get pgSec R.SEC_DBG_LOCK = 1 ∧
    s280.coreOn = true ∧
    s280.get pgSec R.SEC_DBG_FUSE = 1 ∧
    s67.coreOn = true ∧
    s67.get pgSec R.SEC_DBG_LOCK = 0 ∧
    s67.get pgSec R.SEC_DBG_FUSE = 0 ∧
    s67.get pgSec R.SEC_DBG_ACTIVE = 0 ∧
    s67.winner 0 5 (Tab.get s67.fab.last 127 0) (rs 0 [(0, 64, false), (77, 64, false)]) = some (fr 0) ∧
    fr 0 ∈ rs 0 [(0, 64, false), (77, 64, false)] ∧
    Tab.find s67.sys.pcTries 0 = none := by decide +kernel

theorem witness_ProtectionAndFabric_2 :
    s67.winner 63 5 (Tab.get s67.fab.last 127 63) (rs 63 [(77, 64, false)]) = some (fr 77) ∧
    fr 77 ∈ rs 63 [(77, 64, false)] ∧
    Tab.find s67.sys.pcTries 63 = none ∧
    s67.winner 319 5 (Tab.get s67.fab.last 127 319) (rs 319 [(0, 64, false), (78, 64, false)]) = some (fr 78) ∧
    fr 78 ∈ rs 319 [(0, 64, false), (78, 64, false)] ∧
    Tab.find s67.sys.pcTries 319 = none ∧
    s67.winner 320 5 (Tab.get s67.fab.last 127 320) (rs 320 [(77, 64, false), (44, 64, false)]) = some (fr 44) ∧
    fr 44 ∈ rs 320 [(77, 64, false), (44, 64, false)] ∧
    Tab.find s67.sys.pcTries 320 = none ∧
    s67.winner 63 5 (Tab.get s67.fab.last 127 63) (rs 63 [(171, 64, false)]) = some (fr 171) ∧
    fr 171 ∈ rs 63 [(171, 64, false)] ∧
    rs 63 [(77, 64, false)] = [fr 77] ∧
    Tab.find s281.sys.pcTries 63 = some 2 ∧
    76 ≤ (fr 77).unit ∧
    Tab.find s282.fab.granted 63 = some (fr 77, 0) ∧
    s283.current (75 - 44) = some (7, hw) ∧
    s67.out = [] ∧
    78 < 79 := by decide +kernel

theorem witness_PowerStatesChange :
    s284.pstate = 0 ∧
    s284.get pgPwr R.PWR_TRANSIT = 0 ∧
    s284.get pgTop R.TOP_STAGE = 7 ∧
    bit (s284.get pgPwr R.PWR_THERM_STAT) 3 = false ∧
    s284.readyBarred = false ∧
    s284.answers 0 0x5044 4 = true ∧
    s285.pstate = 0 ∧
    s285.get pgPwr R.PWR_TRANSIT = 0 ∧
    s285.get pgTop R.TOP_STAGE = 7 ∧
    bit (s285.get pgPwr R.PWR_THERM_STAT) 3 = false ∧
    s285.readyBarred = false ∧
    s285.portCarries 3 5 = true ∧
    s285.get pgFlink R.FLINK_WAKE_EN = 1 ∧
    s285.devId = 0 := by decide +kernel

theorem witness_PowerStatesChange_2 :
    s286.pstate = 0 ∧
    s286.scsRun = true ∧
    s286.get pgClk R.CLK_CPLL_STATE = 4 ∧
    s286.get pgPwr R.PWR_TRANSIT = 1 ∧
    s286.get pgPwr R.PWR_TARGET = 1 ∧
    s287.pstate = 2 ∧
    s287.get pgPwr R.PWR_TRANSIT = 1 ∧
    s287.get pgPwr R.PWR_TARGET = 1 ∧
    s288.pstate = 1 ∧
    s288.get pgPwr R.PWR_TARGET = 2 ∧
    s288.calibrated = true ∧
    Tab.find s289.pwr.used 1 = some 0 ∧
    s289.pstate = 1 ∧
    0 + usQ 100 ≤ s289.now := by decide +kernel

theorem witness_PowerStatesChange_3 :
    Tab.get s290.link.ball false 3 ≠ true ∧
    s290.pstate ≠ 0 ∧
    bit (s290.get pgFlink R.FLINK_GATE_EXP) 3 = false ∧
    s290.get pgPwr R.PWR_WAKE_EN_GATE = 0 ∧
    bit (s290.get pgFlink R.FLINK_GATE_SRC) 3 = false ∧
    Tab.get s291.link.ball false 3 ≠ true ∧
    s291.pstate ≠ 0 ∧
    bit (s291.get pgFlink R.FLINK_GATE_EXP) 3 = false ∧
    s291.get pgPwr R.PWR_WAKE_EN_GATE = 0 ∧
    bit (s291.get pgFlink R.FLINK_GATE_SRC) 3 = true := by decide +kernel

theorem witness_MonitorAndTimersRun :
    s67.answers 0 0x3040 4 = true ∧
    s292.pwr.selfcal = true ∧
    s293.pwr.running = none ∧
    s293.pwr.selfcal = false ∧
    s293.pwr.first = true ∧
    s293.nextConv = some mr ∧
    s294.pwr.running = some (mr, 0, true) ∧
    s294.convOver 0 = true ∧
    mr.input < 32 ∧
    16 * limitOf 5 < (s294.monCode 4095 : Int) - 800 ∧
    s295.pwr.running = some (m31, 0, true) ∧
    s295.convOver 0 = true ∧
    m31.input < 32 ∧
    s67.answers 0 (0x4108 + 7 * 32) 4 = true ∧
    s296.answers 0 (0x4114 + 7 * 32) 4 = true ∧
    s296.now < s296.timerExp 7 ∧
    s297.timerExp 7 ≤ s297.now := by decide +kernel

theorem witness_MonitorAndTimersRun_2 :
    s297.geti pgTmr R.TMR_ARM 7 = 1 ∧
    s297.geti pgTmr R.TMR_PERIODIC 7 = 0 ∧
    s298.geti pgTmr R.TMR_PERIODIC 7 = 1 ∧
    s298.geti pgTmr R.TMR_PERIOD_LO 7 + s298.geti pgTmr R.TMR_PERIOD_HI 7 * 2 ^ 32 ≠ 0 ∧
    s298.now ≤ s298.timerExp 7 + nsQ 20 ∧
    s299.geti pgTmr R.TMR_PERIODIC 7 = 1 ∧
    s299.geti pgTmr R.TMR_PERIOD_LO 7 + s299.geti pgTmr R.TMR_PERIOD_HI 7 * 2 ^ 32 ≠ 0 ∧
    s299.timerExp 7 + nsQ 20 < s299.now ∧
    s300.geti pgTmr R.TMR_PWM_EN 7 = 1 ∧
    (s300.pwm 7).mat < (s300.pwm 7).period ∧
    s301.geti pgTmr R.TMR_PWM_EN 7 = 1 ∧
    (s301.pwm 7).period ≤ (s301.pwm 7).mat ∧
    s300.geti pgTmr R.TMR_PWM_MATCH 7 = 0 ∧
    ([6].map fun j => Tab.find s302.pwr.house j).filterMap id = [1206] ∧
    ([6].map fun j => Tab.find s67.pwr.house j).filterMap id = [] ∧
    ([0, 1, 2].map fun j => Tab.find s303.pwr.house j).filterMap id = [1200, 1201, 1202] ∧
    ([0, 1, 2].map fun j => Tab.find s67.pwr.house j).filterMap id = [] ∧
    ([3, 4, 5].map fun j => Tab.find s304.pwr.house j).filterMap id = [1203, 1204, 1205] := by decide +kernel

theorem witness_MonitorAndTimersRun_3 :
    ([3, 4, 5].map fun j => Tab.find s67.pwr.house j).filterMap id = [] ∧
    s305.alertOn = true ∧
    s67.alertOn = false := by decide +kernel

theorem witness_DisplayRuns :
    s306.answers 0 0x450064 4 = true ∧
    s307.answers 0 0x450064 4 = true ∧
    s307.dense = true ∧
    s307.disp.render = none ∧
    s306.dense = false ∧
    s306.disp.render = none ∧
    s306.answers 0 0x450070 4 = true ∧
    s306.get pgDisp R.DISP_AUX_GO = 0 ∧
    s308.get pgDisp R.DISP_AUX_GO = 1 ∧
    s309.disp.defers = 6 ∧
    s309.get pgDisp R.DISP_AUX_GO = 1 ∧
    7 ≤ s310.disp.defers ∧
    s310.get pgDisp R.DISP_AUX_GO = 1 ∧
    s311.get pgDisp R.DISP_AUX_CMD % 2 = 1 ∧
    s311.get pgDisp R.DISP_AUX_GO = 1 := by decide +kernel

theorem witness_DisplayRuns_2 :
    s312.disp.phase = 2 ∧
    s312.dp R.DISP_VFP ≤ 5 ∧
    s312.vtotal 5 < 2 ^ 14 ∧
    s312.dp R.DISP_ASYNC_EN = 0 ∧
    s312.vtotal 5 = s312.dp R.DISP_VMIN ∧
    s313.disp.phase = 2 ∧
    s313.dp R.DISP_VFP ≤ 5 ∧
    s313.vtotal 5 < 2 ^ 14 ∧
    s313.dp R.DISP_ASYNC_EN = 1 ∧
    s313.get pgDisp R.DISP_READY = 1 ∧
    s313.dp R.DISP_VMIN ≤ s313.vtotal 5 ∧
    s313.vtotal 5 ≤ s313.dp R.DISP_VMAX ∧
    s314.disp.phase = 2 ∧
    s314.dp R.DISP_ASYNC_EN = 1 ∧
    s314.get pgDisp R.DISP_READY = 0 ∧
    s315.disp.phase = 3 ∧
    s315.commitPend pgDisp = false := by decide +kernel

theorem witness_DisplayRuns_3 :
    s316.disp.phase = 4 ∧
    s316.get pgDisp R.DISP_LINK_UP = 1 ∧
    s316.dp R.DISP_LINE_MATCH = 0 ∧
    s317.disp.phase = 1 ∧
    s318.disp.phase = 1 ∧
    0 < s318.dp R.DISP_LINE_MATCH ∧
    s318.dp R.DISP_LINE_MATCH < s318.dp R.DISP_VACTIVE ∧
    s319.disp.phase = 1 ∧
    s319.dpi R.DISP_L_EN 3 = 1 ∧
    (∀ e ∈ s319.disp.under, e.1 ≠ 3) ∧
    s320.disp.render = some 1 ∧
    (s320.map (s320.dp R.DISP_DEN_SLOT)).ep.closing = 0 ∧
    s320.dp R.DISP_REN_READY = 1 ∧
    s321.coreOn = true ∧
    s321.get pgDisp R.DISP_HPD = 0 ∧
    s321.en pgDisp = true ∧
    2 ≤ s321.pstate := by decide +kernel

theorem witness_DisplayRuns_4 :
    s322.coreOn = true ∧
    s322.get pgDisp R.DISP_HPD = 1 ∧
    s322.disp.training = true ∧
    s322.commitPend pgDisp = false := by decide +kernel

theorem witness_ResetsAct :
    s323.answers 0 0x0C8 4 = true ∧
    s323.sys.porLow = false ∧
    s324.sys.porLow = true ∧
    Tab.find s281.sys.pcTries 63 = some 2 ∧
    2 ≤ 2 ∧
    Tab.find s326.sys.pcTries 63 = some 3 ∧
    2 ≤ 3 ∧
    s67.answers 0 0x0CC 4 = true ∧
    s67.diesOn = true ∧
    Tab.get s67.conv.dieRst false 0 = false ∧
    Tab.get s67.conv.dieRst false 1 = false ∧
    s327.answers 0 0x0D0 4 = true ∧
    s327.shellOpen 4094 = true ∧
    s67.shellOpen 4094 = false ∧
    s328.sys.shellRst.contains 4094 = true ∧
    s328.shellQuiet 4094 = true ∧
    Tab.get s67.host.flr false 63 = false ∧
    Tab.get s329.host.flr false 63 = true := by decide +kernel

theorem witness_ResetsAct_2 :
    s330.sys.supply = true := by decide +kernel

theorem witness_FlashIsWritten :
    s331.answers 0 0x607C 4 = true ∧
    s331.recovery = true ∧
    s331.get pgFlash R.FLASH_RCV_STAT ≠ 1 ∧
    s332.get pgFlash R.FLASH_RCV_STAT = 1 ∧
    s332.sys.rcv = (1, 0x100000) ∧
    0x100000 ≤ regionMax 1 ∧
    imgKey img0 = 0xFFFF ∧
    s332.sys.jobs = [{ job with region := 1, secs := [2], done := 1 }] ∧
    s333.sys.rcv = (1, 0x100000) ∧
    s333.sys.jobs = [] ∧
    s334.sys.rcv = (1, 0x100001) ∧
    regionMax 1 < 0x100001 ∧
    s332.signed [1, 2, 3, 4, 5, 6, 7, 8] = false ∧
    s335.sys.jobs = [{ job with secs := [2] }] ∧
    s336.sys.jobs = [{ job with secs := [2], tries := 2 }] ∧
    s337.sys.jobs = [{ job with secs := [2], tries := 6 }] ∧
    s338.sys.jobs = [{ job with erasing := some 1023 }] ∧
    Tab.get s338.sys.erases 0 1023 + 1 < 100000 := by decide +kernel

theorem witness_FlashIsWritten_2 :
    s339.sys.jobs = [{ job with secs := [2], done := 1, data := [7], cmd := some 255 }] ∧
    s339.sys.dirBad < 2 := by decide +kernel

theorem witness_StartUpAndMemory :
    s340.sys.porLow = false ∧
    s340.sys.supply = false ∧
    s340.get pgTop R.TOP_STAGE = 0 ∧
    s341.get pgTop R.TOP_STAGE = 1 ∧
    s341.pwr.selfcal = false ∧
    s342.get pgTop R.TOP_STAGE = 2 ∧
    s342.get pgTop R.TOP_STRAPS ≠ 5 ∧
    s343.get pgTop R.TOP_STAGE = 3 ∧
    s343.get pgClk R.CLK_CPLL_STATE = 4 ∧
    s344.get pgTop R.TOP_STAGE = 4 ∧
    s344.recovery = false ∧
    s344.get pgTop R.TOP_STRAPS ≠ 1 ∧
    s344.sys.noReady = false ∧
    s345.get pgTop R.TOP_STAGE = 5 ∧
    s345.scsRun = true ∧
    s346.get pgTop R.TOP_STAGE = 6 ∧
    s346.cal.startup = [] ∧
    63 < 64 := by decide +kernel

theorem witness_StartUpAndMemory_2 :
    bit (s347.get (pgMc 3) R.MC_PC_UP) 15 = true ∧
    Tab.find s348.sys.pcTries 63 = some 1 ∧
    262143 < 262144 ∧
    s67.current 0 = none ∧
    sgn 8 (s67.get (pgMc 3) R.MC_STACK_TEMP) < 95 ∧
    s350.sys.perstLow = false ∧
    s350.sys.porLow = false ∧
    3 ≤ s350.get pgTop R.TOP_STAGE ∧
    s67.sys.cfgReady = false ∧
    s351.sys.cfgReady = true ∧
    4 < 6 ∧
    5 < 6 ∧
    0 < 6 := by decide +kernel

theorem witness_StepRunsTheFrontCommand :
    s352.pending = .smbusStatus :: [.second] ∧
    s353.pending = [] := by decide +kernel

theorem witness_StepsKeepTheStateWellKept :
    s354.wf = true := by decide +kernel

theorem witness_ErrorsAreCaptured :
    (pgSt 255).kind.isBlock = true ∧
    (pgSt 255).inst < (pgSt 255).kind.count ∧
    pgArb.kind.isBlock = true ∧
    pgArb.inst < pgArb.kind.count ∧
    bit (s67.errInfo (pgSt 255)) 31 = false ∧
    bit (s67.errInfo pgArb) 31 = false ∧
    1 ≤ pgArb.events.2 ∧
    bit (s355.errInfo (pgSt 255)) 31 = true ∧
    s67.target 0 (Kind.st.base + 255 * 4096 + 0x42) = (pgSt 255, 0x42) ∧
    s67.pstate ≠ 0 ∧
    s67.recovery = false ∧
    s67.mayReach 0 (Kind.st.base + 255 * 4096 + 0x42) (pgSt 255) = true ∧
    (pgSt 255).assigned 0x42 4 = true ∧
    goodWidth (Kind.st.base + 255 * 4096 + 0x42) 4 = false ∧
    s67.target 0 0x450110 = (pgDisp, 0x110) ∧
    s67.answers 0 0x450110 4 = true ∧
    wideLow pgDisp 0x110 = false ∧
    wideLow pgDisp 0x10C = false := by decide +kernel

theorem witness_ErrorsAreCaptured_2 :
    s67.target 0 0x440044 = (pgFlink, 0x44) ∧
    s67.answers 0 0x440044 4 = true ∧
    wideLow pgFlink 0x44 = false ∧
    wideLow pgFlink 0x40 = false ∧
    reservedWrite pgFlink 0x44 [7] = true ∧
    s356.answers 0 0x100C 4 = true ∧
    (s356.with [pgClk]).clkBad = some 0x040 := by decide +kernel

theorem witness_EventsAreDeliveredOnce :
    (pgTu 7).kind.isBlock = true ∧
    (pgTu 7).inst < (pgTu 7).kind.count ∧
    1 < (pgTu 7).events.2 ∧
    bit (s67.evtEn (pgTu 7)) 1 = false ∧
    s357.raised (pgTu 7) 1 = true ∧
    s358.raised (pgTu 7) 1 = false ∧
    bit (s358.evtEn (pgTu 7)) 1 = true ∧
    s358.pstate ≠ 0 ∧
    s358.get (pgRoute ((pgTu 7).events.1 + 1)) R.ROUTE_KIND = 0 := by decide +kernel

theorem witness_EventsAreDeliveredOnce_2 :
    s359.raised (pgTu 7) 1 = false ∧
    bit (s359.evtEn (pgTu 7)) 1 = true ∧
    s359.pstate ≠ 0 ∧
    s359.get (pgRoute ((pgTu 7).events.1 + 1)) R.ROUTE_KIND = 1 ∧
    s359.get (pgRoute ((pgTu 7).events.1 + 1)) R.ROUTE_TARGET = 2047 ∧
    s359.vecFunc 2047 = some 63 ∧
    Tab.find s359.host.pend 2047 = none ∧
    s359.coal 2047 = (1, 0) ∧
    Tab.get s359.host.flr false 63 = false ∧
    s359.get (pgMsix 2047) R.MSIX_MASK = 0 ∧
    Tab.get s359.host.msixEn false 63 = true ∧
    s360.raised (pgTu 7) 1 = false ∧
    bit (s360.evtEn (pgTu 7)) 1 = true ∧
    s360.pstate ≠ 0 ∧
    s360.get (pgRoute ((pgTu 7).events.1 + 1)) R.ROUTE_KIND = 1 ∧
    s360.vecFunc 2047 = none ∧
    bit (s360.evtEn pgPcie) 3 = false := by decide +kernel

theorem witness_EventsAreDeliveredOnce_3 :
    s361.raised (pgTu 7) 1 = false ∧
    bit (s361.evtEn (pgTu 7)) 1 = true ∧
    s361.pstate ≠ 0 ∧
    s361.get (pgRoute ((pgTu 7).events.1 + 1)) R.ROUTE_KIND = 2 ∧
    s361.isEventRing 8191 = true ∧
    (s361.ring 8191).waiting.length < 64 ∧
    (∀ x ∈ (s361.ring 8191).ents, x.st ≠ .ready) ∧
    s362.raised (pgTu 7) 1 = false ∧
    bit (s362.evtEn (pgTu 7)) 1 = true ∧
    s362.pstate ≠ 0 ∧
    s362.get (pgRoute ((pgTu 7).events.1 + 1)) R.ROUTE_KIND = 4 ∧
    Tab.find s362.host.evtOut 3 = none ∧
    s363.target 0 (pageReg 0x27 0x014) = ((pgTu 7), 0x014) ∧
    s363.answers 0 (pageReg 0x27 0x014) 4 = true ∧
    bit (2#32 : Word).toNat 1 = true ∧
    bit (s363.evtEn (pgTu 7)) 1 = true := by decide +kernel

theorem witness_ArithmeticEdges :
    s364.current 0 = some (0, hw) ∧
    s364.fetches 0 hw maskAll (uword 0x0C 31 2 (3 % 32)) = true ∧
    s364.ureg 0 2 = 0x80000000#32 ∧
    s364.ureg 0 3 = 0#32 ∧
    s364.fetches 0 hw maskAll (uword 0x0E 31 2 (3 % 32)) = true ∧
    s364.fetches 0 hw maskAll (uword 0x0D 31 2 (3 % 32)) = true ∧
    s364.fetches 0 hw maskAll (uword 0x0F 31 2 (3 % 32)) = true ∧
    s365.current 0 = some (0, hw) ∧
    s365.fetches 0 hw maskAll (uword 0x0C 31 2 (3 % 32)) = true ∧
    s365.ureg 0 2 = 0x80000000#32 ∧
    s365.ureg 0 3 = 4294967295#32 ∧
    s365.fetches 0 hw maskAll (uword 0x0D 31 2 (3 % 32)) = true ∧
    s364.fetches 0 hw maskAll (uword 0x12 31 2 (3 % 32)) = true ∧
    s366.current 0 = some (0, hw) ∧
    s366.fetches 0 hw maskAll (uword 0x05 31 2 (3 % 32)) = true ∧
    s366.ureg 0 2 = 0x80000000#32 ∧
    s366.ureg 0 3 = 32#32 ∧
    s366.fetches 0 hw maskAll (uword 0x06 31 2 (3 % 32)) = true := by decide +kernel

theorem witness_ArithmeticEdges_2 :
    s366.fetches 0 hw maskAll (uword 0x07 31 2 (3 % 32)) = true ∧
    s366.fetches 0 hw maskAll (uword 0x08 31 2 (3 % 32)) = true ∧
    s367.current 0 = some (0, hw) ∧
    s367.fetches 0 hw maskAll (uword 0x09 31 2 (3 % 32)) = true ∧
    s367.ureg 0 2 = 0x80000000#32 ∧
    s367.ureg 0 3 = 3#32 ∧
    s364.fetches 0 hw maskAll (uword 0x18 31 2 32) = true ∧
    s364.fetches 0 hw maskAll (uword 0x19 31 2 65535) = true ∧
    s364.fetches 0 hw maskAll (uword 0x1A 31 2 32) = true ∧
    s364.fetches 0 hw maskAll (uword 0x1B 31 2 33) = true ∧
    s21.fetches 0 hw maskOp (uword 0x3D 0 0 0) = true ∧
    (s30.seqr 31).cur = none ∧
    s30.busy (pgSq 31) = false ∧
    (∀ e ∈ (s30.seqr 31).held, e.2.ends = []) ∧
    (∀ m ∈ s30.sys.slotWait, ∃ e ∈ s30.allHeld, e.2.2.img = some m) ∧
    s30.nextSlot 31 = some 7 ∧
    s30.heldAt 31 7 = some hr ∧
    hr.started = false := by decide +kernel

theorem witness_PagesIdentifyThemselves :
    s67.target 0 (Kind.st.base + 255 * 4096 + 0) = (pgSt 255, 0) ∧
    s67.answers 0 (Kind.st.base + 255 * 4096 + 0) 4 = true ∧
    wideLow (pgSt 255) 0 = false ∧
    s67.target 0 (Kind.st.base + 255 * 4096 + 4) = (pgSt 255, 4) ∧
    s67.answers 0 (Kind.st.base + 255 * 4096 + 4) 4 = true ∧
    wideLow (pgSt 255) 4 = false ∧
    s67.pstate ≠ 0 ∧
    s67.recovery = false ∧
    (32768 < 2 ^ 26 ∧ 32768 % 4 = 0) ∧
    (67108860 < 2 ^ 26 ∧ 67108860 % 4 = 0) ∧
    (12615936 < 2 ^ 26 ∧ 12615936 % 4 = 0) := by decide +kernel

theorem witness_DeniedAccessesAreDiscarded :
    s67.target 63 (Kind.st.base + 255 * 4096 + 0x40) = (pgSt 255, 0x40) ∧
    s67.mayReach 63 (Kind.st.base + 255 * 4096 + 0x40) (pgSt 255) = false ∧
    s67.pstate ≠ 0 ∧
    s67.recovery = false ∧
    (pgSt 255).kind ∉ [Kind.sec, .pcie, .shell] ∧
    s67.denials.length < 16 ∧
    16 ≤ s368.denials.length ∧
    s67.mayReach 63 (Kind.route.base + 32) (s67.target 63 (Kind.route.base + 32)).1 = false ∧
    (locate (Kind.route.base + 32)).1.kind = .route := by decide +kernel

theorem witness_EventsLeaveOtherUnitsAlone :
    Scope.of .smbusStatus = some .host := by decide +kernel

/-- An image that names the vendor key verifies where the signature check, which is a free value, says so. -/
theorem witness_of_a_signed_image (h : Config.signatureOk none img0 = true) : State.reset.signed img0 = true := by
  simp [State.signed, State.keyOf, h, show imgKey img0 = 0xFFFF from by decide]

end Sys2Proof.Tests
end

/-! SUPPORT. Proofs: queueing records and pips, taking requests and extracting windows, and what each of them leaves. -/

namespace Sys2Proof.Machine

/-! ### Programs in order, and a stream's and a map's hidden state -/

theorem run_pair (p q : Prog) (s : State) : run (.all [p, q]) s = run q (run p s) := by
  rw [run_all_cons, run_all_cons, run_all_nil]

theorem run_onSeg (f : Seg → Seg) (s : State) : run (.seg f) s = { s with seg := f s.seg } := rfl

theorem run_modStrm (n : Nat) (f : Strm → Strm) (s : State) :
    run (modStrm n f) s = { s with seg := { s.seg with strms := Tab.mod s.seg.strms Strm.reset n f } } := rfl

@[simp] theorem strm_modStrm (n m : Nat) (f : Strm → Strm) (s : State) :
    (run (modStrm n f) s).strm m = if m = n then f (s.strm n) else s.strm m := by
  simp [run_modStrm, State.strm]

@[simp] theorem map_modMap (m k : Nat) (f : Map → Map) (s : State) :
    (run (modMap m f) s).map k = if k = m then f (s.map m) else s.map k := by
  simp [modMap, Prog.seg, State.map]

/-! ### What queueing records and pips leaves (R172, R176 to R178) -/

/-- Of a stream only its queue, its pending pip, its noted losses and the items that wait have changed. -/
def Strm.QueuesOnly (t u : Strm) : Prop :=
  u = { t with queue := u.queue, pend := u.pend, causes := u.causes, gap := u.gap, built := u.built, outSeq := u.outSeq }

/-- The cells that queueing may write: those of the HIST page, and those from the first stream page on. -/
def queueCell (a : Nat) : Prop := (pgHist.base ≤ a ∧ a < pgHist.base + 0x1000) ∨ (pgSt 0).base ≤ a

/-- The acts that queueing records and pips consists of. -/
def Act.queues : Act → Prop
  | .fld b _ _ _ => queueCell b
  | .mem _ _ | .emit _ | .host _ | .tx _ => True
  | .seg f => ∀ g, f g = { g with strms := (f g).strms } ∧
      ∀ n, (Tab.get g.strms Strm.reset n).QueuesOnly (Tab.get (f g).strms Strm.reset n)
  | _ => False

/-- Nothing has changed but what queueing records and pips may change. -/
def QueuesOnly (s t : State) : Prop :=
  t = { s with regs := t.regs, hbm := t.hbm, out := t.out, host := t.host, tx := t.tx, seg := { s.seg with strms := t.seg.strms } } ∧
  (∀ n, (s.strm n).QueuesOnly (t.strm n)) ∧ ∀ a, ¬ queueCell a → t.cell a = s.cell a

theorem Strm.QueuesOnly.trans {t u v : Strm} (h : t.QueuesOnly u) (h' : u.QueuesOnly v) : t.QueuesOnly v :=
  Eq.trans h' (by rw [h])

theorem QueuesOnly.refl (s : State) : QueuesOnly s s := ⟨rfl, fun _ => rfl, fun _ _ => rfl⟩

theorem QueuesOnly.trans {s t u : State} (h : QueuesOnly s t) (h' : QueuesOnly t u) : QueuesOnly s u := by
  obtain ⟨hf, hs, hc⟩ := h
  obtain ⟨hf', hs', hc'⟩ := h'
  exact ⟨hf'.trans (by rw [hf]), fun n => (hs n).trans (hs' n), fun a ha => (hc' a ha).trans (hc a ha)⟩

theorem queuesOnly_applyAct (a : Act) (h : a.queues) (s : State) : QueuesOnly s (applyAct a s) := by
  cases a with
  | fld b hi lo v => exact ⟨rfl, fun _ => rfl, fun a ha => by
    rw [cell_applyAct_fld, if_neg]
    rintro rfl
    exact ha h⟩
  | mem | emit | host | tx => exact ⟨rfl, fun _ => rfl, fun _ _ => rfl⟩
  | seg f =>
    obtain ⟨hf, hs⟩ := forall_and.1 h
    exact ⟨congrArg (fun g => { s with seg := g }) (hf s.seg), hs s.seg, fun _ _ => rfl⟩
  | _ => exact h.elim

theorem queuesOnly_run {p : Prog} (h : Prog.Only Act.queues p) (s : State) : QueuesOnly s (run p s) := by
  induction p generalizing s with
  | nil => exact .refl s
  | ask k ih => exact ih s (h s) s
  | act a k ih => exact (queuesOnly_applyAct a h.1 s).trans (ih h.2 _)

theorem queues_of_delivers (a : Act) (h : a.delivers) : a.queues := by
  cases a with
  | fld b hi lo v =>
    have hb : b ∈ deliveryCells := h
    have low : ∀ c ∈ deliveryCells, (pgSt 0).base ≤ c := by decide
    exact .inr (low b hb)
  | mem | emit | host | tx => trivial
  | _ => exact h.elim

theorem pgSt_base_le (n : Nat) : (pgSt 0).base ≤ (pgSt n).base := Nat.add_le_add_left (Nat.mul_le_mul_left _ (Nat.zero_le n)) _

@[simp] theorem queueCell_st (r : Row) (n i : Nat) : queueCell (r.addr (pgSt n) i) := by
  have := pgSt_base_le n
  exact .inr (by unfold Row.addr; omega)

theorem queues_raise_st (n k : Nat) : Prog.Only Act.queues (raise (pgSt n) k) :=
  only_raise _ _ queues_of_delivers (.inr (Nat.le_add_right_of_le (pgSt_base_le n)))

theorem queues_inc_st (n : Nat) (r : Row) : Prog.Only Act.queues (.inc (pgSt n) r) := only_inc _ _ fun _ => queueCell_st r n 0

theorem queues_set_st (n v : Nat) (r : Row) : Prog.Only Act.queues (.set (pgSt n) r v) := (only_set _ _ _).2 (queueCell_st r n 0)

theorem queuesOnly_modStrm (n : Nat) (f : Strm → Strm) (s : State) (h : (s.strm n).QueuesOnly (f (s.strm n))) :
    QueuesOnly s (run (modStrm n f) s) := by
  refine ⟨rfl, fun m => ?_, fun _ _ => rfl⟩
  rw [strm_modStrm]
  split
  · next hm => exact hm ▸ h
  · rfl

theorem queues_modStrm (n : Nat) (f : Strm → Strm) (h : ∀ t : Strm, t.QueuesOnly (f t)) : Prog.Only Act.queues (modStrm n f) := by
  refine ⟨fun g => ⟨rfl, fun m => ?_⟩, trivial⟩
  rw [Tab.get_mod]
  split
  · next hm => exact hm ▸ h _
  · rfl

theorem queues_eqStat (n : Nat) : Prog.Only Act.queues (eqStat n) := fun _ => by
  simp only [only_all_cons, only_all_nil, only_when, queues_set_st, queues_raise_st, implies_true, and_self]

theorem queues_countLoss (n cause len : Nat) : Prog.Only Act.queues (countLoss n cause len) := by
  intro s
  have lost : Prog.Only Act.queues (.add64 (pgSt n) R.ST_CNT_LOST_LO R.ST_CNT_LOST_HI len) :=
    only_add64 _ _ _ _ (fun _ => queueCell_st _ n 0) fun _ => queueCell_st _ n 0
  have overrun : Prog.Only Act.queues (.addi pgHist R.HIST_CNT_OVERRUN (s.srcChan n) 1) := by
    have hc : s.srcChan n < 8 := Nat.mod_lt _ (by decide)
    refine only_addi _ _ _ _ fun _ => .inl ?_
    simp only [Row.addr, R.HIST_CNT_OVERRUN]
    omega
  have hist : Prog.Only Act.queues (raise pgHist 1) := only_raise _ _ queues_of_delivers (.inl (by decide))
  simp only [only_all_cons, only_all_nil, only_when, lost, overrun, hist, queues_inc_st, queues_raise_st, implies_true, and_true, true_and]
  exact queues_modStrm n _ fun _ => rfl

theorem queues_flushPend (n : Nat) : Prog.Only Act.queues (flushPend n) := by
  intro s
  dsimp only
  split
  · trivial
  · split
    · simp only [only_all_cons, only_all_nil, queues_inc_st, queues_eqStat, and_true]
      exact queues_modStrm n _ fun _ => rfl
    · trivial

theorem queues_pushPip (r : Rec) : Prog.Only Act.queues (pushPip r) := by
  simp only [pushPip, only_all_cons, only_all_nil, queues_flushPend, and_true, true_and]
  intro s
  dsimp only
  split
  · exact queues_countLoss _ _ _
  · simp only [only_all_cons, only_all_nil, only_when, queues_inc_st, queues_countLoss, queues_eqStat, implies_true, and_true]
    exact queues_modStrm _ _ fun _ => rfl

/-- Taking an item changes the items that wait, and no more of the stream. -/
theorem Strm.queuesOnly_of_nextItem {t u : Strm} {x : Option Rec} (h : t.nextItem = some (x, u)) : t.QueuesOnly u := by
  unfold Strm.nextItem at h
  split at h
  · split at h
    · split at h <;> cases h <;> rfl
    · cases h
  · cases h

theorem queuesOnly_pumpBuilt (n k : Nat) (s : State) : QueuesOnly s (run (pumpBuilt n k) s) := by
  induction k generalizing s with
  | zero => exact .refl s
  | succ k ih =>
    have taken {x t} (h : (s.strm n).nextItem = some (x, t)) : QueuesOnly s (run (modStrm n fun _ => t) s) :=
      queuesOnly_modStrm n _ s (Strm.queuesOnly_of_nextItem h)
    rw [pumpBuilt, run_ask]
    split
    · next h =>
      rw [run_pair]
      exact (taken h).trans (ih _)
    · next r _ h =>
      rw [run_ite]
      split
      · rw [run_all_cons, run_pair]
        exact ((taken h).trans (queuesOnly_run (queues_pushPip r) _)).trans (ih _)
      · exact .refl s
    · exact .refl s

theorem queuesOnly_pump (n : Nat) (s : State) : QueuesOnly s (run (pump n) s) := queuesOnly_pumpBuilt n _ s

/-- Items of a segment wait, and those whose turn has come are taken (R23). -/
theorem queuesOnly_addBuilt_pump (n seq m : Nat) (items : List Rec) (s : State) :
    QueuesOnly s (run (.all [addBuilt n seq items, pump m]) s) := by
  rw [run_pair]
  exact (queuesOnly_run (queues_modStrm n _ fun _ => rfl : Prog.Only Act.queues (addBuilt n seq items)) s).trans (queuesOnly_pump m _)

theorem QueuesOnly.map_eq {s t : State} (h : QueuesOnly s t) (m : Nat) : t.map m = s.map m := by rw [h.1]; rfl
theorem QueuesOnly.bins_eq {s t : State} (h : QueuesOnly s t) (n : Nat) : (t.strm n).bins = (s.strm n).bins := by rw [h.2.1 n]
theorem QueuesOnly.ep_eq {s t : State} (h : QueuesOnly s t) (n : Nat) : (t.strm n).ep = (s.strm n).ep := by rw [h.2.1 n]
theorem QueuesOnly.geti_eq {s t : State} (h : QueuesOnly s t) {p : Pg} {r : Row} {i : Nat} (ha : ¬ queueCell (r.addr p i)) :
    t.geti p r i = s.geti p r i := by
  rw [State.geti, h.2.2 _ ha, State.geti]

/-! ### Counters -/

/-- A counter that advances by one. -/
theorem counted_inc (p : Pg) (r : Row) (s : State) (h : r.sound = true) : Counted s (run (.inc p r) s) p r 1 := by
  have hm : min r.max (s.get p r + 1) < 2 ^ (r.hi + 1 - r.lo) :=
    Nat.lt_of_le_of_lt (Nat.min_le_left _ _) (Nat.sub_lt (Nat.two_pow_pos _) Nat.one_pos)
  exact (geti_seti_same s p r 0 _ h).trans (Nat.mod_eq_of_lt hm)

/-- Fields do not depend on any other part of the state than the register cells. -/
theorem geti_congr {s t : State} (h : t.regs = s.regs) (p : Pg) (r : Row) (i : Nat) : t.geti p r i = s.geti p r i := by
  rw [State.geti, cell_congr s t _ h, State.geti]

theorem get_congr {s t : State} (h : t.regs = s.regs) (p : Pg) (r : Row) : t.get p r = s.get p r := geti_congr h p r 0

theorem geti_onSeg (f : Seg → Seg) (s : State) (p : Pg) (r : Row) (i : Nat) : (run (.seg f) s).geti p r i = s.geti p r i :=
  geti_congr (s := s) rfl p r i

theorem nextSeq_congr {s t : State} (h : t.regs = s.regs) (n : Nat) : t.nextSeq n = s.nextSeq n := by
  rw [State.nextSeq, State.get64, get_congr h, get_congr h, State.nextSeq, State.get64]

theorem Counted.of_get_eq {s s' t t' : State} {p : Pg} {r : Row} {n : Nat} (hs : s'.get p r = s.get p r) (ht : t'.get p r = t.get p r)
    (h : Counted s t p r n) : Counted s' t' p r n := by
  rw [Counted, ht, hs]
  exact h

/-- The number of a segment is taken, and the segment counted (R179). -/
theorem counted_takeSeq (n : Nat) (s : State) : Counted s (run (takeSeq n) s) (pgSt n) R.ST_CNT_SEG 1 := by
  have lo (v : Nat) : (Act.fld (R.ST_NEXT_SEQ_LO.addr (pgSt n) 0) R.ST_NEXT_SEQ_LO.hi R.ST_NEXT_SEQ_LO.lo v).spares
      (R.ST_CNT_SEG.addr (pgSt n) 0) := by simp [Act.spares, Row.addr, R.ST_CNT_SEG, R.ST_NEXT_SEQ_LO]
  have hi (v : Nat) : (Act.fld (R.ST_NEXT_SEQ_HI.addr (pgSt n) 0) R.ST_NEXT_SEQ_HI.hi R.ST_NEXT_SEQ_HI.lo v).spares
      (R.ST_CNT_SEG.addr (pgSt n) 0) := by simp [Act.spares, Row.addr, R.ST_CNT_SEG, R.ST_NEXT_SEQ_HI]
  rw [takeSeq, run_pair]
  exact (counted_inc _ _ _ (by decide)).of_get_eq (only_get (only_add64 _ _ _ _ lo hi) s).symm rfl

theorem light_takeSeq (n : Nat) : Prog.Only Act.light (takeSeq n) := by
  simp only [takeSeq, only_all_cons, only_all_nil, and_true]
  exact ⟨only_add64 _ _ _ _ (fun _ => trivial) fun _ => trivial, only_inc _ _ fun _ => trivial⟩

theorem seg_takeSeq (n : Nat) (s : State) : (run (takeSeq n) s).seg = s.seg := (only_light (light_takeSeq n) s).2.2.2.1

/-! ### Requests (R22, R170, R171, R174) -/

theorem mem_insertReq (r : Req) (l : List Req) : r ∈ insertReq r l := by
  induction l with
  | nil => exact List.mem_singleton_self r
  | cons x xs ih =>
    rw [insertReq]
    split
    · exact List.mem_cons_of_mem _ ih
    · exact List.mem_cons_self

/-- A confirmed request that none is reserved for, and that finds room, takes its number, is counted, and takes its place in the queue (R22,
R179). -/
theorem confirmReq_enters (r : Req) (s : State) (hr : s.seg.reqs.any r.reserved = false) (hl : s.seg.reqs.length < reqCap) :
    (run (confirmReq r) s).seg =
      { s.seg with reqs := insertReq { r with seq := some (s.nextSeq r.stream), st := 1 } s.seg.reqs } ∧
    Counted s (run (confirmReq r) s) (pgSt r.stream) R.ST_CNT_SEG 1 := by
  rw [confirmReq, run_ask]
  dsimp only
  rw [if_neg (by rw [hr]; decide), if_pos hl, run_pair]
  refine ⟨?_, (counted_takeSeq r.stream s).of_get_eq rfl (geti_onSeg _ _ _ _ 0)⟩
  rw [run_onSeg, seg_takeSeq]

/-- A confirmed request of a stream with a number becomes eligible where its window is readable, and nothing else changes (R171). -/
theorem requestEligible_marks (s : State) (n seq : Nat) :
    let t := run (requestEligible n seq) s
    t = { s with seg := t.seg } ∧ t.seg = { s.seg with reqs := t.seg.reqs } ∧
    t.seg.reqs = s.seg.reqs.map fun x =>
      if x.stream = n ∧ x.seq = some seq ∧ x.st = 1 ∧ s.waitEnd x ≤ s.top (s.srcChan n) then { x with st := 2 } else x := by
  refine ⟨rfl, rfl, ?_⟩
  rw [requestEligible, run_ask, run_onSeg]
  simp only [Bool.and_eq_true, decide_eq_true_eq, and_assoc]

/-- A request without a provisional phase is reserved for none but a provisional request with its code. -/
theorem any_reserved_eq_false {r : Req} {l : List Req} (h : ∀ x ∈ l, x.code ≠ r.code ∨ x.cont = true) : l.any r.reserved = false := by
  refine List.any_eq_false.2 fun x hx => ?_
  rcases h x hx with h | h <;> simp [Req.reserved, h]

/-- The request of a CONTINUOUS stream's next segment. -/
def State.contReq (s : State) (n : Nat) : Req :=
  { stream := n, seq := none, anchor := s.instant (s.spc (s.srcChan n)) (s.contFirst n), first := s.contFirst n, len := s.segLen n,
    code := 0xFFFF, st := 1, unconf := false, cont := true, cut := false }

/-- A segment that is due counts, and its request is confirmed at once. -/
theorem run_contSegment (s : State) (n q : Nat) (hc : s.continuous n = true)
    (hq : s.instant (s.spc (s.srcChan n)) (s.contFirst n) < q) :
    ∃ u, run (contSegment n q) s = run (confirmReq (s.contReq n)) u ∧ u.regs = s.regs ∧ u.seg.reqs = s.seg.reqs ∧
      (u.strm n).contK = (s.strm n).contK + 1 := by
  refine ⟨run (modStrm n fun t => { t with contK := t.contK + 1 }) s, ?_, rfl, rfl, ?_⟩
  · rw [contSegment, run_ask, run_when, if_pos (by simp [hc, hq]), run_pair, State.contReq]
  · rw [strm_modStrm, if_pos rfl]

/-- A CONTINUOUS stream's next segment, once its first sample lies before Q-time q (R170). -/
theorem contSegment_requests (s : State) (n q : Nat) (hc : s.continuous n = true)
    (hq : s.instant (s.spc (s.srcChan n)) (s.contFirst n) < q) (hl : s.seg.reqs.length < reqCap)
    (hr : ∀ x ∈ s.seg.reqs, x.code ≠ 0xFFFF ∨ x.cont = true) :
    ((run (contSegment n q) s).strm n).contK = (s.strm n).contK + 1 ∧ Counted s (run (contSegment n q) s) (pgSt n) R.ST_CNT_SEG 1 ∧
    ∃ x ∈ (run (contSegment n q) s).seg.reqs, x.stream = n ∧ x.first = s.contFirst n ∧ x.len = s.segLen n ∧
      x.seq = some (s.nextSeq n) ∧ x.st = 1 ∧ x.cont = true := by
  obtain ⟨u, hrun, hregs, hreqs, hk⟩ := run_contSegment s n q hc hq
  obtain ⟨hseg, hcount⟩ := confirmReq_enters (s.contReq n) u (hreqs ▸ any_reserved_eq_false hr) (hreqs ▸ hl)
  have hreq := mem_insertReq { s.contReq n with seq := some (u.nextSeq n), st := 1 } u.seg.reqs
  rw [hrun, State.strm, hseg]
  exact ⟨hk, hcount.of_get_eq (get_congr hregs _ _).symm rfl, _, hreq, rfl, rfl, rfl, congrArg some (nextSeq_congr hregs n), rfl, rfl⟩

/-! ### Extractors (R22, R173, R203, R213) -/

theorem light_engineStat : Prog.Only Act.light engineStat := fun _ => by
  simp only [only_all_cons, only_all_nil, only_set, and_true]
  exact ⟨trivial, trivial⟩

theorem seg_engineStat (s : State) : (run engineStat s).seg = s.seg := (only_light light_engineStat s).2.2.2.1

/-- A free extractor takes the oldest request it may, with the samples of its window (R22, R173). -/
theorem extractionStart_takes (s : State) (k : Nat) (r : Req) (hk : Tab.find s.seg.extrs k = none)
    (hr : s.seg.reqs.find? s.takeable = some r) :
    (run (extractionStart k) s).seg.reqs = s.seg.reqs.erase r ∧
    ∃ x, Tab.find (run (extractionStart k) s).seg.extrs k = some x ∧ x.req = r ∧ x.start = s.time.cc ∧
      x.data = (List.range r.len).map fun i => (s.chan (s.srcChan r.stream)).word (r.first + i) := by
  have hrun : ∃ e : Extr, e.req = r ∧ e.start = s.time.cc ∧
      (e.data = (List.range r.len).map fun i => (s.chan (s.srcChan r.stream)).word (r.first + i)) ∧
      (run (extractionStart k) s).seg = { s.seg with reqs := s.seg.reqs.erase r, extrs := Tab.put s.seg.extrs k e } := by
    rw [extractionStart, run_ask, hk, hr]
    dsimp only
    rw [if_neg (by decide), run_pair, seg_engineStat]
    exact ⟨_, rfl, rfl, rfl, rfl⟩
  obtain ⟨e, hreq, hstart, hdata, hseg⟩ := hrun
  rw [hseg]
  exact ⟨rfl, e, (Tab.find_put _ _ _ _).trans (if_pos rfl), hreq, hstart, hdata⟩

/-- The acts that leave the extractors as they are. -/
def Act.keepsExtrs : Act → Prop
  | .seg f => ∀ g, (f g).extrs = g.extrs
  | _ => True

theorem Prog.Only.extrs_eq {p : Prog} (h : Prog.Only Act.keepsExtrs p) (s : State) : (run p s).seg.extrs = s.seg.extrs :=
  h.keeps (fun t => t.seg.extrs) (fun a t ha => by
    cases a with
    | seg f => exact ha t.seg
    | _ => rfl) s

theorem keepsExtrs_of_light (a : Act) (h : a.light) : a.keepsExtrs := by
  cases a with
  | seg f => exact h.elim
  | _ => trivial

theorem keepsExtrs_of_queues (a : Act) (h : a.queues) : a.keepsExtrs := by
  cases a with
  | seg f => exact fun g => by rw [(h g).1]
  | _ => trivial

theorem keepsExtrs_light {p : Prog} (h : Prog.Only Act.light p) : Prog.Only Act.keepsExtrs p := h.mono keepsExtrs_of_light

theorem keepsExtrs_modStrm (n : Nat) (f : Strm → Strm) : Prog.Only Act.keepsExtrs (modStrm n f) := ⟨fun _ => rfl, trivial⟩

theorem keepsExtrs_modMap (m : Nat) (f : Map → Map) : Prog.Only Act.keepsExtrs (modMap m f) := ⟨fun _ => rfl, trivial⟩

theorem keepsExtrs_pumpBuilt (n k : Nat) : Prog.Only Act.keepsExtrs (pumpBuilt n k) := by
  induction k with
  | zero => trivial
  | succ k ih =>
    have pip (r : Rec) : Prog.Only Act.keepsExtrs (pushPip r) := (queues_pushPip r).mono keepsExtrs_of_queues
    intro s
    dsimp only
    split
    · simp only [only_all_cons, only_all_nil, keepsExtrs_modStrm, ih, and_self]
    · simp only [only_ite, only_all_cons, only_all_nil, only_nil, keepsExtrs_modStrm, pip, ih, implies_true, and_self]
    · trivial

theorem keepsExtrs_pump (n : Nat) : Prog.Only Act.keepsExtrs (pump n) := fun _ => keepsExtrs_pumpBuilt n _

theorem keepsExtrs_closeEpoch (n cause : Nat) : Prog.Only Act.keepsExtrs (closeEpoch n cause) := by
  have inc (r : Row) : Prog.Only Act.keepsExtrs (.inc pgAcc r) := only_inc _ _ fun _ => trivial
  intro s
  simp only [only_when, only_all_cons, only_all_nil, keepsExtrs_modStrm, keepsExtrs_light (light_incRaise _ _ _), inc, implies_true, and_self]

theorem keepsExtrs_closeMap (m cause : Nat) : Prog.Only Act.keepsExtrs (closeMap m cause) := fun _ =>
  (only_when _ _).2 fun _ => keepsExtrs_modMap m _

theorem keepsExtrs_accTake (n : Nat) (r : Req) (ix : Int) (qt flags : Nat) (cells : List Cell) :
    Prog.Only Act.keepsExtrs (accTake n r ix qt flags cells) := by
  intro s
  simp only [only_all_cons, only_all_nil, only_ask, only_ite, only_when, keepsExtrs_modStrm, keepsExtrs_closeEpoch, implies_true, and_self]

theorem keepsExtrs_denTake (m n : Nat) (r : Req) (ix : Int) (qt flags : Nat) (cells : List Cell) :
    Prog.Only Act.keepsExtrs (denTake m n r ix qt flags cells) := by
  have addi (r : Row) (k : Nat) : Prog.Only Act.keepsExtrs (.addi pgDen r m k) := only_addi _ _ _ _ fun _ => trivial
  have seti (r : Row) (v : Nat) : Prog.Only Act.keepsExtrs (.seti pgDen r m v) := (only_seti _ _ _ _).2 trivial
  intro s
  simp only [only_all_cons, only_all_nil, only_ask, only_ite, only_when, keepsExtrs_modMap, keepsExtrs_closeMap,
    keepsExtrs_light (light_raise _ _), addi, seti, implies_true, and_self]

/-- An extractor that finishes is free (R22). -/
theorem extractionDone_frees (s : State) (k : Nat) (e : Extr) (hk : Tab.find s.seg.extrs k = some e) :
    Tab.find (run (extractionDone k) s).seg.extrs k = none := by
  rw [extractionDone, run_ask, hk]
  dsimp only
  rw [run_all_cons, Prog.Only.extrs_eq]
  · exact (Tab.find_del _ _ _).trans (if_pos rfl)
  · simp only [only_all_cons, only_all_nil, only_when, keepsExtrs_light light_engineStat, keepsExtrs_accTake, keepsExtrs_modStrm, addBuilt,
      keepsExtrs_pump, implies_true, and_true, true_and]
    split
    · exact keepsExtrs_denTake _ _ _ _ _ _ _
    · trivial

/-- An extractor that finishes a window of a stream without bins and maps hands its items on, and does no more (R172, R193). -/
theorem extractionDone_handsOn (s : State) (k : Nat) (e : Extr) (hk : Tab.find s.seg.extrs k = some e)
    (hs : s.slotOf e.req.stream = none) (hb : s.binned e.req.stream = false) :
    run (extractionDone k) s = run (.all [addBuilt e.req.stream (e.req.seq.getD 0) (segItems s e (windowCells s e)), pump e.req.stream])
      (run (.all [.seg fun g => { g with extrs := Tab.del g.extrs k }, engineStat]) s) := by
  rw [extractionDone, run_ask, hk]
  dsimp only
  rw [hs, hb, run_all_cons, run_all_cons, run_all_cons, run_all_cons, run_nil, run_when, if_neg (by decide), run_pair (.seg _)]

/-! ### Passes of closed epochs (R205, R212) -/

/-- The pass of a stream's closed epoch clears its bins, and the next epoch begins (R205). -/
theorem accPassDone_clears (s : State) (n : Nat) (h : (s.strm n).ep.closing ≠ 0) :
    ((run (accPassDone n) s).strm n).bins = [] ∧
    ((run (accPassDone n) s).strm n).ep = { Epoch.reset with num := (s.strm n).ep.num + 1 } := by
  rw [accPassDone, run_ask]
  dsimp only
  rw [run_when, if_pos (by simpa using h), run_all_cons]
  have hq := queuesOnly_addBuilt_pump n (s.strm n).ep.lastSeq n [accRecord s n]
    (run (modStrm n fun t => { t with bins := [], ep := { Epoch.reset with num := t.ep.num + 1 } }) s)
  rw [hq.bins_eq, hq.ep_eq, strm_modStrm, if_pos rfl]
  exact ⟨rfl, rfl⟩

theorem not_queueCell_den_sat (m : Nat) (hm : m < 16) : ¬ queueCell (R.DEN_SAT.addr pgDen m) := by
  simp only [queueCell, Row.addr, R.DEN_SAT, Pg.base, Kind.base, Kind.stride]
  omega

/-- What hands on the record of a map's pass leaves the maps, and the slot's saturation. -/
theorem denPass_handsOn (s : State) (c : Bool) (m n seq : Nat) (items : List Rec) (hm : m < 16) :
    let t := run (.when c (.all [.addi pgDen R.DEN_CNT_EPOCHS m 1, addBuilt n seq items, pump n])) s
    t.map m = s.map m ∧ t.geti pgDen R.DEN_SAT m = s.geti pgDen R.DEN_SAT m := by
  have light : Prog.Only Act.light (.addi pgDen R.DEN_CNT_EPOCHS m 1) := only_addi _ _ _ _ fun _ => trivial
  have hseg : (run (.addi pgDen R.DEN_CNT_EPOCHS m 1) s).seg = s.seg := (only_light light s).2.2.2.1
  have spares (v : Nat) : (Act.fld (R.DEN_CNT_EPOCHS.addr pgDen m) R.DEN_CNT_EPOCHS.hi R.DEN_CNT_EPOCHS.lo v).spares
      (R.DEN_SAT.addr pgDen m) := by
    simp [Act.spares, Row.addr, R.DEN_SAT, R.DEN_CNT_EPOCHS]
  have hq := queuesOnly_addBuilt_pump n seq n items (run (.addi pgDen R.DEN_CNT_EPOCHS m 1) s)
  dsimp only
  rw [run_when]
  split
  · rw [run_all_cons, hq.map_eq, hq.geti_eq (not_queueCell_den_sat m hm), State.map, hseg, only_geti (only_addi _ _ _ _ spares)]
    exact ⟨rfl, rfl⟩
  · exact ⟨rfl, rfl⟩

/-- The pass of a map's closed epoch clears its cells and its saturation, and the next epoch begins (R212). -/
theorem denPassDone_clears (s : State) (m : Nat) (hm : m < 16) (h : (s.map m).ep.closing ≠ 0) :
    ((run (denPassDone m) s).map m).cells = [] ∧
    ((run (denPassDone m) s).map m).ep = { Epoch.reset with num := (s.map m).ep.num + 1 } ∧
    (run (denPassDone m) s).geti pgDen R.DEN_SAT m = 0 := by
  have hsat : (run (.seti pgDen R.DEN_SAT m 0) s).geti pgDen R.DEN_SAT m = 0 := geti_seti_same s _ _ m 0 (by decide)
  have hmap : (run (.seti pgDen R.DEN_SAT m 0) s).map m = s.map m := rfl
  rw [denPassDone, run_ask]
  dsimp only
  rw [run_when, if_pos (by simpa using h), run_all_cons, run_pair]
  obtain ⟨hm', hs'⟩ := denPass_handsOn (run (modMap m fun t => { cells := [], ep := { Epoch.reset with num := t.ep.num + 1 } })
    (run (.seti pgDen R.DEN_SAT m 0) s)) (decide (s.strmVer (s.livei pgDen R.DEN_STREAM m) ≠ 1)) m (s.livei pgDen R.DEN_STREAM m)
    (s.map m).ep.lastSeq [denRecord s m (s.livei pgDen R.DEN_STREAM m)] hm
  rw [hm', hs', map_modMap, if_pos rfl, hmap, modMap, geti_onSeg, hsat]
  exact ⟨rfl, rfl, rfl⟩

/-! ### The statement -/

/-- Settles O29: requests become eligible and are taken, windows are handed on, and passes clear what their epochs held. -/
theorem segmentEventsAct : Obligations.SegmentEventsAct := by
  intro s n k seq r e
  refine ⟨⟨_, rfl, requestEligible_marks s n seq⟩, fun _ hf hc hq hl hr => ⟨_, rfl, ?_⟩,
    fun hk hr => ⟨_, rfl, extractionStart_takes s k r hk hr⟩,
    fun hk => ⟨⟨_, rfl, extractionDone_frees s k e hk⟩, fun hs hb => ⟨_, ?_, congrArg Host.Outcome.next (extractionDone_handsOn s k e hk hs hb)⟩⟩,
    fun h => ⟨_, rfl, accPassDone_clears s n h⟩, fun hn h => ⟨_, rfl, denPassDone_clears s n hn h⟩⟩
  · rw [run_ask, run_when, if_pos (decide_eq_true hf)]
    exact contSegment_requests s n s.nowQ hc hq hl hr
  · rw [run_pair, seg_engineStat, run_onSeg]

end Sys2Proof.Machine

/-! SUPPORT. Proofs: accesses to BAR0. Where an offset lies, which page an access reaches, and what an access that is answered runs. -/

namespace Sys2Proof.Machine

/-! ### Where an offset lies (R41, R43) -/

/-- Bytes of BAR0 from the first page of a kind to the end of its last. -/
def Kind.extent (k : Kind) : Nat := if k = .legacy then k.size else k.stride * k.count

theorem Kind.holds_iff {k : Kind} {a : Nat} (hl : k ≠ .legacy) :
    k.holds a = true ↔ k.base ≤ a ∧ (a - k.base) / k.stride < k.count ∧ (a - k.base) % k.stride < k.size := by
  simp only [Kind.holds, hl, ne_eq, not_false_eq_true, true_or, or_false, decide_true, Bool.and_true, Bool.and_eq_true, decide_eq_true_eq,
    and_assoc]

theorem Kind.holds_range {k : Kind} {a : Nat} (h : k.holds a = true) : k.base ≤ a ∧ a < k.base + k.extent := by
  simp only [Kind.holds, Bool.and_eq_true, decide_eq_true_eq] at h
  obtain ⟨⟨⟨hbase, hcount⟩, -⟩, hsize⟩ := h
  unfold Kind.extent
  split
  · next hk => have := hsize.resolve_left (not_not_intro hk); omega
  · next hk =>
    have hpos : 0 < k.stride := by cases k <;> decide
    have hlt := (Nat.div_lt_iff_lt_mul hpos).1 (hcount.resolve_right hk)
    have := Nat.mul_comm k.count k.stride
    omega

/-- Two kinds share no offset. -/
theorem Kind.extents_apart : ∀ k ∈ Kind.all, ∀ k' ∈ Kind.all, k = k' ∨ k.base + k.extent ≤ k'.base ∨ k'.base + k'.extent ≤ k.base := by
  decide +kernel

theorem Kind.mem_all (k : Kind) (h : k ≠ .none) : k ∈ Kind.all := by cases k <;> first | decide | exact absurd rfl h

theorem Kind.holds_unique {k k' : Kind} {a : Nat} (hk : k ∈ Kind.all) (hk' : k' ∈ Kind.all) (h : k.holds a = true)
    (h' : k'.holds a = true) : k' = k := by
  have r := Kind.holds_range h
  have r' := Kind.holds_range h'
  rcases Kind.extents_apart k hk k' hk' with e | e | e
  · exact e.symm
  · omega
  · omega

/-- The kind that holds an offset is the one found. -/
theorem Kind.find_holds {k : Kind} {a : Nat} (hk : k ≠ .none) (h : k.holds a = true) : (Kind.all.find? fun k => k.holds a) = some k := by
  have hm := Kind.mem_all k hk
  cases hf : Kind.all.find? fun k => k.holds a with
  | none => exact absurd h (List.find?_eq_none.1 hf k hm)
  | some k' => rw [Kind.holds_unique hm (List.mem_of_find?_eq_some hf) h (List.find?_some (p := fun k : Kind => k.holds a) hf)]

theorem locate_of_holds {k : Kind} {a : Nat} (hk : k ≠ .none) (hl : k ≠ .legacy) (h : k.holds a = true) :
    locate a = (⟨k, (a - k.base) / k.stride⟩, (a - k.base) % k.stride) := by
  rw [locate, Kind.find_holds hk h]
  cases k <;> first | rfl | exact absurd rfl hl

/-- An offset that no kind holds is unassigned. -/
theorem locate_unassigned {a : Nat} (h : ∀ k ∈ Kind.all, k.holds a = false) : locate a = (⟨.none, 0⟩, a) := by
  have hf : (Kind.all.find? fun k => k.holds a) = none := List.find?_eq_none.2 fun k hk => by simp [h k hk]
  rw [locate, hf]

/-- The page at an offset of it. -/
theorem locate_page {p : Pg} {rel : Nat} (hk : p.kind ≠ .none) (hl : p.kind ≠ .legacy) (hi : p.inst < p.kind.count)
    (hr : rel < p.kind.size) : locate (p.base + rel) = (p, rel) := by
  obtain ⟨k, n⟩ := p
  dsimp only at *
  have hs : rel < k.stride := Nat.lt_of_lt_of_le hr (by cases k <;> first | decide | exact absurd rfl hl)
  have hd : (Pg.base ⟨k, n⟩ + rel - k.base) / k.stride = n := by
    rw [Pg.base, Nat.add_assoc, Nat.add_sub_cancel_left, Nat.mul_add_div (Nat.zero_lt_of_lt hs), Nat.div_eq_of_lt hs, Nat.add_zero]
  have hm : (Pg.base ⟨k, n⟩ + rel - k.base) % k.stride = rel := by
    rw [Pg.base, Nat.add_assoc, Nat.add_sub_cancel_left, Nat.mul_add_mod, Nat.mod_eq_of_lt hs]
  have hh : k.holds (Pg.base ⟨k, n⟩ + rel) = true := by
    exact (Kind.holds_iff hl).2 ⟨by rw [Pg.base, Nat.add_assoc]; exact Nat.le_add_right _ _, by rwa [hd], by rwa [hm]⟩
  rw [locate_of_holds hk hl hh, hd, hm]

/-- Where an offset lies: nowhere, in the legacy window, or at an offset of a page or entry of a kind. -/
theorem locate_cases {a rel : Nat} {p : Pg} (h : locate a = (p, rel)) :
    p = ⟨.none, 0⟩ ∨ p = ⟨.legacy, 0⟩ ∨
    p.kind ≠ .none ∧ p.kind ≠ .legacy ∧ p.inst < p.kind.count ∧ rel < p.kind.size ∧ a = p.base + rel := by
  unfold locate at h
  cases hf : Kind.all.find? fun k => k.holds a with
  | none => rw [hf] at h; cases h; exact .inl rfl
  | some k =>
    rw [hf] at h
    have hh : k.holds a = true := List.find?_some (p := fun k : Kind => k.holds a) hf
    have hn : k ≠ .none := fun e => absurd (List.mem_of_find?_eq_some hf) (e ▸ by decide)
    by_cases hl : k = .legacy
    · subst hl; cases h; exact .inr (.inl rfl)
    · have hp : ((⟨k, (a - k.base) / k.stride⟩ : Pg), (a - k.base) % k.stride) = (p, rel) := by
        cases k <;> first | exact h | exact absurd rfl hl
      cases hp
      obtain ⟨hbase, hcount, hsize⟩ := (Kind.holds_iff hl).1 hh
      refine .inr (.inr ⟨hn, hl, hcount, hsize, ?_⟩)
      rw [Pg.base, Nat.add_assoc, Nat.div_add_mod, Nat.add_sub_cancel' hbase]

/-! ### Block pages -/

theorem Kind.size_block {k : Kind} (h : k.isBlock = true) : k.size = 0x1000 := by cases k <;> first | rfl | exact absurd h (by decide)

theorem Kind.ne_none_of_block {k : Kind} (h : k.isBlock = true) : k ≠ .none := by rintro rfl; exact absurd h (by decide)

theorem Kind.ne_legacy_of_block {k : Kind} (h : k.isBlock = true) : k ≠ .legacy := by rintro rfl; exact absurd h (by decide)

theorem locate_block {p : Pg} (rel : Nat) (h : p.kind.isBlock = true) (hi : p.inst < p.kind.count) (hr : rel < 0x1000) :
    locate (p.base + rel) = (p, rel) :=
  locate_page (Kind.ne_none_of_block h) (Kind.ne_legacy_of_block h) hi (by rwa [Kind.size_block h])

/-- Block pages lie at multiples of 4 KiB, below the tables. -/
theorem Kind.block_range {k : Kind} (h : k.isBlock = true) :
    0x1000 ∣ k.base ∧ 0x1000 ∣ k.stride ∧ k.base + k.stride * k.count ≤ 0x451000 := by
  cases k <;> first | decide | exact absurd h (by decide)

theorem Pg.base_block {p : Pg} (h : p.kind.isBlock = true) (hi : p.inst < p.kind.count) : p.base % 0x1000 = 0 ∧ p.base + 0x1000 ≤ 0x451000 := by
  obtain ⟨hb, hs, hle⟩ := Kind.block_range h
  have hd : 0x1000 ∣ p.base := Nat.dvd_add hb (Dvd.dvd.mul_right hs _)
  have hlt : p.base < 0x451000 :=
    Nat.lt_of_lt_of_le (Nat.add_lt_add_left (Nat.mul_lt_mul_of_pos_left hi (by cases p.kind <;> decide)) _) hle
  omega

/-- Two block pages share no offset. -/
theorem Pg.block_cells_apart {p q : Pg} {x y : Nat} (hp : p.kind.isBlock = true) (hpi : p.inst < p.kind.count) (hq : q.kind.isBlock = true)
    (hqi : q.inst < q.kind.count) (hx : x < 0x1000) (hy : y < 0x1000) (h : p.base + x = q.base + y) : p = q ∧ x = y := by
  have e := locate_block y hq hqi hy
  rw [← h, locate_block x hp hpi hx] at e
  exact Prod.mk.inj e

/-- An access that reaches a block page lies at its offset in it. -/
theorem target_block {s : State} {fn a rel : Nat} {p : Pg} (h : s.target fn a = (p, rel)) (hb : p.kind.isBlock = true) :
    locate a = (p, rel) ∧ p.inst < p.kind.count ∧ rel < 0x1000 ∧ a = p.base + rel := by
  have hloc : locate a = (p, rel) := by
    unfold State.target at h
    split at h
    next q r hq =>
    split at h
    · split at h
      · split at h <;> (cases h; exact absurd hb Bool.false_ne_true)
      · cases h; exact absurd hb Bool.false_ne_true
    · cases h; exact hq
  rcases locate_cases hloc with rfl | rfl | ⟨-, -, hi, hr, ha⟩
  · exact absurd hb (by decide)
  · exact absurd hb (by decide)
  · exact ⟨hloc, hi, Kind.size_block hb ▸ hr, ha⟩

/-- An offset outside the MSI-X table is reached where it lies. -/
theorem target_of_locate {s : State} {fn a rel : Nat} {p : Pg} (h : locate a = (p, rel)) (hk : p.kind ≠ .msix) :
    s.target fn a = (p, rel) := by simp only [State.target, h, if_neg hk]

/-- An offset of a block page is reached on that page. -/
theorem target_at_block (s : State) (fn : Nat) {p : Pg} (rel : Nat) (hb : p.kind.isBlock = true) (hi : p.inst < p.kind.count)
    (hr : rel < 0x1000) : s.target fn (p.base + rel) = (p, rel) :=
  target_of_locate (locate_block rel hb hi hr) fun h => by rw [h] at hb; exact Bool.false_ne_true hb

/-! ### What an access that is answered runs (R37, R51) -/

section
variable {s : State} {fn a rel w : Nat} {p : Pg}

/-- The conditions of an answer, one by one. -/
theorem answers_iff (ht : s.target fn a = (p, rel)) :
    s.answers fn a w = true ↔ (s.pstate = 0 → p.kind.acorn = true) ∧ (s.recovery = true → p.kind.inRecovery = true) ∧
      s.mayReach fn a p = true ∧ p.assigned rel w = true ∧ goodWidth a w = true ∧ (p.kind.isBlock = true → s.busy p = false) := by
  simp only [State.answers, ht, Bool.and_eq_true, Bool.or_eq_true, decide_eq_true_eq, Bool.not_eq_true', Bool.and_eq_false_iff]
  constructor
  · rintro ⟨⟨⟨⟨⟨hp, hr⟩, hm⟩, ha⟩, hg⟩, hb⟩
    exact ⟨hp.resolve_left ∘ not_not_intro, fun h => hr.resolve_left (by simp [h]), hm, ha, hg, fun h => hb.resolve_left (by simp [h])⟩
  · rintro ⟨hp, hr, hm, ha, hg, hb⟩
    refine ⟨⟨⟨⟨⟨?_, ?_⟩, hm⟩, ha⟩, hg⟩, ?_⟩
    · by_cases h : s.pstate = 0
      · exact .inr (hp h)
      · exact .inl h
    · cases h : s.recovery
      · exact .inl rfl
      · exact .inr (hr h)
    · cases h : p.kind.isBlock
      · exact .inl rfl
      · exact .inr (hb h)

theorem run_hostWrite_answered (v : Nat) (ht : s.target fn a = (p, rel)) (ha : s.answers fn a 4 = true) :
    run (hostWrite fn a 4 v) s = run (writeWord fn p rel (v % 2 ^ 32)) s := by
  obtain ⟨hp, hr, hm, has, hg, hb⟩ := (answers_iff ht).1 ha
  rw [hostWrite, run_ask]
  simp only [ht]
  rw [if_neg (by simpa using hp), if_neg (by simpa using hr), if_neg (by simp [hm]), if_neg (by simp [has]), if_neg (by simp [hg]),
    if_neg (by simpa using hb), if_neg (by decide)]

theorem run_readReg_answered (k : Nat → Prog) (ht : s.target fn a = (p, rel)) (ha : s.answers fn a w = true) :
    run (readReg fn a w k) s = if w = 8 then run (readPair fn p rel k) s else run (readWord fn p rel k) s := by
  obtain ⟨hp, hr, hm, has, hg, hb⟩ := (answers_iff ht).1 ha
  rw [readReg, run_ask]
  simp only [ht]
  rw [if_neg (by simpa using hp), if_neg (by simpa using hr), if_neg (by simp [hm]), if_neg (by simp [has]), if_neg (by simp [hg]),
    if_neg (by simpa using hb), run_ite]

/-- A word that is no half of a 64-bit register is written by itself. -/
theorem writeWord_narrow (v : Nat) (h : wideLow p rel = false) (h' : 4 ≤ rel → wideLow p (rel - 4) = false) :
    writeWord fn p rel v = writeWords fn p rel [v] := by
  rw [writeWord, if_neg (by simp [h]), if_neg]
  rw [Bool.and_eq_true, decide_eq_true_eq]
  rintro ⟨h4, hw⟩
  rw [h' h4] at hw
  cases hw

/-- The common header holds no 64-bit register. -/
theorem wideLow_header (hb : p.kind.isBlock = true) (hr : rel < 0x40) : wideLow p rel = false := by
  have low : ∀ k : Kind, k.isBlock = true → k.wides.all (fun r => decide (0x40 ≤ r.off)) = true := by
    intro k; cases k <;> decide
  rw [wideLow, List.any_eq_false]
  intro r hm
  have := of_decide_eq_true (List.all_eq_true.1 (low _ hb) r hm)
  simp only [Row.lies, Bool.and_eq_true, decide_eq_true_eq]
  omega

/-- A write of a word of the common header. -/
theorem run_hostWrite_header (v : Nat) (ht : s.target fn a = (p, rel)) (ha : s.answers fn a 4 = true) (hb : p.kind.isBlock = true)
    (hr : rel < 0x40) : run (hostWrite fn a 4 v) s = run (headWrite fn p rel (v % 2 ^ 32)) s := by
  rw [run_hostWrite_answered v ht ha, writeWord_narrow _ (wideLow_header hb hr) fun _ => wideLow_header hb (by omega), writeWords, run_ask,
    if_pos (by simp [hb, hr])]
  simp only [List.mapIdx_cons, List.mapIdx_nil, run_each_cons, run_each_nil, Nat.mul_zero, Nat.add_zero]

/-- A write of one block-specific register, or of one of a table's. -/
theorem run_hostWrite_register (v : Nat) (ht : s.target fn a = (p, rel)) (ha : s.answers fn a 4 = true) (h : wideLow p rel = false)
    (h' : 4 ≤ rel → wideLow p (rel - 4) = false) :
    run (hostWrite fn a 4 v) s = run (writeWords fn p rel [v % 2 ^ 32]) s := by
  rw [run_hostWrite_answered v ht ha, writeWord_narrow _ h h']

end

end Sys2Proof.Machine

/-! SUPPORT. Proofs: what a page identifies itself by, and an access that is denied. -/

namespace Sys2Proof.Machine

/-! ### Type codes and versions (R43, R60) -/

theorem Kind.ty_lt (k : Kind) : k.ty < 2 ^ 16 := by cases k <;> decide

theorem Pg.idInst_lt {p : Pg} (hi : p.inst < p.kind.count) : p.idInst < 2 ^ 16 := by
  have : p.kind.count ≤ 8192 := by cases p.kind <;> decide
  unfold Pg.idInst
  split <;> omega

theorem cell_reset (a : Nat) : State.reset.cell a = resetWord a := rfl

/-- A word of the common header after reset. -/
theorem resetWord_header {p : Pg} {rel : Nat} (h : p.kind.isBlock = true) (hi : p.inst < p.kind.count) (hr : rel < 0x40) :
    resetWord (p.base + rel) = BitVec.ofNat 32 (headReset p rel) := by
  simp only [resetWord, locate_block rel h hi (by omega), h, hr, if_true]

theorem blkId_reset {p : Pg} (h : p.kind.isBlock = true) (hi : p.inst < p.kind.count) :
    (State.reset.cell p.base).toNat / 2 ^ 16 = p.kind.ty := by
  have ht := p.kind.ty_lt
  have hn := Pg.idInst_lt hi
  have hw : resetWord p.base = BitVec.ofNat 32 (p.kind.ty * 65536 + p.idInst) := resetWord_header (rel := 0) h hi (by decide)
  rw [cell_reset, hw, BitVec.toNat_ofNat]
  omega

theorem blkVer_reset {p : Pg} (h : p.kind.isBlock = true) (hi : p.inst < p.kind.count) :
    (State.reset.cell (p.base + 4)).toNat = p.kind.major * 256 := by
  have hm : p.kind.major ≤ 2 := by cases p.kind <;> decide
  have hw : headReset p 4 = p.kind.major * 256 := rfl
  rw [cell_reset, resetWord_header h hi (by decide), hw, BitVec.toNat_ofNat]
  omega

/-- No word of unassigned space is assigned to anything. -/
theorem assigned_none (rel w : Nat) : Pg.assigned ⟨.none, 0⟩ rel w = false := List.any_eq_false.2 fun _ _ => by simp [Pg.assignedWord]

/-- A write of unassigned space does nothing. -/
theorem run_hostWrite_unassigned {s : State} {a : Nat} (fn w v : Nat) (hl : locate a = (⟨.none, 0⟩, a)) (hp : s.pstate ≠ 0)
    (hr : s.recovery = false) : run (hostWrite fn a w v) s = s := by
  have hm : s.mayReach fn a ⟨.none, 0⟩ = true := by simp [State.mayReach, hl]
  simp [hostWrite, target_of_locate hl (by decide), hp, hr, hm, assigned_none]

/-- A read of unassigned space is answered 0. -/
theorem run_readReg_unassigned {s : State} {a : Nat} (fn w : Nat) (k : Nat → Prog) (hl : locate a = (⟨.none, 0⟩, a)) (hp : s.pstate ≠ 0)
    (hr : s.recovery = false) : run (readReg fn a w k) s = run (k 0) s := by
  have hm : s.mayReach fn a ⟨.none, 0⟩ = true := by simp [State.mayReach, hl]
  simp [readReg, target_of_locate hl (by decide), hp, hr, hm, assigned_none]

/-- The ranges of BAR0 that Table 2-2 assigns: first offset and bytes. -/
def assignedRanges : List (Nat × Nat) :=
  [(0, 0x8000), (0x10000, 0x9000), (0x1C000, 0x4000), (0x20000, 0xA000), (0x30000, 0x10000), (0x40000, 0x4000), (0x100000, 0x100000),
    (0x200000, 0x20000), (0x300000, 0x5000), (0x400000, 0x1000), (0x410000, 0x1000), (0x420000, 0x1000), (0x430000, 0x1000),
    (0x440000, 0x5000), (0x450000, 0x1000), (0x800000, 0x80000), (0x900000, 0x40000), (0xA00000, 0x40000), (0xA40000, 0x20000),
    (0xB00000, 0x4000), (0xC00000, 0x8000), (0xC08000, 0x100)]

/-- Every kind but ENET, whose two pages lie 64 KiB apart, has its bytes in one assigned range. -/
theorem Kind.extent_assigned : ∀ k ∈ Kind.all, k ≠ .enet → k ≠ .pba →
    ∃ e ∈ assignedRanges, e.1 ≤ k.base ∧ k.base + k.extent ≤ e.1 + e.2 := by decide +kernel

theorem Kind.not_holds_outside {a : Nat} (h : ∀ e ∈ assignedRanges, a < e.1 ∨ e.1 + e.2 ≤ a) (k : Kind) (hk : k ∈ Kind.all) :
    k.holds a = false := by
  by_contra hh
  rw [Bool.not_eq_false] at hh
  by_cases he : k = .enet
  · subst he
    have h0 := h (0x410000, 0x1000) (by decide)
    have h1 := h (0x420000, 0x1000) (by decide)
    obtain ⟨hbase, hcount, hsize⟩ := (Kind.holds_iff (by decide)).1 hh
    change 0x410000 ≤ a at hbase
    change (a - 0x410000) / 0x10000 < 2 at hcount
    change (a - 0x410000) % 0x10000 < 0x1000 at hsize
    omega
  by_cases hb : k = .pba
  · subst hb
    have h0 := h (0xC08000, 0x100) (by decide)
    obtain ⟨hbase, hcount, hsize⟩ := (Kind.holds_iff (by decide)).1 hh
    change 0xC08000 ≤ a at hbase
    change (a - 0xC08000) / 0x1000 < 1 at hcount
    change (a - 0xC08000) % 0x1000 < 256 at hsize
    omega
  obtain ⟨e, hm, hlo, hhi⟩ := Kind.extent_assigned k hk he hb
  have hr := Kind.holds_range hh
  rcases h e hm with ha | ha <;> omega

/-- Settles O58: each page's first two words are what Table 2-17 says, a write of them does nothing, and unassigned space reads 0. -/
theorem pagesIdentifyThemselves : Obligations.PagesIdentifyThemselves := by
  refine ⟨fun e he n hn => ?_, fun s fn off rel p v ht ha hb hr _ => ?_, fun s fn a v hp hr _ _ hout => ?_⟩
  · have table : ∀ e ∈ [(Kind.top, 0x0001, 2), (.clk, 0x0002, 2), (.time, 0x0003, 2), (.mon, 0x0004, 2), (.tmr, 0x0005, 1), (.pwr, 0x0006, 2),
        (.flash, 0x0007, 1), (.sec, 0x0008, 1), (.bank, 0x0010, 2), (.cal, 0x0011, 2), (.tu, 0x0020, 2), (.tcomb, 0x0021, 2), (.text, 0x0022, 1),
        (.tdc, 0x0030, 1), (.hist, 0x0040, 2), (.acc, 0x0041, 2), (.den, 0x0042, 2), (.diff, 0x0043, 1), (.st, 0x0100, 2), (.sq, 0x0200, 2),
        (.mc, 0x0300, 1), (.arb, 0x0301, 1), (.pcie, 0x0400, 1), (.enet, 0x0410, 1), (.rdma, 0x0430, 1), (.flink, 0x0440, 2),
        (.fport, 0x0441, 2), (.disp, 0x0450, 1)], e.1.isBlock = true ∧ e.1.ty = e.2.1 ∧ e.1.major = e.2.2 := by decide
    obtain ⟨hb, hty, hmajor⟩ := table e he
    exact ⟨(blkId_reset (p := ⟨e.1, n⟩) hb hn).trans hty, (blkVer_reset (p := ⟨e.1, n⟩) hb hn).trans (congrArg (· * 256) hmajor)⟩
  · have hw : run (hostWrite fn off 4 v.toNat) s = s := by
      rw [run_hostWrite_header _ ht ha hb (by omega)]
      rcases hr with rfl | rfl <;> rfl
    exact ⟨s, congrArg Host.Outcome.next hw, rfl, rfl⟩
  · have hl := locate_unassigned (Kind.not_holds_outside hout)
    exact ⟨congrArg Host.Outcome.next (run_readReg_unassigned fn 4 _ hl hp hr),
      congrArg Host.Outcome.next (run_hostWrite_unassigned fn 4 _ hl hp hr)⟩

end Sys2Proof.Machine

/-! SUPPORT. Proofs: a denied access reads 0 and writes nothing, and is counted and logged. -/

namespace Sys2Proof.Machine

/-! ### The cells that deliveries and denials write -/

theorem deliveryCells_range : ∀ b ∈ deliveryCells, 0x400000 ≤ b ∧ b < 0x401000 := by decide

theorem notMem_deliveryCells {a : Nat} (h : a < 0x400000 ∨ 0x401000 ≤ a) : a ∉ deliveryCells := fun hm => by
  have := deliveryCells_range a hm
  omega

/-- Deliveries write no cell of another block page than PCIE's. -/
theorem block_notMem_deliveryCells {p : Pg} {x : Nat} (hb : p.kind.isBlock = true) (hi : p.inst < p.kind.count) (hne : p ≠ pgPcie)
    (hx : x < 0x1000) : p.base + x ∉ deliveryCells := fun hm => by
  have hr := deliveryCells_range _ hm
  have h : p.base + x = pgPcie.base + (p.base + x - 0x400000) := by
    show p.base + x = 0x400000 + (p.base + x - 0x400000)
    omega
  exact hne (Pg.block_cells_apart hb hi (q := pgPcie) rfl (by decide) hx (by omega) h).1

/-- The act leaves the denials held. -/
def Act.keepsDenials : Act → Prop
  | .deny _ | .denyPop => False
  | _ => True

theorem keepsDenials_of_delivers (a : Act) (h : a.delivers) : a.keepsDenials := by cases a <;> trivial

theorem denials_of_only {p : Prog} (h : Prog.Only Act.keepsDenials p) (s : State) : (run p s).denials = s.denials :=
  h.keeps State.denials (fun a _ ha => by cases a <;> first | rfl | exact ha.elim) s

theorem denials_raise (p : Pg) (k : Nat) (s : State) : (run (raise p k) s).denials = s.denials :=
  denials_of_only (only_raise p k keepsDenials_of_delivers trivial) s

theorem denials_incRaise (p : Pg) (r : Row) (k : Nat) (s : State) : (run (incRaise p r k) s).denials = s.denials :=
  denials_of_only (only_incRaise p r k keepsDenials_of_delivers trivial fun _ => trivial) s

/-! ### What a denial does (R443, R454) -/

/-- A denial is on its way to the log: what it has counted on the SEC page and for its shell. -/
def denyCounts (shell : Nat) : Prog :=
  .all [.inc pgSec R.SEC_CNT_DENIED, .when (decide (shell < 4095)) (.add (pgShell shell) R.SHELL_CNT_DENIED 1)]

/-- What a denial does after it has been counted. -/
def denyLogs (room : Bool) (d : Denial) : Prog :=
  if room then .all [.one (.deny d), raise pgSec 1] else incRaise pgSec R.SEC_CNT_LOG_LOST 5

theorem run_denyAccess (shell fn kind a : Nat) (s : State) :
    run (denyAccess shell fn kind a) s =
      run (denyLogs (decide (s.denials.length < 16)) { shell := shell, func := fn, kind := kind, addr := a / 8 % 2 ^ 32 })
        (run (denyCounts shell) s) := by
  simp only [denyAccess, denyCounts, denyLogs, run_ask, run_all_cons, run_all_nil, run_ite, decide_eq_true_eq]

theorem counted_denyCounts (shell : Nat) (s : State) : Counted s (run (denyCounts shell) s) pgSec R.SEC_CNT_DENIED 1 := by
  have hspare : Prog.Only (Act.spares (R.SEC_CNT_DENIED.addr pgSec 0)) (.when (decide (shell < 4095)) (.add (pgShell shell) R.SHELL_CNT_DENIED 1)) := by
    rw [only_when]
    intro _
    refine only_add _ _ _ fun v => ?_
    simp only [Act.spares, Row.addr, R.SEC_CNT_DENIED, R.SHELL_CNT_DENIED, Pg.base, Kind.base, Kind.stride]
    omega
  rw [denyCounts, run_pair]
  exact (only_get hspare _).trans (counted_inc _ _ _ rfl)

theorem spares_denyLogs (room : Bool) (d : Denial) (a : Nat) (hd : a ∉ deliveryCells) (he : a ≠ pgSec.base + 0x014)
    (hl : room = false → a ≠ R.SEC_CNT_LOG_LOST.addr pgSec 0) : Prog.Only (Act.spares a) (denyLogs room d) := by
  cases room with
  | true =>
    simp only [denyLogs, if_true, only_all_cons, only_all_nil, only_one, and_true]
    exact ⟨trivial, only_raise _ _ (spares_of_delivers a hd) he⟩
  | false => exact only_incRaise _ _ _ (spares_of_delivers a hd) he fun _ => hl rfl

/-- A denial is counted. -/
theorem counted_denyAccess (shell fn kind a : Nat) (s : State) :
    Counted s (run (denyAccess shell fn kind a) s) pgSec R.SEC_CNT_DENIED 1 := by
  rw [run_denyAccess]
  exact (only_get (spares_denyLogs _ _ _ (notMem_deliveryCells (by decide)) (by decide) fun _ => by decide) _).trans (counted_denyCounts shell s)

theorem denials_denyCounts (shell : Nat) (s : State) : (run (denyCounts shell) s).denials = s.denials :=
  denials_of_only (by simp only [denyCounts, only_all_cons, only_all_nil, only_when, and_true]
                      exact ⟨only_inc _ _ fun _ => trivial, fun _ => only_add _ _ _ fun _ => trivial⟩) s

/-- A denial is logged where fewer than 16 are held. -/
theorem denials_denyAccess_room (shell fn kind a : Nat) (s : State) (h : s.denials.length < 16) :
    (run (denyAccess shell fn kind a) s).denials = s.denials ++ [{ shell := shell, func := fn, kind := kind, addr := a / 8 % 2 ^ 32 }] := by
  rw [run_denyAccess, decide_eq_true h, denyLogs, if_pos rfl, run_pair, denials_raise, run_one, applyAct]
  dsimp only
  rw [denials_denyCounts, List.take_of_length_le]
  rw [List.length_append, List.length_singleton]
  omega

/-- A denial that finds 16 held is counted as lost. -/
theorem denials_denyAccess_full (shell fn kind a : Nat) (s : State) (h : 16 ≤ s.denials.length) :
    (run (denyAccess shell fn kind a) s).denials = s.denials ∧
      Counted s (run (denyAccess shell fn kind a) s) pgSec R.SEC_CNT_LOG_LOST 1 := by
  have hspare : Prog.Only (Act.spares (R.SEC_CNT_LOG_LOST.addr pgSec 0)) (denyCounts shell) := by
    simp only [denyCounts, only_all_cons, only_all_nil, only_when, and_true]
    refine ⟨only_inc _ _ fun _ => (by decide : R.SEC_CNT_LOG_LOST.addr pgSec 0 ≠ R.SEC_CNT_DENIED.addr pgSec 0), fun _ => only_add _ _ _ fun v => ?_⟩
    simp only [Act.spares, Row.addr, R.SEC_CNT_LOG_LOST, R.SHELL_CNT_DENIED, Pg.base, Kind.base, Kind.stride]
    omega
  rw [run_denyAccess, decide_eq_false (by omega), denyLogs, if_neg Bool.false_ne_true]
  refine ⟨(denials_incRaise _ _ _ _).trans (denials_denyCounts shell s), ?_⟩
  rw [incRaise, run_pair]
  refine Counted.of_get_eq (only_get hspare s).symm ?_ (counted_inc _ _ (run (denyCounts shell) s) rfl)
  exact only_get (only_raise _ _ (spares_of_delivers _ (notMem_deliveryCells (by decide)))
    (by decide : R.SEC_CNT_LOG_LOST.addr pgSec 0 ≠ pgSec.base + 0x014)) _

/-- A denial writes cells of the SEC page, of the PCIE page and of the shell table alone. -/
theorem cell_denyAccess {a : Nat} (shell fn kind b : Nat) (s : State) (hsec : a < 0x7000 ∨ 0x8000 ≤ a) (hpcie : a < 0x400000 ∨ 0x401000 ≤ a)
    (hshell : a < 0xA00000 ∨ 0xA40000 ≤ a) : (run (denyAccess shell fn kind b) s).cell a = s.cell a := by
  have sec {x : Nat} (hx : x < 0x1000) : a ≠ pgSec.base + x := by
    show a ≠ 0x7000 + x
    omega
  have counts : Prog.Only (Act.spares a) (denyCounts shell) := by
    simp only [denyCounts, only_all_cons, only_all_nil, only_when, and_true, decide_eq_true_eq]
    refine ⟨only_inc _ _ fun v => sec (by decide), fun hs => only_add _ _ _ fun v => ?_⟩
    simp only [Act.spares, Row.addr, R.SHELL_CNT_DENIED, Pg.base, Kind.base, Kind.stride]
    omega
  rw [run_denyAccess, only_cell (spares_denyLogs _ _ a (notMem_deliveryCells hpcie) (sec (by decide)) fun _ => sec (by decide)), only_cell counts]

/-! ### Denied accesses -/

section
variable {s : State} {fn a rel w : Nat} {p : Pg}

theorem run_hostWrite_denied (v : Nat) (ht : s.target fn a = (p, rel)) (hm : s.mayReach fn a p = false) (hp : s.pstate ≠ 0)
    (hr : s.recovery = false) :
    run (hostWrite fn a w v) s = run (denyAccess (s.funcShell fn) fn (if (locate a).1.kind = .route then 6 else 1) a) s := by
  simp [hostWrite, ht, hp, hr, hm]

theorem run_readReg_denied (k : Nat → Prog) (ht : s.target fn a = (p, rel)) (hm : s.mayReach fn a p = false) (hp : s.pstate ≠ 0)
    (hr : s.recovery = false) : run (readReg fn a w k) s = run (k 0) (run (denyAccess (s.funcShell fn) fn 0 a) s) := by
  simp [readReg, ht, hp, hr, hm]

/-- The page or entry that an access reaches exists; an MSI-X entry is one of its function's range, wherever that lies. -/
theorem target_inst (h : s.target fn a = (p, rel)) : p = ⟨.none, 0⟩ ∨ p = ⟨.legacy, 0⟩ ∨ p.kind = .msix ∨ p.inst < p.kind.count := by
  unfold State.target at h
  split at h
  next q r hq =>
  split at h
  · split at h
    · split at h <;> cases h
      · exact .inr (.inr (.inl rfl))
      · exact .inl rfl
    · cases h; exact .inl rfl
  · cases h
    rcases locate_cases hq with e | e | ⟨-, -, hi, -⟩
    · exact .inl e
    · exact .inr (.inl e)
    · exact .inr (.inr (.inr hi))

/-- The 4 KiB from a page or entry on hold nothing that a denial writes, unless it is one of the pages it counts on. -/
theorem page_apart (h : s.target fn a = (p, rel)) (hk : p.kind ∉ [Kind.sec, .pcie, .shell]) {b : Nat} (hlo : p.base ≤ b)
    (hhi : b < p.base + 0x1000) : (b < 0x7000 ∨ 0x8000 ≤ b) ∧ (b < 0x400000 ∨ 0x401000 ≤ b) ∧ (b < 0xA00000 ∨ 0xA40000 ≤ b) := by
  have hi := target_inst h
  obtain ⟨k, n⟩ := p
  simp only [List.mem_cons, List.not_mem_nil, or_false, not_or] at hk
  obtain ⟨hsec, hpcie, hshell⟩ := hk
  cases k <;> simp only [Pg.base, Kind.base, Kind.stride, Kind.count, Pg.mk.injEq, reduceCtorEq, false_and, true_and, false_or] at hi hlo hhi <;>
    first | contradiction | omega

end

/-- Settles O59: a denied access runs `denyAccess` and nothing else of the access. -/
theorem deniedAccessesAreDiscarded : Obligations.DeniedAccessesAreDiscarded := by
  intro s fn off w rel p v ht hm hp hr logged
  have logs (kind : Nat) : logged kind (run (denyAccess (s.funcShell fn) fn kind off) s) := by
    refine ⟨counted_denyAccess .., denials_denyAccess_room _ _ _ _ s, denials_denyAccess_full _ _ _ _ s, fun hk a hlo hhi => ?_⟩
    obtain ⟨hsec, hpcie, hshell⟩ := page_apart ht hk hlo hhi
    exact cell_denyAccess _ _ _ _ s hsec hpcie hshell
  exact ⟨⟨_, congrArg Host.Outcome.next (run_hostWrite_denied _ ht hm hp hr), logs _⟩,
    ⟨_, congrArg Host.Outcome.next (run_readReg_denied _ ht hm hp hr), logs 0, rfl⟩⟩

end Sys2Proof.Machine

/-! SUPPORT. Proofs: what the delivery of an event can do, where it goes, and that a source set anew is delivered once. -/

namespace Sys2Proof.Machine

/-! ### Bits of a register word -/

@[simp] theorem bit_putField (w : Word) (hi lo x k : Nat) (h : lo ≤ hi) (hn : hi < 32) :
    bit (putField w hi lo x).toNat k = if lo ≤ k ∧ k ≤ hi then x.testBit (k - lo) else bit w.toNat k := by
  rw [bit, putField_toNat w hi lo x h hn, testBit_putBits _ _ _ _ _ h, bit]

/-- What is left of a word when the bits that another has are cleared. -/
theorem toNat_sub_and (x y : Word) : x.toNat - (x.toNat &&& y.toNat) = (x &&& ~~~y).toNat := by
  have hsum : (x &&& y) + (x &&& ~~~y) = x := by
    rw [BitVec.add_eq_or_of_and_eq_zero]
    · ext i hi; simp only [BitVec.getElem_or, BitVec.getElem_and, BitVec.getElem_not]; cases x[i] <;> cases y[i] <;> rfl
    · ext i hi; simp only [BitVec.getElem_and, BitVec.getElem_not, BitVec.getElem_zero]; cases x[i] <;> cases y[i] <;> rfl
  have hle : x &&& y ≤ x := by
    rw [BitVec.le_def, BitVec.toNat_and]
    exact Nat.and_le_left
  rw [← BitVec.toNat_and, ← BitVec.toNat_sub_of_le hle, sub_eq_of_eq_add' hsum.symm]

/-! ### A source that occurs (R64) -/

/-- Source k of a page is set. -/
def setSource (p : Pg) (k : Nat) : Prog := .one (.fld (p.base + 0x014) k k 1)

/-- A source that occurs is set, and delivered where it was not set and is enabled. -/
theorem run_raise (p : Pg) (k : Nat) (s : State) :
    run (raise p k) s = if s.raised p k = false ∧ bit (s.evtEn p) k = true then run (deliver (p.events.1 + k)) (run (setSource p k) s)
      else run (setSource p k) s := by
  simp only [raise, setSource, State.raised, run_ask, run_all_cons, run_all_nil, run_when, Bool.and_eq_true, Bool.not_eq_true']
  rfl

theorem cellOnly_fld (a hi lo v : Nat) (s : State) : CellOnly s (applyAct (.fld a hi lo v) s) a :=
  ⟨rfl, fun b hb => by rw [cell_applyAct_fld, if_neg hb]⟩

theorem cellOnly_setSource (p : Pg) (k : Nat) (s : State) : CellOnly s (run (setSource p k) s) (p.base + 0x014) := cellOnly_fld ..

theorem raised_setSource (p : Pg) (k j : Nat) (s : State) (hk : k < 32) :
    (run (setSource p k) s).raised p j = (decide (j = k) || s.raised p j) := by
  rw [State.raised, State.evtRaw, setSource, run_one, cell_applyAct_fld, if_pos rfl, bit_putField _ _ _ _ _ (Nat.le_refl k) hk]
  by_cases h : j = k
  · subst h; simp
  · rw [if_neg (by omega), decide_eq_false h, Bool.false_or]
    rfl

/-! ### What a delivery can do (R357 to R360) -/

/-- The entry of an event in an event ring. -/
def eventEntry (s : State) (e : Nat) : WaitEnt :=
  { bytes := leBytes 2 e ++ [0, 0] ++ leBytes 4 (s.evtRaw (evtPage e)) ++ qBytes s.now ++ leBytes 4 0 ++ leBytes 4 0, own := 0, ring := none }

/-- A delivery that is dropped sets PCIE source 3, which is itself delivered where it is set anew and enabled (R363). -/
def dropAgain (fuel : Nat) : Prog :=
  .ask fun t => .all [setSource pgPcie 3, .when (!(bit (t.evtRaw pgPcie) 3) && bit (t.evtEn pgPcie) 3) (deliverN fuel 899)]

/-- What every part of a delivery keeps. -/
structure DeliveryKeeps (P : State → Prop) : Prop where
  drop : ∀ s, P s → P (run (.inc pgPcie R.PCIE_CNT_EVT_DROP) s)
  source : ∀ s, P s → P (run (setSource pgPcie 3) s)
  msix : ∀ v s, P s → P (run (msixDeliver v) s)
  ring : ∀ n f s, (∀ r : Ring, (f r).ents = r.ents) → P s → P (run (modRing n f) s)
  flush : ∀ n s, P s → P (run (ringFlush n) s)
  send : ∀ n m s, P s → P (run (txSend n m) s)
  host : ∀ f s, (∀ h : HostIf, (f h).rings = h.rings) → P s → P (run (.host f) s)
  pin : ∀ n v s, P s → P (run (.out (.pin n v)) s)

section
variable {P : State → Prop} (hP : DeliveryKeeps P)
include hP

theorem DeliveryKeeps.evtDrop {q : Prog} (hq : ∀ s, P s → P (run q s)) (s : State) (hs : P s) : P (run (evtDrop q) s) := by
  rw [Machine.evtDrop, run_pair]
  exact hq _ (hP.drop s hs)

theorem DeliveryKeeps.eventRingPut {q : Prog} (hq : ∀ s, P s → P (run q s)) (n : Nat) (w : WaitEnt) (s : State) (hs : P s) :
    P (run (eventRingPut n w q) s) := by
  rw [Machine.eventRingPut, run_ask]
  split
  · rw [run_pair]; exact hP.evtDrop hq _ (hP.ring _ _ _ (fun _ => rfl) hs)
  · rw [run_pair]; exact hP.flush _ _ (hP.ring _ _ _ (fun _ => rfl) hs)

/-- What every part of a delivery keeps, a delivery keeps. -/
theorem DeliveryKeeps.deliverN (n e : Nat) (s : State) (hs : P s) : P (run (deliverN n e) s) := by
  induction n generalizing e s with
  | zero => exact hs
  | succ n ih =>
    have again : ∀ s, P s → P (run (dropAgain n) s) := fun s hs => by
      rw [dropAgain, run_ask, run_pair, run_when]
      split
      · exact ih _ _ (hP.source s hs)
      · exact hP.source s hs
    rw [Machine.deliverN, run_ask]
    simp only
    split
    · exact hP.host _ _ (fun _ => rfl) hs
    · split
      · split
        · exact hP.msix _ _ hs
        · exact hP.evtDrop again _ hs
      · split
        · exact hP.eventRingPut again _ _ _ hs
        · exact hP.evtDrop again _ hs
      · split
        · split
          · exact hP.send _ _ _ hs
          · exact hP.evtDrop again _ hs
        · exact hP.evtDrop again _ hs
      · rw [run_pair, run_when]
        split
        · exact hP.pin _ _ _ (hP.host _ _ (fun _ => rfl) hs)
        · exact hP.host _ _ (fun _ => rfl) hs
      · exact hs

theorem DeliveryKeeps.deliver (e : Nat) (s : State) (hs : P s) : P (run (deliver e) s) := hP.deliverN 2 e s hs

end

/-! ### A delivery clears no source -/

/-- The act is one of a delivery's, and writes no event source. -/
def Act.carries : Act → Prop
  | .fld b _ _ _ => b ∈ [R.PCIE_CNT_EVT_DROP.addr pgPcie 0, R.PCIE_CNT_MSIX.addr pgPcie 0, R.PCIE_CNT_ZLR.addr pgPcie 0]
  | .mem _ _ | .emit _ | .host _ | .tx _ => True
  | _ => False

theorem carries_ringFlush (n : Nat) : Prog.Only Act.carries (ringFlush n) := by
  have store (n a : Nat) (bs : List Byte) : Prog.Only Act.carries (ringStore n a bs) := by
    intro s
    dsimp only
    split
    · split <;> trivial
    · trivial
  intro s
  refine only_each _ _ fun _ _ => fun t => ?_
  dsimp only
  split
  · simp only [only_when, only_all_cons, only_all_nil, and_true, only_out]
    exact fun _ => ⟨store _ _ _, ⟨trivial, trivial⟩, fun _ => ⟨only_inc _ _ fun v => by simp [Act.carries], trivial⟩⟩
  · trivial

theorem carries_msixDeliver (v : Nat) : Prog.Only Act.carries (msixDeliver v) := by
  have send : Prog.Only Act.carries (sendMsix v) := by
    intro s
    dsimp only
    split
    · exact only_inc _ _ fun v => by simp [Act.carries]
    · split
      · trivial
      · split
        · exact ⟨trivial, trivial⟩
        · simp only [only_all_cons, only_all_nil, and_true, only_out]
          exact ⟨trivial, only_inc _ _ fun v => by simp [Act.carries]⟩
  intro s
  simp only [coalSend, only_all_cons, only_all_nil, and_true, only_when]
  exact ⟨⟨trivial, trivial⟩, fun _ => ⟨⟨trivial, trivial⟩, send⟩⟩

theorem carries_txSend (n : Nat) (m : Msg) : Prog.Only Act.carries (txSend n m) := only_txSend n m (fun _ => trivial) fun _ => trivial

/-- The event sources of a page are at no counter of PCIE. -/
theorem spares_of_carries {p : Pg} (hb : p.kind.isBlock = true) (hi : p.inst < p.kind.count) (a : Act) (h : a.carries) :
    a.spares (p.base + 0x014) := by
  have hm := (Pg.base_block hb hi).1
  cases a with
  | fld b _ _ _ =>
    have off : ∀ b ∈ [R.PCIE_CNT_EVT_DROP.addr pgPcie 0, R.PCIE_CNT_MSIX.addr pgPcie 0, R.PCIE_CNT_ZLR.addr pgPcie 0],
        b % 0x1000 ≠ 0x014 := by decide
    have := off b h
    show p.base + 0x014 ≠ b
    omega
  | _ => trivial

/-- A source that is set stays set through every delivery. -/
theorem deliveryKeeps_raised {p : Pg} (hb : p.kind.isBlock = true) (hi : p.inst < p.kind.count) (k : Nat) :
    DeliveryKeeps fun s => s.raised p k = true := by
  have carried {q : Prog} (hq : Prog.Only Act.carries q) (s : State) (hs : s.raised p k = true) : (run q s).raised p k = true := by
    rw [State.raised, State.evtRaw, only_cell (Prog.Only.mono (spares_of_carries hb hi) q hq)]
    exact hs
  refine ⟨fun s => carried (only_inc _ _ fun v => by simp [Act.carries]) s, fun s hs => ?_, fun v => carried (carries_msixDeliver v),
    fun _ _ _ _ => id, fun n => carried (carries_ringFlush n), fun n m => carried (carries_txSend n m), fun _ _ _ => id, fun _ _ _ => id⟩
  by_cases h : p.base = pgPcie.base
  · have hp : p = pgPcie := (Pg.block_cells_apart (x := 0) (y := 0) hb hi rfl (by decide) (by decide) (by decide) (by omega)).1
    subst hp
    rw [raised_setSource _ _ _ _ (by decide), hs, Bool.or_true]
  · rw [State.raised, State.evtRaw, (cellOnly_setSource pgPcie 3 s).2 _ (by omega)]
    exact hs

/-- A source that occurs is set. -/
theorem raised_raise {p : Pg} (hb : p.kind.isBlock = true) (hi : p.inst < p.kind.count) {k : Nat} (hk : k < 32) (s : State) :
    (run (raise p k) s).raised p k = true := by
  have hset : (run (setSource p k) s).raised p k = true := by rw [raised_setSource p k k s hk, decide_eq_true rfl, Bool.true_or]
  rw [run_raise]
  split
  · exact (deliveryKeeps_raised hb hi k).deliver _ _ hset
  · exact hset

end Sys2Proof.Machine

/-! SUPPORT. Proofs: errors are captured in ERR_INFO, the first with its code and detail (R46). -/

namespace Sys2Proof.Machine

/-! ### Capture -/

/-- Deliveries write no word of a common header but PCIE's event sources. -/
theorem header_notMem_deliveryCells {p : Pg} {x : Nat} (hb : p.kind.isBlock = true) (hi : p.inst < p.kind.count) (hx : x < 0x40)
    (hne : x ≠ 0x014) : p.base + x ∉ deliveryCells := fun hm => by
  have off : ∀ b ∈ deliveryCells, b % 0x1000 = 0x014 ∨ 0x40 ≤ b % 0x1000 := by decide
  have := off _ hm
  have := (Pg.base_block hb hi).1
  omega

/-- The word of ERR_INFO that holds an error. -/
def errWord (code detail : Nat) : Nat := detail % 2 ^ 24 + code % 64 * 2 ^ 24 + 2 ^ 31

theorem errWord_lt (code detail : Nat) : errWord code detail < 2 ^ 32 := by
  unfold errWord
  omega

section
variable {p : Pg} {s : State} (hb : p.kind.isBlock = true) (hi : p.inst < p.kind.count)

theorem run_capture_fresh (code detail : Nat) (h : bit (s.errInfo p) 31 = false) :
    run (capture p code detail) s =
      run (.when (decide (1 ≤ p.events.2)) (raise p 0)) (run (.one (.wr (p.base + 0x028) (BitVec.ofNat 32 (errWord code detail)))) s) := by
  rw [capture, run_ask, h, if_neg Bool.false_ne_true, run_pair, errWord]

theorem run_capture_held (code detail : Nat) (h : bit (s.errInfo p) 31 = true) :
    run (capture p code detail) s = run (.one (.fld (p.base + 0x028) 30 30 1)) s := by
  rw [capture, run_ask, h, if_pos rfl]

include hb hi

/-- An error found while VALID is 0 is captured. -/
theorem errInfo_capture (code detail : Nat) (h : bit (s.errInfo p) 31 = false) :
    (run (capture p code detail) s).errInfo p = errWord code detail := by
  have hspare : Prog.Only (Act.spares (p.base + 0x028)) (.when (decide (1 ≤ p.events.2)) (raise p 0)) := (only_when _ _).2 fun _ =>
    only_raise p 0 (spares_of_delivers _ (header_notMem_deliveryCells hb hi (by decide) (by decide))) (by simp [Act.spares])
  rw [State.errInfo, run_capture_fresh _ _ h, only_cell hspare, run_one, cell_applyAct_wr, if_pos rfl, BitVec.toNat_ofNat,
    Nat.mod_eq_of_lt (errWord_lt _ _)]

theorem captured_capture (code detail : Nat) : Captured s (run (capture p code detail) s) p code detail :=
  errInfo_capture hb hi code detail

/-- With an error captured ERR is raised, on a page that has sources. -/
theorem raised_capture (code detail : Nat) (h : bit (s.errInfo p) 31 = false) (he : 1 ≤ p.events.2) :
    (run (capture p code detail) s).raised p 0 = true := by
  rw [run_capture_fresh _ _ h, run_when, if_pos (decide_eq_true he)]
  exact raised_raise hb hi (by decide) _

omit hb hi in
/-- A capture writes ERR_INFO and EVT_RAW of its page, and what a delivery writes. -/
theorem cell_capture {a : Nat} (code detail : Nat) (h28 : a ≠ p.base + 0x028) (h14 : a ≠ p.base + 0x014) (hd : a ∉ deliveryCells) :
    (run (capture p code detail) s).cell a = s.cell a :=
  only_cell (only_capture p _ _ (spares_of_delivers a hd) h14 h28 fun _ => h28) s

end

/-- A further error sets LOST. -/
theorem errInfo_capture_lost {p : Pg} {s : State} (code detail : Nat) (h : bit (s.errInfo p) 31 = true) :
    (run (capture p code detail) s).errInfo p = s.errInfo p ||| 2 ^ 30 := by
  apply Nat.eq_of_testBit_eq
  intro k
  rw [run_capture_held _ _ h, State.errInfo, run_one, cell_applyAct_fld, if_pos rfl]
  refine (bit_putField _ 30 30 1 k (by decide) (by decide)).trans ?_
  rw [Nat.testBit_or, Nat.testBit_two_pow]
  by_cases hk : k = 30
  · subst hk; simp
  · rw [if_neg (by omega), decide_eq_false (Ne.symm hk), Bool.or_false]
    rfl

/-- An error captured after what leaves ERR_INFO as it was, and then kept. -/
theorem Captured.of_errInfo_eq {s u v t : State} {p : Pg} {code detail : Nat} (h : Captured u v p code detail)
    (hs : u.errInfo p = s.errInfo p) (ht : t.errInfo p = v.errInfo p) : Captured s t p code detail := fun hv => by
  rw [ht]
  exact h (by rw [hs]; exact hv)

theorem errInfo_of_spares {q : Prog} {p : Pg} (h : Prog.Only (Act.spares (p.base + 0x028)) q) (s : State) :
    (run q s).errInfo p = s.errInfo p := by rw [State.errInfo, only_cell h, State.errInfo]

/-! ### Sources by their global number (Table 2-18) -/

/-- The 2,048 event numbers of Table 2-18, page by page: each is counted from the first of the page it leads back to. -/
theorem evtPage_table : ∀ k ∈ Kind.all, k.isBlock = true → ∀ n < k.count, ∀ j < (Pg.events ⟨k, n⟩).2,
    evtPage ((Pg.events ⟨k, n⟩).1 + j) = ⟨k, n⟩ := by decide +kernel

theorem evtPage_events {p : Pg} {k : Nat} (hb : p.kind.isBlock = true) (hi : p.inst < p.kind.count) (hk : k < p.events.2) :
    evtPage (p.events.1 + k) = p :=
  evtPage_table p.kind (Kind.mem_all _ (Kind.ne_none_of_block hb)) hb p.inst hi k hk

end Sys2Proof.Machine

/-! SUPPORT. Proofs: the common error codes of Table 2-12, each from the operation that finds the error. -/

namespace Sys2Proof.Machine

/-! ### Accesses with the wrong width or a reserved encoding (R37, R59) -/

theorem captureAcc_block {p : Pg} (hb : p.kind.isBlock = true) (code a rel : Nat) : captureAcc p code a rel = capture p code rel := by
  obtain ⟨k, n⟩ := p
  cases k <;> first | rfl | exact absurd hb Bool.false_ne_true

section
variable {s : State} {fn a rel w : Nat} {p : Pg}

/-- A write of a bad width or alignment does nothing but report the error. -/
theorem run_hostWrite_misaligned (v : Nat) (ht : s.target fn a = (p, rel)) (hp : s.pstate ≠ 0) (hr : s.recovery = false)
    (hm : s.mayReach fn a p = true) (ha : p.assigned rel w = true) (hg : goodWidth a w = false) :
    run (hostWrite fn a w v) s = run (captureAcc p 0x01 a rel) s := by
  simp [hostWrite, ht, hp, hr, hm, ha, hg]

/-- A read of a bad width or alignment reports the error, and is then answered with some word. -/
theorem run_readReg_misaligned (k : Nat → Prog) (ht : s.target fn a = (p, rel)) (hp : s.pstate ≠ 0) (hr : s.recovery = false)
    (hm : s.mayReach fn a p = true) (ha : p.assigned rel w = true) (hg : goodWidth a w = false) :
    ∃ v, run (readReg fn a w k) s = run (k v) (run (captureAcc p 0x01 a rel) s) := by
  simp only [readReg, run_ask, ht, hp, hr, hm, ha, hg, decide_false, Bool.false_and, Bool.not_true, Bool.not_false, Bool.false_eq_true, if_false,
    if_true, run_pair]
  exact ⟨_, rfl⟩

/-- A write of a reserved encoding does nothing but report the error. -/
theorem run_writeWords_reserved (ws : List Nat) (hh : (p.kind.isBlock && decide (rel < 0x40)) = false) (h : reservedWrite p rel ws = true) :
    run (writeWords fn p rel ws) s = run (captureAcc p 0x02 (p.base + rel) rel) s := by
  rw [writeWords, run_ask, hh, if_neg Bool.false_ne_true, if_pos h]

end

/-! ### States whose register cells read the same -/

/-- Every register cell reads the same. -/
def SameCells (s t : State) : Prop := ∀ a, t.cell a = s.cell a

section
variable {s t : State} (h : SameCells s t)
include h

theorem SameCells.geti_eq (p : Pg) (r : Row) (i : Nat) : t.geti p r i = s.geti p r i := by rw [State.geti, h, State.geti]

theorem SameCells.live_eq (p : Pg) (r : Row) : t.live p r = s.live p r := by rw [State.live, State.livei, h, State.live, State.livei]

theorem SameCells.applyAct (a : Act) : SameCells (applyAct a s) (applyAct a t) := by
  intro b
  cases a with
  | fld c hi lo v => rw [cell_applyAct_fld, cell_applyAct_fld, h, h]
  | wr c v => rw [cell_applyAct_wr, cell_applyAct_wr, h]
  | _ => exact h b

theorem SameCells.each {α : Type} (l : List α) (f : α → Prog) (hf : ∀ x s t, SameCells s t → SameCells (run (f x) s) (run (f x) t)) :
    SameCells (run (.each l f) s) (run (.each l f) t) := by
  induction l generalizing s t with
  | nil => exact h
  | cons x l ih =>
    rw [run_each_cons, run_each_cons]
    exact ih (hf x s t h)

/-- Live copies that are taken from shadows that read the same read the same. -/
theorem SameCells.with (ps : List Pg) : SameCells (s.with ps) (t.with ps) := by
  refine h.each ps copyLive fun p s t h => ?_
  rw [copyLive, run_ask, run_ask]
  simp only [h.geti_eq]
  exact h.each _ _ fun r _ _ h => h.each _ _ fun i _ _ h => h.applyAct _

theorem SameCells.clkBad_eq : t.clkBad = s.clkBad := by
  simp only [State.clkBad, State.fsbSet, h.live_eq]
  rfl

end

/-! ### A commit written to BLK_CTRL -/

/-- The bits of the word that a command writes to BLK_CTRL: EN and FREEZE as they stand, and the one it is given. -/
theorem bit_ctrlWith (s : State) (page k j : Nat) (v : Bool) :
    bit (s.ctrlWith page k v) j =
      if j = k then v else (decide (j = 8) || decide (j = 0)) && bit (s.cell (pageReg page 0x00C)).toNat j := by
  generalize hc : (s.cell (pageReg page 0x00C)).toNat = c
  rw [State.ctrlWith, hc, bit, testBit_putBits _ _ _ _ _ (Nat.le_refl k)]
  by_cases hj : j = k
  · subst hj; cases v <;> simp [b2n]
  · rw [if_neg (by omega), if_neg hj, Nat.mul_comm]
    have h0 : bits c 0 0 < 2 ^ 8 := Nat.lt_of_lt_of_le (bits_lt c 0 0) (by decide)
    rw [show (256 : Nat) = 2 ^ 8 from rfl, Nat.testBit_two_pow_mul_add _ h0]
    simp only [bits, Nat.testBit_mod_two_pow, Nat.testBit_shiftRight, bit]
    by_cases h8 : j < 8
    · have : j ≠ 8 := by omega
      by_cases hz : j = 0
      · subst hz; simp
      · have : ¬ j < 1 := by omega
        simp [*]
    · by_cases h9 : j = 8
      · subst h9; simp
      · have : ¬ j - 8 < 1 := by omega
        have : j ≠ 0 := by omega
        simp [*]

theorem ctrlWith_lt (s : State) (page k : Nat) (v : Bool) (hk : k < 32) : s.ctrlWith page k v < 2 ^ 32 := by
  refine putBits_lt _ k k _ 32 (Nat.le_refl k) hk ?_
  have h8 := bits_lt (s.cell (pageReg page 0x00C)).toNat 8 8
  have h0 := bits_lt (s.cell (pageReg page 0x00C)).toNat 0 0
  omega

/-- Writing the value that EN has changes no cell. -/
theorem sameCells_enKept (s : State) (p : Pg) (v : Nat) (hv : bit v 0 = s.en p) :
    SameCells s (run (.one (.fld (p.base + 0x00C) 0 0 (v % 2))) s) := by
  intro a
  rw [run_one, cell_applyAct_fld]
  split
  · next ha =>
    subst ha
    apply BitVec.eq_of_toNat_eq
    apply Nat.eq_of_testBit_eq
    intro k
    refine (bit_putField _ 0 0 _ k (Nat.le_refl 0) (by decide)).trans ?_
    split
    · next hk =>
      have hk : k = 0 := by omega
      subst hk
      have hm : (v % 2).testBit 0 = v.testBit 0 := by simp [Nat.testBit_zero]
      rw [Nat.sub_zero, hm]
      exact hv
    · rfl
  · rfl

/-- FREEZE as it stands: no snapshot is taken or given up. -/
theorem run_freezeWritten_kept (p : Pg) (s : State) : run (freezeWritten p (s.frozen p)) s = s := by
  rw [freezeWritten, run_ask]
  cases s.frozen p <;> rfl

/-- COMMIT of the CLK page: EN is written as it stands, and the commit is decided. -/
theorem run_commit_clk {s : State} (ha : s.answers 0 0x100C 4 = true) :
    ∃ u, SameCells s u ∧ run (hostWrite 0 0x100C 4 (s.ctrlWith 1 4 true)) s = run commitClk u := by
  have ht : s.target 0 0x100C = (pgClk, 0x00C) := target_at_block s 0 (p := pgClk) 0x00C rfl (by decide) (by decide)
  have hv := ctrlWith_lt s 1 4 true (by decide)
  have bits j := bit_ctrlWith s 1 4 j true
  generalize s.ctrlWith 1 4 true = v at *
  have h0 : bit v 0 = s.en pgClk := bits 0
  have h1 : bit v 1 = false := bits 1
  have h4 : bit v 4 = true := bits 4
  have h8 : bit v 8 = s.frozen pgClk := bits 8
  have hs := sameCells_enKept s pgClk v h0
  refine ⟨_, hs, ?_⟩
  have hf : run (freezeWritten pgClk (bit v 8)) (run (.one (.fld (pgClk.base + 0x00C) 0 0 (v % 2))) s) =
      run (.one (.fld (pgClk.base + 0x00C) 0 0 (v % 2))) s := by
    rw [h8, show s.frozen pgClk = (run (.one (.fld (pgClk.base + 0x00C) 0 0 (v % 2))) s).frozen pgClk by rw [State.frozen, ← hs, State.frozen]]
    exact run_freezeWritten_kept _ _
  rw [run_hostWrite_header _ ht ha rfl (by decide), Nat.mod_eq_of_lt hv]
  show run (ctrlWritten pgClk v) s = _
  rw [ctrlWritten, if_neg (by rw [h1]; decide), run_ask]
  have hno : s.enRefused pgClk = false := by simp [State.enRefused]
  simp only [hno, Bool.and_false, Bool.false_eq_true, if_false, run_all_cons, run_all_nil, run_when]
  rw [show enWritten pgClk (s.en pgClk) (bit v 0) = .nil from rfl, run_nil, hf, if_pos h4]
  rfl

/-- A commit of the CLK page that fails its check is refused, with the offset of the field. -/
theorem captured_commitClk {s u : State} {o : Nat} (hs : SameCells s u) (h : (s.with [pgClk]).clkBad = some o) :
    Captured s (run commitClk u) pgClk 3 o := by
  have hu : (u.with [pgClk]).clkBad = some o := (hs.with [pgClk]).clkBad_eq.trans h
  have hspare : Prog.Only (Act.spares (pgClk.base + 0x028)) (setPend pgClk false) := by
    simp only [setPend, only_all_cons, only_all_nil, only_one, and_true]
    exact ⟨(by decide : pgClk.base + 0x028 ≠ pgClk.base + 0x00C), (by decide : pgClk.base + 0x028 ≠ pgClk.base + 0x010)⟩
  rw [commitClk, run_ask, hu]
  simp only
  rw [run_pair]
  refine (captured_capture (p := pgClk) rfl (by decide) 3 o).of_errInfo_eq ?_ rfl
  rw [errInfo_of_spares hspare, State.errInfo, hs, State.errInfo]

/-! ### Uncorrectable errors of HBM, and requests aborted in the fabric (R435, R517) -/

theorem pgMc_inst {pc : Nat} (h : pc < 64) : (pgMc (pc / 16)).inst < (pgMc (pc / 16)).kind.count := by
  show pc / 16 < 4
  omega

/-- The fault log leaves ERR_INFO of a page other than TOP. -/
theorem spares_logFault {a : Nat} (code ty detail : Nat) (hd : a ∉ deliveryCells) (ha : 0x1000 ≤ a) :
    Prog.Only (Act.spares a) (logFault code ty detail) := by
  refine only_logFault _ _ _ (spares_of_delivers a hd) ?_ (fun _ => trivial) fun _ => ?_
  · show a ≠ 0x014
    omega
  · show a ≠ R.TOP_FLOG_COUNT.addr pgTop 0
    have : R.TOP_FLOG_COUNT.addr pgTop 0 < 0x1000 := by decide
    omega

/-- What follows a capture in the report of an HBM error: the records of the block that the word belongs to, and no register. -/
theorem errInfo_hbmOwner (s : State) (m : Pg) (pc addr item : Nat) (v : State) :
    (run (match s.sec.placed.find? fun e => decide (e.2.1 ≤ addr) && decide (addr < e.2.1 + e.2.2) with
      | some (k, b, _) =>
        if k < 8 then .when (histPc (addr - b) = pc) <| modChan k fun ch => { ch with noSets := s.wordSpan k (addr - b) :: ch.noSets }
        else if false then softReset (pgSt (k - 8))
        else degradeRec (k - 8) item
      | none => .when (false && decide (hbmReserved ≤ addr)) (coreReset 6)) v).errInfo m = v.errInfo m := by
  split
  · next k b _ _ =>
    by_cases hk : k < 8
    · rw [if_pos hk, run_when]
      split <;> rfl
    · rw [if_neg hk]
      rfl
  · rfl

/-- An uncorrectable error of HBM is captured by its controller, with the pseudo-channel. -/
theorem captured_hbmError {pc : Nat} (addr item : Nat) (s : State) (h : pc < 64) :
    Captured s (run (hbmError pc addr item false) s) (pgMc (pc / 16)) 4 pc := by
  have hi := pgMc_inst h
  have hd := header_notMem_deliveryCells (p := pgMc (pc / 16)) (x := 0x028) rfl hi (by decide) (by decide)
  have ha : (pgMc (pc / 16)).base + 0x028 = 0x300000 + 0x1000 * (pc / 16) + 0x028 := rfl
  have counts : Prog.Only (Act.spares ((pgMc (pc / 16)).base + 0x028)) (.inc (pgMc (pc / 16)) R.MC_CNT_ECC_UNCORR) :=
    only_inc _ _ fun _ => by simp [Act.spares, Row.addr, R.MC_CNT_ECC_UNCORR]
  have shows : Prog.Only (Act.spares ((pgMc (pc / 16)).base + 0x028)) (.set (pgMc (pc / 16)) R.MC_ECC_ADDR (addr / 64)) :=
    (only_set _ _ _).2 (by simp [Act.spares, Row.addr, R.MC_ECC_ADDR])
  have raises : Prog.Only (Act.spares ((pgMc (pc / 16)).base + 0x028)) (raise (pgMc (pc / 16)) 2) :=
    only_raise _ _ (spares_of_delivers _ hd) (by simp [Act.spares])
  have logs := spares_logFault 0x0D Kind.mc.ty pc hd (by omega)
  rw [hbmError, run_ask]
  simp only [run_all_cons, run_all_nil]
  refine (captured_capture rfl hi 4 pc).of_errInfo_eq ?_
    ((errInfo_hbmOwner s (pgMc (pc / 16)) pc addr item _).trans (errInfo_of_spares logs _))
  rw [errInfo_of_spares raises, errInfo_of_spares shows, errInfo_of_spares counts]

section
variable {q a : Nat} (hq : q < 32) (ha : 0x220000 ≤ a) (hd : a ∉ deliveryCells)
include hq ha

/-- A register of a sequencer's page lies below the pages that follow them. -/
theorem spares_sq (r : Row) (v : Nat) (hr : r.off < 0x1000 := by decide) :
    Act.spares a (.fld (r.addr (pgSq q) 0) r.hi r.lo v) := by
  show a ≠ (pgSq q).base + r.off + r.stride * 0
  have : (pgSq q).base = 0x200000 + 0x1000 * q := rfl
  omega

include hd

theorem spares_sqRaise (k : Nat) : Prog.Only (Act.spares a) (raise (pgSq q) k) := by
  refine only_raise _ _ (spares_of_delivers a hd) ?_
  show a ≠ (pgSq q).base + 0x014
  have : (pgSq q).base = 0x200000 + 0x1000 * q := rfl
  omega

theorem spares_sqStat : Prog.Only (Act.spares a) (sqStat q) := fun s => by
  simp only [only_all_cons, only_all_nil, only_set, only_when]
  exact ⟨spares_sq hq ha _ _, fun _ => spares_sqRaise hq ha hd 3, spares_sq hq ha _ _, trivial⟩

theorem spares_endCmd (k rank status result : Nat) : Prog.Only (Act.spares a) (endCmd q k rank status result) := fun s => by
  dsimp only
  split
  · trivial
  · next h _ =>
    have sends : Prog.Only (Act.spares a) (sendCompletion h q status result) := fun _ => by
      simp only [only_all_cons, only_all_nil]
      exact ⟨only_modRing _ _ (spares_of_delivers a hd), only_ringFlush _ (spares_of_delivers a hd), trivial⟩
    simp only [only_all_cons, only_all_nil, only_when, incRaise, releaseSlot]
    exact ⟨fun _ => ⟨sends, only_inc _ _ fun v => spares_sq hq ha _ v, trivial⟩,
      ⟨only_inc _ _ fun v => spares_sq hq ha _ v, spares_sqRaise hq ha hd 2, trivial⟩,
      ⟨(only_one _).2 trivial, (only_one _).2 trivial, spares_sqStat hq ha hd, trivial⟩, trivial⟩

/-- What an aborted request does to the command that made it stays in the command's sequencer. -/
theorem spares_sqAborted (reset : Bool) : Prog.Only (Act.spares a) (sqAborted q reset) := fun s => by
  have hend k status result := spares_endCmd hq ha hd k 5 status result
  dsimp only
  split
  · exact (only_one _).2 trivial
  · split
    · simp only [only_all_cons, only_all_nil]
      exact ⟨hend _ _ _, (only_one _).2 trivial, trivial⟩
    · trivial

end

/-- A request that the fabric aborts is captured by ARB, with the requester. -/
theorem captured_fabricAbort (r : Nat) (reset : Bool) (s : State) :
    Captured s (run (fabricAbort r reset none) s) pgArb (if reset then 6 else 5) r := by
  have hi : pgArb.inst < pgArb.kind.count := by decide
  have hd : pgArb.base + 0x028 ∉ deliveryCells := header_notMem_deliveryCells rfl hi (by decide) (by decide)
  have hdel := spares_of_delivers _ hd
  have counts : Prog.Only (Act.spares (pgArb.base + 0x028)) (.inc pgArb R.ARB_CNT_TIMEOUT) :=
    only_inc _ _ fun _ => by show pgArb.base + 0x028 ≠ R.ARB_CNT_TIMEOUT.addr pgArb 0; decide
  have reports : Prog.Only (Act.spares (pgArb.base + 0x028)) (.when (!reset) (.all [raise pgArb 1, logFault 0x0E 0x301 r])) := by
    simp only [only_when, only_all_cons, only_all_nil]
    exact fun _ => ⟨only_raise _ _ hdel (by show pgArb.base + 0x028 ≠ pgArb.base + 0x014; decide), spares_logFault _ _ _ hd (by decide), trivial⟩
  have ends : Prog.Only (Act.spares (pgArb.base + 0x028)) (.when (decide (44 ≤ r) && decide (r < 76)) (sqAborted (r - 44) reset)) := by
    rw [only_when, Bool.and_eq_true, decide_eq_true_iff, decide_eq_true_iff]
    exact fun ⟨_, h⟩ => spares_sqAborted (by omega) (by decide) hd reset
  have shows : Prog.Only (Act.spares (pgArb.base + 0x028)) (fabStat r) := fun s => by
    simp only [only_all_cons, only_all_nil, only_when, only_set, only_seti, decide_eq_true_iff]
    refine ⟨fun _ => ?_, fun _ => ?_, trivial⟩
    · show pgArb.base + 0x028 ≠ pgArb.base + 0x100 + 4 * r
      omega
    · show pgArb.base + 0x028 ≠ R.ARB_HINT_NOW.addr pgArb 0
      decide
  rw [fabricAbort, abortReport]
  simp only [run_all_cons, run_all_nil]
  refine (captured_capture rfl hi _ r).of_errInfo_eq rfl ?_
  rw [run_nil, errInfo_of_spares shows]
  refine (errInfo_of_spares ends _).trans ?_
  rw [errInfo_of_spares reports, errInfo_of_spares counts]

/-! ### The statement -/

theorem execCommit_clk (s : State) : exec (.commit 0 1) s = .next (run (hostWrite 0 0x100C 4 (s.ctrlWith 1 4 true)) s) := rfl

/-- A write of a reserved encoding changes no cell of the word, on a page that deliveries do not write. -/
theorem cell_capture_block {p : Pg} {rel : Nat} (hb : p.kind.isBlock = true) (hi : p.inst < p.kind.count) (hr : 0x40 ≤ rel) (hr' : rel < 0x1000)
    (hne : p.kind ≠ .pcie) (code detail : Nat) (s : State) : (run (capture p code detail) s).cell (p.base + rel) = s.cell (p.base + rel) :=
  cell_capture code detail (by omega) (by omega) (block_notMem_deliveryCells hb hi (fun h => hne (by rw [h])) hr')

/-- Settles O55: ERR_INFO takes the first error, and each error of Table 2-12 reports its code and its detail. -/
theorem errorsAreCaptured : Obligations.ErrorsAreCaptured := by
  unfold Obligations.ErrorsAreCaptured
  intro s p code detail fn off w rel addr item v hb hi
  refine ⟨fun hcode hdetail => ⟨fun hv => ⟨?_, raised_capture hb hi code detail hv⟩, fun hv => ⟨?_, errInfo_capture_lost code detail hv⟩⟩,
    fun he => evtPage_events hb hi he, fun ht hp hr hm ha hg => ⟨?_, ?_⟩, fun ht ha hrel hlow hlow' hres => ?_, fun ha hbad => ?_, fun hrel => ?_,
    fun hrel => ⟨?_, ?_⟩⟩
  · rw [errInfo_capture hb hi code detail hv, errWord, Nat.mod_eq_of_lt hdetail, Nat.mod_eq_of_lt hcode]
  · rw [run_capture_held _ _ hv]
    exact cellOnly_fld _ _ _ _ _
  · obtain ⟨x, hx⟩ := run_readReg_misaligned (fun x => .out (.readData fn off x)) ht hp hr hm ha hg
    refine ⟨_, rfl, ?_⟩
    rw [hostRead, hx, captureAcc_block hb]
    exact (captured_capture hb hi 1 rel).of_errInfo_eq rfl rfl
  · refine ⟨_, rfl, ?_⟩
    rw [run_hostWrite_misaligned _ ht hp hr hm ha hg, captureAcc_block hb]
    exact captured_capture hb hi 1 rel
  · obtain ⟨-, -, hlt, -⟩ := target_block ht hb
    have hpage : (p.kind.isBlock && decide (rel < 0x40)) = false := by rw [decide_eq_false (by omega), Bool.and_false]
    refine ⟨_, rfl, ?_⟩
    rw [run_hostWrite_register _ ht ha hlow fun _ => hlow', run_writeWords_reserved _ hpage hres, captureAcc_block hb]
    exact ⟨captured_capture hb hi 2 rel, fun hne => cell_capture_block hb hi hrel hlt hne 2 rel s⟩
  · obtain ⟨u, hu, hrun⟩ := run_commit_clk ha
    exact ⟨_, execCommit_clk s, hrun ▸ captured_commitClk hu hbad⟩
  · refine ⟨_, rfl, ?_⟩
    show Captured s (run (.when (decide (rel < 64)) (hbmError rel addr item false)) s) _ 4 rel
    rw [run_when, if_pos (decide_eq_true hrel)]
    exact captured_hbmError addr item s hrel
  · refine ⟨_, rfl, ?_⟩
    rw [run_when, if_pos (decide_eq_true hrel)]
    exact captured_fabricAbort rel false s
  · refine ⟨_, rfl, ?_⟩
    rw [run_when, if_pos (decide_eq_true hrel)]
    exact captured_fabricAbort rel true s

end Sys2Proof.Machine

/-! SUPPORT. Proofs: events are delivered once, to the destination that the routing table names (R64, R357 to R360). -/

namespace Sys2Proof.Machine

/-! ### What a set source leaves as it was -/

theorem CellOnly.get_eq {s t : State} {a : Nat} {q : Pg} {r : Row} (h : CellOnly s t a) (hne : r.addr q 0 ≠ a) : t.get q r = s.get q r := by
  rw [State.get, State.geti, h.2 _ hne, State.get, State.geti]

theorem events_le (p : Pg) : p.events.2 ≤ 32 := by
  rw [Pg.events]
  split <;> simp

section
variable {p : Pg} {s : State} (hb : p.kind.isBlock = true) (hi : p.inst < p.kind.count) (k : Nat)
include hb hi

/-- The tables of routes, vectors and rings read as they did. -/
theorem get_setSource_table {q : Pg} {r : Row} (h : 0x451000 ≤ q.base) : (run (setSource p k) s).get q r = s.get q r := by
  refine (cellOnly_setSource p k s).get_eq ?_
  have := (Pg.base_block hb hi).2
  show q.base + r.off + r.stride * 0 ≠ p.base + 0x014
  omega

/-- A register that lies at no page's EVT_RAW reads as it did. -/
theorem get_setSource {q : Pg} {r : Row} (h : r.addr q 0 % 0x1000 ≠ 0x014) : (run (setSource p k) s).get q r = s.get q r := by
  refine (cellOnly_setSource p k s).get_eq ?_
  have := (Pg.base_block hb hi).1
  omega

theorem pstate_setSource : (run (setSource p k) s).pstate = s.pstate := get_setSource hb hi k (by decide)

theorem evtEn_setSource {q : Pg} (hq : q.base % 0x1000 = 0) : (run (setSource p k) s).evtEn q = s.evtEn q := by
  have := (Pg.base_block hb hi).1
  rw [State.evtEn, (cellOnly_setSource p k s).2 _ (by omega), State.evtEn]

end

theorem table_base (n : Nat) : 0x451000 ≤ (pgRoute n).base ∧ 0x451000 ≤ (pgMsix n).base ∧ 0x451000 ≤ (pgRing n).base := by
  refine ⟨?_, ?_, ?_⟩
  · exact Nat.le_trans (by decide : 0x451000 ≤ Kind.route.base) (Nat.le_add_right _ _)
  · exact Nat.le_trans (by decide : 0x451000 ≤ Kind.msix.base) (Nat.le_add_right _ _)
  · exact Nat.le_trans (by decide : 0x451000 ≤ Kind.ring.base) (Nat.le_add_right _ _)

/-! ### One delivery, by the kind of its route -/

section
variable {e g : Nat} {s : State} (hp : s.pstate ≠ 0)
include hp

theorem run_deliver_none (hk : s.get (pgRoute e) R.ROUTE_KIND = 0) : run (deliver e) s = s := by
  rw [deliver, deliverN, run_ask]
  simp only [if_neg hp, hk, run_nil]

variable (hg : s.get (pgRoute e) R.ROUTE_TARGET = g)
include hg

/-- A vector of no function drops its delivery. -/
theorem run_deliver_stray (hk : s.get (pgRoute e) R.ROUTE_KIND = 1) (hv : s.vecFunc g = none) :
    run (deliver e) s = run (dropAgain 1) (run (.inc pgPcie R.PCIE_CNT_EVT_DROP) s) := by
  rw [deliver, deliverN, run_ask]
  simp only [if_neg hp, hk, hg, hv, evtDrop, run_pair]
  rfl

theorem run_deliver_vector {f : Nat} (hk : s.get (pgRoute e) R.ROUTE_KIND = 1) (hv : s.vecFunc g = some f) :
    run (deliver e) s = run (msixDeliver g) s := by
  rw [deliver, deliverN, run_ask]
  simp only [if_neg hp, hk, hg, hv]

theorem run_deliver_ring (hk : s.get (pgRoute e) R.ROUTE_KIND = 2) (hr : s.isEventRing g = true) (hw : (s.ring g).waiting.length < 64) :
    run (deliver e) s = run (ringFlush g) (run (modRing g fun r => { r with waiting := r.waiting ++ [eventEntry s e] }) s) := by
  rw [deliver, deliverN, run_ask]
  simp only [if_neg hp, hk, hg, hr, if_true, eventRingPut, run_ask, if_neg (Nat.not_le.2 hw), run_pair]
  rfl

/-- An event output goes high, and its end is kept. -/
theorem run_deliver_pin (hk : s.get (pgRoute e) R.ROUTE_KIND = 4) (hn : Tab.find s.host.evtOut g = none) :
    run (deliver e) s = run (.out (.pin (pinEventOut g) true))
      (run (.host fun h => { h with evtOut := Tab.put h.evtOut g (s.now + nsQ (8 * s.get (pgRoute e) R.ROUTE_WIDTH)) }) s) := by
  rw [deliver, deliverN, run_ask]
  simp only [if_neg hp, hk, hg, run_pair, hn, Option.isNone_none, run_when, if_true]

end

/-- A vector that waits for no other delivery and does not coalesce sends its message at once. -/
theorem run_msixDeliver_at_once {s : State} {v f : Nat} (hv : s.vecFunc v = some f) (hn : Tab.find s.host.pend v = none) (hc : s.coal v = (1, 0))
    (hf : Tab.get s.host.flr false f = false) (hm : s.get (pgMsix v) R.MSIX_MASK = 0) (he : Tab.get s.host.msixEn false f = true) :
    ∃ h : HostIf, run (msixDeliver v) s = run (.inc pgPcie R.PCIE_CNT_MSIX) { s with
      host := h
      out := .msix v (s.get64 (pgMsix v) R.MSIX_ADDR_LO R.MSIX_ADDR_HI) (s.get (pgMsix v) R.MSIX_DATA) :: s.out } := by
  have sends (h : HostIf) (hvecs : h.vecs = s.host.vecs) (hflr : h.flr = s.host.flr) (hen : h.msixEn = s.host.msixEn) :
      run (sendMsix v) { s with host := h } = run (.inc pgPcie R.PCIE_CNT_MSIX) { s with
        host := h
        out := .msix v (s.get64 (pgMsix v) R.MSIX_ADDR_LO R.MSIX_ADDR_HI) (s.get (pgMsix v) R.MSIX_DATA) :: s.out } := by
    have hv' : ({ s with host := h } : State).vecFunc v = some f := by rw [State.vecFunc, hvecs]; exact hv
    have hm' : ({ s with host := h } : State).get (pgMsix v) R.MSIX_MASK = 0 := hm
    rw [sendMsix, run_ask]
    simp only [hv', hflr, hf, hm', hen, he, Bool.false_eq_true, if_false]
    rfl
  rw [msixDeliver, run_ask]
  simp only [Tab.get, hn, hc, Option.getD_none, if_true, run_pair, run_when]
  rw [if_pos (by decide), coalSend, run_pair]
  exact ⟨_, sends _ rfl rfl rfl⟩

theorem ring_modRing_same (n : Nat) (f : Ring → Ring) (s : State) : (run (modRing n f) s).ring n = f (s.ring n) :=
  (Tab.get_mod ..).trans (if_pos rfl)

/-- With no free entry nothing that waits is written. -/
theorem run_ringFlush_none {s : State} {n : Nat} (h : ∀ x ∈ (s.ring n).ents, x.st ≠ .ready) : run (ringFlush n) s = s := by
  have hfind : (s.ring n).ents.find? (fun e => e.st = .ready) = none := by simpa using h
  have hone : run (ringFlush1 n) s = s := by
    rw [ringFlush1, run_ask, hfind]
    split
    · contradiction
    · rfl
  rw [ringFlush, run_ask]
  induction List.range (s.ring n).waiting.length with
  | nil => rfl
  | cons _ l ih => rw [run_each_cons, hone, ih]

/-- Dropped with PCIE source 3 not enabled, a delivery is over. -/
theorem run_dropAgain_disabled {n : Nat} {s : State} (h : bit (s.evtEn pgPcie) 3 = false) :
    run (dropAgain n) s = run (setSource pgPcie 3) s := by
  rw [dropAgain, run_ask, run_pair, run_when, h, Bool.and_false, if_neg Bool.false_ne_true]

/-! ### A source that is cleared -/

/-- EVT_RAW written 1s clears those sources, and nothing else. -/
theorem run_headWrite_evtRaw (fn : Nat) (p : Pg) (v : Word) (s : State) :
    run (headWrite fn p 0x014 v.toNat) s = run (.one (.wr (p.base + 0x014) (s.cell (p.base + 0x014) &&& ~~~v))) s := by
  show run (.one (.wr _ _)) s = _
  rw [State.evtRaw, toNat_sub_and, BitVec.ofNat_toNat, BitVec.setWidth_eq]

/-- A source that was cleared is delivered when it recurs. -/
theorem run_raise_cleared {p : Pg} {k : Nat} (fn : Nat) {s : State} {v : Word} (hv : bit v.toNat k = true) (he : bit (s.evtEn p) k = true) :
    let u := run (headWrite fn p 0x014 v.toNat) s
    run (raise p k) u = run (deliver (p.events.1 + k)) (run (setSource p k) u) := by
  intro u
  have hu : u = run (.one (.wr (p.base + 0x014) (s.cell (p.base + 0x014) &&& ~~~v))) s := run_headWrite_evtRaw fn p v s
  have hraw : u.raised p k = false := by
    rw [hu, State.raised, State.evtRaw, run_one, cell_applyAct_wr, if_pos rfl, bit, BitVec.testBit_toNat, BitVec.getLsbD_and, BitVec.getLsbD_not,
      ← BitVec.testBit_toNat v, show v.toNat.testBit k = true from hv]
    simp
  have hen : bit (u.evtEn p) k = true := by
    rw [hu, State.evtEn, run_one, cell_applyAct_wr, if_neg (by omega)]
    exact he
  rw [run_raise, if_pos ⟨hraw, hen⟩]

/-! ### The statement -/

/-- Settles O56: a source set anew is delivered by one run of its route, and any other only sets. -/
theorem eventsAreDeliveredOnce : Obligations.EventsAreDeliveredOnce := by
  unfold Obligations.EventsAreDeliveredOnce
  intro s p k fn page v hb hi hk e t g kind
  have hk32 := Nat.lt_of_lt_of_le hk (events_le p)
  refine ⟨fun h => ?_, fun hp hraw hen => ?_, fun ht ha hv hen => ⟨_, rfl, ?_⟩⟩
  · have hset : t = run (setSource p k) s := (run_raise p k s).trans (if_neg fun ⟨h0, h1⟩ => by
      rw [h0, h1] at h
      exact h.elim Bool.false_ne_true Bool.noConfusion)
    exact ⟨hset ▸ cellOnly_setSource p k s, raised_raise hb hi hk32 s⟩
  · have hdel : t = run (deliver e) (run (setSource p k) s) := (run_raise p k s).trans (if_pos ⟨hraw, hen⟩)
    have hpu : (run (setSource p k) s).pstate ≠ 0 := pstate_setSource (s := s) hb hi k ▸ hp
    have hreads {r : Row} {q : Pg} (h : 0x451000 ≤ q.base) := get_setSource_table (r := r) (s := s) hb hi k h
    have hroute {r : Row} : (run (setSource p k) s).get (pgRoute e) r = s.get (pgRoute e) r := hreads (table_base e).1
    have hvector {r : Row} : (run (setSource p k) s).get (pgMsix g) r = s.get (pgMsix g) r := hreads (table_base g).2.1
    have hring' {r : Row} : (run (setSource p k) s).get (pgRing g) r = s.get (pgRing g) r := hreads (table_base g).2.2
    have hpcie {r : Row} (h : r.addr pgPcie 0 % 0x1000 ≠ 0x014) := get_setSource (s := s) hb hi k h
    refine ⟨raised_raise hb hi hk32 s, fun h0 => ?_, fun f h1 hvec hpend hcoal hflr hmask hmsix => ?_, fun h1 hvec h3 => ?_,
      fun h2 hring hwait hents => ?_, fun h4 hout => ?_⟩
    · rw [hdel, run_deliver_none hpu (hroute.trans h0)]
      exact cellOnly_setSource p k s
    · obtain ⟨h, hsent⟩ := run_msixDeliver_at_once (s := run (setSource p k) s) hvec hpend hcoal hflr (hvector.trans hmask) hmsix
      have hrun := (run_deliver_vector hpu hroute (hroute.trans h1) hvec).trans hsent
      rw [hdel, hrun]
      refine ⟨?_, Counted.of_get_eq (hpcie (r := R.PCIE_CNT_MSIX) (by decide)).symm rfl (counted_inc pgPcie R.PCIE_CNT_MSIX _ (by decide))⟩
      rw [State.get64, hvector, hvector, hvector]
      rfl
    · rw [hdel, run_deliver_stray hpu hroute (hroute.trans h1) hvec]
      have h3' : bit ((run (.inc pgPcie R.PCIE_CNT_EVT_DROP) (run (setSource p k) s)).evtEn pgPcie) 3 = false := by
        have hspare : Prog.Only (Act.spares (pgPcie.base + 0x018)) (.inc pgPcie R.PCIE_CNT_EVT_DROP) :=
          only_inc _ _ fun _ => by show pgPcie.base + 0x018 ≠ R.PCIE_CNT_EVT_DROP.addr pgPcie 0; decide
        rw [State.evtEn, only_cell hspare]
        exact (congrArg (bit · 3) (evtEn_setSource (q := pgPcie) hb hi k (by decide))).trans h3
      rw [run_dropAgain_disabled h3']
      have hkept := get_setSource (r := R.PCIE_CNT_EVT_DROP) (s := run (.inc pgPcie R.PCIE_CNT_EVT_DROP) (run (setSource p k) s))
        (p := pgPcie) (q := pgPcie) rfl (by decide) 3 (by decide)
      exact ⟨Counted.of_get_eq (hpcie (r := R.PCIE_CNT_EVT_DROP) (by decide)).symm hkept (counted_inc _ _ (run (setSource p k) s) (by decide)), rfl⟩
    · have hring : (run (setSource p k) s).isEventRing g = true := by
        rw [State.isEventRing, hring', hring']
        exact hring
      rw [hdel, run_deliver_ring hpu hroute (hroute.trans h2) hring hwait]
      have hput := ring_modRing_same g (fun r => { r with waiting := r.waiting ++ [eventEntry (run (setSource p k) s) e] })
        (run (setSource p k) s)
      rw [run_ringFlush_none (by rw [hput]; exact hents), hput]
      refine ⟨_, rfl, ?_⟩
      rw [eventEntry, evtPage_events hb hi hk]
      rfl
    · rw [hdel, run_deliver_pin hpu hroute (hroute.trans h4) hout, hroute]
      exact ⟨rfl, (Tab.find_put ..).trans (if_pos rfl)⟩
  · rw [run_hostWrite_header _ ht ha hb (by decide), Nat.mod_eq_of_lt v.isLt]
    exact run_raise_cleared fn hv hen

end Sys2Proof.Machine

/-! SUPPORT. Proofs: the rules of the common header have a state where they fail. -/

namespace Sys2Proof.Machine

/-- A provisional trigger that has no outcome yet. -/
def openProv : Prov := { anchor := 0, src := 0, phase := true, silent := false, done := none, late := false }

/-- A state whose combiner counts in a cell that is not its own: 84 stands for a definition, where the combiner has 0 to 15. Its four
provisional triggers are open, and a fifth event waits for it; the missed triggers of a definition 84 are counted at TEXT's BLK_CTRL. -/
def strayDef : State := { State.reset with
  regs := [(0x2900C, 0#32), (0x2A290, 1#32)]
  trig := { State.reset.trig with
    armFrom := some 0
    waiting := [(84, { src := 0, anchor := 0, prov := true, res := none, late := false })]
    defs := [(84, { TDef.reset with provs := List.replicate 4 openProv })] } }

theorem strayDef_reaches : (strayDef.target 0 (pageReg 0x29 0x00C) = (pgText, 0x00C) ∧ strayDef.answers 0 (pageReg 0x29 0x00C) 4 = true) ∧
    strayDef.enRefused pgText = false := by decide +kernel

/-- The state keeps what every step keeps, so no well-formedness of the model excludes it. -/
theorem wf_strayDef : strayDef.wf = true := by decide +kernel

/-- EN written 1 arms TEXT, the event that waited is missed, and its count takes EN's 1 to 2. -/
theorem en_strayDef : (run (hostWrite 0 (pageReg 0x29 0x00C) 4 (strayDef.ctrlWith 0x29 0 true)) strayDef).en pgText = false := by
  decide +kernel

/-- Refutes O21: in a state whose combiner holds an event of a definition that it does not have, EN written 1 reads 0 after the write, as the
missed event is counted in the word that holds EN. The statement asks no form of the state, and this one is well kept (`wf_strayDef`). -/
theorem not_headerRegistersAct : ¬ Obligations.HeaderRegistersAct := by
  unfold Obligations.HeaderRegistersAct
  intro h
  obtain ⟨hreach, hen⟩ := strayDef_reaches
  obtain ⟨t, ht, hb, -⟩ := ((h strayDef 0 0x29 0 pgText 0 true).1 ⟨rfl, hreach⟩).1 fun _ => hen
  have hrun : exec (.blkCtrlEn 0 0x29 true) strayDef =
      .next (run (hostWrite 0 (pageReg 0x29 0x00C) 4 (strayDef.ctrlWith 0x29 0 true)) strayDef) := rfl
  obtain rfl := Host.Outcome.next.inj (hrun.symm.trans ht)
  exact Bool.false_ne_true (en_strayDef.symm.trans hb)

end Sys2Proof.Machine

/-! SUPPORT. Proofs: reads give the register's word, and change what their side effect names (R50, R51, R274, R326, R454). -/

namespace Sys2Proof.Machine

/-! ### Reads change no more than their side effects -/

/-- The act sends nothing out. -/
def Act.silent : Act → Prop
  | .emit _ => False
  | _ => True

theorem out_of_only {p : Prog} (h : Prog.Only Act.silent p) (s : State) : (run p s).out = s.out :=
  h.keeps State.out (fun a _ ha => by cases a <;> first | rfl | exact ha.elim) s

theorem silent_readEffect (fn : Nat) (p : Pg) (rel : Nat) : Prog.Only Act.silent (readEffect fn p rel) := fun s => by
  have latch (r v : Nat) : Prog.Only Act.silent (latchHigh fn p r v) := (only_one _).2 trivial
  dsimp only
  split
  · simp only [denyRead, only_ask, only_all_cons, only_all_nil, only_when, only_one, and_true]
    exact fun _ => ⟨fun _ => ⟨trivial, trivial⟩, fun _ => trivial⟩
  · simp only [only_all_cons, only_all_nil, only_when, only_set, and_true]
    exact ⟨fun _ => latch _ _, fun _ => ⟨latch _ _, latch _ _⟩, fun _ => ⟨fun _ => ⟨trivial, trivial⟩, fun _ => ⟨trivial, trivial⟩⟩⟩

section
variable {s : State} {fn a rel : Nat} {p : Pg}

/-- A word that is not latched is answered as it reads, once the read has had its effect. -/
theorem run_hostRead_word (ht : s.target fn a = (p, rel)) (ha : s.answers fn a 4 = true)
    (hn : Tab.find s.host.highLatch (wordKey fn p rel) = none) :
    run (hostRead fn a 4) s = run (.out (.readData fn a (s.viewWord fn p rel))) (run (readEffect fn p rel) s) := by
  rw [hostRead, run_readReg_answered _ ht ha, if_neg (by decide), readWord, run_ask, hn, run_pair]

theorem out_hostRead_word (ht : s.target fn a = (p, rel)) (ha : s.answers fn a 4 = true)
    (hn : Tab.find s.host.highLatch (wordKey fn p rel) = none) :
    (run (hostRead fn a 4) s).out = .readData fn a (s.viewWord fn p rel) :: s.out := by
  rw [run_hostRead_word ht ha hn, run_out, out_of_only (silent_readEffect fn p rel)]

/-- A latched high word is answered, and its latch is over. -/
theorem run_hostRead_latched {w : Word} (ht : s.target fn a = (p, rel)) (ha : s.answers fn a 4 = true)
    (hn : Tab.find s.host.highLatch (wordKey fn p rel) = some w) :
    run (hostRead fn a 4) s = run (.out (.readData fn a w.toNat))
      (run (.host fun h => { h with highLatch := Tab.del h.highLatch (wordKey fn p rel) }) s) := by
  rw [hostRead, run_readReg_answered _ ht ha, if_neg (by decide), readWord, run_ask, hn, run_pair]

/-- A 32-bit read answers with the register's value. -/
theorem out_hostRead (ha : s.answers fn a 4 = true) : (run (hostRead fn a 4) s).out = .readData fn a (s.readValue fn a) :: s.out := by
  rw [State.readValue]
  cases hn : Tab.find s.host.highLatch (wordKey fn (s.target fn a).1 (s.target fn a).2) with
  | none => exact out_hostRead_word rfl ha hn
  | some w => rw [run_hostRead_latched rfl ha hn]; rfl

end

/-! ### The side effects -/

theorem frozenRead_thawed {s : State} {p : Pg} (rel : Nat) (h : s.frozen p = false) : s.frozenRead p rel = false := by
  simp [State.frozenRead, h]

/-- The peaks of a bank that is not frozen clear when they are read (R50). -/
theorem peaks_readEffect {s : State} {fn n : Nat} (h : s.frozen (pgBank n) = false) :
    (run (readEffect fn (pgBank n) 0x064) s).get (pgBank n) R.BANK_PEAK_MAX = 0x8001 ∧
      (run (readEffect fn (pgBank n) 0x064) s).get (pgBank n) R.BANK_PEAK_MIN = 0x7FFF := by
  have hw : wideLow (pgBank n) 0x064 = false := rfl
  have heff : run (readEffect fn (pgBank n) 0x064) s = run (.set (pgBank n) R.BANK_PEAK_MIN R.BANK_PEAK_MIN.rst)
      (run (.set (pgBank n) R.BANK_PEAK_MAX R.BANK_PEAK_MAX.rst) s) := by
    rw [readEffect, run_ask]
    simp only [hw, frozenRead_thawed _ h]
    rfl
  rw [heff]
  rw [get_set_other _ _ _ _ _ _ rfl (.inr (by decide)), get_set_same _ _ _ _ rfl, get_set_same _ _ _ _ rfl]
  decide

theorem run_denyRead_thawed {s : State} (fn : Nat) (low : Bool) (h : s.frozen pgSec = false) :
    run (denyRead fn low) s = run (.one .denyPop)
      (run (.when low (.sec fun x => { x with denyLatch := Tab.put x.denyLatch fn (s.denyWord 1) })) s) := by
  rw [denyRead, run_ask, frozenRead_thawed _ h]
  simp

theorem viewWord_denyLog {s : State} (fn : Nat) (h : s.frozen pgSec = false) : s.viewWord fn pgSec 0x060 = s.denyWord 0 := by
  rw [State.viewWord, frozenRead_thawed _ h, if_neg Bool.false_ne_true]
  rfl

/-- A whole read of DENY_LOG answers with both words of the oldest denial, which leaves the log (R454). -/
theorem run_hostRead_denyLog {s : State} {fn a : Nat} (ht : s.target fn a = (pgSec, 0x060)) (ha : s.answers fn a 8 = true)
    (h : s.frozen pgSec = false) :
    run (hostRead fn a 8) s = run (.out (.readData fn a (s.denyWord 0 + s.denyWord 1 * 2 ^ 32))) (run (.one .denyPop) s) := by
  rw [hostRead, run_readReg_answered _ ht ha, if_pos rfl, readPair, run_ask, if_pos (by decide), run_pair, run_denyRead_thawed fn false h,
    viewWord_denyLog fn h, frozenRead_thawed _ h, if_neg Bool.false_ne_true]
  rfl

/-- The oldest entry of the remote event FIFO leaves it when it is read (R326). -/
theorem evFifo_readEffect {s : State} {fn : Nat} (h : s.frozen pgFlink = false) :
    (run (readEffect fn pgFlink 0x06C) s).link.evFifo = s.link.evFifo.drop 1 := by
  have hw : wideLow pgFlink 0x06C = false := rfl
  rw [readEffect, run_ask]
  simp only [hw, frozenRead_thawed _ h]
  rfl

theorem viewWord_remoteEvt {s : State} (fn : Nat) (h : s.frozen pgFlink = false) : s.viewWord fn pgFlink 0x06C = s.remoteEvtWord := by
  rw [State.viewWord, frozenRead_thawed _ h, if_neg Bool.false_ne_true]
  rfl

/-- The act leaves the host's side as it is. -/
def Act.keepsHost : Act → Prop
  | .host _ => False
  | _ => True

theorem host_of_only {p : Prog} (h : Prog.Only Act.keepsHost p) (s : State) : (run p s).host = s.host :=
  h.keeps State.host (fun a _ ha => by cases a <;> first | rfl | exact ha.elim) s

theorem find_latchHigh (fn r v b : Nat) (p : Pg) (s : State) : Tab.find (run (latchHigh fn p r v) s).host.highLatch b =
    if b = wordKey fn p r then some (BitVec.ofNat 32 v) else Tab.find s.host.highLatch b := Tab.find_put ..

/-- What is latched when a word is read: the high word of a 64-bit register, and the two words that follow NOW_0. -/
theorem host_readEffect {s : State} {fn rel : Nat} {p : Pg} (h : (p.kind = .sec && rel = 0x060) = false) :
    (run (readEffect fn p rel) s).host =
      (run (.when (p.kind = .time && rel = 0x070) (.all [latchHigh fn p 0x074 (qWord s.now 1), latchHigh fn p 0x078 (qWord s.now 2)]))
        (run (.when (wideLow p rel) (latchHigh fn p (rel + 4) (s.viewWord fn p (rel + 4)))) s)).host := by
  rw [readEffect, run_ask, h, if_neg Bool.false_ne_true, run_all_cons, run_all_cons, run_all_cons, run_all_nil]
  exact host_of_only (by
    simp only [only_all_cons, only_all_nil, only_when, only_set, and_true]
    exact fun _ => ⟨fun _ => ⟨trivial, trivial⟩, fun _ => ⟨trivial, trivial⟩⟩) _

/-- The low word of a 64-bit register latches the high word (R51). -/
theorem highLatch_readEffect {s : State} {fn rel : Nat} {p : Pg} (hw : wideLow p rel = true) (hk : p.kind ≠ .sec) :
    Tab.find (run (readEffect fn p rel) s).host.highLatch (wordKey fn p (rel + 4)) = some (BitVec.ofNat 32 (s.viewWord fn p (rel + 4))) := by
  have hnow : (p.kind = .time && rel = 0x070) = false := by
    refine Bool.eq_false_iff.2 fun h => ?_
    simp only [Bool.and_eq_true, decide_eq_true_eq] at h
    rw [wideLow, h.1, h.2] at hw
    exact absurd hw (by decide)
  rw [host_readEffect (by simp [hk]), hnow, hw, run_when, if_neg Bool.false_ne_true, run_when, if_pos rfl, find_latchHigh, if_pos rfl]

theorem viewWord_now (s : State) (fn : Nat) : s.viewWord fn pgTime 0x070 = qWord s.now 0 := by
  rw [State.viewWord, State.frozenRead, show pgTime.freezes 0x070 = false by decide, Bool.and_false, Bool.false_and, if_neg Bool.false_ne_true]
  rfl

/-- NOW_0 latches the two words that follow it (R274). -/
theorem highLatch_readEffect_now (s : State) (fn : Nat) :
    Tab.find (run (readEffect fn pgTime 0x070) s).host.highLatch (wordKey fn pgTime 0x074) = some (BitVec.ofNat 32 (qWord s.now 1)) ∧
      Tab.find (run (readEffect fn pgTime 0x070) s).host.highLatch (wordKey fn pgTime 0x078) = some (BitVec.ofNat 32 (qWord s.now 2)) := by
  have hne : wordKey fn pgTime 0x074 ≠ wordKey fn pgTime 0x078 := by simp [wordKey]
  rw [host_readEffect rfl, run_when, if_pos (by decide), run_pair, find_latchHigh, find_latchHigh, find_latchHigh, if_neg hne, if_pos rfl, if_pos rfl]
  exact ⟨rfl, rfl⟩

/-! ### The statement -/

/-- Settles O22: a read answers with the word as it stood, and then has the effect of its register. -/
theorem readsGiveTheRegister : Obligations.ReadsGiveTheRegister := by
  unfold Obligations.ReadsGiveTheRegister
  intro s fn off p rel n
  have hdeny : s.target fn 0x7060 = (pgSec, 0x060) := target_at_block s fn (p := pgSec) 0x060 rfl (by decide) (by decide)
  have hevt : s.target fn 0x44006C = (pgFlink, 0x06C) := target_at_block s fn (p := pgFlink) 0x06C rfl (by decide) (by decide)
  have hnow : s.target fn 0x2070 = (pgTime, 0x070) := target_at_block s fn (p := pgTime) 0x070 rfl (by decide) (by decide)
  refine ⟨fun ha => ⟨_, rfl, out_hostRead ha, fun ht hn hf => ?_⟩, fun ha hf => ⟨_, rfl, ?_⟩, fun ha hf hn => ⟨_, rfl, ?_⟩,
    fun ha hf hn => ⟨_, rfl, ?_⟩, fun ht ha hw hk hn => ⟨_, rfl, out_hostRead_word ht ha hn, ?_⟩, fun ha hn => ⟨_, rfl, ?_⟩⟩
  · rw [run_hostRead_word ht ha hn]
    exact peaks_readEffect hf
  · show ((run (hostRead fn 0x7060 8) s).denials = _) ∧ (run (hostRead fn 0x7060 8) s).out = _
    rw [run_hostRead_denyLog hdeny ha hf]
    exact ⟨rfl, rfl⟩
  · have hrun := run_hostRead_word hdeny ha hn
    have heff : run (readEffect fn pgSec 0x060) s = run (denyRead fn true) s := rfl
    show ((run (hostRead fn 0x7060 4) s).denials = _) ∧ (run (hostRead fn 0x7060 4) s).out = _ ∧
      Tab.get (run (hostRead fn 0x7060 4) s).sec.denyLatch 0 fn = _
    rw [hrun, heff, run_denyRead_thawed fn true hf, viewWord_denyLog fn hf]
    exact ⟨rfl, rfl, (Tab.get_put ..).trans (if_pos rfl)⟩
  · refine ⟨?_, (out_hostRead_word hevt ha hn).trans (by rw [viewWord_remoteEvt fn hf])⟩
    rw [run_hostRead_word hevt ha hn]
    exact evFifo_readEffect hf
  · rw [run_hostRead_word ht ha hn]
    exact highLatch_readEffect hw hk
  · refine ⟨(out_hostRead_word hnow ha hn).trans (by rw [viewWord_now]), ?_⟩
    rw [run_hostRead_word hnow ha hn]
    exact highLatch_readEffect_now s fn

end Sys2Proof.Machine

/-! SUPPORT. Proofs: what a write stores in a register word, by the access codes of its fields (R49, R51, R59). -/

namespace Sys2Proof.Machine

/-! ### Fields of a word -/

/-- Two words agree in a field whose bits agree. -/
theorem bits_congr {x y hi lo : Nat} (h : ∀ j, lo ≤ j → j ≤ hi → bit x j = bit y j) : bits x hi lo = bits y hi lo := by
  apply Nat.eq_of_testBit_eq
  intro i
  simp only [bits, Nat.testBit_mod_two_pow, Nat.testBit_shiftRight]
  by_cases hi' : i < hi + 1 - lo
  · have := h (lo + i) (by omega) (by omega)
    simp only [bit] at this
    rw [this]
  · simp [hi']

/-- Access codes whose fields take what is written. -/
def Acc.takes : Acc → Bool
  | .rw | .rws => true
  | _ => false

theorem Acc.takes_iff (a : Acc) : a.takes = true ↔ a = .rw ∨ a = .rws := by cases a <;> simp [Acc.takes]

/-- Every field of the kind keeps its lower bit below its higher one, in a word, and none is set or cleared by 1s. -/
def Kind.plain (k : Kind) : Bool := k.rows.all fun r => r.sound && r.acc ≠ .w1c && r.acc ≠ .w1s

theorem plain_table : ∀ k ∈ [Kind.bank, .cal, .tu, .tcomb, .hist, .den, .st, .sq, .mc, .time, .arb, .top, .flash, .ring, .qpc, .win, .msix],
    k.plain = true := by decide +kernel

/-- One field of a word takes its bits of the word written, where its access code lets it. -/
def storeField (a v : Nat) (r : Row) : Prog := .when r.acc.takes (.one (.fld a r.hi r.lo (bits v r.hi r.lo)))

theorem run_each_congr {α : Type} {f g : α → Prog} {l : List α} (h : ∀ x ∈ l, ∀ s, run (f x) s = run (g x) s) (s : State) :
    run (.each l f) s = run (.each l g) s := by
  induction l generalizing s with
  | nil => rfl
  | cons x l ih =>
    rw [run_each_cons, run_each_cons, h x (List.mem_cons_self ..), ih fun y hy => h y (List.mem_cons_of_mem _ hy)]

/-- The rows of a page that lie at an offset. -/
def Kind.fieldsAt (k : Kind) (rel : Nat) : List Row := k.rows.filter fun r => r.lies rel

theorem Kind.mem_fieldsAt {k : Kind} {rel : Nat} {r : Row} : r ∈ k.fieldsAt rel ↔ r ∈ k.rows ∧ r.lies rel = true := List.mem_filter

theorem Kind.plain_row {k : Kind} (h : k.plain = true) {r : Row} (hr : r ∈ k.rows) : r.sound = true ∧ r.acc ≠ .w1c ∧ r.acc ≠ .w1s := by
  have := List.all_eq_true.1 h r hr
  simp only [Bool.and_eq_true, decide_eq_true_eq] at this
  exact ⟨this.1.1, this.1.2, this.2⟩

theorem run_storeWord {p : Pg} (hp : p.kind.plain = true) (rel v : Nat) (s : State) :
    run (storeWord p rel v) s = run (.each (p.kind.fieldsAt rel) (storeField (p.base + rel) v)) s := by
  refine run_each_congr (fun r hr s => ?_) s
  obtain ⟨-, hc, hs⟩ := Kind.plain_row hp (Kind.mem_fieldsAt.1 hr).1
  rw [run_ask, storeField]
  cases hacc : r.acc <;> first | rfl | exact absurd hacc hc | exact absurd hacc hs

/-- Bit j of a word lies in a field that takes what is written. -/
def takenAt (l : List Row) (j : Nat) : Bool := l.any fun r => r.acc.takes && decide (r.lo ≤ j) && decide (j ≤ r.hi)

/-- The bits of the fields that take what is written are the bits written; the others stay. -/
theorem bit_storeFields {l : List Row} (hl : ∀ r ∈ l, r.sound = true) (a v j : Nat) (s : State) :
    bit ((run (.each l (storeField a v)) s).cell a).toNat j = if takenAt l j then bit v j else bit (s.cell a).toNat j := by
  induction l generalizing s with
  | nil => rfl
  | cons r l ih =>
    have hr := hl r (List.mem_cons_self ..)
    simp only [Row.sound, Bool.and_eq_true, decide_eq_true_eq] at hr
    have hcons : takenAt (r :: l) j = (r.acc.takes && decide (r.lo ≤ j) && decide (j ≤ r.hi) || takenAt l j) := rfl
    rw [run_each_cons, ih fun r h => hl r (List.mem_cons_of_mem _ h), hcons, storeField, run_when]
    by_cases hrest : takenAt l j = true
    · rw [if_pos hrest, hrest, Bool.or_true, if_pos rfl]
    · rw [if_neg hrest, Bool.eq_false_iff.2 hrest, Bool.or_false]
      cases r.acc.takes with
      | false => rfl
      | true =>
        rw [if_pos rfl, run_one, cell_applyAct_fld, if_pos rfl, bit_putField _ _ _ _ _ hr.1 hr.2]
        by_cases hj : r.lo ≤ j ∧ j ≤ r.hi
        · rw [if_pos hj, if_pos (by simp [hj]), bits, Nat.testBit_mod_two_pow, Nat.testBit_shiftRight, decide_eq_true (by omega), Bool.true_and,
            Nat.add_sub_cancel' hj.1, bit]
        · rw [if_neg hj, if_neg (by simpa using fun h => by omega)]

theorem CellOnly.refl (s : State) (a : Nat) : CellOnly s s a := ⟨rfl, fun _ _ => rfl⟩

theorem RegsOnly.trans {s t u : State} (h : RegsOnly s t) (h' : RegsOnly t u) : RegsOnly s u := by
  rw [RegsOnly] at h h'
  rw [h', h]
  rfl

theorem CellOnly.trans {s t u : State} {a : Nat} (h : CellOnly s t a) (h' : CellOnly t u a) : CellOnly s u a :=
  ⟨h.1.trans h'.1, fun b hb => (h'.2 b hb).trans (h.2 b hb)⟩

theorem cellOnly_storeFields (l : List Row) (a v : Nat) (s : State) : CellOnly s (run (.each l (storeField a v)) s) a := by
  induction l generalizing s with
  | nil => exact .refl s a
  | cons r l ih =>
    rw [run_each_cons]
    refine .trans ?_ (ih _)
    rw [storeField, run_when]
    split
    · exact cellOnly_fld ..
    · exact .refl s a

/-- A word stored: its fields hold what was written, and no other word has changed. -/
theorem holds_storeWord {p : Pg} (hp : p.kind.plain = true) (rel v : Nat) (s : State) :
    (run (storeWord p rel v) s).holds p rel v ∧ CellOnly s (run (storeWord p rel v) s) (p.base + rel) := by
  rw [run_storeWord hp]
  refine ⟨fun r hr hacc hlies => bits_congr fun j hlo hhi => ?_, cellOnly_storeFields _ _ _ _⟩
  rw [bit_storeFields (fun r hr => (Kind.plain_row hp (Kind.mem_fieldsAt.1 hr).1).1), if_pos]
  exact List.any_eq_true.2 ⟨r, Kind.mem_fieldsAt.2 ⟨hr, hlies⟩, by simp [(Acc.takes_iff _).2 hacc, hlo, hhi]⟩

/-- Words that agree in their 32 bits are held alike. -/
theorem State.holds_mod {t : State} {p : Pg} (hp : p.kind.plain = true) {rel v : Nat} (h : t.holds p rel (v % 2 ^ 32)) : t.holds p rel v :=
  fun r hr hacc hlies => (h r hr hacc hlies).trans <| bits_congr fun j _ hj => by
    obtain ⟨hs, -⟩ := Kind.plain_row hp hr
    simp only [Row.sound, Bool.and_eq_true, decide_eq_true_eq] at hs
    rw [bit, Nat.testBit_mod_two_pow, decide_eq_true (by omega), Bool.true_and, bit]

/-! ### Composition of small changes -/

theorem State.holds_congr {s t : State} {p : Pg} {rel v : Nat} (h : t.cell (p.base + rel) = s.cell (p.base + rel)) (hs : s.holds p rel v) :
    t.holds p rel v := fun r hr hacc hlies => by rw [h]; exact hs r hr hacc hlies

end Sys2Proof.Machine

/-! SUPPORT. Proofs: register writes, of one word and of two (R37, R49, R51). -/

namespace Sys2Proof.Machine

theorem lies_iff (r : Row) (rel : Nat) :
    r.lies rel = true ↔ r.off ≤ rel ∧ (rel - r.off) % r.stride = 0 ∧ (rel - r.off) / r.stride < r.count := by
  simp only [Row.lies, Bool.and_eq_true, decide_eq_true_eq, and_assoc]

/-! ### Words that are stored -/

section
variable {s : State} {fn rel : Nat} {p : Pg}

/-- A register that takes its words stores them, and then does what a write of it starts. -/
theorem run_writeWords_stored (ws : List Nat) (hh : (p.kind.isBlock && decide (rel < 0x40)) = false) (hres : reservedWrite p rel ws = false)
    (hd : s.discards fn p rel ws = none) (ho : ownStore p rel = false) :
    run (writeWords fn p rel ws) s = run (written s p rel (ws.headD 0))
      (run (.each (ws.mapIdx fun i v => (rel + 4 * i, v)) fun e => storeWord p e.1 e.2) s) := by
  rw [writeWords, run_ask, hh, if_neg Bool.false_ne_true, hres, if_neg Bool.false_ne_true, hd, ho]
  simp only [run_pair, run_when, Bool.not_false, if_true]

theorem run_writeWords_one (v : Nat) (hh : (p.kind.isBlock && decide (rel < 0x40)) = false) (hres : reservedWrite p rel [v] = false)
    (hd : s.discards fn p rel [v] = none) (ho : ownStore p rel = false) :
    run (writeWords fn p rel [v]) s = run (written s p rel v) (run (storeWord p rel v) s) := by
  rw [run_writeWords_stored [v] hh hres hd ho]
  simp only [List.mapIdx_cons, List.mapIdx_nil, run_each_cons, run_each_nil, List.headD_cons, Nat.mul_zero, Nat.add_zero]

theorem run_writeWords_two (lo hi : Nat) (hh : (p.kind.isBlock && decide (rel < 0x40)) = false) (hres : reservedWrite p rel [lo, hi] = false)
    (hd : s.discards fn p rel [lo, hi] = none) (ho : ownStore p rel = false) :
    run (writeWords fn p rel [lo, hi]) s = run (written s p rel lo) (run (storeWord p (rel + 4) hi) (run (storeWord p rel lo) s)) := by
  rw [run_writeWords_stored [lo, hi] hh hres hd ho]
  simp only [List.mapIdx_cons, List.mapIdx_nil, run_each_cons, run_each_nil, List.headD_cons, Nat.mul_zero, Nat.add_zero, Nat.zero_add, Nat.mul_one]

theorem notHeader_of_le (h : 0x40 ≤ rel) : (p.kind.isBlock && decide (rel < 0x40)) = false := by
  rw [decide_eq_false (by omega), Bool.and_false]

end

/-! ### Pages whose writes only store -/

/-- The kinds of page whose writes store their word and start nothing. -/
def Kind.quiet : List Kind := [.bank, .cal, .tu, .tcomb, .hist, .den, .st, .sq, .mc]

/-- What such a page does not do: it discards no write, and starts nothing. -/
theorem quiet_page {p : Pg} (hk : p.kind ∈ Kind.quiet) : p.kind.plain = true ∧ (∀ rel, ownStore p rel = false) ∧
    (∀ (s : State) fn rel ws, s.discards fn p rel ws = none) ∧ ∀ s rel v, written s p rel v = .nil := by
  refine ⟨plain_table _ (by revert hk; generalize p.kind = k; simp only [Kind.quiet, List.mem_cons]; tauto), ?_⟩
  obtain ⟨k, n⟩ := p
  simp only [Kind.quiet, List.mem_cons, List.not_mem_nil, or_false] at hk
  rcases hk with rfl | rfl | rfl | rfl | rfl | rfl | rfl | rfl | rfl <;> exact ⟨fun _ => rfl, fun _ _ _ _ => rfl, fun _ _ _ => rfl⟩

/-- A word whose fields have no reserved encoding is not refused, where the page has no rule of its own. -/
theorem reservedWrite_free {p : Pg} {rel v : Nat} (h : ∀ r ∈ p.kind.rows, r.lies rel = true → r.bad = [])
    (hk : p.kind = .time ∨ p.kind = .arb) : reservedWrite p rel [v] = false := by
  have hrows : (p.kind.rows.any fun r => (r.acc = .rw || r.acc = .rws) && r.lies rel &&
      r.bad.any fun b => decide (b.1 ≤ bits v r.hi r.lo) && decide (bits v r.hi r.lo ≤ b.2)) = false := by
    rw [List.any_eq_false]
    intro r hr
    by_cases hl : r.lies rel = true
    · simp [h r hr hl]
    · simp [hl]
  obtain ⟨k, n⟩ := p
  rcases hk with rfl | rfl <;> simpa [reservedWrite] using hrows

/-- A register whose write starts nothing holds what was written, and nothing else changes. -/
theorem holds_hostWrite {s : State} {fn a rel v : Nat} {p : Pg} (ht : s.target fn a = (p, rel)) (ha : s.answers fn a 4 = true)
    (hrel : 0x40 ≤ rel) (hw : wideLow p rel = false) (hw' : wideLow p (rel - 4) = false) (hres : reservedWrite p rel [v % 2 ^ 32] = false)
    (hp : p.kind.plain = true) (ho : ownStore p rel = false) (hd : s.discards fn p rel [v % 2 ^ 32] = none)
    (hwr : written s p rel (v % 2 ^ 32) = .nil) :
    (run (hostWrite fn a 4 v) s).holds p rel v ∧ CellOnly s (run (hostWrite fn a 4 v) s) (p.base + rel) := by
  rw [run_hostWrite_register v ht ha hw fun _ => hw', run_writeWords_one _ (notHeader_of_le hrel) hres hd ho, hwr, run_nil]
  obtain ⟨hh, hc⟩ := holds_storeWord hp rel (v % 2 ^ 32) s
  exact ⟨State.holds_mod hp hh, hc⟩

/-! ### 64-bit registers written in two words (R51) -/

/-- The kinds of page, for the statement, whose 64-bit registers are written. -/
def Kind.paired : List Kind := [.top, .flash, .tcomb, .ring, .qpc, .win, .msix]

theorem paired_cases {k : Kind} (h : k ∈ Kind.paired) : k = .top ∨ k = .flash ∨ k = .tcomb ∨ k = .ring ∨ k = .qpc ∨ k = .win ∨ k = .msix := by
  simpa only [Kind.paired, List.mem_cons, List.not_mem_nil, or_false] using h

/-- The low words of these registers lie outside the common header, and all but TCOMB's stand alone, stored in their cells. -/
theorem wides_table : ∀ k ∈ Kind.paired, k.plain = true ∧ ∀ r ∈ k.wides, (k.isBlock = true → 0x40 ≤ r.off) ∧
    (k ≠ .tcomb → (r.count = 1 ∧ r.stride = 4) ∧ ownStore ⟨k, 0⟩ r.off = false) := by decide +kernel

/-- A write of a 64-bit register starts nothing, but for a window's, which publishes the window. -/
theorem run_written_wide {p : Pg} {r : Row} (hk : p.kind ∈ Kind.paired) (hr : r ∈ p.kind.wides) (hwin : p.kind ≠ .win) (old : State) (v : Nat)
    (t : State) : run (written old p r.off v) t = t := by
  obtain ⟨k, n⟩ := p
  rcases paired_cases hk with rfl | rfl | rfl | rfl | rfl | rfl | rfl <;>
    simp only [Kind.wides, List.mem_cons, List.not_mem_nil, or_false] at hr
  case inr.inr.inr.inr.inr.inl => exact absurd rfl hwin
  all_goals rcases hr with rfl | rfl | rfl | rfl <;> rfl

/-- What the low word of a 64-bit register is: stored in its cell, outside the header, and with no effect but a window's. -/
theorem wide_page {p : Pg} {rel : Nat} (hk : p.kind ∈ Kind.paired) (h : wideLow p rel = true) :
    (p.kind.isBlock && decide (rel < 0x40)) = false ∧ ownStore p rel = false ∧
      (p.kind ≠ .win → ∀ (old : State) (v : Nat) (t : State), run (written old p rel v) t = t) := by
  obtain ⟨r, hr, hlies⟩ := List.any_eq_true.1 h
  obtain ⟨hoff, hrow⟩ := (wides_table _ hk).2 r hr
  rw [lies_iff] at hlies
  refine ⟨?_, ?_⟩
  · rw [Bool.and_eq_false_iff, decide_eq_false_iff_not]
    by_cases hb : p.kind.isBlock = true
    · have := hoff hb
      exact .inr (by omega)
    · exact .inl (Bool.eq_false_iff.2 hb)
  · by_cases htc : p.kind = .tcomb
    · obtain ⟨-, ho, -, hw⟩ := quiet_page (p := p) (by rw [htc]; decide)
      exact ⟨ho rel, fun _ old v t => by rw [hw, run_nil]⟩
    · obtain ⟨⟨hcount, hstride⟩, ho⟩ := hrow htc
      rw [hcount, hstride] at hlies
      obtain rfl : rel = r.off := by omega
      exact ⟨ho, run_written_wide hk hr⟩

/-- The windows that wait for their publication are shown by SEC, whose page no window lies in. -/
theorem run_written_win {p : Pg} {t : State} (hk : p.kind = .win) (old : State) (rel v : Nat) :
    (run (written old p rel v) t).host = t.host ∧ ∀ x, (run (written old p rel v) t).cell (p.base + x) = t.cell (p.base + x) := by
  obtain ⟨k, n⟩ := p
  subst hk
  refine ⟨rfl, fun x => ?_⟩
  have hspare : Prog.Only (Act.spares (Pg.base ⟨.win, n⟩ + x)) (written old ⟨.win, n⟩ rel v) := by
    refine (only_all_cons _ _).2 ⟨(only_one _).2 trivial, (only_all_cons _ _).2 ⟨fun _ => (only_set _ _ _).2 ?_, trivial⟩⟩
    have hsec : R.SEC_PEND.addr pgSec 0 < 0x8000 := by decide
    show 0xA40000 + 32 * n + x ≠ R.SEC_PEND.addr pgSec 0
    omega
  exact only_cell hspare t

/-- What a write would discard does not depend on the low words held. -/
theorem discards_lowHeld {s : State} {fn rel : Nat} {p : Pg} {ws : List Nat} (hk : p.kind ∈ Kind.paired) (l : Tab Word) :
    ({ s with host := { s.host with lowHeld := l } } : State).discards fn p rel ws = s.discards fn p rel ws := by
  obtain ⟨k, n⟩ := p
  rcases paired_cases hk with rfl | rfl | rfl | rfl | rfl | rfl | rfl <;> rfl

theorem RegsOnly.host {s t : State} (h : RegsOnly s t) : t.host = s.host := by
  rw [RegsOnly] at h
  rw [h]

/-- The high word of a 64-bit register puts both words in force, and the low word is held no longer. -/
theorem run_hostWrite_high {s : State} {fn a rel : Nat} {p : Pg} {lo hi : Word} (ht : s.target fn a = (p, rel + 4)) (ha : s.answers fn a 4 = true)
    (hw : wideLow p rel = true) (hw' : wideLow p (rel + 4) = false) (hlo : Tab.find s.host.lowHeld (wordKey fn p rel) = some lo)
    (hk : p.kind ∈ Kind.paired) (hres : reservedWrite p rel [lo.toNat, hi.toNat] = false)
    (hd : s.discards fn p rel [lo.toNat, hi.toNat] = none) :
    let t := run (hostWrite fn a 4 hi.toNat) s
    t.holds p rel lo.toNat ∧ t.holds p (rel + 4) hi.toNat ∧ Tab.find t.host.lowHeld (wordKey fn p rel) = none := by
  obtain ⟨hh, ho, hquiet⟩ := wide_page hk hw
  have hp := (wides_table _ hk).1
  intro t
  have hrun : t = run (writeWords fn p rel [lo.toNat, hi.toNat])
      { s with host := { s.host with lowHeld := Tab.del s.host.lowHeld (wordKey fn p rel) } } := by
    have hsub : rel + 4 - 4 = rel := rfl
    show run (hostWrite fn a 4 hi.toNat) s = _
    rw [run_hostWrite_answered _ ht ha, writeWord, if_neg (by rw [hw']; decide), hsub, if_pos (by simp [hw]), run_ask, run_pair, hlo,
      Nat.mod_eq_of_lt hi.isLt]
    rfl
  generalize hu : ({ s with host := { s.host with lowHeld := Tab.del s.host.lowHeld (wordKey fn p rel) } } : State) = u at hrun
  have hnone : Tab.find u.host.lowHeld (wordKey fn p rel) = none := by
    rw [← hu]
    exact (Tab.find_del ..).trans (if_pos rfl)
  obtain ⟨hlow, hlowCell⟩ := holds_storeWord hp rel lo.toNat u
  obtain ⟨hhigh, hhighCell⟩ := holds_storeWord hp (rel + 4) hi.toNat (run (storeWord p rel lo.toNat) u)
  have hlow' := State.holds_congr (hhighCell.2 _ (by omega)) hlow
  have hhost : (run (storeWord p (rel + 4) hi.toNat) (run (storeWord p rel lo.toNat) u)).host = u.host := by
    rw [hhighCell.1.host, hlowCell.1.host]
  have hdu : u.discards fn p rel [lo.toNat, hi.toNat] = none := by rw [← hu, discards_lowHeld hk, hd]
  rw [hrun, run_writeWords_two _ _ hh hres hdu ho]
  by_cases hwin : p.kind = .win
  · obtain ⟨hwrHost, hwrCell⟩ := run_written_win (t := run (storeWord p (rel + 4) hi.toNat) (run (storeWord p rel lo.toNat) u)) hwin u rel lo.toNat
    exact ⟨State.holds_congr (hwrCell rel) hlow', State.holds_congr (hwrCell (rel + 4)) hhigh, by rw [hwrHost, hhost, hnone]⟩
  · rw [hquiet hwin]
    exact ⟨hlow', hhigh, by rw [hhost, hnone]⟩

/-! ### The statement -/

theorem timeXoAge_rows : ∀ r ∈ Kind.time.rows, r.lies 0x044 = true → r.bad = [] := by decide

theorem arbPrio_rows : ∀ i < 79, ∀ r ∈ Kind.arb.rows, r.lies (0x100 + i * 4) = true → r.bad = [] := by decide +kernel

theorem run_hostWrite_xoAge {s : State} {fn : Nat} (x : Word) (ha : s.answers fn 0x2044 4 = true) :
    (run (hostWrite fn 0x2044 4 x.toNat) s).holds pgTime 0x044 x.toNat ∧
      CellOnly s (run (hostWrite fn 0x2044 4 x.toNat) s) (pgTime.base + 0x044) :=
  holds_hostWrite (target_at_block s fn (p := pgTime) 0x044 rfl (by decide) (by decide)) ha (by decide) rfl rfl
    (reservedWrite_free timeXoAge_rows (.inl rfl)) (plain_table _ (by decide)) rfl rfl rfl

theorem run_hostWrite_arbPrio {s : State} {fn i v : Nat} (hi : i < 79) (hv : v < 8) (ha : s.answers fn (0x304100 + i * 4) 4 = true) :
    (run (hostWrite fn (0x304100 + i * 4) 4 v) s).geti pgArb R.ARB_PRIO i = v ∧
      CellOnly s (run (hostWrite fn (0x304100 + i * 4) 4 v) s) (0x304100 + i * 4) := by
  have haddr : 0x304100 + i * 4 = pgArb.base + (0x100 + i * 4) := by rw [show pgArb.base = 0x304000 by decide]; omega
  have hlow : ∀ rel, wideLow pgArb rel = false := fun _ => rfl
  have hwr : written s pgArb (0x100 + i * 4) (v % 2 ^ 32) = .nil := by
    show Prog.when (decide (0x100 + i * 4 = 0x050)) _ = _
    rw [decide_eq_false (by omega)]
    rfl
  rw [haddr] at ha ⊢
  obtain ⟨hh, hc⟩ := holds_hostWrite (v := v) (target_at_block s fn (p := pgArb) (0x100 + i * 4) rfl (by decide) (by omega)) ha
    (by omega) (hlow _) (hlow _) (reservedWrite_free (arbPrio_rows i hi) (.inr rfl)) (plain_table _ (by decide)) rfl rfl hwr
  refine ⟨?_, hc⟩
  have hlies : R.ARB_PRIO.lies (0x100 + i * 4) = true := by
    refine (lies_iff _ _).2 (?_ : 0x100 ≤ 0x100 + i * 4 ∧ (0x100 + i * 4 - 0x100) % 4 = 0 ∧ (0x100 + i * 4 - 0x100) / 4 < 79)
    omega
  have haddr' : R.ARB_PRIO.addr pgArb i = pgArb.base + (0x100 + i * 4) := by
    show pgArb.base + 0x100 + 4 * i = _
    omega
  rw [State.geti, haddr', hh R.ARB_PRIO (by decide) (.inl rfl) hlies]
  show bits v 2 0 = v
  rw [bits_eq]
  omega

end Sys2Proof.Machine

/-! SUPPORT. Proofs: BAR4 reaches HBM inside a window, and a denied access stores nothing (R448, R454). -/

namespace Sys2Proof.Machine

/-! ### Accesses inside a window -/

/-- The act leaves HBM as it is. -/
def Act.keepsHbm : Act → Prop
  | .mem _ _ => False
  | _ => True

theorem hbm_of_only {p : Prog} (h : Prog.Only Act.keepsHbm p) (s : State) : (run p s).hbm = s.hbm :=
  h.keeps State.hbm (fun a _ ha => by cases a <;> first | rfl | exact ha.elim) s

/-- An access wakes its stack, and does no more. -/
theorem touchStack_keeps (a : Nat) (s : State) : (run (touchStack a) s).hbm = s.hbm ∧ (run (touchStack a) s).out = s.out := by
  have sets (W : Act → Prop) (hp : ∀ f, W (.pwr f)) (hf : ∀ b hi lo v, W (.fld b hi lo v)) : Prog.Only W (touchStack a) := fun s => by
    simp only [only_all_cons, only_all_nil, only_when]
    exact ⟨(only_one _).2 (hp _), fun _ => only_each _ _ fun _ _ => (only_set _ _ _).2 (hf ..), trivial⟩
  exact ⟨hbm_of_only (sets _ (fun _ => trivial) fun _ _ _ _ => trivial) s, out_of_only (sets _ (fun _ => trivial) fun _ _ _ _ => trivial) s⟩

section
variable {s : State} {off len : Nat} {data : List Byte}

theorem run_bar4_write (h : s.bar4Ok true off data.length = true) :
    run (bar4Access true off len data) s = run (.one (.mem off data)) (run (touchStack off) s) := by
  rw [bar4Access, run_ask]
  simp [h]

theorem run_bar4_read (h : s.bar4Ok false off len = true) :
    run (bar4Access false off len data) s = run (.out (.memData off (s.hbmRead off len))) (run (touchStack off) s) := by
  rw [bar4Access, run_ask]
  simp [h]

theorem run_bar4_denied (h : s.bar4Ok true off data.length = false) :
    run (bar4Access true off len data) s = run (denyAccess (s.funcShell 0) 0 5 off) s := by
  rw [bar4Access, run_ask]
  simp [h]

end

/-! ### Denials store nothing where no ring holds an entry -/

/-- The act leaves HBM and the rings as they are. -/
def Act.keepsRings : Act → Prop
  | .mem _ _ => False
  | .host f => ∀ h, (f h).rings = h.rings
  | _ => True

/-- HBM holds what it held, and no ring has an entry to write. -/
def Unstored (m : List Host.Cell) (s : State) : Prop := s.hbm = m ∧ ∀ n, (s.ring n).ents = []

theorem unstored_of_only {p : Prog} (h : Prog.Only Act.keepsRings p) {m : List Host.Cell} {s : State} (hs : Unstored m s) : Unstored m (run p s) := by
  have hbm := h.keeps State.hbm (fun a _ ha => by cases a <;> first | rfl | exact ha.elim) s
  have hrings := h.keeps (fun s => s.host.rings) (fun a t ha => by cases a <;> first | rfl | exact ha t.host) s
  exact ⟨hbm.trans hs.1, fun n => by rw [State.ring, hrings]; exact hs.2 n⟩

theorem keepsRings_msixDeliver (v : Nat) : Prog.Only Act.keepsRings (msixDeliver v) := by
  have sends : Prog.Only Act.keepsRings (sendMsix v) := fun s => by
    dsimp only
    split
    · exact only_inc _ _ fun _ => trivial
    · split
      · trivial
      · split
        · exact (only_one _).2 fun _ => rfl
        · simp only [only_all_cons, only_all_nil, only_out, and_true]
          exact ⟨trivial, only_inc _ _ fun _ => trivial⟩
  intro s
  simp only [coalSend, only_all_cons, only_all_nil, only_when, and_true]
  exact ⟨(only_one _).2 fun _ => rfl, fun _ => ⟨(only_one _).2 fun _ => rfl, sends⟩⟩

theorem deliveryKeeps_unstored (m : List Host.Cell) : DeliveryKeeps (Unstored m) where
  drop _ := unstored_of_only (only_inc _ _ fun _ => trivial)
  source _ := unstored_of_only ((only_one (.fld _ _ _ _)).2 trivial)
  msix v _ := unstored_of_only (keepsRings_msixDeliver v)
  ring n f s hf hs := ⟨hs.1, fun k => by
    show (Tab.get (Tab.mod s.host.rings Ring.reset n f) Ring.reset k).ents = []
    rw [Tab.get_mod]
    split
    · exact (hf _).trans (hs.2 n)
    · exact hs.2 k⟩
  flush n s hs := by
    rw [run_ringFlush_none (by rw [hs.2 n]; exact fun _ h => absurd h List.not_mem_nil)]
    exact hs
  send n msg _ := unstored_of_only (only_txSend n msg (fun _ => trivial) fun _ => trivial)
  host f _ hf := unstored_of_only ((only_one (.host f)).2 hf)
  pin _ _ _ := unstored_of_only ((only_out _).2 trivial)

theorem unstored_raise {m : List Host.Cell} {s : State} (p : Pg) (k : Nat) (hs : Unstored m s) : Unstored m (run (raise p k) s) := by
  have hset : Unstored m (run (setSource p k) s) := unstored_of_only ((only_one (.fld _ _ _ _)).2 trivial) hs
  rw [run_raise]
  split
  · exact (deliveryKeeps_unstored m).deliver _ _ hset
  · exact hset

theorem unstored_denyAccess {m : List Host.Cell} {s : State} (shell fn kind a : Nat) (hs : Unstored m s) :
    Unstored m (run (denyAccess shell fn kind a) s) := by
  have hcounted : Unstored m (run (denyCounts shell) s) := unstored_of_only (by
    simp only [denyCounts, only_all_cons, only_all_nil, only_when, and_true]
    exact ⟨only_inc _ _ fun _ => trivial, fun _ => only_add _ _ _ fun _ => trivial⟩) hs
  rw [run_denyAccess, denyLogs]
  split
  · rw [run_pair]
    exact unstored_raise _ _ (unstored_of_only ((only_one (.deny _)).2 trivial) hcounted)
  · rw [incRaise, run_pair]
    exact unstored_raise _ _ (unstored_of_only (only_inc _ _ fun _ => trivial) hcounted)

/-! ### The statement -/

/-- Settles O23: a write stores the fields of its word, a 64-bit register takes both words at the second, and BAR4 stores inside a window only. -/
theorem writesReachTheRegister : Obligations.WritesReachTheRegister := by
  unfold Obligations.WritesReachTheRegister
  intro s fn off p rel a v x w data
  refine ⟨fun ht ha hk hrel hw hw' hres => ⟨_, rfl, ?_⟩, fun ha => ⟨_, rfl, run_hostWrite_xoAge x ha⟩, fun hi ha => ⟨_, rfl, ?_⟩,
    fun ht ha hw => ⟨_, rfl, ?_⟩, fun ht ha hw hw' hlo hk hres hd => ⟨_, rfl, run_hostWrite_high ht ha hw hw' hlo hk hres hd⟩,
    fun h => ⟨_, rfl, fun b => ?_⟩, fun h => ⟨_, rfl, ?_⟩, fun h => ⟨_, rfl, ?_⟩⟩
  · obtain ⟨hp, ho, hd, hwr⟩ := quiet_page hk
    exact holds_hostWrite ht ha hrel hw hw' hres hp (ho _) (hd ..) (hwr ..)
  · exact run_hostWrite_arbPrio hi (Nat.mod_lt _ (by decide)) ha
  · rw [run_hostWrite_answered _ ht ha, writeWord, if_pos hw, Nat.mod_eq_of_lt x.isLt]
    refine ⟨rfl, (Tab.find_put ..).trans ?_⟩
    rw [if_pos rfl, BitVec.ofNat_toNat, BitVec.setWidth_eq]
  · rw [run_bar4_write h, run_one, State.hbmByte, State.hbmByte, ← (touchStack_keeps off s).1]
    exact Memory.get_putBytes ..
  · rw [run_bar4_read h]
    refine ⟨congrArg _ (touchStack_keeps off s).2, fun b => ?_⟩
    rw [State.hbmByte, State.hbmByte, ← (touchStack_keeps off s).1]
    rfl
  · rw [run_bar4_denied h]
    refine ⟨fun hr b => ?_, counted_denyAccess ..⟩
    have hs : Unstored s.hbm s := ⟨rfl, fun n => by rw [State.ring, hr]; rfl⟩
    rw [State.hbmByte, (unstored_denyAccess _ _ _ _ hs).1, State.hbmByte]

end Sys2Proof.Machine

/-! SUPPORT. Proofs: STREAM_SET, STREAM_BIND and TRIG_SET (R47, R376, R543, Table 14-4). -/

namespace Sys2Proof.Machine

/-! ### A command whose checks are passed -/

section
variable {s u : State} {q k op : Nat} {h : Held}

theorem run_cmdRow (hc : CommandRuns s q k h op) (body : Nat → Held → Prog) : run (cmdRow q op body) s = run (body k h) s := by
  obtain ⟨hcur, hop, hdef, hden, hform, -⟩ := hc
  rw [cmdRow, run_ask, hcur]
  simp [hop, hdef, hden, hform]

theorem CommandRuns.ends (hc : CommandRuns s q k h op) : h.ends = [] := hc.2.2.2.2.2

theorem heldAt_of_current (hc : s.current q = some (k, h)) : s.heldAt q k = some h := by
  rw [State.current] at hc
  split at hc
  · next j _ =>
    obtain ⟨x, hx, he⟩ := Option.map_eq_some_iff.1 hc
    obtain ⟨rfl, rfl⟩ := Prod.mk.injEq .. ▸ he
    exact hx
  · cases hc

/-- A command that nothing pending ends completes. -/
theorem run_doneCmd (status result : Nat) (hh : u.heldAt q k = some h) (he : h.ends = []) :
    run (doneCmd q k status result) u = run (finishCmd q k status result) u := by
  rw [doneCmd, run_ask, hh, Option.bind_some, he]
  rfl

theorem heldAt_congr (hc : u.cmd = s.cmd) : u.heldAt q k = s.heldAt q k := by rw [State.heldAt, State.seqr, hc, State.heldAt, State.seqr]

theorem run_onPage {p : Pg} (hb : s.busy p = false) (work : Prog) : run (onPage q k p work) s = run work s := by
  rw [onPage, run_ask, hb, if_neg Bool.false_ne_true]

end

/-! ### Words written to a page -/

/-- Words, each at an offset of a page, are stored. -/
def storeAll (p : Pg) (ws : List (Nat × Nat)) : Prog := .each ws fun e => storeWord p e.1 e.2

section
variable {p : Pg} (hp : p.kind.plain = true)
include hp

theorem regsOnly_storeAll (ws : List (Nat × Nat)) (s : State) : RegsOnly s (run (storeAll p ws) s) := by
  induction ws generalizing s with
  | nil => exact rfl
  | cons e ws ih =>
    rw [storeAll, run_each_cons]
    exact (holds_storeWord hp e.1 e.2 s).2.1.trans (ih _)

theorem cell_storeAll {ws : List (Nat × Nat)} {a : Nat} (ha : ∀ e ∈ ws, a ≠ p.base + e.1) (s : State) :
    (run (storeAll p ws) s).cell a = s.cell a := by
  induction ws generalizing s with
  | nil => rfl
  | cons e ws ih =>
    rw [storeAll, run_each_cons, ← storeAll, ih fun x hx => ha x (List.mem_cons_of_mem _ hx)]
    exact (holds_storeWord hp e.1 e.2 s).2.2 a (ha e (List.mem_cons_self ..))

theorem holds_storeAll {ws : List (Nat × Nat)} (hn : (ws.map Prod.fst).Nodup) (s : State) : ∀ e ∈ ws, (run (storeAll p ws) s).holds p e.1 e.2 := by
  induction ws generalizing s with
  | nil => exact fun e he => absurd he List.not_mem_nil
  | cons x ws ih =>
    rw [List.map_cons, List.nodup_cons] at hn
    intro e he
    rw [storeAll, run_each_cons, ← storeAll]
    rcases List.mem_cons.1 he with rfl | he
    · refine State.holds_congr (cell_storeAll hp (fun y hy heq => hn.1 ?_) _) (holds_storeWord hp e.1 e.2 s).1
      exact List.mem_map.2 ⟨y, hy, by omega⟩
    · exact ih hn.2 _ e he

end

/-! ### The commit that follows -/

/-- What COMMIT of a command does while a frame is open. -/
def commitWaits (p : Pg) : Prog := .all [setPend p true, showHeld]

/-- The act writes a register cell. -/
def Act.writesCell : Act → Prop
  | .fld _ _ _ _ | .wr _ _ => True
  | _ => False

theorem regsOnly_of_only {p : Prog} (h : Prog.Only Act.writesCell p) (s : State) : RegsOnly s (run p s) := by
  have hkeep := h.keeps (fun s => { s with regs := [] }) (fun a _ ha => by cases a <;> first | rfl | exact ha.elim) s
  exact congrArg (fun u : State => { u with regs := (run p s).regs }) hkeep

theorem regsOnly_commitWaits (p : Pg) (s : State) : RegsOnly s (run (commitWaits p) s) :=
  regsOnly_of_only (by
    simp only [commitWaits, setPend, showHeld, only_all_cons, only_all_nil, only_one, only_ask, only_set, and_true]
    exact ⟨⟨trivial, trivial⟩, fun _ => trivial⟩) s

theorem cell_commitWaits {p : Pg} {a : Nat} (h1 : 0x1000 ≤ a) (h2 : a ≠ p.base + 0x00C) (h3 : a ≠ p.base + 0x010) (s : State) :
    (run (commitWaits p) s).cell a = s.cell a := by
  have hheld : a ≠ R.TOP_HELD.addr pgTop 0 := by
    have : R.TOP_HELD.addr pgTop 0 < 0x1000 := by decide
    omega
  refine only_cell ?_ s
  simp only [commitWaits, setPend, showHeld, only_all_cons, only_all_nil, only_one, only_ask, only_set, and_true]
  exact ⟨⟨h2, h3⟩, fun _ => hheld⟩

theorem commitPend_commitWaits {p : Pg} (hp : 0x1000 ≤ p.base) (s : State) : (run (commitWaits p) s).commitPend p = true := by
  have hheld : p.base + 0x010 ≠ R.TOP_HELD.addr pgTop 0 := by
    have : R.TOP_HELD.addr pgTop 0 < 0x1000 := by decide
    omega
  have hspare : Prog.Only (Act.spares (p.base + 0x010)) showHeld := fun _ => (only_set _ _ _).2 hheld
  rw [commitWaits, run_pair, State.commitPend, only_cell hspare, setPend, run_pair, run_one, run_one, cell_applyAct_fld, if_pos rfl]
  refine (bit_putField _ 4 4 _ 4 (Nat.le_refl 4) (by decide)).trans ?_
  rw [if_pos ⟨Nat.le_refl 4, Nat.le_refl 4⟩]
  rfl

theorem openPending_open {s : State} (h : s.frameOpen = true) : run openPending s = s := by
  rw [State.frameOpen, decide_eq_true_eq] at h
  rw [openPending, run_ask, openPendingAt, run_ask, run_when]
  split
  · rw [if_neg (by omega), run_when, if_neg (by simp; omega)]
  · rfl

/-- The pages that the words of these commands go to lie above TOP's, and their writes only store. -/
structure WordPage (p : Pg) : Prop where
  plain : p.kind.plain = true
  above : 0x1000 ≤ p.base

/-- What a STREAM_SET or TRIG_SET does to its page, the checks passed. -/
def setEffect (h : Held) (p : Pg) (ws : List (Nat × Nat)) : Prog := .all [storeAll p ws, .when h.commit (commitWaits p)]

section
variable {s : State} {q k : Nat} {h : Held} {p : Pg} (hp : WordPage p) {ws : List (Nat × Nat)}
include hp

theorem frameOpen_storeAll (s : State) : (run (storeAll p ws) s).frameOpen = s.frameOpen := by
  have hstate : R.TOP_STATE.addr pgTop 0 < 0x1000 := by decide
  have := hp.above
  rw [State.frameOpen, State.fstate, State.get, State.geti, cell_storeAll hp.plain (fun e _ => by omega)]
  rfl

theorem frameOpen_commitWaits (s : State) : (run (commitWaits p) s).frameOpen = s.frameOpen := by
  have hstate : R.TOP_STATE.addr pgTop 0 < 0x1000 := by decide
  have := hp.above
  have hspare : Prog.Only (Act.spares (R.TOP_STATE.addr pgTop 0)) (commitWaits p) := by
    simp only [commitWaits, setPend, showHeld, only_all_cons, only_all_nil, only_one, only_ask, only_set, and_true]
    exact ⟨⟨show _ ≠ _ by omega, show _ ≠ _ by omega⟩, fun _ => by show R.TOP_STATE.addr pgTop 0 ≠ R.TOP_HELD.addr pgTop 0; decide⟩
  rw [State.frameOpen, State.fstate, only_get hspare]
  rfl

theorem regsOnly_setEffect (s : State) : RegsOnly s (run (setEffect h p ws) s) := by
  rw [setEffect, run_pair, run_when]
  split
  · exact (regsOnly_storeAll hp.plain ws s).trans (regsOnly_commitWaits p _)
  · exact regsOnly_storeAll hp.plain ws s

/-- The words of the page, past its header, are as they were stored. -/
theorem cell_setEffect {rel : Nat} (hrel : 0x40 ≤ rel) (s : State) :
    (run (setEffect h p ws) s).cell (p.base + rel) = (run (storeAll p ws) s).cell (p.base + rel) := by
  have := hp.above
  rw [setEffect, run_pair, run_when]
  split
  · exact cell_commitWaits (by omega) (by omega) (by omega) _
  · rfl

theorem run_setWords (hres : ∀ e ∈ ws, reservedWrite p e.1 [e.2] = false) (hb : s.busy p = false) (hcommit : h.commit = true → s.frameOpen = true)
    (hh : s.heldAt q k = some h) (he : h.ends = []) :
    run (setWords q k h p ws) s = run (finishCmd q k 0 (if h.commit then 1 else 0)) (run (setEffect h p ws) s) := by
  have hany : (ws.any fun e => reservedWrite p e.1 [e.2]) = false := by
    rw [List.any_eq_false]
    exact fun e he => by rw [hres e he]; exact Bool.false_ne_true
  have hheld : (run (setEffect h p ws) s).heldAt q k = some h := (heldAt_congr (by rw [regsOnly_setEffect hp s])).trans hh
  rw [← run_doneCmd 0 _ hheld he, setWords, hany, if_neg Bool.false_ne_true, run_onPage hb, run_pair, ← storeAll, setEffect, run_pair, run_when]
  cases hc : h.commit with
  | false => rfl
  | true =>
    have hopen : (run (storeAll p ws) s).frameOpen = true := (frameOpen_storeAll hp s).trans (hcommit hc)
    have hwaits : run (commitWritten p) (run (storeAll p ws) s) = run (commitWaits p) (run (storeAll p ws) s) := by
      rw [commitWritten, run_ask, hopen]
      rfl
    simp only [Bool.not_true, Bool.false_eq_true, if_false, if_true, run_ask, hopen, Bool.true_or, run_all_cons, run_all_nil]
    rw [hwaits, openPending_open ((frameOpen_commitWaits hp _).trans hopen)]
    rfl

/-- A command that sets words of a page: each is stored, the others stay, and COMMIT waits. -/
theorem finishes_setWords {i : Instr} (hexec : exec i s = .next (run (setWords q k h p ws) s))
    (hres : ∀ e ∈ ws, reservedWrite p e.1 [e.2] = false) (hb : s.busy p = false)
    (hcommit : h.commit = true → s.frameOpen = true) (hh : s.heldAt q k = some h) (he : h.ends = [])
    (hn : (ws.map Prod.fst).Nodup) (hrel : ∀ e ∈ ws, 0x40 ≤ e.1) :
    Finishes i s q k h 0 (if h.commit then 1 else 0) fun u => (∀ e ∈ ws, u.holds p e.1 e.2) ∧
      (∀ rel, 0x40 ≤ rel → (∀ e ∈ ws, rel ≠ e.1) → u.cell (p.base + rel) = s.cell (p.base + rel)) ∧
      (h.commit = true → u.commitPend p = true) := by
  refine ⟨run (setEffect h p ws) s, ⟨fun e he => ?_, fun rel hr hne => ?_, fun hc => ?_⟩, ?_, ?_⟩
  · exact State.holds_congr (cell_setEffect hp (hrel e he) s) (holds_storeAll hp.plain hn s e he)
  · rw [cell_setEffect hp hr, cell_storeAll hp.plain fun e he => by have := hne e he; omega]
  · rw [setEffect, run_pair, hc, run_when, if_pos rfl]
    exact commitPend_commitWaits hp.above _
  · exact (heldAt_congr (by rw [regsOnly_setEffect hp s])).trans hh
  · rw [hexec, run_setWords hp hres hb hcommit hh he]

end

theorem Finishes.mono {i : Instr} {s : State} {q k : Nat} {h : Held} {status result : Nat} {P Q : State → Prop}
    (hf : Finishes i s q k h status result P) (hPQ : ∀ u, P u → Q u) : Finishes i s q k h status result Q := by
  obtain ⟨u, hu, hrest⟩ := hf
  exact ⟨u, hPQ u hu, hrest⟩

/-! ### The words of the commands -/

/-- Some of a run of words at an offset, each with its value. -/
def someWords (base n : Nat) (named : Nat → Bool) (v : Nat → Nat) : List (Nat × Nat) :=
  ((List.range n).filter named).map fun w => (base + 4 * w, v w)

theorem nodup_someWords (base n : Nat) (named : Nat → Bool) (v : Nat → Nat) : ((someWords base n named v).map Prod.fst).Nodup := by
  rw [someWords, List.map_map]
  exact (List.nodup_range.filter _).map fun _ _ h => by simpa using h

theorem mem_someWords {base n : Nat} {named : Nat → Bool} {v : Nat → Nat} {e : Nat × Nat} :
    e ∈ someWords base n named v ↔ ∃ w, w < n ∧ named w = true ∧ e = (base + 4 * w, v w) := by
  simp only [someWords, List.mem_map, List.mem_filter, List.mem_range]
  constructor
  · rintro ⟨w, ⟨hw, hn⟩, rfl⟩
    exact ⟨w, hw, hn, rfl⟩
  · rintro ⟨w, hw, hn, rfl⟩
    exact ⟨w, ⟨hw, hn⟩, rfl⟩

theorem streamWords_eq (h : Held) : streamWords false h = someWords 0x040 10 (fun w => bit (h.pf 1 9 0) w) fun w => h.p (2 + w) := rfl

theorem trigWords_eq (h : Held) : ∃ base n, 0x40 ≤ base ∧ trigWords h = someWords base n (fun w => bit (h.pf 1 6 0) w) fun w => h.p (2 + w) := by
  rw [trigWords]
  match h.pf 0 1 0 with
  | 0 => exact ⟨0x040, 7, Nat.le_refl _, rfl⟩
  | 1 => exact ⟨0x040 + 0x50 * h.pf 0 11 8, 4, by omega, rfl⟩
  | _ + 2 => exact ⟨0x050 + 0x50 * h.pf 0 11 8 + 16 * h.pf 0 13 12, 4, by omega, rfl⟩

theorem wordPage_stream (n : Nat) : WordPage (pgSt n) :=
  ⟨plain_table Kind.st (by decide), Nat.le_trans (by decide : 0x1000 ≤ Kind.st.base) (Nat.le_add_right _ _)⟩

theorem wordPage_trigger (c : Prop) [Decidable c] (n : Nat) : WordPage (if c then pgTu n else pgTcomb) := by
  split
  · exact ⟨plain_table Kind.tu (by decide), Nat.le_trans (by decide : 0x1000 ≤ Kind.tu.base) (Nat.le_add_right _ _)⟩
  · exact ⟨plain_table Kind.tcomb (by decide), by decide⟩

/-! ### Bindings (R376 to R378, R543) -/

/-- The act writes a cell past the streams' pages. -/
def Act.writesCharge : Act → Prop
  | .fld b _ _ _ => 0x200000 ≤ b
  | _ => False

/-- What such acts leave: all but the cells, and of those the streams' and every lower one. -/
theorem keeps_of_writesCharge {p : Prog} (h : Prog.Only Act.writesCharge p) (s : State) :
    RegsOnly s (run p s) ∧ ∀ (q : Pg) (r : Row), r.addr q 0 < 0x200000 → (run p s).get q r = s.get q r := by
  refine ⟨regsOnly_of_only (h.mono fun a ha => ?_) s, fun q r hr => only_get (h.mono fun a ha => ?_) s⟩
  · cases a <;> trivial
  · cases a with
    | fld b _ _ _ => exact Nat.ne_of_lt (Nat.lt_of_lt_of_le hr ha)
    | _ => exact ha.elim

theorem RegsOnly.cmd {s t : State} (h : RegsOnly s t) : t.cmd = s.cmd := by
  rw [RegsOnly] at h
  rw [h]

theorem RegsOnly.net {s t : State} (h : RegsOnly s t) : t.net = s.net := by
  rw [RegsOnly] at h
  rw [h]

theorem charge_rdma (r : Row) (i v : Nat) : Prog.Only Act.writesCharge (.seti pgRdma r i v) := (only_seti ..).2 (by
  show 0x200000 ≤ pgRdma.base + r.off + r.stride * i
  have : 0x200000 ≤ pgRdma.base := by decide
  omega)

theorem charge_setSum (x v : Nat) : Prog.Only Act.writesCharge (setSum x v) := by
  rw [setSum]
  split
  · exact charge_rdma _ 0 v
  · exact charge_rdma _ _ v

theorem charge_minRate (c : Nat) : Prog.Only Act.writesCharge (minRate c) := fun _ => (only_set ..).2 (by
  show 0x200000 ≤ 0x900000 + 64 * c + 0x038 + 4 * 0
  omega)

theorem charge_releaseCharge (n : Nat) : Prog.Only Act.writesCharge (releaseCharge n) := fun _ => by
  simp only [only_all_cons, only_all_nil, only_when, and_true]
  exact ⟨fun _ => only_each _ _ fun _ _ _ => charge_setSum _ _, charge_rdma _ _ _⟩

theorem charge_makeCharge (n : Nat) : Prog.Only Act.writesCharge (makeCharge n) := by
  simp only [makeCharge, only_all_cons, only_all_nil, only_ask, only_when, and_true]
  exact ⟨charge_releaseCharge n, fun _ => ⟨charge_rdma _ _ _, charge_rdma _ _ _, fun _ => only_each _ _ fun _ _ _ => charge_setSum _ _,
    fun _ => charge_minRate _⟩⟩

/-- The destination of a stream takes a value. -/
def setDest (n kind index : Nat) : Prog := .all [.set (pgSt n) R.ST_DEST_KIND kind, .set (pgSt n) R.ST_DEST_INDEX index]

theorem get_setDest {n kind index : Nat} (hk : kind < 4) (hi : index < 8192) (s : State) :
    (run (setDest n kind index) s).get (pgSt n) R.ST_DEST_KIND = kind ∧ (run (setDest n kind index) s).get (pgSt n) R.ST_DEST_INDEX = index := by
  rw [setDest, run_pair, get_set_other _ _ _ _ _ _ rfl (.inr (by decide)), get_set_same _ _ _ _ rfl, get_set_same _ _ _ _ rfl]
  exact ⟨Nat.mod_eq_of_lt hk, Nat.mod_eq_of_lt hi⟩

section
variable {n : Nat} (hn : n < 256) (s : State)
include hn

theorem dest_addr : R.ST_DEST_KIND.addr (pgSt n) 0 < 0x200000 ∧ R.ST_DEST_INDEX.addr (pgSt n) 0 < 0x200000 := by
  have h : (pgSt n).base + 0x070 + 4 * 0 < 0x200000 := by
    show 0x100000 + 0x1000 * n + 0x070 + 4 * 0 < 0x200000
    omega
  exact ⟨h, h⟩

theorem unbindStream_spec : (run (unbindStream n) s).get (pgSt n) R.ST_DEST_KIND = 0 ∧ (run (unbindStream n) s).cmd = s.cmd := by
  have hrun : run (unbindStream n) s = run (.when (decide (2 ≤ s.dest n / 65536)) (minRate (s.dest n % 65536)))
      (run (.net fun t => { t with rate := Tab.del t.rate n }) (run (.seti pgRdma R.RDMA_ADM_CHARGE n 0)
        (run (setDest n 0 0) (run (releaseCharge n) s)))) := by
    simp only [unbindStream, setDest, run_ask, run_all_cons, run_all_nil]
  obtain ⟨hreleased, -⟩ := keeps_of_writesCharge (charge_releaseCharge n) s
  generalize run (releaseCharge n) s = s1 at *
  obtain ⟨hkind, -⟩ := get_setDest (n := n) (kind := 0) (index := 0) (by decide) (by decide) s1
  have hdest : (run (setDest n 0 0) s1).cmd = s1.cmd := rfl
  generalize run (setDest n 0 0) s1 = s2 at *
  obtain ⟨hcharged, hcell⟩ := keeps_of_writesCharge (charge_rdma R.RDMA_ADM_CHARGE n 0) s2
  generalize run (.seti pgRdma R.RDMA_ADM_CHARGE n 0) s2 = s3 at *
  obtain ⟨hlast, hlastCell⟩ := keeps_of_writesCharge ((only_when (decide (2 ≤ s.dest n / 65536)) _).2 fun _ => charge_minRate (s.dest n % 65536))
    (run (.net fun t => { t with rate := Tab.del t.rate n }) s3)
  rw [hrun]
  refine ⟨(hlastCell _ _ (dest_addr hn).1).trans ((hcell _ _ (dest_addr hn).1).trans hkind), ?_⟩
  rw [hlast.cmd]
  show s3.cmd = s.cmd
  rw [hcharged.cmd, hdest, hreleased.cmd]

theorem bindStream_spec {kind index rate : Nat} (hk : kind < 4) (hi : index < 8192) :
    let u := run (bindStream n (kind * 65536 + index) rate) s
    (u.get (pgSt n) R.ST_DEST_KIND = kind ∧ u.get (pgSt n) R.ST_DEST_INDEX = index ∧ Tab.find u.net.rate n = some rate) ∧ u.cmd = s.cmd := by
  have hkey : (kind * 65536 + index) / 65536 = kind ∧ (kind * 65536 + index) % 65536 = index := by omega
  have hrun : run (bindStream n (kind * 65536 + index) rate) s =
      run (.all [.when (decide (2 ≤ s.dest n / 65536)) (minRate (s.dest n % 65536)), makeCharge n])
        (run (.net fun t => { t with rate := Tab.put t.rate n rate }) (run (setDest n kind index) (run (releaseCharge n) s))) := by
    simp only [bindStream, setDest, run_ask, run_all_cons, run_all_nil, hkey.1, hkey.2]
  intro u
  obtain ⟨hreleased, -⟩ := keeps_of_writesCharge (charge_releaseCharge n) s
  generalize run (releaseCharge n) s = s1 at *
  obtain ⟨hkind, hindex⟩ := get_setDest (n := n) hk hi s1
  have hdest : (run (setDest n kind index) s1).cmd = s1.cmd := rfl
  generalize run (setDest n kind index) s1 = s2 at *
  have hcharges : Prog.Only Act.writesCharge (.all [.when (decide (2 ≤ s.dest n / 65536)) (minRate (s.dest n % 65536)), makeCharge n]) := by
    simp only [only_all_cons, only_all_nil, only_when, and_true]
    exact ⟨fun _ => charge_minRate _, charge_makeCharge n⟩
  obtain ⟨hlast, hlastCell⟩ := keeps_of_writesCharge hcharges (run (.net fun t => { t with rate := Tab.put t.rate n rate }) s2)
  refine ⟨⟨?_, ?_, ?_⟩, ?_⟩
  · exact (congrArg (·.get (pgSt n) R.ST_DEST_KIND) hrun).trans ((hlastCell _ _ (dest_addr hn).1).trans hkind)
  · exact (congrArg (·.get (pgSt n) R.ST_DEST_INDEX) hrun).trans ((hlastCell _ _ (dest_addr hn).2).trans hindex)
  · rw [show u.net = _ from congrArg State.net hrun, hlast.net]
    exact (Tab.find_put ..).trans (if_pos rfl)
  · rw [show u.cmd = _ from congrArg State.cmd hrun, hlast.cmd]
    show s2.cmd = s.cmd
    rw [hdest, hreleased.cmd]

end

/-- A binding that is refused for nothing runs its work, and completes. -/
theorem finishes_streamBind {s : State} {q k : Nat} {h : Held} (hc : CommandRuns s q k h 0x13)
    (work : Prog) (hwork : run (streamBindStep q k h) s = run (doneCmd q k 0 0) (run work s)) (hcmd : (run work s).cmd = s.cmd) {P : State → Prop}
    (hP : P (run work s)) : Finishes (.streamBind q) s q k h 0 0 P := by
  have hh : (run work s).heldAt q k = some h := (heldAt_congr hcmd).trans (heldAt_of_current hc.1)
  refine ⟨_, hP, hh, ?_⟩
  rw [← run_doneCmd 0 0 hh hc.ends, ← hwork, ← run_cmdRow hc]
  rfl

/-! ### The statement -/

/-- Settles O14: the words a command names are stored one by one, and the commit waits for the frame; a binding writes the stream's destination. -/
theorem streamAndTriggerCommands : Obligations.StreamAndTriggerCommands := by
  unfold Obligations.StreamAndTriggerCommands
  intro s q k h hver hcommit
  have hv1 : decide (s.shellVer h.shell = 1) = false := decide_eq_false hver
  refine ⟨?_, ?_, ?_⟩
  · intro p hc hb hres
    have hexec : exec (.streamSet q) s = .next (run (setWords q k h p (streamWords false h)) s) := by
      show Host.Outcome.next (run (cmdRow q 0x12 (streamSetStep q)) s) = _
      rw [run_cmdRow hc, streamSetStep, run_ask, hv1]
    rw [streamWords_eq] at hexec
    refine (finishes_setWords (wordPage_stream _) hexec (fun e he => ?_) hb hcommit (heldAt_of_current hc.1) hc.ends (nodup_someWords ..)
      fun e he => ?_).mono fun u ⟨hold, hkept, hpend⟩ => ⟨fun w hw => ?_, hpend⟩
    · obtain ⟨w, hw, hn, rfl⟩ := mem_someWords.1 he
      exact hres w hw hn
    · obtain ⟨w, -, -, rfl⟩ := mem_someWords.1 he
      exact Nat.le_add_right ..
    · split
      · next hn => exact hold _ (mem_someWords.2 ⟨w, hw, hn, rfl⟩)
      · next hn =>
        rw [Nat.add_assoc]
        refine hkept _ (Nat.le_add_right ..) fun e he => ?_
        obtain ⟨w', -, hn', rfl⟩ := mem_someWords.1 he
        have : w ≠ w' := fun hww => hn (hww ▸ hn')
        show 0x040 + 4 * w ≠ 0x040 + 4 * w'
        omega
  · intro p hc hb h3 hu hd hres
    have hform : (decide (h.pf 0 1 0 = 3) || (decide (h.pf 0 1 0 = 0) && decide (8 ≤ h.pf 0 11 8)) ||
        (decide (h.pf 0 1 0 ≠ 0) && decide (16 ≤ h.pf 1 6 0))) = false := by
      simp; omega
    have hexec : exec (.trigSet q) s = .next (run (setWords q k h p (trigWords h)) s) := by
      show Host.Outcome.next (run (cmdRow q 0x14 (trigSetStep q)) s) = _
      rw [run_cmdRow hc, trigSetStep, run_ask]
      dsimp only
      rw [hform, if_neg Bool.false_ne_true, trigSetWords, hv1]
      rfl
    obtain ⟨base, n, hbase, hwords⟩ := trigWords_eq h
    refine (finishes_setWords (wordPage_trigger _ _) hexec hres hb hcommit (heldAt_of_current hc.1) hc.ends (hwords ▸ nodup_someWords ..)
      fun e he => ?_).mono fun u ⟨hold, _, hpend⟩ => ⟨hold, hpend⟩
    rw [hwords] at he
    obtain ⟨w, -, -, rfl⟩ := mem_someWords.1 he
    show 0x40 ≤ base + 4 * w
    omega
  · intro n i hc hb hframe
    have hn : n < 256 := bits_lt _ 7 0
    have hfree : (s.en (pgSt n) && s.frameOpen) = false := by simpa using hframe
    refine ⟨fun hkind => ?_, fun hkind hring hadm => ?_, fun hkind hi hfree' hdrain hadm => ?_⟩
    · obtain ⟨hdest, hcmd⟩ := unbindStream_spec hn s
      refine finishes_streamBind hc (unbindStream n) ?_ hcmd hdest
      rw [streamBindStep, run_ask, run_onPage hb, if_neg (by simp [hkind]), if_neg (by rw [hfree]; decide), if_pos hkind, run_pair]
      rfl
    · have hi : i < 8192 := bits_lt _ 12 0
      obtain ⟨hdest, hcmd⟩ := bindStream_spec hn s (kind := 1) (index := i) (rate := h.pf 2 15 0) (by decide) hi
      refine finishes_streamBind hc _ ?_ hcmd hdest
      rw [streamBindStep, run_ask, run_onPage hb, if_neg (by simpa [hkind] using hring), if_neg (by rw [hfree]; decide),
        if_neg (by rw [hkind]; decide), if_neg (by simpa [hkind, imp_iff_not_or] using hadm), run_pair, if_pos hkind]
      rfl
    · obtain ⟨hdest, hcmd⟩ := bindStream_spec hn s (kind := if s.qp i R.QPC_KIND = 3 then 3 else 2) (index := i) (rate := h.pf 2 15 0)
        (by split <;> decide) (by omega)
      refine finishes_streamBind hc _ ?_ hcmd hdest
      rw [streamBindStep, run_ask, run_onPage hb, if_neg (by simpa [hkind] using ⟨⟨hi, hfree'⟩, hdrain⟩),
        if_neg (by rw [hfree]; decide), if_neg (by rw [hkind]; decide), if_neg (by simpa [hkind, imp_iff_not_or] using hadm), run_pair, if_neg (by rw [hkind]; decide)]
      rfl

end Sys2Proof.Machine

/-! SUPPORT. Proofs: a handover that falls due at a position its bank does not have overwrites what the end of a settling has cleared (R108, R111). -/

namespace Sys2Proof.Machine

/-- A settling that waits for a run ends with the measurement of its channel, where the run has come to it (R108, R460). -/
theorem exec_settled_ownRun {s : State} {n : Nat} (vals : List (Nat × Int)) {e : Nat × CalRun} (hn : n < 8) (hsettling : s.settling n = true)
    (hcode : Tab.get s.conv.settle 0 n < 3) (hown : s.ownRun (bankChan (s.mode (dieOf n)) n) = some e)
    (hhead : e.2.chans.head? = some (bankChan (s.mode (dieOf n)) n)) :
    exec (.settled n vals) s = .next (run (runStep e.1 vals true) s) := by
  show execSettled n vals s = _
  simp [execSettled, hn, hsettling, hcode, hown, hhead]

/-- The FULL run of the enable of channel 0, which it measures. -/
def enableRun : CalRun :=
  { kind := 2, named := [0], chans := [0], step := 0, hard := false, cmd := none, temps := [0, 0], stepAt := 0, chanAt := 0, meas := [] }

/-- A state in which bank 0 settles through the run of its enable, while bank 4, which is powered and settled, has a handover due. The next
handover of bank 4 is at position 16212, where a bank has positions 0 to 63: the slice that waits, 65, goes not into SLICE_MAP but
0x3F54 bytes beyond its start, into the word of the CAL page that holds CAL_BAD. -/
def strayHandover : State := { State.reset with
  regs := [(0x14044, 0x46#32)]
  conv := { State.reset.conv with settle := [(0, 1)], rotDue := [(4, true)], rotPos := [(4, 16212)] }
  cal := { State.reset.cal with runs := [(8, enableRun)] } }

theorem strayHandover_settles : strayHandover.settling 0 = true ∧ Tab.get strayHandover.conv.settle 0 0 = 1 ∧
    bankChan (strayHandover.mode (dieOf 0)) 0 = 0 ∧ 0 ∈ strayHandover.banksOf 0 ∧ strayHandover.ownRun 0 = some (8, enableRun) ∧
    strayHandover.run? 8 = some enableRun ∧ strayHandover.seg.openWait = false := by decide +kernel

/-- The state keeps what every step keeps, so no well-formedness of the model excludes it. -/
theorem wf_strayHandover : strayHandover.wf = true := by decide +kernel

/-- The end of channel 0's measurement clears CAL_BAD of the channel, and the handover made at the boundary sets it again. -/
theorem calBad_strayHandover : (run (runStep 8 [] true) strayHandover).calBad 0 = true := by decide +kernel

/-- Refutes O26: in a state whose rotation of a bank stands at a position that the bank does not have, the end of a settling leaves CAL_BAD of
its channel set. The boundary that ends the measurement makes the handovers that are due (R114), and this one writes its slice over CAL_BAD.
The statement bounds no position, nor excludes a due handover as `Obligations.CalibrationEventsAct` does, and the state is
well kept (`wf_strayHandover`). -/
theorem not_converterEventsAct : ¬ Obligations.ConverterEventsAct := by
  unfold Obligations.ConverterEventsAct
  intro h
  obtain ⟨hsettling, hcode, hchan, hbank, hown, hrun, hopen⟩ := strayHandover_settles
  obtain ⟨-, -, -, -, -, -, hends⟩ := h strayHandover [] 0 0 0 0 [] (8, enableRun)
  obtain ⟨t, ht, -, -, hbad, -⟩ := hends (by decide) hsettling (.inl hcode) hchan.symm hbank (by decide) hown hrun rfl hopen
  have hexec := exec_settled_ownRun [] (by decide) hsettling (by rw [hcode]; decide) (hchan.symm ▸ hown) (hchan.symm ▸ rfl)
  obtain rfl := Host.Outcome.next.inj (hexec.symm.trans ht)
  exact Bool.false_ne_true (hbad.symm.trans calBad_strayHandover)

end Sys2Proof.Machine

/-! SUPPORT. Proofs: a CAL_SAVE whose flash write finds no directory to commit to does not wait (R124, R506). -/

namespace Sys2Proof.Machine

/-- CAL_SAVE of set 0 on FE0, by the supervisor. -/
def saveCommand : Held :=
  { ring := 0, shell := supervisor, bytes := leBytes 2 0x19 ++ [0, 0] ++ leBytes 4 0 ++ leBytes 4 0x100 ++ List.replicate 52 0, order := 0,
    started := true, wait := .running, flags := 0, pc := 0, img := none, args := [], ends := [], work := 0 }

/-- The step of that command runs while no flash write is in progress and both copies of the flash directory have failed, so that no write can
be committed (R506). -/
def saveWithoutDirectory : State := { State.reset with
  cmd := { State.reset.cmd with seqs := [(0, { Seqr.reset with held := [(0, saveCommand)], cur := some 0 })] }
  sys := { State.reset.sys with dirBad := 2 } }

theorem commandRuns_saveWithoutDirectory : CommandRuns saveWithoutDirectory 0 0 saveCommand 0x19 := by
  unfold CommandRuns; decide +kernel

theorem namedDies_saveCommand : which 2 (fun d => bit (saveCommand.pf 0 9 8) d) = [0] := by decide +kernel

theorem nearSet_saveWithoutDirectory : ∀ d < 2, saveWithoutDirectory.nearSet (saveCommand.pf 0 2 0) d = false := by decide +kernel

theorem flashTakes_saveWithoutDirectory : saveWithoutDirectory.flashTakes := by
  refine .inr fun j hj => ?_
  rw [State.freeSectors, hj]
  decide +kernel

/-- The state keeps what every step keeps, so no well-formedness of the model excludes it. -/
theorem wf_saveWithoutDirectory : saveWithoutDirectory.wf = true := by decide +kernel

/-- The flash store takes the write, finds that it cannot be committed, and completes the command, which leaves its slot (R506). -/
theorem heldAt_saved : (run (cmdRow 0 0x19 (calSaveStep 0)) saveWithoutDirectory).heldAt 0 0 = none := by decide +kernel

/-- Refutes O15: with both copies of the flash directory failed, which no hypothesis excludes, a CAL_SAVE that the flash store takes completes
in its step, with FLASH_WEAR (R506), and does not wait. The state is well kept (`wf_saveWithoutDirectory`). The statement takes a write with a
free sector for one that goes on, where `State.stuck` asks for a directory too. -/
theorem not_calibrationCommands : ¬ Obligations.CalibrationCommands := by
  unfold Obligations.CalibrationCommands
  intro h
  obtain ⟨-, -, hsave⟩ := h saveWithoutDirectory 0 0 saveCommand
  obtain ⟨t, ht, hheld, -⟩ := hsave commandRuns_saveWithoutDirectory (by rw [namedDies_saveCommand]; decide)
    (fun d hd _ => nearSet_saveWithoutDirectory d hd) flashTakes_saveWithoutDirectory
  obtain rfl : run (cmdRow 0 0x19 (calSaveStep 0)) saveWithoutDirectory = t := Host.Outcome.next.inj ht
  rw [heldAt_saved] at hheld
  cases hheld

end Sys2Proof.Machine

/-! SUPPORT. Proofs: registers of the acquisition pages that act when they are written (R130, R134, R204, R264, R271). -/

namespace Sys2Proof.Machine

/-! ### Registers that act -/

section
variable {s : State} {fn a rel v : Nat} {p : Pg}

/-- A register that takes its word stores it, and then does what a write of it starts. -/
theorem run_hostWrite_stored (ht : s.target fn a = (p, rel)) (ha : s.answers fn a 4 = true) (hrel : 0x40 ≤ rel) (hw : wideLow p rel = false)
    (hw' : wideLow p (rel - 4) = false) (hres : reservedWrite p rel [v % 2 ^ 32] = false) (hd : s.discards fn p rel [v % 2 ^ 32] = none)
    (ho : ownStore p rel = false) :
    run (hostWrite fn a 4 v) s = run (written s p rel (v % 2 ^ 32)) (run (storeWord p rel (v % 2 ^ 32)) s) := by
  rw [run_hostWrite_register v ht ha hw fun _ => hw', run_writeWords_one _ (notHeader_of_le hrel) hres hd ho]

/-- Write-only fields store nothing. -/
theorem run_storeWord_writeOnly (h : ∀ r ∈ p.kind.fieldsAt rel, r.acc = .wo) (s : State) : run (storeWord p rel v) s = s := by
  have hnil : ∀ l : List Row, run (.each l fun _ => .nil) s = s := fun l => by
    induction l with
    | nil => rfl
    | cons r l ih => rw [run_each_cons, run_nil, ih]
  refine (run_each_congr (fun r hr t => ?_) s).trans (hnil (p.kind.fieldsAt rel))
  rw [run_ask, h r hr]

/-- The kinds of page with a write-only register that acts. -/
def Kind.acting : List Kind := [.text, .acc, .diff]

/-- A write-only register has no reserved encoding. -/
theorem reservedWrite_writeOnly (hk : p.kind ∈ Kind.acting) (h : ∀ r ∈ p.kind.fieldsAt rel, r.acc = .wo) : reservedWrite p rel [v] = false := by
  have hrows : (p.kind.rows.any fun r => (r.acc = .rw || r.acc = .rws) && r.lies rel &&
      r.bad.any fun b => decide (b.1 ≤ bits v r.hi r.lo) && decide (bits v r.hi r.lo ≤ b.2)) = false := by
    rw [List.any_eq_false]
    intro r hr
    by_cases hl : r.lies rel = true
    · simp [h r (Kind.mem_fieldsAt.2 ⟨hr, hl⟩)]
    · simp [hl]
  obtain ⟨k, n⟩ := p
  simp only [Kind.acting, List.mem_cons, List.not_mem_nil, or_false] at hk
  rcases hk with rfl | rfl | rfl <;> simpa [reservedWrite] using hrows

/-- A write of a write-only register does what it starts, and no more. -/
theorem run_hostWrite_acting (ht : s.target fn a = (p, rel)) (ha : s.answers fn a 4 = true) (hk : p.kind ∈ Kind.acting) (hrel : 0x40 ≤ rel)
    (h : ∀ r ∈ p.kind.fieldsAt rel, r.acc = .wo) (v : Nat) : run (hostWrite fn a 4 v) s = run (written s p rel (v % 2 ^ 32)) s := by
  have hquiet : (∀ x, wideLow p x = false) ∧ s.discards fn p rel [v % 2 ^ 32] = none ∧ ownStore p rel = false := by
    obtain ⟨k, n⟩ := p
    simp only [Kind.acting, List.mem_cons, List.not_mem_nil, or_false] at hk
    rcases hk with rfl | rfl | rfl <;> exact ⟨fun _ => rfl, rfl, rfl⟩
  obtain ⟨hwide, hd, ho⟩ := hquiet
  rw [run_hostWrite_stored ht ha hrel (hwide _) (hwide _) (reservedWrite_writeOnly hk h) hd ho, run_storeWord_writeOnly h]

end

/-! ### TEXT.SW_TRIG (R134) -/

theorem swTrig_writeOnly : ∀ r ∈ Kind.text.fieldsAt 0x094, r.acc = .wo := by decide +kernel

theorem run_hostWrite_swTrig {s : State} {fn : Nat} (v : Word) (ha : s.answers fn 0x29094 4 = true) :
    run (hostWrite fn 0x29094 4 v.toNat) s = run (swTrig v.toNat) s := by
  have ht : s.target fn 0x29094 = (pgText, 0x094) := target_at_block s fn (p := pgText) 0x094 rfl (by decide) (by decide)
  rw [run_hostWrite_acting ht ha (by decide) (by decide) swTrig_writeOnly, Nat.mod_eq_of_lt v.isLt]
  rfl

/-! ### ACC.EPOCH_GO (R204) -/

theorem epochGo_writeOnly : ∀ r ∈ Kind.acc.fieldsAt 0x04C, r.acc = .wo := by decide +kernel

/-- Bit 31 with a number below it. -/
theorem goWord {n m : Nat} (hm : m ∣ 2 ^ 31) (hn : n < m) : (2 ^ 31 + n) % 2 ^ 32 = 2 ^ 31 + n ∧ bit (2 ^ 31 + n) 31 = true ∧ (2 ^ 31 + n) % m = n := by
  have hle : m ≤ 2 ^ 31 := Nat.le_of_dvd (by decide) hm
  refine ⟨Nat.mod_eq_of_lt (by omega), ?_, ?_⟩
  · rw [bit, Nat.testBit_two_pow_add_eq, Nat.testBit_lt_two_pow (Nat.lt_of_lt_of_le hn hle)]
    rfl
  · rw [Nat.add_mod, Nat.mod_eq_zero_of_dvd hm, Nat.zero_add, Nat.mod_mod, Nat.mod_eq_of_lt hn]

theorem exec_accEpochGo {s : State} {fn : Nat} (n : Nat) (ha : s.answers fn 0x4104C 4 = true) :
    exec (.accEpochGo fn n) s = .next (run (epochGo (n % 256)) s) := by
  obtain ⟨hword, hbit, hlow⟩ := goWord (m := 256) (by decide) (Nat.mod_lt n (by decide))
  have ht : s.target fn 0x4104C = (pgAcc, 0x04C) := target_at_block s fn (p := pgAcc) 0x04C rfl (by decide) (by decide)
  show Host.Outcome.next (run (hostWrite fn 0x4104C 4 (2 ^ 31 + n % 256)) s) = _
  rw [run_hostWrite_acting ht ha (by decide) (by decide) epochGo_writeOnly, hword, show written s pgAcc 0x04C (2 ^ 31 + n % 256) = .when (bit (2 ^ 31 + n % 256) 31) (epochGo ((2 ^ 31 + n % 256) % 256)) from rfl,
    hbit, hlow, run_when, if_pos rfl]

section
variable {s : State} {m : Nat} (hf : s.fstate = 2) (hb : s.binned m = true) (hs : s.slotOf m = none)
include hf hb hs

/-- While a segment of the stream is in progress, the epoch is asked to close after it. -/
theorem epochGo_busy (hx : s.seg.extrs.any (fun e => e.2.req.stream = m) = true) : ((run (epochGo m) s).strm m).ep.goReq = true := by
  rw [epochGo, run_ask, run_when, if_pos (decide_eq_true hf), hs, hb, hx, run_pair, run_nil, run_when, if_pos rfl, if_pos rfl, strm_modStrm,
    if_pos rfl]

/-- A stream that is idle closes its epoch at once. -/
theorem epochGo_idle (hx : s.seg.extrs.any (fun e => e.2.req.stream = m) = false) (hsegs : 0 < (s.strm m).ep.segs)
    (hclosing : (s.strm m).ep.closing = 0) :
    ((run (epochGo m) s).strm m).ep.closing = 3 ∧ Counted s (run (epochGo m) s) pgAcc R.ACC_CNT_EPOCH_CMD 1 := by
  have hrun : run (epochGo m) s = run (.inc pgAcc R.ACC_CNT_EPOCH_CMD)
      (run (modStrm m fun t => { t with ep := { t.ep with closing := 3, goReq := false } }) s) := by
    rw [epochGo, run_ask, run_when, if_pos (decide_eq_true hf), hs, hb, hx, run_pair, run_nil, run_when, if_pos rfl, if_neg (by decide),
      closeEpoch, run_ask, run_when, if_pos (by simp [hsegs, hclosing])]
    simp [run_when]
  rw [hrun]
  refine ⟨?_, counted_inc _ _ _ (by decide)⟩
  show ((run (modStrm m _) s).strm m).ep.closing = 3
  rw [strm_modStrm, if_pos rfl]

end

/-! ### DIFF.EPOCH_GO (R271) -/

theorem diffEpochGo_writeOnly : ∀ r ∈ Kind.diff.fieldsAt 0x048, r.acc = .wo := by decide +kernel

theorem exec_diffEpochGo {s : State} {fn : Nat} (n : Nat) (ha : s.answers fn 0x43048 4 = true) :
    exec (.diffEpochGo fn n) s = .next (run (diffEpochGo (n % 64)) s) := by
  obtain ⟨hword, hbit, hlow⟩ := goWord (m := 64) (by decide) (Nat.mod_lt n (by decide))
  have ht : s.target fn 0x43048 = (pgDiff, 0x048) := target_at_block s fn (p := pgDiff) 0x048 rfl (by decide) (by decide)
  show Host.Outcome.next (run (hostWrite fn 0x43048 4 (2 ^ 31 + n % 64)) s) = _
  rw [run_hostWrite_acting ht ha (by decide) (by decide) diffEpochGo_writeOnly, hword,
    show written s pgDiff 0x048 (2 ^ 31 + n % 64) = .when (bit (2 ^ 31 + n % 64) 31) (diffEpochGo ((2 ^ 31 + n % 64) % 64)) from rfl,
    hbit, hlow, run_when, if_pos rfl]

theorem queues_pushData (r : Rec) : Prog.Only Act.queues (pushData r) := by
  have add (n : Nat) (row : Row) (k : Nat) : Prog.Only Act.queues (.add (pgSt n) row k) := only_add _ _ _ fun _ => queueCell_st row n 0
  have data (r : Rec) : Prog.Only Act.queues (queueData r) := by
    simp only [queueData, only_all_cons, only_all_nil, only_when, queues_inc_st, implies_true, and_true]
    exact queues_modStrm _ _ fun _ => rfl
  simp only [pushData, only_all_cons, only_all_nil, queues_flushPend, and_true, true_and]
  intro s
  simp only [only_ite, only_all_cons, only_all_nil, queues_pushPip, data, queues_set_st, queues_eqStat, implies_true, and_true, true_and]
  intro _ _ _ _
  refine ⟨queues_modStrm _ _ fun _ => rfl, add _ _ _, add _ _ _, only_each _ _ fun _ _ => queues_countLoss _ _ _, queues_flushPend _, fun t => ?_⟩
  simp only [only_ite, queues_pushPip, data, implies_true, and_true]

/-- The histogram epoch of a pair closes: it is counted, and the next one begins empty (R271). -/
theorem closeHist_closes {s : State} {p : Nat} (hu : s.df p R.DIFF_USE = 1) (ho : s.df p R.DIFF_OUT = 1) :
    Counted s (run (closeHist p) s) pgDiff R.DIFF_CNT_HEPOCH 1 ∧ ((run (closeHist p) s).pair' p).hist = [] ∧
    ((run (closeHist p) s).pair' p).n = 0 ∧ ((run (closeHist p) s).pair' p).epoch = (s.pair' p).epoch + 1 := by
  have hq := queuesOnly_run (only_each ((s.diffStreams p true).filter fun n => s.strmVer n ≠ 1) (fun n => pushData (histRecord s p n))
    fun n _ => queues_pushData _) s
  rw [closeHist, run_ask, run_when, if_pos (by simp [hu, ho]), run_all_cons, run_pair]
  generalize run (.each _ _) s = u at hq ⊢
  have htime : u.pair' p = s.pair' p := by rw [State.pair', hq.1, State.pair']
  have hpair (f : Pair → Pair) (t : State) : (run (modPair p f) t).pair' p = f (t.pair' p) := (Tab.get_mod ..).trans (if_pos rfl)
  have hkept : (run (.inc pgDiff R.DIFF_CNT_HEPOCH) u).pair' p = u.pair' p := rfl
  rw [hpair, hkept, htime]
  exact ⟨(counted_inc pgDiff R.DIFF_CNT_HEPOCH u (by decide)).of_get_eq (hq.geti_eq (by unfold queueCell; decide)).symm rfl, rfl, rfl, rfl⟩

/-! ### TDC.START (R264) -/

/-- A live field after a word of another offset has changed. -/
theorem CellOnly.live_eq {s t : State} {a : Nat} {q : Pg} {r : Row} (h : CellOnly s t a) (hne : r.addr q 0 + 0x800 ≠ a) :
    t.live q r = s.live q r := by rw [State.live, State.livei, h.2 _ hne, State.live, State.livei]

/-- Whether an input is armed does not depend on START and LOG2_EDGES of any input. -/
theorem tdcArmed_congr {s u : State} {j : Nat} (h : CellOnly s u ((pgTdc j).base + 0x050)) (i c : Nat) : u.tdcArmed i c = s.tdcArmed i c := by
  have hj : (pgTdc j).base = 0x30000 + 0x1000 * j := rfl
  have hi : (pgTdc i).base = 0x30000 + 0x1000 * i := rfl
  have low {r : Row} {p : Pg} (hr : r.addr p 0 < 0x30000) : u.get p r = s.get p r := h.get_eq (by omega)
  have hframe : u.fstate = s.fstate := low (by decide)
  have hclk : u.scsRun = s.scsRun := by rw [State.scsRun, low (by decide), State.scsRun]
  have hen : u.en (pgTdc i) = s.en (pgTdc i) := by rw [State.en, h.2 _ (by omega), State.en]
  have live {r : Row} (hr : r.off = 0x040) : u.td0 i r = s.td0 i r := h.live_eq (by
    rw [Row.addr, hr, hi, hj]
    omega)
  obtain ⟨hregs, -⟩ := h
  have hu : u.time = s.time ∧ u.trig = s.trig ∧ u.seg = s.seg ∧ u.free = s.free := by rw [hregs]; exact ⟨rfl, rfl, rfl, rfl⟩
  obtain ⟨htime, htrig, hseg, hfree⟩ := hu
  have hcclk (x : Nat) : u.cclkQ x = s.cclkQ x := by
    rw [State.cclkQ, State.instant, State.tieFor, htime, hfree, State.cclkQ, State.instant, State.tieFor]
  have hnow : u.nowQ = s.nowQ := by
    rw [State.nowQ, State.tie, State.now, hclk, hcclk, htime, State.nowQ, State.tie, State.now]
  have harm (src : Nat) : u.armLevel src c = s.armLevel src c := by
    rw [State.armLevel, State.levelAt, State.tdc, hnow, hcclk, htime, htrig, State.armLevel, State.levelAt, State.tdc]
  have hopen : u.tdcOpen i c = s.tdcOpen i c := by
    simp only [State.tdcOpen, hen, hframe, hseg, hcclk]
  rw [State.tdcArmed, hopen, live rfl, live rfl, harm, State.tdcArmed]

theorem plain_tdc : Kind.tdc.plain = true := by decide +kernel

/-- The word that a write of START puts. -/
def startWord (k : Nat) : Nat := (1 + k % 32 * 256) % 2 ^ 32

theorem startWord_fields : ∀ k < 27, 16 ≤ k → reservedWrite (pgTdc 0) 0x050 [startWord k] = false ∧ bit (startWord k) 0 = true ∧
    bits (startWord k) R.TDC_LOG2_EDGES.hi R.TDC_LOG2_EDGES.lo = k := by decide +kernel

/-- A write of START stores how many edges are asked for, and starts the test. -/
theorem run_hostWrite_start {s : State} {fn i k : Nat} (hi : i < 16) (ha : s.answers fn (0x30050 + i * 4096) 4 = true) (h16 : 16 ≤ k) (h26 : k ≤ 26) :
    ∃ u, run (hostWrite fn (0x30050 + i * 4096) 4 (1 + k % 32 * 256)) s = run (cdWritten i) u ∧ u.get (pgTdc i) R.TDC_LOG2_EDGES = k ∧
      CellOnly s u ((pgTdc i).base + 0x050) := by
  have haddr : 0x30050 + i * 4096 = (pgTdc i).base + 0x050 := by
    show _ = 0x30000 + 0x1000 * i + 0x050
    omega
  obtain ⟨hres, hgo, hlog⟩ := startWord_fields k (by omega) h16
  obtain ⟨hholds, hcell⟩ := holds_storeWord (p := pgTdc i) plain_tdc 0x050 (startWord k) s
  refine ⟨run (storeWord (pgTdc i) 0x050 (startWord k)) s, ?_, ?_, hcell⟩
  · have ht : s.target fn (0x30050 + i * 4096) = (pgTdc i, 0x050) := by rw [haddr]; exact target_at_block s fn 0x050 rfl hi (by decide)
    rw [run_hostWrite_stored ht ha (by decide) rfl rfl hres rfl rfl]
    show run (.when (decide (0x050 = 0x050) && bit (startWord k) 0) (cdWritten i)) _ = _
    rw [hgo, run_when]
    rfl
  · have hrow : R.TDC_LOG2_EDGES ∈ Kind.tdc.rows := by decide
    exact (hholds R.TDC_LOG2_EDGES hrow (.inl rfl) (by decide)).trans hlog

theorem tdc_modTdc (i : Nat) (f : Tdc → Tdc) (s : State) : (run (modTdc i f) s).tdc i = f (s.tdc i) := (Tab.get_mod ..).trans (if_pos rfl)

section
variable {u : State} {i : Nat} (hi : i < 2)
include hi

/-- While the input is armed, a test with the internal source waits for the pod. -/
theorem cdWritten_waits (hsrc : u.td0 i R.TDC_CD_SRC = 0) (harm : u.tdcArmed i u.time.cc = true) :
    ((run (cdWritten i) u).tdc i).cdWait = true ∧ ((run (cdWritten i) u).tdc i).cd = (u.tdc i).cd := by
  rw [cdWritten, run_ask, if_neg (Nat.not_le.2 hi), if_pos (by rw [hsrc, harm]; rfl), run_pair, tdc_modTdc]
  exact ⟨rfl, rfl⟩

/-- Else a test begins at once, where none is in progress. -/
theorem cdWritten_starts (harm : u.td0 i R.TDC_CD_SRC ≠ 0 ∨ u.tdcArmed i u.time.cc = false) (hcd : (u.tdc i).cd = none) :
    ((run (cdWritten i) u).tdc i).cd = some (2 ^ u.get (pgTdc i) R.TDC_LOG2_EDGES, [], []) ∧
    (run (cdWritten i) u).get (pgTdc i) R.TDC_CD_BUSY = 1 := by
  have hwait : ¬ (decide (u.td0 i R.TDC_CD_SRC = 0) && u.tdcArmed i u.time.cc) = true := by
    rcases harm with h | h <;> simp [h]
  have hlog : (run (.set (pgTdc i) R.TDC_START 1) u).get (pgTdc i) R.TDC_LOG2_EDGES = u.get (pgTdc i) R.TDC_LOG2_EDGES :=
    get_set_other _ _ _ _ _ _ (by decide) (.inr (by decide))
  have hrun : run (cdWritten i) u = run (cdStart i) (run (.set (pgTdc i) R.TDC_START 1) u) := by
    rw [cdWritten, run_ask, if_neg (Nat.not_le.2 hi), if_neg hwait, run_pair, run_when, hcd]
    rfl
  rw [hrun, cdStart, run_ask, run_pair, hlog]
  refine ⟨?_, get_set_same _ _ _ _ (by decide)⟩
  show ((run (modTdc i _) _).tdc i).cd = _
  rw [tdc_modTdc]

end

/-! ### The legacy window (R130) -/

section
variable {s : State} {fn a x v : Nat}

theorem target_legacy (ha : a = 0x1C000 + x) (hx : x < 0x4000) : s.target fn a = (⟨.legacy, 0⟩, x) := by
  subst ha
  refine target_of_locate ?_ (by decide)
  have hholds : Kind.legacy.holds (0x1C000 + x) = true := by
    have hbase : Kind.legacy.base = 0x1C000 := rfl
    have hsize : Kind.legacy.size = 0x4000 := rfl
    simp only [Kind.holds, hbase, hsize, Bool.and_eq_true, decide_eq_true_eq, or_true, and_true, ne_eq, not_true_eq_false, false_or]
    omega
  rw [locate, Kind.find_holds (by decide) hholds]
  show ((⟨.legacy, 0⟩ : Pg), 0x1C000 + x - 0x1C000) = _
  rw [Nat.add_sub_cancel_left]

/-- A word of the window is kept by its own rule. -/
theorem run_hostWrite_legacy (hax : a = 0x1C000 + x) (hx : x < 0x4000) (ha : s.answers fn a 4 = true) :
    run (hostWrite fn a 4 v) s = run (written s ⟨.legacy, 0⟩ x (v % 2 ^ 32)) s := by
  rw [run_hostWrite_register v (target_legacy hax hx) ha rfl fun _ => rfl, writeWords, run_ask]
  have hres : reservedWrite ⟨.legacy, 0⟩ x [v % 2 ^ 32] = false := rfl
  rw [if_neg (by simp [Kind.isBlock]), hres, if_neg Bool.false_ne_true]
  show run (.all [.when false _, _]) s = _
  rw [run_pair]
  rfl

end

theorem run_legacyWrite {s : State} {w : Nat} (v : Word) (hw : isParamWord w = true) (hc : w < 2176 ∨ s.chanExists (wordUnit w) = true) :
    run (legacyWrite w v) s = { s with cal := { s.cal with ovrWait := s.cal.ovrWait ++ [(some w, some (BitVec.ofNat 32 (legacyMask w v.toNat)))] } } := by
  rw [legacyWrite, run_ask, run_when, if_pos (by simpa [hw] using hc)]
  rfl

/-! ### The statement -/

/-- Settles O25: an access that is answered runs what its register's write starts. -/
theorem acquisitionRegistersAct : Obligations.AcquisitionRegistersAct := by
  unfold Obligations.AcquisitionRegistersAct
  intro s fn n k v
  refine ⟨fun ha => ⟨fun hen => ⟨s, rfl, ?_⟩, fun hen => ⟨s, ?_, rfl⟩⟩, ?_, ?_, ?_, ?_, ?_⟩
  · show Host.Outcome.next (run (hostWrite fn 0x29094 4 v.toNat) s) = _
    rw [run_hostWrite_swTrig v ha, swTrig, run_ask, hen, run_when, if_pos rfl]
  · show Host.Outcome.next (run (hostWrite fn 0x29094 4 v.toNat) s) = _
    rw [run_hostWrite_swTrig v ha, swTrig, run_ask, hen, run_when, if_neg Bool.false_ne_true]
  · intro m ha hf hb hs
    exact ⟨fun hx => ⟨_, exec_accEpochGo n ha, epochGo_busy hf hb hs hx⟩, fun hx hsegs hc => ⟨_, exec_accEpochGo n ha, epochGo_idle hf hb hs hx hsegs hc⟩⟩
  · intro p ha hf hu ho
    refine ⟨_, exec_diffEpochGo n ha, ?_⟩
    rw [diffEpochGo, run_ask, run_when, if_pos (decide_eq_true hf)]
    exact closeHist_closes hu ho
  · intro i off ha hi h16 h26
    obtain ⟨u, hrun, hlog, hcell⟩ := run_hostWrite_start (Nat.mod_lt n (by decide)) ha h16 h26
    have hexec : exec (.codeDensityStart fn n k) s = .next (run (cdWritten i) u) := congrArg Host.Outcome.next hrun
    have harm : u.tdcArmed i u.time.cc = s.tdcArmed i s.time.cc := by
      rw [tdcArmed_congr hcell, show u.time = s.time by rw [hcell.1]]
    have hsrc : u.td0 i R.TDC_CD_SRC = s.td0 i R.TDC_CD_SRC := hcell.live_eq (by
      show (pgTdc i).base + 0x040 + 4 * 0 + 0x800 ≠ (pgTdc i).base + 0x050
      omega)
    have htdc : u.tdc i = s.tdc i := by rw [State.tdc, hcell.1, State.tdc]
    rw [← harm, ← hsrc, ← htdc]
    refine ⟨fun h h' => ⟨_, hexec, cdWritten_waits hi h h'⟩, fun h h' => ⟨_, hexec, ?_⟩⟩
    rw [← hlog]
    exact cdWritten_starts hi h h'
  · intro w ha hw hc
    have hlt : w < 2688 := Nat.mod_lt _ (by decide)
    refine ⟨_, ?_, rfl⟩
    show Host.Outcome.next (run (hostWrite fn (0x1C000 + w * 4) 4 v.toNat) s) = _
    rw [run_hostWrite_legacy rfl (by omega) ha, Nat.mod_eq_of_lt v.isLt]
    show Host.Outcome.next (run (if w * 4 < 0x2A00 then legacyWrite (w * 4 / 4) (BitVec.ofNat 32 v.toNat) else _) s) = _
    rw [if_pos (by omega), Nat.mul_div_cancel _ (by decide), BitVec.ofNat_toNat, BitVec.setWidth_eq, run_legacyWrite v hw hc]
  · intro ha
    refine ⟨_, ?_, rfl⟩
    show Host.Outcome.next (run (hostWrite fn 0x1FF00 4 v.toNat) s) = _
    rw [run_hostWrite_legacy (x := 0x3F00) (by decide) (by decide) ha, Nat.mod_eq_of_lt v.isLt]
    show Host.Outcome.next (run (legacyRelease (BitVec.ofNat 32 v.toNat)) s) = _
    rw [BitVec.ofNat_toNat, BitVec.setWidth_eq]
    rfl

end Sys2Proof.Machine

/-! SUPPORT. Proofs: events of the calibration controller, from what it shows on registers and leaves while it shows it (R99, R107, R109, R115,
R116, R126; Tables 3-15, 4-12 to 4-16). -/

namespace Sys2Proof.Machine

/-! ### One bit of a register -/

/-- The acts that leave a bit of a register cell as it is, some of them beside it in its word. -/
def Act.sparesBit (a j : Nat) : Act → Prop
  | .fld b hi lo _ => b = a → lo ≤ hi ∧ hi < 32 ∧ (j < lo ∨ hi < j)
  | .wr b _ => b ≠ a
  | _ => True

theorem bit_applyAct {a j : Nat} (x : Act) (h : x.sparesBit a j) (s : State) : bit ((applyAct x s).cell a).toNat j = bit (s.cell a).toNat j := by
  cases x with
  | fld b hi lo v =>
    rw [cell_applyAct_fld]
    split
    · next hab =>
      obtain ⟨hle, hlt, hout⟩ := h hab.symm
      rw [bit_putField _ _ _ _ _ hle hlt, if_neg (by omega), hab]
    · rfl
  | wr b v => rw [cell_applyAct_wr, if_neg (Ne.symm h)]
  | _ => rfl

theorem bit_of_only {a j : Nat} {p : Prog} (h : Prog.Only (Act.sparesBit a j) p) (s : State) :
    bit ((run p s).cell a).toNat j = bit (s.cell a).toNat j :=
  h.keeps (fun s => bit (s.cell a).toNat j) (fun x t hx => bit_applyAct x hx t) s

theorem sparesBit_of_delivers {a : Nat} (ha : a ∉ deliveryCells) (j : Nat) (x : Act) (h : x.delivers) : x.sparesBit a j := by
  cases x with
  | fld b hi lo v => exact fun hab : b = a => (ha (hab ▸ h)).elim
  | mem | emit | host | tx => trivial
  | _ => exact h.elim

/-- A bit of a field is a bit of its cell. -/
theorem bit_get (s : State) (p : Pg) (r : Row) {k : Nat} (h : r.lo + k ≤ r.hi) : bit (s.get p r) k = bit (s.cell (r.addr p 0)).toNat (r.lo + k) := by
  simp only [State.get, State.geti, bit, bits, Nat.testBit_mod_two_pow, Nat.testBit_shiftRight, decide_eq_true (show k < r.hi + 1 - r.lo by omega),
    Bool.true_and]

/-- A bit of a field keeps its value while its cell keeps that bit. -/
theorem bit_get_of_only {p : Pg} {r : Row} {k : Nat} (hk : r.lo + k ≤ r.hi) {q : Prog} (h : Prog.Only (Act.sparesBit (r.addr p 0) (r.lo + k)) q)
    (s : State) : bit ((run q s).get p r) k = bit (s.get p r) k := by
  rw [bit_get _ p r hk, bit_get _ p r hk, bit_of_only h]

/-- Bits of fields other than the one set keep theirs. -/
theorem sparesBit_setBit {p q : Pg} {r t : Row} {k j : Nat} {v : Bool} (hk : r.lo + k < 32)
    (h : r.addr p 0 ≠ t.addr q 0 ∨ r.lo + k ≠ t.lo + j) : Prog.Only (Act.sparesBit (t.addr q 0) (t.lo + j)) (.setBit p r k v) :=
  (only_setBit ..).2 fun he => ⟨Nat.le_refl _, hk, by
    have := h.resolve_left (not_not_intro he)
    omega⟩

/-- A bit of a field after a bit of it has been put. -/
theorem bit_get_setBit {p : Pg} {r : Row} {k j : Nat} (hr : r.hi < 32) (hk : r.lo + k ≤ r.hi) (hj : r.lo + j ≤ r.hi) (v : Bool) (s : State) :
    bit ((run (.setBit p r k v) s).get p r) j = if j = k then v else bit (s.get p r) j := by
  rw [bit_get _ p r hj, bit_get _ p r hj, Prog.setBit, run_one, cell_applyAct_fld, if_pos rfl, bit_putField _ _ _ _ _ (Nat.le_refl _) (by omega)]
  by_cases hjk : j = k
  · rw [if_pos (by omega), if_pos hjk, hjk, Nat.sub_self]
    cases v <;> rfl
  · rw [if_neg (by omega), if_neg hjk]

/-! ### Fields that show the controller's state -/

/-- Fields that follow the state of the controller and of the banks: by offset in the page, BLK_CTRL and BLK_STAT, BANK_STAT but for SETTLING,
ROT_STATE, RUN_ACTIVE, RUN_KIND, RUN_IN_FRAME, RUN_CHAN and NO_SET, OVERRIDE, the temperature sets, FLOG_COUNT, SUSPENDED, and live copies. -/
def shownPlain (a hi lo : Nat) : Bool :=
  decide (lo ≤ hi) && decide (hi < 32) && (
    decide (a % 0x1000 = 0x00C) || decide (a % 0x1000 = 0x010) || (decide (a % 0x1000 = 0x044) && decide (1 ≤ lo)) || decide (a % 0x1000 = 0x048) ||
    (decide (a % 0x1000 = 0x050) && (decide (hi < 4) || (decide (8 ≤ lo) && decide (hi ≤ 10)) || decide (13 ≤ lo))) ||
    (decide (a % 0x1000 = 0x054) && decide (16 ≤ lo)) || (decide (0x060 ≤ a % 0x1000) && decide (a % 0x1000 < 0x0A0)) ||
    decide (a % 0x1000 = 0x0E4) || decide (a % 0x1000 = 0x540) || decide (0x840 ≤ a % 0x1000))

/-- A value put in a field while the controller shows its state: an event source is set, SETTLING ends, or a field that follows takes any value;
the pages of sequencers, of PCIE and beyond are those of commands and deliveries. -/
def shownField (a hi lo v : Nat) : Prop :=
  shownPlain a hi lo = true ∨ (a % 0x1000 = 0x014 ∧ hi = lo ∧ hi < 32 ∧ v = 1) ∨ (a % 0x1000 = 0x044 ∧ hi = 0 ∧ lo = 0 ∧ v = 0) ∨ 0x200000 ≤ a

/-- The acts by which the controller shows its state, with cells that are left open. -/
def Act.shows (X : List Nat) : Act → Prop
  | .fld a hi lo v => a ∈ X ∨ shownField a hi lo v
  | .wr a _ => a ∈ X
  | .mem _ _ | .emit _ | .host _ | .tx _ | .flog _ | .cmd _ => True
  | .conv f => ∀ c, (f c).rotDue = c.rotDue
  | _ => False

/-- The acts of the controller: it changes its own state, too. -/
def Act.controls (X : List Nat) : Act → Prop
  | .cal _ => True
  | a => a.shows X

theorem controls_of_shows {X : List Nat} (a : Act) (h : a.shows X) : a.controls X := by
  cases a with
  | cal => trivial
  | _ => exact h

/-- A bit that keeps a value once it has it: whatever is put over it has the value there. -/
def KeptAt (a j : Nat) (x : Bool) : Prop := ∀ hi lo v, shownField a hi lo v → lo ≤ j → j ≤ hi → v.testBit (j - lo) = x

/-- What the controller leaves while it shows its state, but for cells left open. -/
structure Controlled (X : List Nat) (s t : State) : Prop where
  seg : t.seg = s.seg
  time : t.time = s.time
  rotDue : t.conv.rotDue = s.conv.rotDue
  bit : ∀ a j x, a ∉ X → a < 0x200000 → KeptAt a j x → Machine.bit (s.cell a).toNat j = x → Machine.bit (t.cell a).toNat j = x

theorem Controlled.refl (X : List Nat) (s : State) : Controlled X s s := ⟨rfl, rfl, rfl, fun _ _ _ _ _ _ h => h⟩

theorem Controlled.trans {X : List Nat} {s t u : State} (h : Controlled X s t) (h' : Controlled X t u) : Controlled X s u :=
  ⟨h'.seg.trans h.seg, h'.time.trans h.time, h'.rotDue.trans h.rotDue,
    fun a j x hX ha hk hs => h'.bit a j x hX ha hk (h.bit a j x hX ha hk hs)⟩

theorem Controlled.mono {X Y : List Nat} {s t : State} (h : Controlled X s t) (hXY : X ⊆ Y) : Controlled Y s t :=
  ⟨h.seg, h.time, h.rotDue, fun a j x hY => h.bit a j x fun hX => hY (hXY hX)⟩

theorem controlled_applyAct {X : List Nat} (a : Act) (h : a.controls X) (s : State) : Controlled X s (applyAct a s) := by
  cases a with
  | fld b hi lo v =>
    refine ⟨rfl, rfl, rfl, fun a j x hX ha hk hs => ?_⟩
    rw [cell_applyAct_fld]
    by_cases hab : a = b
    · subst hab
      have hf : shownField a hi lo v := h.resolve_left hX
      have hsound : lo ≤ hi ∧ hi < 32 := by
        rcases hf with hf | hf | hf | hf
        · simp only [shownPlain, Bool.and_eq_true, decide_eq_true_eq] at hf
          exact hf.1
        · omega
        · omega
        · omega
      rw [if_pos rfl, bit_putField _ _ _ _ _ hsound.1 hsound.2]
      split
      · next hj => exact hk hi lo v hf hj.1 hj.2
      · exact hs
    · rwa [if_neg hab]
  | wr b v =>
    refine ⟨rfl, rfl, rfl, fun a j x hX ha hk hs => ?_⟩
    rw [cell_applyAct_wr, if_neg (fun hab : a = b => hX (hab ▸ h))]
    exact hs
  | conv f => exact ⟨rfl, rfl, h s.conv, fun _ _ _ _ _ _ hs => hs⟩
  | mem | emit | host | tx | flog | cmd | cal => exact ⟨rfl, rfl, rfl, fun _ _ _ _ _ _ hs => hs⟩
  | _ => exact h.elim

theorem controlled_of_only {X : List Nat} {p : Prog} (h : Prog.Only (Act.controls X) p) (s : State) : Controlled X s (run p s) := by
  induction p generalizing s with
  | nil => exact .refl X s
  | ask k ih => exact ih s (h s) s
  | act a k ih => exact (controlled_applyAct a h.1 s).trans (ih h.2 _)

/-- What the controller leaves while it shows its state and does not change it. -/
def Shown (X : List Nat) (s t : State) : Prop := Controlled X s t ∧ t.cal = s.cal

theorem Shown.trans {X : List Nat} {s t u : State} (h : Shown X s t) (h' : Shown X t u) : Shown X s u :=
  ⟨h.1.trans h'.1, h'.2.trans h.2⟩

theorem Shown.run?_eq {X : List Nat} {s t : State} (h : Shown X s t) (r : Nat) : t.run? r = s.run? r := by rw [State.run?, h.2, State.run?]

theorem shown_of_only {X : List Nat} {p : Prog} (h : Prog.Only (Act.shows X) p) (s : State) : Shown X s (run p s) :=
  ⟨controlled_of_only (h.mono controls_of_shows) s, h.keeps State.cal (fun a t ha => by
    cases a with
    | fld | wr | mem | emit | host | tx | flog | cmd | conv => rfl
    | _ => exact ha.elim) s⟩

/-! ### The fields that hold results -/

/-- Bits that nothing shown lies over: ERR_INFO, DUE, HARD, START_DONE, CAL_BAD and CHOLD, the temperatures, the counters of the CAL page, and
FE_RST. -/
def resultBit (a j : Nat) : Prop :=
  a < 0x200000 ∧ (a % 0x1000 = 0x028 ∨ a % 0x1000 = 0x050 ∧ (4 ≤ j ∧ j ≤ 7 ∨ 11 ≤ j ∧ j ≤ 12) ∨ a % 0x1000 = 0x054 ∧ j < 16 ∨
    a % 0x1000 = 0x058 ∨ a % 0x1000 = 0x05C ∨ a % 0x1000 = 0x0A0 ∨ a % 0x1000 = 0x0A4 ∨ a % 0x1000 = 0x0A8 ∨ a % 0x1000 = 0x0CC)

theorem keptAt_of_resultBit {a j : Nat} (h : resultBit a j) (x : Bool) : KeptAt a j x := fun hi lo v hf hlo hhi => by
  simp only [shownField, shownPlain, Bool.and_eq_true, Bool.or_eq_true, decide_eq_true_eq] at hf
  unfold resultBit at h
  omega

section
variable {X : List Nat} {s t : State} (h : Controlled X s t)
include h

theorem Controlled.bit_eq {a j : Nat} (hX : a ∉ X) (hr : resultBit a j) : Machine.bit (t.cell a).toNat j = Machine.bit (s.cell a).toNat j :=
  h.bit a j _ hX hr.1 (keptAt_of_resultBit hr _) rfl

/-- A field that holds a result keeps it. -/
theorem Controlled.geti_eq {p : Pg} {r : Row} {i : Nat} (hX : r.addr p i ∉ X) (hr : ∀ j, r.lo ≤ j → j ≤ r.hi → resultBit (r.addr p i) j) :
    t.geti p r i = s.geti p r i := bits_congr fun j hlo hhi => h.bit_eq hX (hr j hlo hhi)

theorem Controlled.now_eq : t.now = s.now := by rw [State.now, h.time, State.now]

/-- An event source that is set stays set. -/
theorem Controlled.raised {p : Pg} {k : Nat} (hp : p.base % 0x1000 = 0) (hlow : p.base + 0x014 < 0x200000) (hX : p.base + 0x014 ∉ X)
    (hs : s.raised p k = true) : t.raised p k = true := by
  refine h.bit _ k true hX hlow (fun hi lo v hf hlo hhi => ?_) hs
  have hv : v = 1 ∧ k = lo := by
    simp only [shownField, shownPlain, Bool.and_eq_true, Bool.or_eq_true, decide_eq_true_eq] at hf
    omega
  rw [hv.1, hv.2, Nat.sub_self]
  rfl

end

/-! ### Operations that show the controller's state -/

section
variable {X : List Nat}

theorem shows_of_delivers (a : Act) (h : a.delivers) : a.shows X := by
  cases a with
  | fld b hi lo v =>
    have := deliveryCells_range b h
    exact .inr (.inr (.inr (.inr (by omega))))
  | mem | emit | host | tx => trivial
  | _ => exact h.elim

theorem shows_raise {p : Pg} (hp : p.base % 0x1000 = 0) {k : Nat} (hk : k < 32) : Prog.Only (Act.shows X) (raise p k) :=
  only_raise p k shows_of_delivers (.inr (.inr (.inl ⟨by omega, rfl, hk, rfl⟩)))

theorem shows_seti {p : Pg} {r : Row} {i : Nat} (h : shownPlain (r.addr p i) r.hi r.lo = true) (v : Nat) :
    Prog.Only (Act.shows X) (.seti p r i v) := (only_seti ..).2 (.inr (.inl h))

theorem shows_set {p : Pg} {r : Row} (h : shownPlain (r.addr p 0) r.hi r.lo = true) (v : Nat) : Prog.Only (Act.shows X) (.set p r v) :=
  shows_seti h v

theorem shows_inc {p : Pg} {r : Row} (h : ∀ v, (Act.fld (r.addr p 0) r.hi r.lo v).shows X) : Prog.Only (Act.shows X) (.inc p r) := only_inc _ _ h

theorem shows_setBit {p : Pg} {r : Row} {k : Nat} (h : shownPlain (r.addr p 0) (r.lo + k) (r.lo + k) = true) (v : Bool) :
    Prog.Only (Act.shows X) (.setBit p r k v) := (only_setBit ..).2 (.inr (.inl h))

theorem shows_modChan (c : Nat) (f : Chan → Chan) : Prog.Only (Act.shows X) (modChan c f) := ⟨fun _ => rfl, trivial⟩

theorem shows_logFault (code ty detail : Nat) : Prog.Only (Act.shows X) (logFault code ty detail) :=
  only_logFault code ty detail shows_of_delivers (.inr (.inr (.inl ⟨rfl, rfl, by decide, rfl⟩))) (fun _ => trivial)
    fun _ => .inr (.inl (by decide))

/-- A capture on the CAL page, whose ERR_INFO is left open. -/
theorem shows_capture (hX : pgCal.base + 0x028 ∈ X) (code detail : Nat) : Prog.Only (Act.shows X) (capture pgCal code detail) :=
  only_capture pgCal code detail shows_of_delivers (.inr (.inr (.inl ⟨rfl, rfl, by decide, rfl⟩))) (.inl hX) fun _ => hX

/-! What stands on the pages of banks. -/

theorem bank_base (b : Nat) : (pgBank b).base = 0x10000 + 0x1000 * b := rfl

theorem shownPlain_bank {r : Row} (h : shownPlain r.off r.hi r.lo = true) (b : Nat) :
    shownPlain (r.addr (pgBank b) 0) r.hi r.lo = true := by
  have hmod : r.addr (pgBank b) 0 % 0x1000 = r.off % 0x1000 := by
    rw [Row.addr, bank_base, Nat.mul_zero]
    omega
  rw [shownPlain, hmod]
  exact h

theorem shows_setBank {r : Row} (h : shownPlain r.off r.hi r.lo = true) (b v : Nat) :
    Prog.Only (Act.shows X) (.set (pgBank b) r v) := shows_set (shownPlain_bank h b) v

theorem shows_showRot : Prog.Only (Act.shows X) showRot := fun _ => only_each _ _ fun b _ => shows_setBank (by decide) b _

theorem shows_showBanks (die : Nat) : Prog.Only (Act.shows X) (showBanks die) := fun _ => only_each _ _ fun i _ => by
  simp only [only_all_cons, only_all_nil, and_true]
  exact ⟨shows_setBank (by decide) .., shows_setBank (by decide) .., shows_setBank (by decide) ..,
    shows_setBank (by decide) .., shows_setBank (by decide) .., shows_setBank (by decide) ..⟩

theorem shows_powerChan (c : Nat) (v : Bool) : Prog.Only (Act.shows X) (powerChan c v) := fun _ =>
  only_each _ _ fun b _ => shows_setBank (by decide) b _

theorem shows_endSettle (b : Nat) : Prog.Only (Act.shows X) (endSettle b) := fun _ => by
  have hbase := bank_base b
  have hcell : R.BANK_SETTLING.addr (pgBank b) 0 % 0x1000 = 0x044 := by
    show ((pgBank b).base + 0x044 + 4 * 0) % 0x1000 = 0x044
    omega
  simp only [only_when, only_all_cons, only_all_nil, only_set, and_true]
  exact fun _ => ⟨.inr (.inr (.inr (.inl ⟨hcell, rfl, rfl, rfl⟩))), ⟨fun _ => rfl, trivial⟩, shows_raise (by omega) (by decide)⟩

theorem shows_runSettled (chans : List Nat) : Prog.Only (Act.shows X) (runSettled chans) := fun _ => only_each _ _ fun b _ => shows_endSettle b

/-! What stands on the CAL page. -/

theorem shows_showRuns : Prog.Only (Act.shows X) showRuns := fun s => by
  dsimp only
  split
  · simp only [only_all_cons, only_all_nil, and_true]
    exact ⟨shows_set (by decide) _, shows_set (by decide) _, shows_set (by decide) _, shows_set (by decide) _⟩
  · simp only [only_all_cons, only_all_nil, and_true]
    exact ⟨shows_set (by decide) _, shows_set (by decide) _, shows_set (by decide) _⟩

theorem shows_showSets : Prog.Only (Act.shows X) showSets := fun s => by
  have point (r : Row) (hr : (r = R.CAL_SET_POINT_FE0 ∨ r = R.CAL_SET_POINT_FE1)) (k : Nat) (hk : k < 8) (v : Nat) :
      Prog.Only (Act.shows X) (.seti pgCal r k v) := shows_seti (by
    have : ∀ k < 8, shownPlain (R.CAL_SET_POINT_FE0.addr pgCal k) 15 0 = true ∧ shownPlain (R.CAL_SET_POINT_FE1.addr pgCal k) 31 16 = true := by decide
    rcases hr with rfl | rfl
    · exact (this k hk).1
    · exact (this k hk).2) v
  simp only [only_all_cons, only_all_nil, and_true]
  refine ⟨shows_set (by decide) _, shows_set (by decide) _, shows_set (by decide) _, shows_set (by decide) _, shows_set (by decide) _,
    shows_set (by decide) _, only_each _ _ fun k hk => ?_⟩
  simp only [only_all_cons, only_all_nil, and_true]
  exact ⟨point _ (.inl rfl) k (List.mem_range.1 hk) _, point _ (.inr rfl) k (List.mem_range.1 hk) _⟩

theorem shows_showOverride : Prog.Only (Act.shows X) showOverride := fun s => by
  simp only [only_all_cons, only_all_nil, only_when, and_true]
  exact ⟨fun _ => shows_raise rfl (by decide), shows_set (by decide) _⟩

theorem shows_setNoSet (hX : pgCal.base + 0x028 ∈ X) {die : Nat} (hd : die < 2) (v : Bool) : Prog.Only (Act.shows X) (setNoSet die v) := fun s => by
  have hplain : ∀ d < 2, shownPlain (R.CAL_NO_SET.addr pgCal 0) (R.CAL_NO_SET.lo + d) (R.CAL_NO_SET.lo + d) = true := by decide
  simp only [only_all_cons, only_all_nil, only_when, and_true]
  exact ⟨shows_setBit (hplain die hd) v, fun _ => shows_capture hX _ _, only_each _ _ fun c _ => shows_modChan c _⟩

theorem shows_noSetIfNone (hX : pgCal.base + 0x028 ∈ X) {die : Nat} (hd : die < 2) : Prog.Only (Act.shows X) (noSetIfNone die) := fun _ =>
  (only_when ..).2 fun _ => shows_setNoSet hX hd true

theorem calLive_table : ∀ r ∈ Kind.cal.rows.filter (fun r => r.acc = .rws), ∀ i < r.count, shownPlain (r.addr pgCal i + 0x800) r.hi r.lo = true := by
  decide +kernel

theorem shows_commitCal (hX : pgCal.base + 0x028 ∈ X) : Prog.Only (Act.shows X) commitCal := fun s => by
  have pend : Prog.Only (Act.shows X) (setPend pgCal false) := by
    simp only [setPend, only_all_cons, only_all_nil, only_one, and_true]
    exact ⟨.inr (.inl (by decide)), .inr (.inl (by decide))⟩
  have live : Prog.Only (Act.shows X) (copyLive pgCal) := fun _ => only_each _ _ fun r hr => only_each _ _ fun i hi =>
    (only_setLivei ..).2 (.inr (.inl (calLive_table r hr i (List.mem_range.1 hi))))
  rw [only_when]
  intro _
  split
  · simp only [only_all_cons, only_all_nil, and_true]
    exact ⟨pend, shows_capture hX _ _⟩
  · simp only [only_all_cons, only_all_nil, and_true]
    exact ⟨live, pend, shows_showRot⟩

/-! Holds, and commands and definitions that go on. -/

theorem shows_holdBegin (c kind : Nat) (hard : Bool) : Prog.Only (Act.shows X) (holdBegin c kind hard) := fun _ => shows_modChan c _

theorem shows_holdBack (c : Nat) : Prog.Only (Act.shows X) (holdBack c) := fun _ => shows_modChan c _

theorem shows_resumeHolds : Prog.Only (Act.shows X) resumeHolds := fun s => only_each _ _ fun e _ => by
  split
  · exact (only_when ..).2 fun _ => shows_holdBegin _ _ _
  · trivial

theorem shows_resumeDefs {ds : List Nat} (hds : ∀ d ∈ ds, d < 16) : Prog.Only (Act.shows X) (resumeDefs ds) := fun s => by
  have hplain : ∀ d < 16, shownPlain (R.TCOMB_SUSPENDED.addr pgTcomb 0) (R.TCOMB_SUSPENDED.lo + d) (R.TCOMB_SUSPENDED.lo + d) = true := by decide
  refine only_each _ _ fun d hd => ?_
  simp only [only_all_cons, only_all_nil, and_true]
  exact ⟨shows_setBit (hplain d (hds d (List.mem_filter.1 hd).1)) false, shows_raise rfl (by decide)⟩

theorem high_sq (q : Nat) (r : Row) (i : Nat) : 0x200000 ≤ r.addr (pgSq q) i := by
  show 0x200000 ≤ 0x200000 + 0x1000 * q + r.off + r.stride * i
  omega

theorem shows_sqStat (q : Nat) : Prog.Only (Act.shows X) (sqStat q) := fun s => by
  have high (r : Row) (v : Nat) : Prog.Only (Act.shows X) (.set (pgSq q) r v) := (only_set ..).2 (.inr (.inr (.inr (.inr (high_sq q r 0)))))
  simp only [only_all_cons, only_all_nil, only_when, high, and_true, true_and]
  exact fun _ => shows_raise (by show (0x200000 + 0x1000 * q) % 0x1000 = 0; omega) (by decide)

/-- A command completes on its sequencer's page and in its ring. -/
theorem shows_finishCmd (q k status result : Nat) : Prog.Only (Act.shows X) (finishCmd q k status result) := fun s => by
  dsimp only
  split
  · trivial
  · simp only [only_all_cons, only_all_nil, and_true, sendCompletion, releaseSlot, only_ask]
    refine ⟨fun _ => ⟨only_modRing _ _ shows_of_delivers, only_ringFlush _ shows_of_delivers⟩,
      shows_inc fun _ => .inr (.inr (.inr (.inr (high_sq q _ 0)))), ⟨trivial, trivial⟩, ⟨trivial, trivial⟩, shows_sqStat q⟩

end

/-! ### Boundaries (R98, R109) -/

/-- ERR_INFO of the CAL page, which a boundary may write. -/
def calErr : List Nat := [pgCal.base + 0x028]

/-- What a boundary shows before handovers and the open that waited. -/
def boundaryShows : Prog := .all [commitCal, resumeHolds, showRot]

theorem shows_boundaryShows : Prog.Only (Act.shows calErr) boundaryShows := by
  simp only [boundaryShows, only_all_cons, only_all_nil, and_true]
  exact ⟨shows_commitCal (List.mem_singleton_self _), shows_resumeHolds, shows_showRot⟩

/-- The controller's own state once pending values and temperatures have been applied. -/
structure ValuesApplied (s t : State) : Prop where
  ovrWait : t.cal.ovrWait = []
  meas : t.cal.meas = []
  temp : t.cal.temp = [(0, s.tDie 0), (1, s.tDie 1)]
  runs : t.cal.runs = s.cal.runs
  startup : t.cal.startup = s.cal.startup

theorem ValuesApplied.congr {s t u : State} (h : ValuesApplied s t) (hu : u.cal = t.cal) : ValuesApplied s u :=
  ⟨hu ▸ h.ovrWait, hu ▸ h.meas, hu ▸ h.temp, hu ▸ h.runs, hu ▸ h.startup⟩

/-- What applying the values shows, where some set half waited or none did. -/
def appliedShows (waited : Bool) : Prog := .all [showSets, showOverride, .when waited (.all [noSetIfNone 0, noSetIfNone 1])]

theorem shows_appliedShows (waited : Bool) : Prog.Only (Act.shows calErr) (appliedShows waited) := by
  have err : pgCal.base + 0x028 ∈ calErr := List.mem_singleton_self _
  simp only [appliedShows, only_all_cons, only_all_nil, only_when, and_true]
  exact ⟨shows_showSets, shows_showOverride, fun _ => ⟨shows_noSetIfNone err (by decide), shows_noSetIfNone err (by decide)⟩⟩

/-- The temperatures in use are those measured last (R98). -/
def useTemps : Prog := .ask fun s => .cal fun c => { c with temp := [(0, s.tDie 0), (1, s.tDie 1)] }

theorem run_applyCalValues (s : State) : ∃ f : Cal → Cal,
    (∀ c, (f c).ovrWait = [] ∧ (f c).meas = [] ∧ (f c).runs = c.runs ∧ (f c).startup = c.startup) ∧
    run applyCalValues s = run (appliedShows (!s.cal.setWait.isEmpty)) (run useTemps (run (.cal f) s)) := by
  refine ⟨?f, ?kept, (?runs : run applyCalValues s = _)⟩
  case runs => rw [applyCalValues, run_ask, run_all_cons, run_all_cons, appliedShows, useTemps]
  exact fun _ => ⟨rfl, rfl, rfl, rfl⟩

theorem valuesApplied_applyCalValues (s : State) : ValuesApplied s (run applyCalValues s) ∧ Controlled calErr s (run applyCalValues s) := by
  obtain ⟨f, hf, hrun⟩ := run_applyCalValues s
  obtain ⟨hwait, hmeas, hruns, hstartup⟩ := hf s.cal
  obtain ⟨hshown, hcal⟩ := shown_of_only (shows_appliedShows (!s.cal.setWait.isEmpty)) (run useTemps (run (.cal f) s))
  have htemps : Controlled calErr s (run useTemps (run (.cal f) s)) := ⟨rfl, rfl, rfl, fun _ _ _ _ _ _ h => h⟩
  rw [hrun]
  exact ⟨ValuesApplied.congr ⟨hwait, hmeas, rfl, hruns, hstartup⟩ hcal, htemps.trans hshown⟩

/-- Values apply at a boundary, and what the controller then shows; handovers due and an open that waited come last. -/
theorem run_boundary (s : State) :
    run boundary s = run openPending (run dueHandovers (run boundaryShows (run applyCalValues s))) := by
  rw [boundary, run_all_cons, run_all_cons, run_all_cons, run_all_cons, run_pair, boundaryShows, run_all_cons, run_pair]

/-- No open waits, so nothing goes on (R121). -/
theorem run_openPending_none {s : State} (h : s.seg.openWait = false) : run openPending s = s := by
  rw [openPending, run_ask, openPendingAt, run_ask, h, run_when, if_neg Bool.false_ne_true]

/-- No handover is due, so none is made (R114). -/
theorem run_dueHandovers_none {s : State} (h : ∀ b, Tab.get s.conv.rotDue false b = false) : run dueHandovers s = s := by
  have hnone : which 8 (fun b => Tab.get s.conv.rotDue false b && s.rotState b = 1) = [] := List.filter_eq_nil_iff.2 fun b _ => by simp [h b]
  rw [dueHandovers, run_ask, hnone, run_each_nil]

/-- What a boundary applies and shows before handovers and the open that waited. -/
theorem valuesApplied_boundaryShows (s : State) :
    ValuesApplied s (run boundaryShows (run applyCalValues s)) ∧ Controlled calErr s (run boundaryShows (run applyCalValues s)) := by
  obtain ⟨happlied, hcontrolled⟩ := valuesApplied_applyCalValues s
  obtain ⟨hshown, hcal⟩ := shown_of_only shows_boundaryShows (run applyCalValues s)
  exact ⟨happlied.congr hcal, hcontrolled.trans hshown⟩

/-- A boundary with no handover due and no open that waits: pending values and temperatures have been applied, and the rest is shown. -/
theorem boundary_quiet {s : State} (hopen : s.seg.openWait = false) (hdue : ∀ b, Tab.get s.conv.rotDue false b = false) :
    ValuesApplied s (run boundary s) ∧ Controlled calErr s (run boundary s) := by
  obtain ⟨happlied, hcontrolled⟩ := valuesApplied_boundaryShows s
  rw [run_boundary]
  generalize run boundaryShows (run applyCalValues s) = t at happlied hcontrolled
  rw [run_dueHandovers_none (by rw [hcontrolled.rotDue]; exact hdue), run_openPending_none (by rw [hcontrolled.seg]; exact hopen)]
  exact ⟨happlied, hcontrolled⟩

/-! A boundary with handovers leaves start-up calibration where it is. -/

/-- The acts that leave start-up calibration, the writes that wait for a boundary, and the open that waits. -/
def Act.keepsStartup : Act → Prop
  | .cal f => ∀ c, (f c).startup = c.startup ∧ (f c).ovrWait = c.ovrWait
  | .seg _ => False
  | _ => True

/-- Start-up calibration, the writes that wait for a boundary, and whether an open waits. -/
def State.startupView (s : State) : Tab Nat × List (Option Nat × Option Word) × Bool := (s.cal.startup, s.cal.ovrWait, s.seg.openWait)

theorem startupView_eq_iff {s t : State} : t.startupView = s.startupView ↔
    t.cal.startup = s.cal.startup ∧ t.cal.ovrWait = s.cal.ovrWait ∧ t.seg.openWait = s.seg.openWait := by
  rw [State.startupView, State.startupView, Prod.mk.injEq, Prod.mk.injEq]

theorem startupView_of_only {p : Prog} (h : Prog.Only Act.keepsStartup p) (s : State) : (run p s).startupView = s.startupView :=
  h.keeps State.startupView (fun a t ha => by
    cases a with
    | cal f => exact congrArg₂ (fun x y => (x, y, t.seg.openWait)) (ha t.cal).1 (ha t.cal).2
    | seg => exact ha.elim
    | _ => rfl) s

theorem keepsStartup_of_light (a : Act) (h : a.light) : a.keepsStartup := by cases a <;> trivial

theorem keepsStartup_inc (p : Pg) (r : Row) : Prog.Only Act.keepsStartup (.inc p r) := only_inc _ _ fun _ => trivial

theorem keepsStartup_handover (b : Nat) : Prog.Only Act.keepsStartup (handover b) := fun _ => by
  simp only [only_all_cons, only_all_nil, only_when, only_set, only_seti, and_true]
  exact ⟨trivial, trivial, trivial, trivial, keepsStartup_inc _ _, ⟨trivial, trivial⟩,
    fun _ => ⟨trivial, (light_raise _ _).mono keepsStartup_of_light⟩⟩

theorem keepsStartup_handoverWith (b : Nat) (m : Tab Int) (slope : Bool) : Prog.Only Act.keepsStartup (handoverWith b m slope) := fun _ => by
  simp only [only_all_cons, only_all_nil, only_when, and_true]
  exact ⟨⟨fun _ => ⟨rfl, rfl⟩, trivial⟩, fun _ => only_inc _ _ fun _ => trivial, keepsStartup_handover b⟩

theorem keepsStartup_dueHandovers : Prog.Only Act.keepsStartup dueHandovers := fun _ =>
  only_each _ _ fun b _ => keepsStartup_handoverWith b _ _

theorem startup_boundary {s : State} (hopen : s.seg.openWait = false) :
    (run boundary s).cal.startup = s.cal.startup ∧ (run boundary s).cal.ovrWait = [] := by
  obtain ⟨happlied, hcontrolled⟩ := valuesApplied_boundaryShows s
  rw [run_boundary]
  generalize run boundaryShows (run applyCalValues s) = t at happlied hcontrolled
  obtain ⟨hstartup, hwait, hopens⟩ := startupView_eq_iff.1 (startupView_of_only keepsStartup_dueHandovers t)
  rw [run_openPending_none (by rw [hopens, hcontrolled.seg, hopen])]
  exact ⟨hstartup.trans happlied.startup, hwait.trans happlied.ovrWait⟩

/-! ### CAL_BAD (R126, R127) -/

/-- What setting CAL_BAD of a channel does beside. -/
def badShows (c : Nat) (v : Bool) : Prog := .ask fun s => .when (v && !(s.calBad c)) (.all [raise pgCal 5, logFault 0x0F Kind.cal.ty c])

theorem shows_badShows {X : List Nat} (c : Nat) (v : Bool) : Prog.Only (Act.shows X) (badShows c v) := fun _ => by
  simp only [only_when, only_all_cons, only_all_nil, and_true]
  exact fun _ => ⟨shows_raise rfl (by decide), shows_logFault _ _ _⟩

/-- The cell of CAL_BAD, CHOLD and OVERRIDE. -/
def badCell : Nat := R.CAL_CAL_BAD.addr pgCal 0

theorem Controlled.calBad_eq {X : List Nat} {s t : State} (h : Controlled X s t) (hX : badCell ∉ X) (c : Nat) : t.calBad c = s.calBad c := by
  have hget : t.get pgCal R.CAL_CAL_BAD = s.get pgCal R.CAL_CAL_BAD := h.geti_eq hX fun j _ hj => ⟨by decide, .inr (.inr (.inl ⟨rfl, by
    have : j ≤ 7 := hj
    omega⟩))⟩
  rw [State.calBad, hget, State.calBad]

theorem shows_setBad {c : Nat} (v : Bool) : Prog.Only (Act.shows [badCell]) (setBad c v) := fun s => by
  simp only [only_all_cons, only_all_nil, and_true]
  exact ⟨shows_badShows c v s, (only_setBit ..).2 (.inl (List.mem_singleton_self _)), shows_modChan c _⟩

/-- CAL_BAD of a channel, and of no other, takes a value. -/
theorem calBad_setBad {c m : Nat} (hc : c < 8) (hm : m < 8) (v : Bool) (s : State) :
    (run (setBad c v) s).calBad m = if m = c then v else s.calBad m := by
  have hlow : R.CAL_CAL_BAD.lo = 0 := rfl
  have hhigh : R.CAL_CAL_BAD.hi = 7 := rfl
  rw [setBad, run_ask, run_all_cons, run_pair, (shown_of_only (shows_modChan (X := []) c _) _).1.calBad_eq List.not_mem_nil, State.calBad,
    bit_get_setBit (by decide) (by omega) (by omega)]
  exact congrArg _ ((shown_of_only (shows_badShows (X := []) c v) s).1.calBad_eq List.not_mem_nil m)

/-! ### T_die, and the run it makes due (R99, R115) -/

/-- RUN_ACTIVE, DUE, HARD and START_DONE stand there. -/
def runCell : Nat := R.CAL_DUE.addr pgCal 0

/-- The checks touch DUE, HARD and their events alone. -/
theorem spares_dueCheck {a : Nat} (ha : a ∉ deliveryCells) (hraw : a ≠ pgCal.base + 0x014) (hrun : a ≠ runCell) (d : Nat) :
    Prog.Only (Act.spares a) (dueCheck d) := fun s => by
  have setBit (r : Row) (hr : r.addr pgCal 0 = runCell) : Prog.Only (Act.spares a) (.setBit pgCal r d true) :=
    (only_setBit ..).2 (hr ▸ hrun)
  have raise (k : Nat) : Prog.Only (Act.spares a) (raise pgCal k) := only_raise _ _ (spares_of_delivers a ha) hraw
  simp only [only_when, only_all_cons, only_all_nil, only_ask, and_true]
  exact fun _ => ⟨fun _ => ⟨setBit _ rfl, raise 1⟩, fun _ _ => ⟨setBit _ rfl, raise 2⟩⟩

theorem sparesBit_raiseCal {r : Row} {j : Nat} (hr : 0x040 ≤ r.off) (hr' : r.off < 0x1000) (k : Nat) :
    Prog.Only (Act.sparesBit (r.addr pgCal 0) j) (raise pgCal k) := by
  have haddr : r.addr pgCal 0 = 0x18000 + r.off := rfl
  exact only_raise _ _ (sparesBit_of_delivers (notMem_deliveryCells (by omega)) j) fun he => by
    have : pgCal.base + 0x014 = 0x18000 + 0x014 := rfl
    omega

/-- A die that has drifted is due (R115). -/
theorem due_dueCheck {d : Nat} (hd : d < 2) {s : State} (hdone : bit (s.get pgCal R.CAL_START_DONE) d = true) (hruns : s.dieRuns d = false)
    (hauto : s.live pgCal R.CAL_AUTO_EN = 1) (hdrift : s.live pgCal R.CAL_DTEMP < s.drift d) : (run (dueCheck d) s).due d = true := by
  have hlo : R.CAL_DUE.lo + d ≤ R.CAL_DUE.hi := by
    have : R.CAL_DUE.lo = 4 ∧ R.CAL_DUE.hi = 5 := ⟨rfl, rfl⟩
    omega
  have hhard : R.CAL_HARD.lo + d < 32 ∧ R.CAL_HARD.lo + d ≠ R.CAL_DUE.lo + d := by
    have : R.CAL_DUE.lo = 4 ∧ R.CAL_HARD.lo = 6 := ⟨rfl, rfl⟩
    omega
  rw [dueCheck, run_ask, run_when, if_pos (by rw [hdone, hruns]; rfl), run_pair, State.due, bit_get_of_only hlo]
  · rw [run_when, hauto, decide_eq_true hdrift]
    cases hdue : s.due d with
    | true => exact hdue
    | false =>
      rw [if_pos (by decide), run_pair, bit_get_of_only hlo (sparesBit_raiseCal (by decide) (by decide) 1), bit_get_setBit (by decide) hlo hlo, if_pos rfl]
  · rw [only_ask]
    intro t
    simp only [only_when, only_all_cons, only_all_nil, and_true]
    exact fun _ => ⟨sparesBit_setBit hhard.1 (.inr hhard.2), sparesBit_raiseCal (by decide) (by decide) 2⟩

theorem unsgn_lt (w : Nat) (i : Int) : unsgn w i < 2 ^ w := by
  have hpos : (0 : Int) < (2 ^ w : Nat) := Int.natCast_pos.2 (Nat.two_pow_pos w)
  have := Int.emod_lt_of_pos i hpos
  rw [unsgn]
  omega

/-- A field takes a signed number of its width. -/
theorem geti_seti_unsgn {p : Pg} {r : Row} {w : Nat} (hr : r.sound = true) (hw : r.hi + 1 - r.lo = w) (i : Nat) (v : Int) (s : State) :
    (run (.seti p r i (unsgn w v)) s).geti p r i = unsgn w v := by
  rw [geti_seti_same _ _ _ _ _ hr, hw, Nat.mod_eq_of_lt (unsgn_lt _ v)]

/-- T_die is what the sensors give, and a die that has drifted since its last run is due. -/
theorem tDieUpdate_acts {d : Nat} (hd : d < 2) (s : State) :
    (run (tDieUpdate d) s).geti pgCal R.CAL_TEMP_NOW d = unsgn 12 (s.dieTemp d) ∧
    (bit (s.get pgCal R.CAL_START_DONE) d = true → s.dieRuns d = false → s.live pgCal R.CAL_AUTO_EN = 1 →
      s.live pgCal R.CAL_DTEMP < (run (tDieUpdate d) s).drift d → (run (tDieUpdate d) s).due d = true) := by
  have hspares : Prog.Only (Act.spares (0x18058 + 4 * d)) (dueCheck d) := by
    have hraw : pgCal.base + 0x014 = 0x18014 := rfl
    have hrun : runCell = 0x18050 := rfl
    exact spares_dueCheck (notMem_deliveryCells (by omega)) (by omega) (by omega) d
  have hrun : run (tDieUpdate d) s = run (dueCheck d) (run (.seti pgCal R.CAL_TEMP_NOW d (unsgn 12 (s.dieTemp d))) s) := by
    rw [tDieUpdate, run_ask, run_pair]
  have htemp := geti_seti_unsgn (p := pgCal) (r := R.CAL_TEMP_NOW) (w := 12) (by decide) rfl d (s.dieTemp d) s
  have hcell (a : Nat) (ha : a ≠ R.CAL_TEMP_NOW.addr pgCal d) := (cell_seti s pgCal R.CAL_TEMP_NOW d (unsgn 12 (s.dieTemp d)) a).trans (if_neg ha)
  have haddr : R.CAL_TEMP_NOW.addr pgCal d = 0x18058 + 4 * d := rfl
  have hcal : (run (.seti pgCal R.CAL_TEMP_NOW d (unsgn 12 (s.dieTemp d))) s).cal = s.cal := rfl
  rw [hrun]
  generalize run (.seti pgCal R.CAL_TEMP_NOW d (unsgn 12 (s.dieTemp d))) s = u at htemp hcell hcal
  have hlive (r : Row) : u.live pgCal r = s.live pgCal r := by
    have : r.addr pgCal 0 = 0x18000 + r.off + r.stride * 0 := rfl
    rw [State.live, State.livei, hcell _ (by omega), State.live, State.livei]
  refine ⟨(only_geti (q := pgCal) (r := R.CAL_TEMP_NOW) hspares u).trans htemp, fun hdone hruns hauto hdrift => due_dueCheck hd ?_ ?_ ?_ ?_⟩
  · rwa [State.get, State.geti, hcell _ (by rw [haddr, show R.CAL_START_DONE.addr pgCal 0 = 0x18050 from rfl]; omega)]
  · rwa [State.dieRuns, State.starting, hcal]
  · rwa [hlive]
  · rw [hlive]
    rwa [State.drift, State.tDie, only_geti (q := pgCal) (r := R.CAL_TEMP_NOW) hspares, only_geti (q := pgCal) (r := R.CAL_LAST_RUN) hspares] at hdrift

/-! ### Runs (R115, R116, R126) -/

theorem spares_showRot {a : Nat} (ha : ∀ b, b < 8 → a ≠ R.BANK_ROT_STATE.addr (pgBank b) 0) : Prog.Only (Act.spares a) showRot := fun _ =>
  only_each _ _ fun b hb => (only_set ..).2 (ha b (List.mem_range.1 hb))

/-- RUN_ACTIVE is 1 while there is a run. -/
theorem runActive_shown {s : State} (h : s.cal.runs ≠ []) : (run (.all [showRuns, showRot]) s).get pgCal R.CAL_RUN_ACTIVE = 1 := by
  rw [run_pair, only_get (spares_showRot fun b hb => by
    show 0x18050 ≠ 0x10000 + 0x1000 * b + 0x048 + 4 * 0
    omega), showRuns, run_ask]
  cases hruns : s.cal.runs with
  | nil => exact absurd hruns h
  | cons e es =>
    show (run (.all [.set pgCal R.CAL_RUN_ACTIVE 1, .set pgCal R.CAL_RUN_KIND _, .set pgCal R.CAL_RUN_IN_FRAME _, .set pgCal R.CAL_RUN_CHAN _]) s).get
      pgCal R.CAL_RUN_ACTIVE = 1
    rw [run_all_cons, run_all_cons, run_pair, get_set_other _ _ _ _ _ _ (by decide) (.inr (.inl (by decide))),
      get_set_other _ _ _ _ _ _ (by decide) (.inr (.inl (by decide))), get_set_other _ _ _ _ _ _ (by decide) (.inr (.inl (by decide))),
      get_set_same _ _ _ _ (by decide)]
    rfl

/-- A run's record is put. -/
def putRun (r : Nat) (x : CalRun) : Prog := .cal fun c => { c with runs := Tab.put c.runs r x }

theorem run?_putRun (r : Nat) (x : CalRun) (s : State) : (run (putRun r x) s).run? r = some x := (Tab.find_put ..).trans (if_pos rfl)

/-- A run as it begins to measure its next channel. -/
def CalRun.begun (x : CalRun) (now : Nat) : CalRun := { x with step := 0, meas := [], stepAt := now, chanAt := now }

/-- The controller goes on to the next channel of a run. -/
structure MeasuresNext (s t : State) (r : Nat) (x : CalRun) : Prop where
  controlled : Controlled [] s t
  run : t.run? r = some (x.begun s.now)
  ovrWait : t.cal.ovrWait = s.cal.ovrWait
  meas : t.cal.meas = s.cal.meas
  active : t.get pgCal R.CAL_RUN_ACTIVE = 1

theorem run_measureNext {s : State} {r : Nat} {x : CalRun} (h : s.run? r = some x) : ∃ hold : Prog, Prog.Only (Act.shows []) hold ∧
    run (measureNext r) s = run (.all [showRuns, showRot]) (run hold (run (putRun r (x.begun s.now)) s)) := by
  refine ⟨?hold, ?shows, ?runs⟩
  case runs =>
    rw [measureNext, run_ask]
    simp only [h]
    rw [run_all_cons, run_all_cons]
    rfl
  case shows =>
    split
    · exact (only_when ..).2 fun _ => shows_holdBegin _ _ _
    · trivial

theorem measuresNext {s : State} {r : Nat} {x : CalRun} (h : s.run? r = some x) : MeasuresNext s (Machine.run (measureNext r) s) r x := by
  obtain ⟨hold, hshows, hrun⟩ := run_measureNext h
  obtain ⟨hcontrolled, hcal⟩ := shown_of_only hshows (Machine.run (putRun r (x.begun s.now)) s)
  have hall : Prog.Only (Act.shows []) (.all [showRuns, showRot]) := (only_all_cons ..).2 ⟨shows_showRuns, (only_all_cons ..).2 ⟨shows_showRot, trivial⟩⟩
  have hbegun := run?_putRun r (x.begun s.now) s
  have hbegin : Controlled [] s (Machine.run (putRun r (x.begun s.now)) s) := ⟨rfl, rfl, rfl, fun _ _ _ _ _ _ h => h⟩
  have hwait : (Machine.run (putRun r (x.begun s.now)) s).cal.ovrWait = s.cal.ovrWait := rfl
  have hmeas : (Machine.run (putRun r (x.begun s.now)) s).cal.meas = s.cal.meas := rfl
  rw [hrun]
  generalize Machine.run (putRun r (x.begun s.now)) s = u at *
  generalize Machine.run hold u = v at *
  obtain ⟨hcontrolled', hcal'⟩ := shown_of_only hall v
  have hruns : (Machine.run (.all [showRuns, showRot]) v).run? r = u.run? r := by rw [State.run?, hcal', hcal, State.run?]
  refine ⟨(hbegin.trans hcontrolled).trans hcontrolled', hruns.trans hbegun, ?_, ?_, runActive_shown fun hnil => ?_⟩
  · rw [hcal', hcal, hwait]
  · rw [hcal', hcal, hmeas]
  · rw [State.run?, ← hcal, hnil] at hbegun
    cases hbegun

/-- A run as a step of it has ended. -/
def CalRun.stepped (x : CalRun) (now : Nat) (vals : List (Nat × Int)) : CalRun :=
  { x with step := min 0xFFFF (x.step + 1), stepAt := now, meas := Tab.merge x.meas vals }

/-- The controller's own state as a channel has been measured: its deltas wait for the boundary, and the run has the other channels left. -/
def Cal.measured (y : Cal) (r : Nat) (x : CalRun) (cs : List Nat) (deltas : Tab Int) : Cal :=
  { y with meas := Tab.merge y.meas deltas, runs := Tab.put y.runs r { x with chans := cs } }

/-- A measured channel is switched back, and its banks take data again (R108, R117). -/
def backToData (c : Nat) : Prog := .all [holdBack c, runSettled [c]]

theorem shows_backToData {X : List Nat} (c : Nat) : Prog.Only (Act.shows X) (backToData c) :=
  (only_all_cons ..).2 ⟨shows_holdBack c, (only_all_cons ..).2 ⟨shows_runSettled [c], trivial⟩⟩

section
variable {s : State} {r c : Nat} {cs : List Nat} {x : CalRun} {vals : List (Nat × Int)}

/-- A step of a run ends and another follows (R109). -/
theorem runStep_goesOn (h : s.run? r = some x) (hchans : x.chans = c :: cs) (hopen : s.seg.openWait = false)
    (hdue : ∀ b, Tab.get s.conv.rotDue false b = false) :
    (run (runStep r vals false) s).cal.ovrWait = [] ∧ (run (runStep r vals false) s).cal.meas = [] ∧
      (run (runStep r vals false) s).run? r = some { x with step := min 0xFFFF (x.step + 1), stepAt := s.now, meas := Tab.merge x.meas vals } := by
  have hrun : run (runStep r vals false) s = run boundary (run (putRun r (x.stepped s.now vals)) s) := by
    rw [runStep, run_ask, h]
    dsimp only
    split
    · next hnil => cases hnil.symm.trans hchans
    · rw [if_neg Bool.false_ne_true, run_pair]
      rfl
  obtain ⟨happlied, -⟩ := boundary_quiet (s := run (putRun r (x.stepped s.now vals)) s) hopen hdue
  rw [hrun]
  exact ⟨happlied.ovrWait, happlied.meas, by rw [State.run?, happlied.runs]; exact run?_putRun r _ s⟩

/-- The measurement of a channel ends: its CAL_BAD clears, its deltas wait for the boundary that comes with it, and the run goes on (R116, R127). -/
theorem runStep_ends (hc : c < 8) (h : s.run? r = some x) (hchans : x.chans = c :: cs) (hopen : s.seg.openWait = false)
    (hdue : ∀ b, Tab.get s.conv.rotDue false b = false) :
    (run (runStep r vals true) s).cal.ovrWait = [] ∧ (run (runStep r vals true) s).cal.meas = [] ∧ (run (runStep r vals true) s).calBad c = false ∧
      (run (runStep r vals true) s).run? r = some { x with chans := cs, step := 0, meas := [], stepAt := s.now, chanAt := s.now } := by
  have hrun : ∃ deltas, run (runStep r vals true) s =
      run (measureNext r) (run boundary (run (backToData c) (run (setBad c false) (run (.cal fun y => y.measured r x cs deltas) s)))) := by
    refine ⟨s.deltasOf x.kind (s.ofChan c) (Tab.merge x.meas vals), ?_⟩
    rw [runStep, run_ask, h]
    dsimp only
    split
    · next hnil => cases hnil.symm.trans hchans
    · next hcons =>
      obtain ⟨rfl, rfl⟩ := List.cons.inj (hcons.symm.trans hchans)
      rw [if_pos rfl, run_all_cons, run_all_cons, run_all_cons, run_all_cons, run_pair, backToData, run_pair]
      rfl
  obtain ⟨deltas, hrun⟩ := hrun
  have hfirst : Controlled [badCell] s (run (.cal fun y => y.measured r x cs deltas) s) := ⟨rfl, rfl, rfl, fun _ _ _ _ _ _ h => h⟩
  have hput : (run (.cal fun y => y.measured r x cs deltas) s).run? r = some { x with chans := cs } := (Tab.find_put ..).trans (if_pos rfl)
  rw [hrun]
  generalize run (.cal fun y => y.measured r x cs deltas) s = u at *
  obtain ⟨hbad, hcal⟩ := shown_of_only (shows_setBad (c := c) false) u
  have hclear := (calBad_setBad hc hc false u).trans (if_pos rfl)
  generalize run (setBad c false) u = u1 at *
  obtain ⟨hback, hcal1⟩ := shown_of_only (shows_backToData (X := []) c) u1
  generalize run (backToData c) u1 = u2 at *
  have hto := (hfirst.trans hbad).trans (hback.mono (List.nil_subset _))
  obtain ⟨happlied, hquiet⟩ := boundary_quiet (s := u2) (by rw [hto.seg, hopen]) (by rw [hto.rotDue]; exact hdue)
  generalize run boundary u2 = u3 at *
  have hleft : u3.run? r = some { x with chans := cs } := by rw [State.run?, happlied.runs, hcal1, hcal]; exact hput
  have hnext := measuresNext hleft
  have hnow : u3.now = s.now := hquiet.now_eq.trans hto.now_eq
  refine ⟨hnext.ovrWait.trans happlied.ovrWait, hnext.meas.trans happlied.meas, ?_, ?_⟩
  · rw [hnext.controlled.calBad_eq List.not_mem_nil, hquiet.calBad_eq (by decide), hback.calBad_eq List.not_mem_nil, hclear]
  · rw [hnext.run, hnow, CalRun.begun]

end

/-- The controller's own state as a step of start-up calibration has ended. -/
def Cal.startStepped (c : Cal) (d n now : Nat) : Cal :=
  { c with startup := Tab.put c.startup d (min 0xFFFF (n + 1)), startAt := Tab.put c.startAt d ((Tab.get c.startAt (0, 0) d).1, now) }

/-- A step of start-up calibration ends (R107, R109). -/
theorem startStep_ends {s : State} {d n : Nat} (h : Tab.find s.cal.startup d = some n) (hopen : s.seg.openWait = false) :
    Tab.find (run (startStep d) s).cal.startup d = some (min 0xFFFF (n + 1)) ∧ (run (startStep d) s).cal.ovrWait = [] := by
  have hrun : run (startStep d) s = run boundary (run (.cal fun c => c.startStepped d n s.now) s) := by
    rw [startStep, run_ask, h]
    exact run_pair ..
  obtain ⟨hstartup, hwait⟩ := startup_boundary (s := run (.cal fun c => c.startStepped d n s.now) s) hopen
  rw [hrun, hstartup]
  exact ⟨(Tab.find_put ..).trans (if_pos rfl), hwait⟩

/-- A run as it starts. -/
def State.newRun (s : State) (kind : Nat) (chans : List Nat) (hard : Bool) (cmd : Option Nat) : CalRun :=
  { kind := kind, named := chans, chans := chans, step := 0, hard := hard, cmd := cmd, temps := [s.tDie 0, s.tDie 1], stepAt := s.now, chanAt := s.now
    meas := [] }

/-- A run starts, and measures its first channel (R115). -/
theorem startRun_starts (s : State) (r kind : Nat) (chans : List Nat) (hard : Bool) (cmd : Option Nat) :
    (run (startRun r kind chans hard cmd) s).get pgCal R.CAL_RUN_ACTIVE = 1 ∧ ∃ y, (run (startRun r kind chans hard cmd) s).run? r = some y ∧
      y.kind = kind ∧ y.named = chans ∧ y.chans = chans ∧ y.hard = hard ∧ y.cmd = cmd := by
  have hrun : run (startRun r kind chans hard cmd) s =
      run (measureNext r) (run (raise pgCal 3) (run (putRun r (s.newRun kind chans hard cmd)) s)) := by
    rw [startRun, run_ask, run_all_cons, run_pair]
    rfl
  have hraise : Prog.Only (Act.shows []) (raise pgCal 3) := shows_raise rfl (by decide)
  have hnext := measuresNext (((shown_of_only hraise _).run?_eq r).trans (run?_putRun r (s.newRun kind chans hard cmd) s))
  rw [hrun]
  exact ⟨hnext.active, _, hnext.run, rfl, rfl, rfl, rfl, rfl⟩

section
variable {α : Type} {l : List α} {f : α → Prog} {P : State → Prop}

theorem run_each_keeps (hkeep : ∀ b ∈ l, ∀ s, P s → P (run (f b) s)) (s : State) (hs : P s) : P (run (.each l f) s) := by
  induction l generalizing s with
  | nil => exact hs
  | cons b l ih =>
    rw [run_each_cons]
    exact ih (fun c hc => hkeep c (List.mem_cons_of_mem _ hc)) _ (hkeep b List.mem_cons_self s hs)

/-- What one program of a sequence brings about, and all of them keep, holds after the sequence. -/
theorem run_each_establishes {a : α} (ha : a ∈ l) (hset : ∀ s, P (run (f a) s)) (hkeep : ∀ b ∈ l, ∀ s, P s → P (run (f b) s)) (s : State) :
    P (run (.each l f) s) := by
  induction l generalizing s with
  | nil => cases ha
  | cons b l ih =>
    have hkeep' : ∀ c ∈ l, ∀ s, P s → P (run (f c) s) := fun c hc => hkeep c (List.mem_cons_of_mem _ hc)
    rw [run_each_cons]
    rcases List.mem_cons.1 ha with rfl | ha
    · exact run_each_keeps hkeep' _ (hset s)
    · exact ih ha hkeep' _

end

/-! ### What the last run leaves of a die (R115, R126) -/

/-- LAST_RUN is put, and DUE and HARD clear. -/
def takeLastRun (d : Nat) (v : Int) : Prog := .all [setLastRun d v, .setBit pgCal R.CAL_DUE d false, .setBit pgCal R.CAL_HARD d false]

/-- A die is due for no run, and its LAST_RUN is a temperature. -/
structure LastRunTaken (s : State) (e : Nat) (v : Int) : Prop where
  due : s.due e = false
  hardDue : s.hardDue e = false
  lastRun : s.geti pgCal R.CAL_LAST_RUN e = unsgn 12 v

section
variable {d e : Nat} (hd : d < 2) (he : e < 2)
include hd he

/-- DUE, HARD and LAST_RUN of dies once one die's are put. -/
theorem fields_takeLastRun (v : Int) (s : State) :
    (run (takeLastRun d v) s).due e = (if e = d then false else s.due e) ∧
    (run (takeLastRun d v) s).hardDue e = (if e = d then false else s.hardDue e) ∧
    (run (takeLastRun d v) s).geti pgCal R.CAL_LAST_RUN e = if e = d then unsgn 12 v else s.geti pgCal R.CAL_LAST_RUN e := by
  have hdue : R.CAL_DUE.lo = 4 ∧ R.CAL_DUE.hi = 5 := ⟨rfl, rfl⟩
  have hhard : R.CAL_HARD.lo = 6 ∧ R.CAL_HARD.hi = 7 := ⟨rfl, rfl⟩
  have htemp : R.CAL_LAST_RUN.addr pgCal e = 0x18058 + 4 * e := rfl
  have hcell : R.CAL_DUE.addr pgCal 0 = 0x18050 ∧ R.CAL_HARD.addr pgCal 0 = 0x18050 := ⟨rfl, rfl⟩
  have hset : Prog.Only (Act.spares 0x18050) (setLastRun d v) := (only_seti ..).2 (by
    show 0x18050 ≠ 0x18058 + 4 * d
    omega)
  have hbits (r : Row) (hr : r.addr pgCal 0 = 0x18050) : Prog.Only (Act.spares (R.CAL_LAST_RUN.addr pgCal e)) (.setBit pgCal r d false) :=
    (only_setBit ..).2 (by
      show R.CAL_LAST_RUN.addr pgCal e ≠ r.addr pgCal 0
      omega)
  rw [takeLastRun, run_all_cons, run_pair]
  refine ⟨?_, ?_, ?_⟩
  · rw [State.due, bit_get_of_only (by omega) (sparesBit_setBit (by omega) (.inr (by omega))), bit_get_setBit (by omega) (by omega) (by omega), only_get (q := pgCal) (r := R.CAL_DUE) hset]
    rfl
  · rw [State.hardDue, bit_get_setBit (by omega) (by omega) (by omega), bit_get_of_only (by omega) (sparesBit_setBit (by omega) (.inr (by omega))),
      only_get (q := pgCal) (r := R.CAL_HARD) hset]
    rfl
  · rw [only_geti (hbits _ rfl), only_geti (hbits _ rfl), setLastRun]
    by_cases hed : e = d
    · rw [if_pos hed, hed, geti_seti_unsgn (r := R.CAL_LAST_RUN) (w := 12) (by decide) rfl]
    · rw [if_neg hed, geti_seti_other _ _ _ _ _ _ _ _ (by decide) (.inl (by
        show 0x18058 + 4 * e ≠ 0x18058 + 4 * d
        omega))]

end

theorem takeLastRun_same {d : Nat} (hd : d < 2) (v : Int) (s : State) : LastRunTaken (run (takeLastRun d v) s) d v := by
  obtain ⟨hdue, hhard, hlast⟩ := fields_takeLastRun hd hd v s
  exact ⟨hdue.trans (if_pos rfl), hhard.trans (if_pos rfl), hlast.trans (if_pos rfl)⟩

theorem takeLastRun_other {d e : Nat} (hd : d < 2) (he : e < 2) (hed : e ≠ d) (v : Int) {w : Int} {s : State} (h : LastRunTaken s e w) :
    LastRunTaken (run (takeLastRun d v) s) e w := by
  obtain ⟨hdue, hhard, hlast⟩ := fields_takeLastRun hd he v s
  exact ⟨(hdue.trans (if_neg hed)).trans h.due, (hhard.trans (if_neg hed)).trans h.hardDue, (hlast.trans (if_neg hed)).trans h.lastRun⟩

theorem Controlled.lastRunTaken {X : List Nat} {s t : State} (h : Controlled X s t) {e : Nat} (he : e < 2) (hX : ∀ a ∈ X, a < 0x18050 ∨ 0x18060 ≤ a) {v : Int}
    (hs : LastRunTaken s e v) : LastRunTaken t e v := by
  have hnot (a : Nat) (ha : 0x18050 ≤ a) (ha' : a < 0x18060) : a ∉ X := fun hm => by
    have := hX a hm
    omega
  have htemp : R.CAL_LAST_RUN.addr pgCal e = 0x18058 + 4 * e := rfl
  have hdue : t.get pgCal R.CAL_DUE = s.get pgCal R.CAL_DUE := h.geti_eq (hnot _ (by decide) (by decide)) fun j hj hj' =>
    ⟨by decide, .inr (.inl ⟨rfl, .inl ⟨hj, Nat.le_trans hj' (by decide)⟩⟩)⟩
  have hhard : t.get pgCal R.CAL_HARD = s.get pgCal R.CAL_HARD := h.geti_eq (hnot _ (by decide) (by decide)) fun j hj hj' =>
    ⟨by decide, .inr (.inl ⟨rfl, .inl ⟨Nat.le_trans (by decide) hj, hj'⟩⟩)⟩
  have hlast : t.geti pgCal R.CAL_LAST_RUN e = s.geti pgCal R.CAL_LAST_RUN e := h.geti_eq (hnot _ (by omega) (by omega)) fun j _ _ => by
    rw [resultBit, htemp]
    omega
  exact ⟨by rw [State.due, hdue]; exact hs.due, by rw [State.hardDue, hhard]; exact hs.hardDue, hlast.trans hs.lastRun⟩

/-! ### Ends of runs (R110, R123, R126) -/

/-- The cells a run's end counts in. -/
def runsCell : Nat := R.CAL_CNT_RUNS.addr pgCal 0

/-- A run has left the controller: it is counted, and RUN_DONE is raised. -/
structure RunEnded (s t : State) (r : Nat) : Prop where
  controlled : Controlled [runsCell] s t
  gone : t.run? r = none
  counted : Counted s t pgCal R.CAL_CNT_RUNS 1
  raised : t.raised pgCal 4 = true

/-- A counter of the page keeps its value. -/
theorem Controlled.get_counter {X : List Nat} {s t : State} (h : Controlled X s t) {r : Row}
    (hr : r.off = 0x0A0 ∨ r.off = 0x0A4 ∨ r.off = 0x0A8) (hX : r.addr pgCal 0 ∉ X) : t.get pgCal r = s.get pgCal r :=
  h.geti_eq hX fun j _ _ => by
    have haddr : r.addr pgCal 0 = 0x18000 + r.off := rfl
    rw [resultBit, haddr]
    omega

theorem run_runEnds {s : State} {r : Nat} {x : CalRun} (h : s.run? r = some x) (status result : Nat) : ∃ fin : Prog, Prog.Only (Act.shows []) fin ∧
    run (runEnds r status result) s = run openPending (run (.all [showRuns, showRot]) (run fin (run (raise pgCal 4)
      (run (.inc pgCal R.CAL_CNT_RUNS) (run (.cal fun c => { c with runs := Tab.del c.runs r }) s))))) := by
  refine ⟨?fin, ?shows, ?runs⟩
  case runs =>
    rw [runEnds, run_ask]
    simp only [h]
    rw [run_all_cons, run_all_cons, run_all_cons, run_all_cons, run_all_cons, run_pair, run_pair]
  case shows =>
    split
    · split
      · exact shows_finishCmd _ _ _ _
      · exact shows_finishCmd _ _ _ _
    · trivial

theorem runEnds_ends {s : State} {r : Nat} {x : CalRun} (h : s.run? r = some x) (hopen : s.seg.openWait = false) (status result : Nat) :
    RunEnded s (run (runEnds r status result) s) r := by
  obtain ⟨fin, hfin, hrun⟩ := run_runEnds h status result
  have hall : Prog.Only (Act.shows []) (.all [showRuns, showRot]) := (only_all_cons ..).2 ⟨shows_showRuns, (only_all_cons ..).2 ⟨shows_showRot, trivial⟩⟩
  rw [hrun]
  have hdel : Controlled [runsCell] s (run (.cal fun c => { c with runs := Tab.del c.runs r }) s) := ⟨rfl, rfl, rfl, fun _ _ _ _ _ _ h => h⟩
  have hgone : (run (.cal fun c => { c with runs := Tab.del c.runs r }) s).run? r = none := (Tab.find_del ..).trans (if_pos rfl)
  have hsame : (run (.cal fun c => { c with runs := Tab.del c.runs r }) s).get pgCal R.CAL_CNT_RUNS = s.get pgCal R.CAL_CNT_RUNS :=
    get_congr (s := s) rfl _ _
  generalize run (.cal fun c => { c with runs := Tab.del c.runs r }) s = s1 at *
  have hinc := shown_of_only (shows_inc (X := [runsCell]) (p := pgCal) (r := R.CAL_CNT_RUNS) fun _ => .inl (List.mem_singleton_self _)) s1
  have hcount := counted_inc pgCal R.CAL_CNT_RUNS s1 (by decide)
  generalize run (.inc pgCal R.CAL_CNT_RUNS) s1 = s2 at *
  have hraise := shown_of_only (shows_raise (X := []) (p := pgCal) (k := 4) rfl (by decide)) s2
  have hraised := raised_raise (p := pgCal) rfl (by decide) (k := 4) (by decide) s2
  generalize run (raise pgCal 4) s2 = s3 at *
  have hends := (shown_of_only hfin s3).trans (shown_of_only hall _)
  generalize run (.all [showRuns, showRot]) (run fin s3) = s4 at *
  have hlate := hraise.trans hends
  have hto := (hdel.trans hinc.1).trans (hlate.1.mono (List.nil_subset _))
  rw [run_openPending_none (by rw [hto.seg, hopen])]
  exact ⟨hto, by rw [(hinc.trans (⟨hlate.1.mono (List.nil_subset _), hlate.2⟩)).run?_eq r, hgone],
    hcount.of_get_eq hsame.symm (hlate.1.get_counter (.inl rfl) List.not_mem_nil), hends.1.raised rfl (by decide) List.not_mem_nil hraised⟩

/-- The cells that the end of a run whose channels have all succeeded leaves open, before it is counted. -/
def dieCells : List Nat := [runCell, R.CAL_LAST_RUN.addr pgCal 0, R.CAL_LAST_RUN.addr pgCal 1, pgCal.base + 0x028]

/-- What a run whose channels have all succeeded leaves of a die. -/
def dieDone (x : CalRun) (d : Nat) (noSet : Bool) : Prog := .all [takeLastRun d (x.temps.getD d 0), .when noSet (setNoSet d false)]

theorem shows_dieDone (x : CalRun) {d : Nat} (hd : d < 2) (noSet : Bool) : Prog.Only (Act.shows dieCells) (dieDone x d noSet) := by
  have hmem : ∀ d < 2, R.CAL_LAST_RUN.addr pgCal d ∈ dieCells := by decide
  simp only [dieDone, takeLastRun, setLastRun, only_all_cons, only_all_nil, only_when, only_seti, only_setBit, and_true]
  exact ⟨⟨.inl (hmem d hd), .inl (by decide), .inl (by decide)⟩, fun _ => shows_setNoSet (by decide) hd false⟩

section
variable (x : CalRun) {d e : Nat} (hd : d < 2) (noSet : Bool) (s : State)
include hd

theorem run_dieDone (he : e < 2) {v : Int} (h : LastRunTaken (run (takeLastRun d (x.temps.getD d 0)) s) e v) :
    LastRunTaken (run (dieDone x d noSet) s) e v := by
  have hnoSet : Prog.Only (Act.shows calErr) (.when noSet (setNoSet d false)) :=
    (only_when ..).2 fun _ => shows_setNoSet (List.mem_singleton_self _) hd false
  rw [dieDone, run_pair]
  exact (shown_of_only hnoSet _).1.lastRunTaken he (by decide) h

theorem dieDone_same : LastRunTaken (run (dieDone x d noSet) s) d (x.temps.getD d 0) :=
  run_dieDone x hd noSet s hd (takeLastRun_same hd _ s)

theorem dieDone_keeps (he : e < 2) (h : LastRunTaken s e (x.temps.getD e 0)) : LastRunTaken (run (dieDone x d noSet) s) e (x.temps.getD e 0) := by
  by_cases hed : e = d
  · subst hed
    exact dieDone_same x hd noSet s
  · exact run_dieDone x hd noSet s he (takeLastRun_other hd he hed _ h)

end

theorem run_runDone {s : State} {r : Nat} {x : CalRun} (h : s.run? r = some x) (hchans : x.chans = []) : ∃ noSet : Nat → Bool,
    run (runDone r) s = run (runEnds r stOK 0) (run (.each (which 2 fun d => x.named.any fun c => dieOf c = d) fun d => dieDone x d (noSet d)) s) := by
  refine ⟨fun d => x.kind = 2 && !(s.halves d).isEmpty && s.wholeDie x d, ?_⟩
  rw [runDone, run_ask]
  simp only [h]
  rw [run_when, hchans, if_pos List.isEmpty_nil, run_pair]
  refine congrArg _ (run_each_congr (fun d _ u => ?_) s)
  rw [run_all_cons, run_all_cons, run_pair, dieDone, run_pair, takeLastRun, run_all_cons, run_pair]

/-- A run whose channels have all been measured ends: no named die is due, and their LAST_RUN is the temperature it started at (R126). -/
theorem runDone_ends {s : State} {r : Nat} {x : CalRun} (h : s.run? r = some x) (hchans : x.chans = []) (hopen : s.seg.openWait = false) :
    (run (runDone r) s).run? r = none ∧ (run (runDone r) s).raised pgCal 4 = true ∧ Counted s (run (runDone r) s) pgCal R.CAL_CNT_RUNS 1 ∧
    ∀ e, e < 2 → (∃ m ∈ x.named, dieOf m = e) → LastRunTaken (run (runDone r) s) e (x.temps.getD e 0) := by
  obtain ⟨noSet, hrun⟩ := run_runDone h hchans
  have hbound : ∀ d ∈ which 2 fun d => x.named.any fun c => dieOf c = d, d < 2 := fun d hd => List.mem_range.1 (List.mem_filter.1 hd).1
  have hshown := shown_of_only (only_each _ _ fun d hd => shows_dieDone x (hbound d hd) (noSet d)) s
  have hdies (e : Nat) (he : e < 2) (hm : ∃ m ∈ x.named, dieOf m = e) :
      LastRunTaken (run (.each (which 2 fun d => x.named.any fun c => dieOf c = d) fun d => dieDone x d (noSet d)) s) e (x.temps.getD e 0) := by
    refine run_each_establishes (a := e) (List.mem_filter.2 ⟨List.mem_range.2 he, ?_⟩) (dieDone_same x he (noSet e))
      (fun d hd u hu => dieDone_keeps x (hbound d hd) (noSet d) u he hu) s
    obtain ⟨m, hm, hme⟩ := hm
    exact List.any_eq_true.2 ⟨m, hm, decide_eq_true hme⟩
  rw [hrun]
  generalize run (.each (which 2 fun d => x.named.any fun c => dieOf c = d) fun d => dieDone x d (noSet d)) s = u at *
  have hended := runEnds_ends ((hshown.run?_eq r).trans h) (by rw [hshown.1.seg, hopen]) stOK 0
  exact ⟨hended.gone, hended.raised, hended.counted.of_get_eq (hshown.1.get_counter (.inl rfl) (by decide)).symm rfl,
    fun e he hm => hended.controlled.lastRunTaken he (by decide) (hdies e he hm)⟩

/-! ### Timeouts (R110, R126) -/

/-- ERR_INFO of the CAL page is a result, which nothing shown lies over. -/
theorem Controlled.errInfo_eq {X : List Nat} {s t : State} (h : Controlled X s t) (hX : pgCal.base + 0x028 ∉ X) : t.errInfo pgCal = s.errInfo pgCal :=
  Nat.eq_of_testBit_eq fun _ => h.bit_eq hX ⟨by decide, .inl rfl⟩

/-- The counters of timeouts. -/
def timeoutRow (r : Row) : Prop := r = R.CAL_CNT_STEP_TMO ∨ r = R.CAL_CNT_RUN_TMO

/-- What the timeout of a channel counts and captures. -/
def timeoutNoted (code detail : Nat) (counter : Row) : Prog := .all [.inc pgCal counter, capture pgCal code detail]

/-- A timeout is counted and captured, and what has come before has touched neither. -/
theorem timeoutNoted_notes {s u : State} {code detail : Nat} {counter : Row} (hrow : timeoutRow counter) (h : Controlled [badCell] s u) :
    Counted s (run (timeoutNoted code detail counter) u) pgCal counter 1 ∧ Captured s (run (timeoutNoted code detail counter) u) pgCal code detail ∧
      Shown [counter.addr pgCal 0, pgCal.base + 0x028] u (run (timeoutNoted code detail counter) u) := by
  have hoff : (counter.off = 0x0A0 ∨ counter.off = 0x0A4 ∨ counter.off = 0x0A8) ∧ counter.sound = true ∧ counter.addr pgCal 0 ∉ [badCell] ∧
      counter.addr pgCal 0 ≠ pgCal.base + 0x028 ∧ counter.addr pgCal 0 ≠ pgCal.base + 0x014 ∧ counter.addr pgCal 0 < 0x400000 := by
    rcases hrow with rfl | rfl <;> decide
  obtain ⟨hoff, hsound, hbad, herr, hraw, hlow⟩ := hoff
  have hcounted := (counted_inc pgCal counter u hsound).of_get_eq (h.get_counter hoff hbad).symm rfl
  have hspares : Prog.Only (Act.spares (pgCal.base + 0x028)) (.inc pgCal counter) := only_inc _ _ fun _ => herr.symm
  have hinc := shown_of_only (shows_inc (X := [counter.addr pgCal 0, pgCal.base + 0x028]) (p := pgCal) (r := counter) fun _ => .inl (by simp)) u
  rw [timeoutNoted, run_pair]
  refine ⟨hcounted.of_get_eq rfl ?_, Captured.of_errInfo_eq (captured_capture rfl (by decide) code detail)
    ((errInfo_of_spares hspares u).trans (h.errInfo_eq (by decide))) rfl, hinc.trans (shown_of_only (shows_capture (by simp) code detail) _)⟩
  rw [State.get, State.geti, cell_capture code detail herr hraw (notMem_deliveryCells (.inl hlow)), State.get, State.geti]

/-- The channels of a run are switched back, and take data again. -/
def allBackToData (chans : List Nat) : Prog := .all [.each chans holdBack, runSettled chans]

theorem shows_allBackToData {X : List Nat} (chans : List Nat) : Prog.Only (Act.shows X) (allBackToData chans) :=
  (only_all_cons ..).2 ⟨only_each _ _ fun c _ => shows_holdBack c, (only_all_cons ..).2 ⟨shows_runSettled chans, trivial⟩⟩

theorem run_runTimeout {s : State} {r c : Nat} {cs : List Nat} {x : CalRun} (h : s.run? r = some x) (hchans : x.chans = c :: cs) (code : Nat)
    (counter : Row) : run (runTimeout r code counter) s =
      run (runEnds r stCalBad (2 ^ c)) (run (allBackToData x.chans) (run (timeoutNoted code (c + x.step * 2 ^ 8) counter) (run (setBad c true) s))) := by
  rw [runTimeout, run_ask, h]
  dsimp only
  split
  · next hnil => cases hnil.symm.trans hchans
  · next hcons =>
    obtain ⟨rfl, rfl⟩ := List.cons.inj (hcons.symm.trans hchans)
    rw [run_all_cons, run_all_cons, run_all_cons, run_all_cons, run_pair, timeoutNoted, run_pair, allBackToData, run_pair]

/-- A channel times out: it carries CAL_BAD, the timeout is counted and captured, and the run ends (R126). -/
theorem runTimeout_ends {s : State} {r c : Nat} {cs : List Nat} {x : CalRun} (hc : c < 8) (h : s.run? r = some x) (hchans : x.chans = c :: cs)
    (hopen : s.seg.openWait = false) (code : Nat) {counter : Row} (hrow : timeoutRow counter) :
    (run (runTimeout r code counter) s).calBad c = true ∧ (run (runTimeout r code counter) s).run? r = none ∧
      Counted s (run (runTimeout r code counter) s) pgCal counter 1 ∧ Captured s (run (runTimeout r code counter) s) pgCal code (c + x.step * 2 ^ 8) := by
  have hoff : (counter.off = 0x0A0 ∨ counter.off = 0x0A4 ∨ counter.off = 0x0A8) ∧ counter.addr pgCal 0 ∉ [runsCell] ∧
      badCell ∉ [counter.addr pgCal 0, pgCal.base + 0x028] := by
    rcases hrow with rfl | rfl <;> decide
  obtain ⟨hoff, hruns, hbadCell⟩ := hoff
  rw [run_runTimeout h hchans]
  have hbad := shown_of_only (shows_setBad (c := c) true) s
  have hset := (calBad_setBad hc hc true s).trans (if_pos rfl)
  generalize run (setBad c true) s = u at *
  obtain ⟨hcounted, hcaptured, hnoted⟩ := timeoutNoted_notes (code := code) (detail := c + x.step * 2 ^ 8) hrow hbad.1
  generalize run (timeoutNoted code (c + x.step * 2 ^ 8) counter) u = v at *
  have hback := shown_of_only (shows_allBackToData (X := []) x.chans) v
  generalize run (allBackToData x.chans) v = w at *
  have hended := runEnds_ends (s := w) (r := r) (x := x) (by rw [hback.run?_eq, hnoted.run?_eq, hbad.run?_eq, h])
    (by rw [hback.1.seg, hnoted.1.seg, hbad.1.seg, hopen]) stCalBad (2 ^ c)
  have hto := (hback.1.mono (List.nil_subset _)).trans hended.controlled
  exact ⟨by rw [hto.calBad_eq (by decide), hnoted.1.calBad_eq hbadCell, hset], hended.gone,
    hcounted.of_get_eq rfl (hto.get_counter hoff hruns), hcaptured.of_errInfo_eq rfl (hto.errInfo_eq (by decide))⟩

/-! ### Ends of start-up calibration (R107, R126) -/

/-- SETTLING is one bit. -/
theorem settling_eq_bit (s : State) (b : Nat) : s.settling b = bit (s.cell (R.BANK_SETTLING.addr (pgBank b) 0)).toNat 0 := by
  have hbits (v : Nat) : bits v 0 0 = v % 2 := by rw [bits, Nat.shiftRight_zero]; rfl
  rw [State.settling, bit, Nat.testBit_zero]
  exact congrArg (fun x => decide (x = 1)) (hbits _)

/-- A bank that does not settle does not begin to. -/
theorem Controlled.not_settling {X : List Nat} {s t : State} (h : Controlled X s t) {b : Nat} (hb : b < 8)
    (hX : R.BANK_SETTLING.addr (pgBank b) 0 ∉ X) (hs : s.settling b = false) : t.settling b = false := by
  have haddr : R.BANK_SETTLING.addr (pgBank b) 0 = 0x10044 + 0x1000 * b := by
    show 0x10000 + 0x1000 * b + 0x044 + 4 * 0 = _
    omega
  rw [settling_eq_bit] at hs ⊢
  refine h.bit _ 0 false hX (by omega) (fun hi lo v hf hlo hhi => ?_) hs
  have hv : v = 0 := by
    simp only [shownField, shownPlain, Bool.and_eq_true, Bool.or_eq_true, decide_eq_true_eq] at hf
    omega
  rw [hv, Nat.zero_testBit]

theorem settling_endSettle {b : Nat} (hb : b < 8) (s : State) : (run (endSettle b) s).settling b = false := by
  have haddr : R.BANK_SETTLING.addr (pgBank b) 0 = (pgBank b).base + 0x044 := rfl
  have hbase := bank_base b
  rw [endSettle, run_ask, run_when]
  split
  · rw [run_all_cons, run_pair, State.settling, State.get, State.geti, cell_raise _ _ _ _ (notMem_deliveryCells (by omega)) (by omega)]
    exact congrArg (fun x => decide (x = 1)) (get_set_same s (pgBank b) R.BANK_SETTLING 0 (by decide))
  · next hs => exact Bool.eq_false_iff.2 hs

/-- What the end of start-up calibration of a die takes from the controller. -/
def Cal.startupOver (c : Cal) (d : Nat) : Cal := { c with startup := Tab.del c.startup d, startAt := Tab.del c.startAt d }

/-- A reset of a die ends with its start-up calibration: its enabled channels are powered (R512). -/
def endReset (d : Nat) : Prog :=
  .ask fun s => .when (Tab.get s.conv.dieRst false d) (.all [.conv fun c => { c with dieRst := Tab.put c.dieRst d false },
    .each (which 8 fun c => dieOf c = d && s.chanOn c) fun c => powerChan c true])

theorem shows_endReset {X : List Nat} (d : Nat) : Prog.Only (Act.shows X) (endReset d) := fun _ => by
  simp only [only_when, only_all_cons, only_all_nil, and_true]
  exact fun _ => ⟨⟨fun _ => rfl, trivial⟩, only_each _ _ fun c _ => shows_powerChan c true⟩

/-- The banks of a die stop settling. -/
def endSettles (d : Nat) : Prog := .each (List.range 4) fun i => endSettle (4 * d + i)

theorem shows_endSettles {X : List Nat} (d : Nat) : Prog.Only (Act.shows X) (endSettles d) := only_each _ _ fun _ _ => shows_endSettle _

theorem not_settling_endSettles {d i : Nat} (hd : d < 2) (hi : i < 4) (s : State) : (run (endSettles d) s).settling (4 * d + i) = false := by
  rw [endSettles]
  refine run_each_establishes (P := fun t => t.settling (4 * d + i) = false) (f := fun i => endSettle (4 * d + i)) (List.mem_range.2 hi) (fun u => ?_)
    (fun k _ u hu => ?_) s
  · exact settling_endSettle (by omega) u
  · exact (shown_of_only (shows_endSettle (X := []) (4 * d + k)) u).1.not_settling (by omega) List.not_mem_nil hu

/-- Start-up calibration of a die is over, and its banks do not settle. -/
structure StartEnded (s t : State) (d : Nat) : Prop where
  controlled : Controlled [] s t
  gone : Tab.find t.cal.startup d = none
  settled : ∀ i, i < 4 → t.settling (4 * d + i) = false

theorem run_startEnds (d : Nat) (s : State) : ∃ fin : Prog, Prog.Only (Act.shows []) fin ∧
    run (startEnds d) s = run fin (run (endSettles d) (run (showBanks d) (run (.cal fun c => c.startupOver d) s))) := by
  refine ⟨.all [endReset d, ?resume, showRot], ?shows, ?runs⟩
  case runs =>
    rw [startEnds, run_all_cons, run_all_cons, run_all_cons, run_all_cons, run_pair, run_all_cons, run_pair, endSettles, endReset]
    rfl
  case shows =>
    simp only [only_all_cons, only_all_nil, and_true]
    exact ⟨shows_endReset d, fun _ => shows_resumeDefs (fun k hk => List.mem_range.1 (List.mem_filter.1 (List.mem_filter.1 hk).1).1), shows_showRot⟩

theorem startEnds_ends {d : Nat} (hd : d < 2) (s : State) : StartEnded s (run (startEnds d) s) d := by
  obtain ⟨fin, hfin, hrun⟩ := run_startEnds d s
  have hover : Controlled [] s (run (.cal fun c => c.startupOver d) s) := ⟨rfl, rfl, rfl, fun _ _ _ _ _ _ h => h⟩
  have hgone : Tab.find (run (.cal fun c => c.startupOver d) s).cal.startup d = none := (Tab.find_del ..).trans (if_pos rfl)
  rw [hrun]
  generalize run (.cal fun c => c.startupOver d) s = u at *
  have hbanks := shown_of_only (shows_showBanks (X := []) d) u
  have hsettles := shown_of_only (shows_endSettles (X := []) d) (run (showBanks d) u)
  have hlast := shown_of_only hfin (run (endSettles d) (run (showBanks d) u))
  have hto := (hbanks.trans hsettles).trans hlast
  exact ⟨hover.trans hto.1, by rw [hto.2]; exact hgone,
    fun i hi => hlast.1.not_settling (by omega) List.not_mem_nil (not_settling_endSettles hd hi _)⟩

/-- The channels of a die carry CAL_BAD. -/
def badDie (l : List Nat) : Prog := .each l fun c => setBad c true

theorem shows_badDie (l : List Nat) : Prog.Only (Act.shows [badCell]) (badDie l) := only_each _ _ fun _ _ => shows_setBad true

theorem calBad_badDie {l : List Nat} (hl : ∀ c ∈ l, c < 8) {m : Nat} (hm : m ∈ l) (s : State) : (run (badDie l) s).calBad m = true := by
  rw [badDie]
  refine run_each_establishes (P := fun t => t.calBad m = true) (f := fun c => setBad c true) hm (fun u => ?_) (fun c hc u hu => ?_) s
  · exact (calBad_setBad (hl m hm) (hl m hm) true u).trans (if_pos rfl)
  · rw [calBad_setBad (hl c hc) (hl m hm), hu]
    exact ite_self true

/-- The start-up calibration of a die times out: its channels carry CAL_BAD, the timeout is counted and captured, and it is over (R110, R126). -/
theorem startTimeout_ends {s : State} {d n : Nat} (hd : d < 2) (h : Tab.find s.cal.startup d = some n) (code : Nat) {counter : Row}
    (hrow : timeoutRow counter) : Tab.find (run (startTimeout d code counter) s).cal.startup d = none ∧
      Counted s (run (startTimeout d code counter) s) pgCal counter 1 ∧
      Captured s (run (startTimeout d code counter) s) pgCal code (4 * d + n * 2 ^ 8) ∧
      ∀ m, m < 8 → dieOf m = d → s.chanExists m = true → (run (startTimeout d code counter) s).calBad m = true := by
  have hoff : (counter.off = 0x0A0 ∨ counter.off = 0x0A4 ∨ counter.off = 0x0A8) ∧ badCell ∉ [counter.addr pgCal 0, pgCal.base + 0x028] := by
    rcases hrow with rfl | rfl <;> decide
  obtain ⟨hoff, hbadCell⟩ := hoff
  have hrun : run (startTimeout d code counter) s = run (startEnds d) (run (timeoutNoted code (4 * d + n * 2 ^ 8) counter)
      (run (badDie (which 8 fun c => dieOf c = d && s.chanExists c)) s)) := by
    rw [startTimeout, run_ask]
    simp only [h]
    rw [run_all_cons, run_all_cons, run_pair, badDie, timeoutNoted, run_pair]
  have hbad := shown_of_only (shows_badDie (which 8 fun c => dieOf c = d && s.chanExists c)) s
  have hset {m : Nat} (hm : m ∈ which 8 fun c => dieOf c = d && s.chanExists c) :
      (run (badDie (which 8 fun c => dieOf c = d && s.chanExists c)) s).calBad m = true :=
    calBad_badDie (fun c hc => List.mem_range.1 (List.mem_filter.1 hc).1) hm s
  have hwhich {m : Nat} (hm : m < 8) (hdie : dieOf m = d) (hx : s.chanExists m = true) : m ∈ which 8 fun c => dieOf c = d && s.chanExists c :=
    List.mem_filter.2 ⟨List.mem_range.2 hm, by rw [decide_eq_true hdie, hx]; rfl⟩
  rw [hrun]
  generalize run (badDie (which 8 fun c => dieOf c = d && s.chanExists c)) s = u at *
  obtain ⟨hcounted, hcaptured, hnoted⟩ := timeoutNoted_notes (code := code) (detail := 4 * d + n * 2 ^ 8) hrow hbad.1
  have hended := startEnds_ends hd (run (timeoutNoted code (4 * d + n * 2 ^ 8) counter) u)
  exact ⟨hended.gone, hcounted.of_get_eq rfl (hended.controlled.get_counter hoff List.not_mem_nil),
    hcaptured.of_errInfo_eq rfl (hended.controlled.errInfo_eq List.not_mem_nil), fun m hm hdie hx => by
      rw [hended.controlled.calBad_eq List.not_mem_nil, hnoted.1.calBad_eq hbadCell, hset (hwhich hm hdie hx)]⟩

/-! ### The end of start-up calibration (R107, R512) -/

/-- A reset of a die is over: FE_RST clears, and the event is raised. -/
def feRstEnds (d : Nat) (c : Bool) : Prog := .when c (.all [.setBit pgTop R.TOP_FE_RST d false, raise pgTop 7])

/-- The cell of FE_RST. -/
def feRstCell : Nat := R.TOP_FE_RST.addr pgTop 0

theorem shows_feRstEnds (d : Nat) (c : Bool) : Prog.Only (Act.shows [feRstCell]) (feRstEnds d c) := by
  simp only [feRstEnds, only_when, only_all_cons, only_all_nil, and_true]
  exact fun _ => ⟨(only_setBit ..).2 (.inl (List.mem_singleton_self _)), shows_raise rfl (by decide)⟩

theorem feRstEnds_ends {d : Nat} (hd : d < 2) (s : State) :
    bit ((run (feRstEnds d true) s).get pgTop R.TOP_FE_RST) d = false ∧ (run (feRstEnds d true) s).raised pgTop 7 = true := by
  have hlo : R.TOP_FE_RST.lo + d ≤ R.TOP_FE_RST.hi := by
    have : R.TOP_FE_RST.lo = 0 ∧ R.TOP_FE_RST.hi = 1 := ⟨rfl, rfl⟩
    omega
  have hspares : Prog.Only (Act.spares (R.TOP_FE_RST.addr pgTop 0)) (raise pgTop 7) :=
    only_raise _ _ (spares_of_delivers _ (notMem_deliveryCells (by decide)))
      (show R.TOP_FE_RST.addr pgTop 0 ≠ pgTop.base + 0x014 by decide)
  rw [feRstEnds, run_when, if_pos rfl, run_pair]
  refine ⟨?_, raised_raise rfl (by decide) (by decide) _⟩
  rw [only_get hspares, bit_get_setBit (by decide) hlo hlo, if_pos rfl]

/-- FE_RST is a result, which nothing shown lies over. -/
theorem Controlled.feRst_eq {X : List Nat} {s t : State} (h : Controlled X s t) (hX : feRstCell ∉ X) :
    t.get pgTop R.TOP_FE_RST = s.get pgTop R.TOP_FE_RST :=
  h.geti_eq hX fun j _ _ => ⟨by decide, by rw [show R.TOP_FE_RST.addr pgTop 0 = 0x0CC from rfl]; omega⟩

theorem Controlled.startDone_eq {X : List Nat} {s t : State} (h : Controlled X s t) (hX : runCell ∉ X) :
    t.get pgCal R.CAL_START_DONE = s.get pgCal R.CAL_START_DONE :=
  h.geti_eq hX fun j hj hj' => ⟨by decide, .inr (.inl ⟨rfl, .inr ⟨hj, hj'⟩⟩)⟩

/-- Setting START_DONE leaves what the last run leaves of a die. -/
theorem startDone_set {d : Nat} (hd : d < 2) {v : Int} {s : State} (h : LastRunTaken s d v) :
    bit ((run (.setBit pgCal R.CAL_START_DONE d true) s).get pgCal R.CAL_START_DONE) d = true ∧
      LastRunTaken (run (.setBit pgCal R.CAL_START_DONE d true) s) d v := by
  have hdone : R.CAL_START_DONE.lo = 11 ∧ R.CAL_START_DONE.hi = 12 := ⟨rfl, rfl⟩
  have hdue : R.CAL_DUE.lo = 4 ∧ R.CAL_DUE.hi = 5 := ⟨rfl, rfl⟩
  have hhard : R.CAL_HARD.lo = 6 ∧ R.CAL_HARD.hi = 7 := ⟨rfl, rfl⟩
  have hspares : Prog.Only (Act.spares (R.CAL_LAST_RUN.addr pgCal d)) (.setBit pgCal R.CAL_START_DONE d true) := (only_setBit ..).2 (by
    show 0x18058 + 4 * d ≠ 0x18050
    omega)
  refine ⟨?_, ?_, ?_, (only_geti hspares s).trans h.lastRun⟩
  · rw [bit_get_setBit (by omega) (by omega) (by omega), if_pos rfl]
  · rw [State.due, bit_get_of_only (by omega) (sparesBit_setBit (by omega) (.inr (by omega)))]
    exact h.due
  · rw [State.hardDue, bit_get_of_only (by omega) (sparesBit_setBit (by omega) (.inr (by omega)))]
    exact h.hardDue

/-- What the measured values of start-up calibration give, before LAST_RUN is put. -/
theorem exec_startDone {s : State} {d n : Nat} (hd : d < 2) (h : Tab.find s.cal.startup d = some n) (vals : List (Nat × Int)) : ∃ f : Cal → Cal,
    exec (.startDone d vals) s = .next (run (startEnds d) (run (feRstEnds d (bit (s.get pgTop R.TOP_FE_RST) d))
      (run (.setBit pgCal R.CAL_START_DONE d true) (run (takeLastRun d (Tab.get s.cal.startTemp 0 d)) (run (.cal f) s))))) := by
  refine ⟨?f, (?runs : Host.Outcome.next (run _ s) = _)⟩
  case runs =>
    rw [run_ask, run_when, if_pos (by rw [h, decide_eq_true hd]; rfl), run_all_cons, run_all_cons, run_all_cons, run_all_cons, run_all_cons, run_pair,
      takeLastRun, run_all_cons, run_pair, feRstEnds]

/-- Start-up calibration of a die has completed (R107, R115, R512). -/
structure StartDone (s t : State) (d : Nat) : Prop where
  ended : Tab.find t.cal.startup d = none ∧ ∀ i, i < 4 → t.settling (4 * d + i) = false
  done : bit (t.get pgCal R.CAL_START_DONE) d = true
  lastRun : LastRunTaken t d (Tab.get s.cal.startTemp 0 d)
  feRst : bit (s.get pgTop R.TOP_FE_RST) d = true → bit (t.get pgTop R.TOP_FE_RST) d = false ∧ t.raised pgTop 7 = true

theorem completes_startDone {s : State} {d n : Nat} (hd : d < 2) (h : Tab.find s.cal.startup d = some n) (vals : List (Nat × Int)) :
    Completes (.startDone d vals) s fun t => StartDone s t d := by
  obtain ⟨f, hexec⟩ := exec_startDone hd h vals
  refine ⟨_, hexec, ?_⟩
  obtain ⟨hdone, hlast⟩ := startDone_set hd (takeLastRun_same hd (Tab.get s.cal.startTemp 0 d) (run (.cal f) s))
  generalize run (.setBit pgCal R.CAL_START_DONE d true) _ = u at hdone hlast
  have hreset := (shown_of_only (shows_feRstEnds d (bit (s.get pgTop R.TOP_FE_RST) d)) u).1
  have hended := startEnds_ends hd (run (feRstEnds d (bit (s.get pgTop R.TOP_FE_RST) d)) u)
  have hto := hreset.trans (hended.controlled.mono (List.nil_subset _))
  refine ⟨⟨hended.gone, hended.settled⟩, by rw [hto.startDone_eq (by decide), hdone], hto.lastRunTaken hd (by decide) hlast, fun hrst => ?_⟩
  obtain ⟨hclear, hraised⟩ := feRstEnds_ends hd u
  rw [hrst] at hended ⊢
  exact ⟨by rw [hended.controlled.feRst_eq List.not_mem_nil, hclear], hended.controlled.raised rfl (by decide) List.not_mem_nil hraised⟩

/-! ### Handovers (R111, R114) -/

/-- A bank's rotation once it has been handed over at a position (R111). -/
def Conv.handedOver (c : Conv) (b p cnt : Nat) : Conv :=
  { c with rotPos := Tab.put c.rotPos b ((p + 1) % 64), rotCnt := Tab.put c.rotCnt b cnt, rotDue := Tab.put c.rotDue b false
           rotMeas := Tab.del c.rotMeas b }

theorem rotPos_handedOver (b p cnt : Nat) (s : State) : Tab.get (run (.conv fun c => c.handedOver b p cnt) s).conv.rotPos 0 b = (p + 1) % 64 :=
  (Tab.get_put ..).trans (if_pos rfl)

theorem regs_handedOver (b p cnt : Nat) (s : State) : (run (.conv fun c => c.handedOver b p cnt) s).regs = s.regs := rfl

/-- A full rotation is counted and raised (R111). -/
def fullRotation (b v : Nat) (full : Bool) : Prog := .when full (.all [.set (pgBank b) R.BANK_ROT_COUNT v, raise (pgBank b) 4])

theorem spares_fullRotation {a b : Nat} (ha : a < 0x400000) (hraw : a ≠ 0x10000 + 0x1000 * b + 0x014) (hcount : a ≠ 0x10000 + 0x1000 * b + 0x04C)
    (v : Nat) (full : Bool) : Prog.Only (Act.spares a) (fullRotation b v full) := by
  simp only [fullRotation, only_when, only_all_cons, only_all_nil, only_set, and_true]
  exact fun _ => ⟨hcount, only_raise _ _ (spares_of_delivers _ (notMem_deliveryCells (.inl ha))) hraw⟩

theorem conv_fullRotation (b v : Nat) (full : Bool) (s : State) : (run (fullRotation b v full) s).conv = s.conv := by
  refine (only_light ?_ s).1
  simp only [fullRotation, only_when, only_all_cons, only_all_nil, only_set, light_raise, and_true]
  exact fun _ => trivial

/-- The fields of BANK_ROT that a handover at a position puts, and the slice put in service there. -/
def handoverFields (b p : Nat) (out wait next : Nat) : Prog :=
  .all [.seti (pgBank b) (sliceRow p) (p / 4) wait, .set (pgBank b) R.BANK_OUT_SLICE out, .set (pgBank b) R.BANK_OUT_POS p,
    .set (pgBank b) R.BANK_WAIT_SLICE next]

theorem run_handover (b : Nat) (s : State) : ∃ next cnt v full, run (handover b) s =
    run (fullRotation b v full) (run (.conv fun c => c.handedOver b (Tab.get s.conv.rotPos 0 b) cnt) (run (.inc (pgBank b) R.BANK_CNT_HANDOVER)
      (run (handoverFields b (Tab.get s.conv.rotPos 0 b) (s.sliceAt b (Tab.get s.conv.rotPos 0 b)) (s.get (pgBank b) R.BANK_WAIT_SLICE) next) s))) := by
  refine ⟨?next, ?cnt, ?v, ?full, ?runs⟩
  case runs =>
    rw [handover, run_ask, run_all_cons, run_all_cons, run_all_cons, run_all_cons, run_all_cons, run_pair, handoverFields, run_all_cons,
      run_all_cons, run_pair]
    rfl

/-- The rows of SLICE_MAP. -/
theorem sliceRow_spec (p : Nat) : (sliceRow p).sound = true ∧ (sliceRow p).hi + 1 - (sliceRow p).lo = 7 ∧
    ∀ b i, (sliceRow p).addr (pgBank b) i = 0x10100 + 0x1000 * b + 4 * i := by
  have haddr (b i : Nat) : 0x10000 + 0x1000 * b + 0x100 + 4 * i = 0x10100 + 0x1000 * b + 4 * i := by omega
  unfold sliceRow
  split <;> exact ⟨by decide, by decide, haddr⟩

theorem sliceAt_lt (s : State) (b p : Nat) : s.sliceAt b p < 2 ^ 7 := by
  have := geti_lt s (pgBank b) (sliceRow p) (p / 4)
  rwa [(sliceRow_spec p).2.1] at this

theorem bankRow_addr {r : Row} {x : Nat} (hr : r.off = x) (b : Nat) : r.addr (pgBank b) 0 = 0x10000 + x + 0x1000 * b := by
  rw [Row.addr, hr, bank_base]
  omega

/-- What a bank shows of its rotation after a handover at a position. -/
structure HandedOver (t : State) (b p : Nat) (out wait : Nat) : Prop where
  slice : t.sliceAt b p = wait
  outSlice : t.get (pgBank b) R.BANK_OUT_SLICE = out
  outPos : t.get (pgBank b) R.BANK_OUT_POS = p

theorem HandedOver.congr {t u : State} {b p out wait : Nat} (h : HandedOver t b p out wait)
    (hu : ∀ a, a = 0x10048 + 0x1000 * b ∨ 0x10100 + 0x1000 * b ≤ a ∧ a < 0x10140 + 0x1000 * b → u.cell a = t.cell a) (hp : p < 64) :
    HandedOver u b p out wait := by
  have hget (r : Row) (hr : r.off = 0x048) : u.get (pgBank b) r = t.get (pgBank b) r := by
    rw [State.get, State.geti, hu _ (.inl (bankRow_addr hr b)), State.get, State.geti]
  refine ⟨?_, ?_, ?_⟩
  · have haddr := (sliceRow_spec p).2.2 b (p / 4)
    rw [State.sliceAt, State.geti, hu _ (.inr (by omega))]
    exact h.slice
  · rw [hget _ rfl, h.outSlice]
  · rw [hget _ rfl, h.outPos]

section
variable {b p out wait : Nat} (hp : p < 64) (hout : out < 2 ^ 7) (hwait : wait < 2 ^ 7) (next : Nat) (s : State)
include hp hout hwait

theorem handoverFields_hands : HandedOver (run (handoverFields b p out wait next) s) b p out wait := by
  obtain ⟨hsound, hwidth, haddr⟩ := sliceRow_spec p
  have hslice (r : Row) (hr : r.off = 0x048) (v : Nat) (t : State) : (run (.set (pgBank b) r v) t).geti (pgBank b) (sliceRow p) (p / 4) =
      t.geti (pgBank b) (sliceRow p) (p / 4) := only_geti ((only_set ..).2 (by
    show (sliceRow p).addr (pgBank b) (p / 4) ≠ r.addr (pgBank b) 0
    rw [haddr, bankRow_addr hr]
    omega)) t
  rw [handoverFields, run_all_cons, run_all_cons, run_pair]
  refine ⟨?_, ?_, ?_⟩
  · rw [State.sliceAt, hslice _ rfl, hslice _ rfl, hslice _ rfl,
      geti_seti_same _ _ _ _ _ hsound, hwidth, Nat.mod_eq_of_lt hwait]
  · rw [get_set_other _ _ _ _ _ _ (by decide) (.inr (.inl (by decide))), get_set_other _ _ _ _ _ _ (by decide) (.inr (.inl (by decide))),
      get_set_same _ _ _ _ (by decide)]
    exact Nat.mod_eq_of_lt hout
  · rw [get_set_other _ _ _ _ _ _ (by decide) (.inr (.inl (by decide))), get_set_same _ _ _ _ (by decide)]
    exact Nat.mod_eq_of_lt hp

end

theorem counter_handoverFields (b p out wait next : Nat) (s : State) :
    (run (handoverFields b p out wait next) s).get (pgBank b) R.BANK_CNT_HANDOVER = s.get (pgBank b) R.BANK_CNT_HANDOVER := by
  obtain ⟨-, -, haddr⟩ := sliceRow_spec p
  have hcell : R.BANK_CNT_HANDOVER.addr (pgBank b) 0 = 0x10060 + 0x1000 * b := bankRow_addr rfl b
  have hrot (r : Row) (hr : r.off = 0x048) : R.BANK_CNT_HANDOVER.addr (pgBank b) 0 ≠ r.addr (pgBank b) 0 := by
    rw [hcell, bankRow_addr hr]
    omega
  refine only_get ?_ s
  simp only [handoverFields, only_all_cons, only_all_nil, only_set, only_seti, and_true]
  refine ⟨?_, hrot _ rfl, hrot _ rfl, hrot _ rfl⟩
  show R.BANK_CNT_HANDOVER.addr (pgBank b) 0 ≠ (sliceRow p).addr (pgBank b) (p / 4)
  rw [hcell, haddr]
  omega

/-- A handover at a position that the bank has (R111). -/
theorem handover_hands {b p : Nat} (hb : b < 8) {s : State} (hpos : Tab.get s.conv.rotPos 0 b = p) (hp : p < 64) :
    HandedOver (run (handover b) s) b p (s.sliceAt b p) (s.get (pgBank b) R.BANK_WAIT_SLICE) ∧ Tab.get (run (handover b) s).conv.rotPos 0 b = (p + 1) % 64 ∧
      Counted s (run (handover b) s) (pgBank b) R.BANK_CNT_HANDOVER 1 := by
  obtain ⟨next, cnt, v, full, hrun⟩ := run_handover b s
  rw [hpos] at hrun
  have hwait : s.get (pgBank b) R.BANK_WAIT_SLICE < 2 ^ 7 := geti_lt s (pgBank b) R.BANK_WAIT_SLICE 0
  have hput := handoverFields_hands (b := b) hp (sliceAt_lt s b p) hwait next s
  have hcounter := counter_handoverFields b p (s.sliceAt b p) (s.get (pgBank b) R.BANK_WAIT_SLICE) next s
  rw [hrun]
  generalize run (handoverFields b p _ _ next) s = u at hput hcounter
  have hcell : R.BANK_CNT_HANDOVER.addr (pgBank b) 0 = 0x10060 + 0x1000 * b := bankRow_addr rfl b
  refine ⟨hput.congr (fun a ha => ?_) hp, ?_, ?_⟩
  · have hne : a ≠ R.BANK_CNT_HANDOVER.addr (pgBank b) 0 := by omega
    rw [only_cell (spares_fullRotation (by omega) (by omega) (by omega) v full)]
    exact (cell_congr _ _ a (regs_handedOver b p cnt _)).trans (only_cell (only_inc _ _ fun _ => hne) u)
  · rw [conv_fullRotation, rotPos_handedOver]
  · refine (counted_inc (pgBank b) R.BANK_CNT_HANDOVER u (by decide)).of_get_eq hcounter.symm ?_
    rw [only_get (spares_fullRotation (by omega) (by omega) (by omega) v full)]
    exact get_congr (regs_handedOver b p cnt _) _ _

/-- A handover comes with the deltas measured, and with a skip counted where the input had no slope (R112). -/
theorem run_handoverWith (b : Nat) (m : Tab Int) (slope : Bool) (s : State) : ∃ skips f,
    run (handoverWith b m slope) s = run (handover b) (run (.when skips (.inc pgCal R.CAL_CNT_SKEW_SKIP)) (run (.cal f) s)) := by
  refine ⟨?skips, ?f, ?runs⟩
  case runs => rw [handoverWith, run_ask, run_all_cons, run_pair]

/-- A handover with its deltas, at a position that the bank has. -/
theorem handoverWith_hands {b p : Nat} (hb : b < 8) {s : State} (hpos : Tab.get s.conv.rotPos 0 b = p) (hp : p < 64) (m : Tab Int) (slope : Bool) :
    HandedOver (run (handoverWith b m slope) s) b p (s.sliceAt b p) (s.get (pgBank b) R.BANK_WAIT_SLICE) ∧
      Tab.get (run (handoverWith b m slope) s).conv.rotPos 0 b = (p + 1) % 64 ∧
      Counted s (run (handoverWith b m slope) s) (pgBank b) R.BANK_CNT_HANDOVER 1 := by
  obtain ⟨skips, f, hrun⟩ := run_handoverWith b m slope s
  have hskip : Prog.Only (fun a => a.light ∧ ∀ x, x < 0x18000 → a.spares x) (.when skips (.inc pgCal R.CAL_CNT_SKEW_SKIP)) :=
    (only_when ..).2 fun _ => only_inc _ _ fun _ => ⟨trivial, fun x hx => by
      show x ≠ R.CAL_CNT_SKEW_SKIP.addr pgCal 0
      exact fun he => absurd (he ▸ hx) (by decide)⟩
  have hconv : (run (.when skips (.inc pgCal R.CAL_CNT_SKEW_SKIP)) (run (.cal f) s)).conv = s.conv := (only_light (hskip.mono fun _ h => h.1) _).1
  have hgeti (r : Row) (i : Nat) (hr : r.addr (pgBank b) i < 0x18000) :
      (run (.when skips (.inc pgCal R.CAL_CNT_SKEW_SKIP)) (run (.cal f) s)).geti (pgBank b) r i = s.geti (pgBank b) r i :=
    only_geti (hskip.mono fun _ h => h.2 _ hr) (run (.cal f) s)
  rw [hrun]
  generalize run (.when skips (.inc pgCal R.CAL_CNT_SKEW_SKIP)) (run (.cal f) s) = u at hconv hgeti
  obtain ⟨hhands, hnext, hcounted⟩ := handover_hands hb (s := u) (by rw [hconv, hpos]) hp
  have hget (r : Row) (x : Nat) (hr : r.off = x) (hx : x < 0x1000) : u.get (pgBank b) r = s.get (pgBank b) r :=
    hgeti r 0 (by rw [bankRow_addr hr]; omega)
  have hslice : u.sliceAt b p = s.sliceAt b p := hgeti _ _ (by rw [(sliceRow_spec p).2.2]; omega)
  rw [hget R.BANK_WAIT_SLICE 0x048 rfl (by decide), hslice] at hhands
  exact ⟨hhands, hnext, hcounted.of_get_eq (hget R.BANK_CNT_HANDOVER 0x060 rfl (by decide)).symm rfl⟩

section
variable {s : State} {n : Nat} (hn : n < 8) (hrun : s.scsRun = true) (vals : List (Nat × Int)) (slope : Bool)
include hn hrun

/-- A handover that falls due while its bank rotates is made. -/
theorem exec_handover_running (hstate : s.rotState n = 1) : ∃ m, exec (.handover n vals slope) s = .next (run (handoverWith n m slope) s) := by
  refine ⟨?m, (?runs : Host.Outcome.next (run _ s) = _)⟩
  case runs =>
    rw [run_ask, run_when, if_pos (by rw [hrun, decide_eq_true hn]; rfl)]
    simp only [hstate]
    rfl

/-- A handover that falls due while its bank is held waits (R114). -/
theorem exec_handover_held (hstate : s.rotState n = 2) : ∃ m, exec (.handover n vals slope) s =
    .next (run (.conv fun c => { c with rotDue := Tab.put c.rotDue n true, rotMeas := Tab.put c.rotMeas n m }) s) := by
  refine ⟨?m, (?runs : Host.Outcome.next (run _ s) = _)⟩
  case runs =>
    rw [run_ask, run_when, if_pos (by rw [hrun, decide_eq_true hn]; rfl)]
    simp only [hstate]
    rfl

end

/-! ### Ends of holds (R117, R119, R120) -/

theorem queues_pushLog (r : Rec) : Prog.Only Act.queues (pushLog r) := by
  have queued (x : Rec) : Prog.Only Act.queues (.all [modStrm r.stream fun t => { t with queue := t.queue ++ [x] }, .inc (pgSt r.stream) R.ST_CNT_REC,
      eqStat r.stream]) := by
    simp only [only_all_cons, only_all_nil, queues_inc_st, queues_eqStat, and_true]
    exact queues_modStrm _ _ fun _ => rfl
  simp only [pushLog, only_all_cons, only_all_nil, queues_flushPend, and_true, true_and]
  intro s
  simp only [only_ite, queued, queues_inc_st, implies_true, and_true]
  exact fun _ => trivial

/-- A channel once a held span of it has ended, with the span kept (R117). -/
def Chan.unheld (ch : Chan) (span : Span) : Chan := { ch with hold := none, holds := (span :: ch.holds).take 16 }

/-- A held span that was begun and held a value is kept, shown and reported. -/
theorem run_holdEnd {s : State} {c n : Nat} {h : HoldSt} (hhold : (s.chan c).hold = some h) (hstarted : h.started = true) (hvalue : h.value ≠ noData)
    (hupto : h.upto = some n) : ∃ reports : Prog, Prog.Only Act.queues reports ∧ run (holdEnd c) s =
      run reports (run (raise pgCal 7) (run (.setBit pgCal R.CAL_CHOLD c false)
        (run (modChan c fun ch => ch.unheld ⟨h.first, min n (s.chan c).top - h.first⟩) s))) := by
  have hreal : (h.started && decide (h.value ≠ noData)) = true := by rw [hstarted, decide_eq_true hvalue]; rfl
  refine ⟨?reports, ?queues, ?runs⟩
  case runs =>
    rw [holdEnd, run_ask]
    simp only [hhold, hreal, hupto]
    rw [run_all_cons, run_pair, run_when true, if_pos rfl, run_pair]
    rfl
  case queues => exact (only_when ..).2 fun _ => only_each _ _ fun _ _ => queues_pushLog _

theorem chan_modChan (c : Nat) (f : Chan → Chan) (s : State) : (run (modChan c f) s).chan c = f (s.chan c) := (Tab.get_mod ..).trans (if_pos rfl)

/-- A held span ends (R117, R119, R120). -/
theorem holdEnd_ends {s : State} {c n : Nat} {h : HoldSt} (hc : c < 8) (hhold : (s.chan c).hold = some h) (hstarted : h.started = true)
    (hvalue : h.value ≠ noData) (hupto : h.upto = some n) :
    ((run (holdEnd c) s).chan c).hold = none ∧ ((run (holdEnd c) s).chan c).holds.head? = some ⟨h.first, min n (s.chan c).top - h.first⟩ ∧
      bit ((run (holdEnd c) s).get pgCal R.CAL_CHOLD) c = false ∧ (run (holdEnd c) s).raised pgCal 7 = true := by
  have hlo : R.CAL_CHOLD.lo + c ≤ R.CAL_CHOLD.hi := by
    have : R.CAL_CHOLD.lo = 8 ∧ R.CAL_CHOLD.hi = 15 := ⟨rfl, rfl⟩
    omega
  obtain ⟨reports, hreports, hrun⟩ := run_holdEnd hhold hstarted hvalue hupto
  rw [hrun]
  have hchan := chan_modChan c (fun ch => ch.unheld ⟨h.first, min n (s.chan c).top - h.first⟩) s
  generalize run (modChan c fun ch => ch.unheld ⟨h.first, min n (s.chan c).top - h.first⟩) s = u at hchan
  have hclear : bit ((run (.setBit pgCal R.CAL_CHOLD c false) u).get pgCal R.CAL_CHOLD) c = false := by
    rw [bit_get_setBit (by decide) hlo hlo, if_pos rfl]
  have hkept : (run (.setBit pgCal R.CAL_CHOLD c false) u).conv = u.conv := rfl
  generalize run (.setBit pgCal R.CAL_CHOLD c false) u = v at *
  have hraised := raised_raise (p := pgCal) rfl (by decide) (k := 7) (by decide) v
  have hkept' : (run (raise pgCal 7) v).conv = v.conv := (only_light (light_raise pgCal 7) v).1
  have hclear' := (bit_get_of_only hlo (sparesBit_raiseCal (by decide) (by decide) 7) v).trans hclear
  generalize run (raise pgCal 7) v = w at *
  have hqueues := queuesOnly_run hreports w
  have hlast : (run reports w).chan c = (s.chan c).unheld ⟨h.first, min n (s.chan c).top - h.first⟩ := by
    rw [← hchan, State.chan, hqueues.1, State.chan, ← hkept, ← hkept']
  rw [hlast]
  refine ⟨rfl, rfl, ?_, ?_⟩
  · rw [show (run reports w).get pgCal R.CAL_CHOLD = w.get pgCal R.CAL_CHOLD from hqueues.geti_eq (by unfold queueCell; decide), hclear']
  · rw [State.raised, State.evtRaw, hqueues.2.2 _ (by unfold queueCell; decide)]
    exact hraised

theorem holdOver_of_upto {s : State} {c n : Nat} {h : HoldSt} (hhold : (s.chan c).hold = some h) (hupto : h.upto = some n) (hn : n ≤ s.top c) :
    s.holdOver c = true := by
  rw [State.holdOver, hhold]
  simp only [hupto]
  exact decide_eq_true hn

/-! ### The statement -/

/-- An instruction that runs a program under a condition that holds has what the program brings about. -/
theorem completes_of_when {i : Instr} {s : State} {c : Bool} {q : Prog} {P : State → Prop} (hexec : exec i s = .next (run (.when c q) s)) (hc : c = true)
    (hP : P (run q s)) : Completes i s P := by
  subst hc
  exact ⟨run q s, hexec, hP⟩

section
variable {s : State} {r c : Nat} {x : CalRun}

theorem exec_calStepBoundary_run (h3 : r ≠ 3) (h4 : r ≠ 4) (vals : List (Nat × Int)) (last : Bool) :
    exec (.calStepBoundary r vals last) s = .next (run (runStep r vals last) s) := by
  show Host.Outcome.next (run (if r = 3 ∨ r = 4 then startStep (r - 3) else runStep r vals last) s) = _
  rw [if_neg (not_or.2 ⟨h3, h4⟩)]

theorem exec_calStepBoundary_start {d : Nat} (hd : d < 2) (vals : List (Nat × Int)) (last : Bool) :
    exec (.calStepBoundary (3 + d) vals last) s = .next (run (startStep d) s) := by
  show Host.Outcome.next (run (if 3 + d = 3 ∨ 3 + d = 4 then startStep (3 + d - 3) else runStep (3 + d) vals last) s) = _
  rw [if_pos (by omega), Nat.add_sub_cancel_left]

theorem exec_stepTmo (h3 : r ≠ 3) (h4 : r ≠ 4) (h : s.run? r = some x) : exec (.stepTmo r) s =
    .next (run (.when (s.pastUs x.stepAt (s.live pgCal R.CAL_CAL_STEP_TMO)) (runTimeout r 0x21 R.CAL_CNT_STEP_TMO)) s) := by
  show execStepTmo r s = _
  rw [execStepTmo, run_ask, if_neg (not_or.2 ⟨h3, h4⟩), h]

theorem exec_runTmo (h : s.run? r = some x) : exec (.runTmo r) s =
    .next (run (.when (s.pastUs x.chanAt (s.live pgCal R.CAL_CAL_RUN_TMO)) (runTimeout r 0x22 R.CAL_CNT_RUN_TMO)) s) := by
  show execRunTmo r s = _
  rw [execRunTmo, run_ask, h]

end

theorem pastUs_of_le {s : State} {q us : Nat} (h : q + usQ us ≤ s.now) : s.pastUs q us = true := decide_eq_true h

theorem exec_startupCalTimeout {s : State} {d : Nat} (hd : d < 2) (hpast : (Tab.get s.cal.startAt (0, 0) d).1 + usQ 700000 ≤ s.now) :
    exec (.startupCalTimeout d) s = .next (run (startTimeout d 0x22 R.CAL_CNT_RUN_TMO) s) := by
  show execStartupCalTimeout d s = _
  rw [execStartupCalTimeout, run_ask, run_when, pastUs_of_le hpast, decide_eq_true hd, Bool.and_self, if_pos rfl]

/-- A due run of a die starts where it may, over the channels it has to measure (R115, R127). -/
theorem completes_runStart {s : State} {d : Nat} (hd : d < 2) (hframe : s.fstate < 2 ∨ s.fstate = 2 ∧ s.hardDue d = true) (hdue : s.due d = true)
    (hauto : s.live pgCal R.CAL_AUTO_EN = 1) (hfree : s.dieRuns d = false) (hchans : s.dueChans d ≠ []) :
    Completes (.runStart d) s fun t => t.get pgCal R.CAL_RUN_ACTIVE = 1 ∧
      ∃ y, t.run? d = some y ∧ y.kind = 1 ∧ y.named = s.dueChans d ∧ y.chans = s.dueChans d ∧ y.hard = s.hardDue d ∧ y.cmd = none := by
  have hmay : (decide (d < 2) && (decide (s.fstate < 2) || (s.fstate = 2 && s.hardDue d))) = true := by simpa [hd] using hframe
  refine completes_of_when (q := startDue d (s.hardDue d)) rfl hmay ?_
  rw [startDue, run_ask, run_when, if_pos (by simp [hdue, hauto, hfree, hchans])]
  exact startRun_starts s d 1 (s.dueChans d) (s.hardDue d) none

/-- Settles O27: each event of the controller is what its own lemma says of its program. -/
theorem calibrationEventsAct : Obligations.CalibrationEventsAct := by
  unfold Obligations.CalibrationEventsAct
  intro s d r c n cs x vals h
  refine ⟨fun hd => ?_, fun h3 h4 hc hx hchans hopen hdue => ?_, fun hd hn hopen => ?_, fun hruns hstartup hopen hdue => ?_,
    completes_runStart, fun hx hchans hopen => ?_, fun h3 h4 hx hchans hc hopen => ?_, fun hd hn hpast => ?_,
    fun hd hn => ?_, fun hn hclk p => ?_, fun hc hhold hstarted hvalue hupto hn => ?_⟩
  · exact completes_of_when (q := tDieUpdate d) rfl (decide_eq_true hd) (tDieUpdate_acts hd s)
  · exact ⟨⟨_, exec_calStepBoundary_run h3 h4 vals false, runStep_goesOn hx hchans hopen hdue⟩,
      ⟨_, exec_calStepBoundary_run h3 h4 vals true, runStep_ends hc hx hchans hopen hdue⟩⟩
  · exact ⟨_, exec_calStepBoundary_start hd vals false, startStep_ends hn hopen⟩
  · obtain ⟨happlied, -⟩ := boundary_quiet hopen hdue
    exact completes_of_when (q := boundary) (c := s.cal.runs.isEmpty && s.cal.startup.isEmpty) rfl (by rw [hruns, hstartup]; rfl)
      ⟨happlied.ovrWait, happlied.meas, happlied.temp⟩
  · obtain ⟨hgone, hraised, hcounted, hdies⟩ := runDone_ends hx hchans hopen
    exact ⟨_, rfl, hgone, hraised, hcounted, fun e he hm => ⟨(hdies e he hm).due, (hdies e he hm).hardDue, (hdies e he hm).lastRun⟩⟩
  · exact ⟨fun hpast => completes_of_when (exec_stepTmo h3 h4 hx) (pastUs_of_le hpast) (runTimeout_ends hc hx hchans hopen 0x21 (.inl rfl)),
      fun hpast => completes_of_when (exec_runTmo hx) (pastUs_of_le hpast) (runTimeout_ends hc hx hchans hopen 0x22 (.inr rfl))⟩
  · exact ⟨_, exec_startupCalTimeout hd hpast, startTimeout_ends hd hn 0x22 (.inr rfl)⟩
  · obtain ⟨t, hexec, ⟨hended, hdone, hlast, hrst⟩⟩ := completes_startDone hd hn vals
    exact ⟨t, hexec, hended.1, hdone, hlast.due, hlast.hardDue, hended.2, hlast.lastRun, hrst⟩
  · refine ⟨fun hstate slope => ?_, fun hstate slope => ?_⟩
    · obtain ⟨m, hexec⟩ := exec_handover_running hn hclk vals slope hstate
      obtain ⟨hhands, hnext, hcounted⟩ := handoverWith_hands hn rfl p m slope
      exact ⟨_, hexec, hhands.slice, hhands.outSlice, hhands.outPos, hnext, hcounted⟩
    · obtain ⟨m, hexec⟩ := exec_handover_held hn hclk vals slope hstate
      exact ⟨_, hexec, (Tab.get_put ..).trans (if_pos rfl), rfl⟩
  · exact completes_of_when (q := holdEnd c) (c := decide (c < 8) && s.holdOver c) rfl
      (by rw [decide_eq_true hc, holdOver_of_upto hhold hupto hn]; rfl) (holdEnd_ends hc hhold hstarted hvalue hupto)

end Sys2Proof.Machine

/-! SUPPORT. Proofs: the rules of the trigger engine have a state where they fail. -/

namespace Sys2Proof.Machine

/-- A state whose combiner counts in a cell that is not its own: 86 stands for a definition, where the combiner has 0 to 15. Its holdoff covers
the event that waits for it, and the triggers that holdoff discards of a definition 86 are counted at LEVEL of TRIG_IN0. -/
def strayHoldoff : State := { State.reset with
  regs := [(0x2A320, 0x40#32), (0x2A330, 1#32)]
  time := { State.reset.time with ties := [⟨0, 0, 2 ^ 40⟩] }
  trig := { State.reset.trig with
    armFrom := some 0
    waiting := [(86, { src := 0, anchor := 5, prov := false, res := none, late := false })]
    defs := [(86, { TDef.reset with holds := [(0, some 10)] })] } }

/-- The core domain is on, TEXT is enabled and there is a tie. -/
theorem strayHoldoff_takesEdges : strayHoldoff.coreOn = true ∧ strayHoldoff.en pgText = true ∧ strayHoldoff.pinStamp 0 0 0 = some 0 := by
  decide +kernel

/-- The state keeps what every step keeps, so no well-formedness of the model excludes it. -/
theorem wf_strayHoldoff : strayHoldoff.wf = true := by decide +kernel

/-- TRIG_IN0 becomes inactive and LEVEL 0; then the combiner goes on: holdoff discards the event that waited, and the count takes LEVEL to 1. -/
theorem level_strayHoldoff :
    (run (.ask fun s => .when s.coreOn (trigInInactive 0 0 0 0)) strayHoldoff).geti pgText R.TEXT_LEVEL 0 = 1 := by decide +kernel

/-- Refutes O31: in a state whose combiner holds an event of a definition that it does not have, a TRIG_IN input that becomes inactive reads
LEVEL 1, as the event that holdoff discards is counted in the word that holds LEVEL. The statement asks no form of the state, and this one is
well kept (`wf_strayHoldoff`). -/
theorem not_triggerEventsAct : ¬ Obligations.TriggerEventsAct := by
  unfold Obligations.TriggerEventsAct
  intro h
  obtain ⟨hcore, hen, hpin⟩ := strayHoldoff_takesEdges
  obtain ⟨-, hpins, -⟩ := h strayHoldoff 0 0 0 0 0 0 0
  obtain ⟨-, t, ht, hlevel, -⟩ := hpins (by decide) hcore hen hpin
  have hrun : exec (.trigInInactiveEdge 0 0 0 0) strayHoldoff =
      .next (run (.ask fun s => .when s.coreOn (trigInInactive 0 0 0 0)) strayHoldoff) := rfl
  obtain rfl := Host.Outcome.next.inj (hrun.symm.trans ht)
  exact Nat.one_ne_zero (level_strayHoldoff.symm.trans hlevel)

end Sys2Proof.Machine

/-! SUPPORT. Proofs: what forwarding a message changes, and trigger and gate messages that are delivered (R151, R152, R318, R319, R321). -/

namespace Sys2Proof.Machine

/-! ### What forwarding changes (R318, R321) -/

/-- The cells of the FPORT pages. -/
abbrev portCell (a : Nat) : Prop := 0x441000 ≤ a ∧ a < 0x445000

/-- The acts that forwarding a message consists of. -/
def Act.forwards : Act → Prop
  | .fld b _ _ _ => portCell b
  | .emit _ | .tx _ => True
  | _ => False

/-- Nothing has changed but registers of the FPORT pages, what goes out and what the Filmund ports have to send. -/
structure Forwarded (s u : State) : Prop where
  sent : SentOnly s u
  cells : ∀ a, ¬ portCell a → u.cell a = s.cell a

theorem forwarded_of_only {p : Prog} (h : Prog.Only Act.forwards p) (s : State) : Forwarded s (run p s) where
  sent := by
    have hkeep := h.keeps (fun t => { t with regs := [], out := [], tx := [] }) (fun a _ ha => by cases a <;> first | rfl | exact ha.elim) s
    exact congrArg (fun t : State => { t with regs := (run p s).regs, out := (run p s).out, tx := (run p s).tx }) hkeep
  cells a ha := only_cell (h.mono (fun b hb => by
    cases b with
    | fld b => exact fun e => ha (e ▸ hb)
    | emit | tx => trivial
    | _ => exact hb.elim)) s

theorem portCell_fport {n : Nat} (hn : n < 4) {r : Row} (hr : r.off < 0x1000) : portCell (r.addr (pgFport n) 0) := by
  simp only [portCell, Row.addr, Pg.base, Kind.base, Kind.stride]
  omega

theorem forwards_rxDrop {n : Nat} (hn : n < 4) : Prog.Only Act.forwards (.inc (pgFport n) R.FPORT_CNT_RX_DROP) :=
  only_inc _ _ fun _ => portCell_fport hn (by decide)

theorem forwards_sendLink {n : Nat} (hn : n < 4) (m : Msg) : Prog.Only Act.forwards (sendLink n m) :=
  only_sendLink n m (fun _ => trivial) (fun _ => trivial) fun _ => portCell_fport hn (by decide)

theorem lt_of_mem_which {n k : Nat} {p : Nat → Bool} (h : k ∈ which n p) : k < n := List.mem_range.1 (List.mem_of_mem_filter h)

theorem forwards_floodTrig (m : Msg) (but : Option Nat) : Prog.Only Act.forwards (floodTrig m but) := fun _ =>
  only_each _ _ fun _ hp => forwards_sendLink (lt_of_mem_which hp) m

theorem forwards_floodGate (m : Msg) (but : Option Nat) : Prog.Only Act.forwards (floodGate m but) := fun _ =>
  only_each _ _ fun _ hp => forwards_sendLink (lt_of_mem_which hp) m

theorem forwards_forwardTrig {n : Nat} (hn : n < 4) (m : Msg) : Prog.Only Act.forwards (forwardTrig n m) :=
  (only_ite _ _ _).2 ⟨fun _ => forwards_rxDrop hn, fun _ => forwards_floodTrig _ _⟩

/-! ### What does not depend on it -/

section
variable {s u : State} (h : Forwarded s u)
include h

theorem Forwarded.trig_eq : u.trig = s.trig := by rw [h.sent]
theorem Forwarded.seg_eq : u.seg = s.seg := by rw [h.sent]
theorem Forwarded.link_eq : u.link = s.link := by rw [h.sent]
theorem Forwarded.time_eq : u.time = s.time := by rw [h.sent]
theorem Forwarded.free_eq : u.free = s.free := by rw [h.sent]

theorem Forwarded.get_eq {p : Pg} {r : Row} (ha : ¬ portCell (r.addr p 0)) : u.get p r = s.get p r := by
  rw [State.get, State.geti, h.cells _ ha, State.get, State.geti]

theorem Forwarded.live_eq {p : Pg} {r : Row} (ha : ¬ portCell (r.addr p 0 + 0x800)) : u.live p r = s.live p r := by
  rw [State.live, State.livei, h.cells _ ha, State.live, State.livei]

theorem Forwarded.gateSrc_eq : u.get pgFlink R.FLINK_GATE_SRC = s.get pgFlink R.FLINK_GATE_SRC := h.get_eq (by decide)
theorem Forwarded.gateLat_eq : u.get pgFlink R.FLINK_GATE_LAT = s.get pgFlink R.FLINK_GATE_LAT := h.get_eq (by decide)

theorem Forwarded.now_eq : u.now = s.now := by rw [State.now, h.time_eq, State.now]

theorem Forwarded.deadline_eq (a : Nat) : u.deadline a = s.deadline a := by
  rw [State.deadline, h.live_eq (by decide), State.deadline]

theorem Forwarded.provSeen_eq (src line a : Nat) : u.provSeen src line a = s.provSeen src line a := by
  rw [State.provSeen, h.trig_eq, State.provSeen]

theorem Forwarded.flOn_eq (line a : Nat) : u.flOn line a = s.flOn line a := by
  have hen : u.en pgText = s.en pgText := by rw [State.en, h.cells _ (by decide), State.en]
  rw [State.flOn, State.srcOff, hen, h.trig_eq, h.live_eq (by decide), State.flOn, State.srcOff]

theorem Forwarded.instant_eq (spc : Nat) (x : Int) : u.instant spc x = s.instant spc x := by
  rw [State.instant, State.tieFor, h.time_eq, h.free_eq]
  rfl

theorem Forwarded.nowQ_eq : u.nowQ = s.nowQ := by
  have hrun : u.scsRun = s.scsRun := by rw [State.scsRun, h.get_eq (by decide), State.scsRun]
  rw [State.nowQ, State.cclkQ, h.instant_eq, hrun, h.now_eq, State.tie, h.time_eq]
  rfl

end

/-! ### Messages that arrive (R313, R318) -/

/-- A trigger message as it arrived. -/
def trigMsg (s : State) (ty line src hops anchor : Nat) : Msg := { anchorMsg s ty (line % 16) anchor with src := src, hops := hops }

/-- A message that a port carries runs its program, where its CRC holds. -/
theorem run_rxForward {s : State} {n ty : Nat} (hn : n < 4) (hc : s.portCarries n ty = true) (hops : Nat) (m : Msg) (ports : State → List Nat)
    (p : Prog) : run (rxForward n ty hops true m ports p) s = run p s := by
  simp [rxForward, rxMsg, hn, hc]

theorem run_trigIn {s : State} {n ty : Nat} (hn : n < 4) (hc : s.portCarries n ty = true) (line src hops anchor : Nat) (p : Prog) :
    run (trigIn n ty line src hops anchor true p) s = run p (run (forwardTrig n (trigMsg s ty line src hops anchor)) s) := by
  rw [trigIn, run_ask, run_rxForward hn hc, run_pair, trigMsg]

/-- What a trigger message that arrives leaves before it is delivered. -/
theorem trigIn_forwards {s : State} {n ty : Nat} (hn : n < 4) (hc : s.portCarries n ty = true) (line src hops anchor : Nat) (p : Prog) :
    ∃ u, Forwarded s u ∧ run (trigIn n ty line src hops anchor true p) s = run p u :=
  ⟨_, forwarded_of_only (forwards_forwardTrig hn _) s, run_trigIn hn hc ..⟩

/-- A GATE message is forwarded, with HOPS advanced; at 63 it is not. -/
def forwardGate (n : Nat) (m : Msg) : Prog :=
  if 63 ≤ m.hops then .inc (pgFport n) R.FPORT_CNT_RX_DROP else floodGate { m with hops := m.hops + 1 } (some n)

/-- What a GATE message that arrives leaves before it is delivered. -/
theorem gate_forwards {s : State} {n g : Nat} (hn : n < 4) (hg : g < 4) (hc : s.portCarries n 4 = true) (level : Bool) (src hops anchor : Nat) :
    ∃ u, Forwarded s u ∧ exec (.gate n g level src hops anchor true) s = .next (run (gateMsg g level anchor) u) := by
  have hexec : ∃ m ports, exec (.gate n g level src hops anchor true) s =
      .next (run (rxForward n 4 hops true m ports (.all [forwardGate n m, gateMsg (g % 4) level anchor])) s) :=
    ⟨{ anchorMsg s 4 (g % 4 + 4 * b2n level) anchor with src := src, hops := hops }, _, rfl⟩
  obtain ⟨m, ports, hexec⟩ := hexec
  have hfwd : Prog.Only Act.forwards (forwardGate n m) := (only_ite _ _ _).2 ⟨fun _ => forwards_rxDrop hn, fun _ => forwards_floodGate _ _⟩
  refine ⟨_, forwarded_of_only hfwd s, ?_⟩
  rw [hexec, run_rxForward hn hc, run_pair, Nat.mod_eq_of_lt hg]

/-! ### Counters -/

theorem Forwarded.counted_inc {s u : State} (h : Forwarded s u) {p : Pg} {r : Row} (hr : r.sound = true) (ha : ¬ portCell (r.addr p 0)) :
    Counted s (run (.inc p r) u) p r 1 :=
  (Machine.counted_inc p r u hr).of_get_eq (h.get_eq ha).symm rfl

theorem counted_inc_twice (p : Pg) (r : Row) (s : State) (h : r.sound = true) :
    Counted s (run (.inc p r) (run (.inc p r) s)) p r 2 := by
  have h1 := counted_inc p r s h
  have h2 := counted_inc p r (run (.inc p r) s) h
  simp only [Counted] at h1 h2 ⊢
  omega

/-- The remote triggers change, and one is counted. -/
def countRemote (f : List Remote → List Remote) (r : Row) : Prog :=
  .all [.trig fun t => { t with remotes := f t.remotes }, .inc pgText r]

theorem countRemote_counts {s u : State} (h : Forwarded s u) (f : List Remote → List Remote) {r : Row} (hr : r.sound = true)
    (hoff : r.off < 0x1000) :
    (run (countRemote f r) u).trig = { s.trig with remotes := f s.trig.remotes } ∧ Counted s (run (countRemote f r) u) pgText r 1 := by
  have ha : ¬ portCell (r.addr pgText 0) := by
    simp only [portCell, Row.addr, Pg.base, Kind.base, Kind.stride]
    omega
  rw [countRemote, run_pair]
  refine ⟨?_, (Machine.counted_inc pgText r _ hr).of_get_eq (h.get_eq ha).symm rfl⟩
  show { u.trig with remotes := f u.trig.remotes } = _
  rw [h.trig_eq]

/-! ### Provisional triggers (R319, R542) -/

section
variable {s : State} {n line src a : Nat}

theorem run_provIn_taken (hdue : s.now ≤ s.deadline a) (hnew : s.provSeen src line a = false) (hon : s.flOn line a = true) :
    run (provIn n line src a) s = run (srcEvent (48 + line) a true) (run (countRemote
      (fun l => { src := src, line := line, anchor := a, st := 0, prov := true, kept := [], defs := [] } :: l) R.TEXT_CNT_REMOTE_PROV) s) := by
  rw [provIn, run_ask, if_neg (by simp [hnew, hdue]), if_pos hon, remoteProv, run_all_cons, run_pair, countRemote, run_pair]

theorem run_provIn_remembered (hdue : s.now ≤ s.deadline a) (hnew : s.provSeen src line a = false) (hoff : s.flOn line a = false) :
    run (provIn n line src a) s = run (rememberProv src line a) s := by
  rw [provIn, run_ask, if_neg (by simp [hnew, hdue]), hoff, if_neg Bool.false_ne_true]

theorem run_provIn_dropped (h : s.deadline a < s.now ∨ s.provSeen src line a = true) :
    run (provIn n line src a) s = run (.inc (pgFport n) R.FPORT_CNT_RX_DROP) s := by
  rw [provIn, run_ask, if_pos (by simpa using h)]

theorem provSeen_rememberProv (src line a : Nat) (s : State) : (run (rememberProv src line a) s).provSeen src line a = true := by
  simp [rememberProv, Prog.trig, State.provSeen, Remote.is]

end

/-! ### Confirmations and cancellations (R151, R152) -/

section
variable {s : State} {line src a : Nat} {m : Remote}

theorem run_remoteResolve_open (hm : (s.trig.remotes.find? fun r => r.own src line a) = some m) (hst : m.st = 0) (ok : Bool) :
    run (remoteResolve src line a ok) s = run (srcResolve (48 + line) a ok false)
      (run (countRemote (modFirst (fun r => r.own src line a) fun r => { r with st := 1 })
        (if ok then R.TEXT_CNT_REMOTE_CONF else R.TEXT_CNT_REMOTE_CXL)) s) := by
  rw [remoteResolve, run_ask, hm]
  dsimp only
  rw [if_pos hst, run_all_cons, run_pair, countRemote, run_pair]

theorem run_remoteResolve_unannounced (hm : (s.trig.remotes.find? fun r => r.own src line a) = none) :
    run (remoteResolve src line a true) s = run (srcEvent (48 + line) a false) (run (countRemote
      (fun l => { src := src, line := line, anchor := a, st := 1, prov := false, kept := [], defs := [] } :: l) R.TEXT_CNT_REMOTE_CONF) s) := by
  rw [remoteResolve, run_ask, hm]
  dsimp only
  rw [if_pos rfl, run_all_cons, run_pair, countRemote, run_pair]

theorem run_remoteResolve_stray (hm : (s.trig.remotes.find? fun r => r.own src line a) = none) :
    run (remoteResolve src line a false) s = run (.inc pgText R.TEXT_CNT_LATE) s := by
  rw [remoteResolve, run_ask, hm]
  rfl

end

/-! ### Gate levels (R321) -/

/-- The levels that wait become others. -/
def putWaiting (l : List (Nat × Bool × Nat)) (s : State) : State := { s with link := { s.link with gateWait := l } }

section
variable {s : State} {g q : Nat} {level : Bool}

theorem run_gateDue (s : State) : run gateDue s = run (.each (s.link.gateWait.filter fun e => decide (e.2.2 ≤ s.nowQ)) fun e => lineApply e.1 e.2.1)
    (putWaiting (s.link.gateWait.filter fun e => decide (s.nowQ < e.2.2)) s) := by
  rw [gateDue, run_ask, run_pair]
  rfl

theorem run_gateDue_due (h : s.link.gateWait = [(g, level, q)]) (hq : q ≤ s.nowQ) :
    run gateDue s = run (lineApply g level) (putWaiting [] s) := by
  rw [run_gateDue, h, List.filter_cons_of_pos (by simpa using hq), List.filter_cons_of_neg (by simpa using hq),
    List.filter_nil, List.filter_nil, run_each_cons, run_each_nil]

theorem run_gateDue_early (h : s.link.gateWait = [(g, level, q)]) (hq : s.nowQ < q) : run gateDue s = s := by
  have hkept : (s.link.gateWait.filter fun e => decide (s.nowQ < e.2.2)) = s.link.gateWait := by simp [h, hq]
  have hdue : (s.link.gateWait.filter fun e => decide (e.2.2 ≤ s.nowQ)) = [] := by simp [h, hq]
  rw [run_gateDue, hkept, hdue]
  rfl

/-- A level for a line that GATE_SRC does not take a gate from changes the line alone. -/
theorem link_lineApply_ball (h : bit (s.get pgFlink R.FLINK_GATE_SRC) g = false) :
    (run (lineApply g level) s).link = { s.link with lineLvl := Tab.put s.link.lineLvl g level } := by
  rw [lineApply, run_ask, run_pair, h, Bool.false_and]
  rfl

theorem run_gateMsg_ball (anchor : Nat) (h : bit (s.get pgFlink R.FLINK_GATE_SRC) g = false) :
    run (gateMsg g level anchor) s = run (lineApply g level) s := by
  rw [gateMsg, run_ask]
  simp only [h]
  rfl

variable {anchor : Nat} (h : bit (s.get pgFlink R.FLINK_GATE_SRC) g = true)
include h

theorem run_gateMsg_early (hq : s.nowQ ≤ anchor + nsQ (s.get pgFlink R.FLINK_GATE_LAT)) :
    run (gateMsg g level anchor) s =
      putWaiting (s.link.gateWait ++ [(g, level, anchor + nsQ (s.get pgFlink R.FLINK_GATE_LAT))]) s := by
  rw [gateMsg, run_ask]
  simp only [h]
  rw [if_neg (by decide), if_neg (by omega)]
  rfl

theorem run_gateMsg_late (hq : anchor + nsQ (s.get pgFlink R.FLINK_GATE_LAT) < s.nowQ) :
    run (gateMsg g level anchor) s = run (lineApply g level) (run (incRaise pgFlink R.FLINK_CNT_GATE_LATE 5) s) := by
  rw [gateMsg, run_ask]
  simp only [h]
  rw [if_neg (by decide), if_pos hq, run_pair]

end

/-- A late level is counted, and the source that it sets is delivered. -/
theorem gateLate_counts {s u : State} (h : Forwarded s u) :
    Counted s (run (incRaise pgFlink R.FLINK_CNT_GATE_LATE 5) u) pgFlink R.FLINK_CNT_GATE_LATE 1 ∧
      (run (incRaise pgFlink R.FLINK_CNT_GATE_LATE 5) u).link = s.link := by
  refine ⟨?_, ?_⟩
  · have hraise : Prog.Only (Act.spares (R.FLINK_CNT_GATE_LATE.addr pgFlink 0)) (raise pgFlink 5) :=
      only_raise _ _ (spares_of_delivers _ (notMem_deliveryCells (by decide)))
        (by decide : R.FLINK_CNT_GATE_LATE.addr pgFlink 0 ≠ pgFlink.base + 0x014)
    rw [incRaise, run_pair]
    exact (h.counted_inc rfl (by decide)).of_get_eq rfl (only_get hraise _)
  · obtain ⟨-, -, -, -, -, hlink, -⟩ := only_light (light_incRaise pgFlink R.FLINK_CNT_GATE_LATE 5) u
    rw [hlink, h.link_eq]

/-! ### Messages as they are delivered -/

section
variable {s : State} {n line src hops anchor : Nat} (hn : n < 4)

section
variable (hc : s.portCarries n 1 = true)
include hn hc

theorem trigProv_taken (hon : s.flOn (line % 16) anchor = true) (hdue : s.now ≤ s.deadline anchor)
    (hnew : s.provSeen src (line % 16) anchor = false) :
    ∃ u, u.trig = { s.trig with
        remotes := { src := src, line := line % 16, anchor := anchor, st := 0, prov := true, kept := [], defs := [] } :: s.trig.remotes } ∧
      Counted s u pgText R.TEXT_CNT_REMOTE_PROV 1 ∧
      exec (.trigProv n line src hops anchor true) s = .next (run (srcEvent (48 + line % 16) anchor true) u) := by
  obtain ⟨u, hu, hrun⟩ := trigIn_forwards hn hc line src hops anchor (provIn n (line % 16) src anchor)
  obtain ⟨htrig, hcount⟩ := countRemote_counts hu
    (fun l => { src := src, line := line % 16, anchor := anchor, st := 0, prov := true, kept := [], defs := [] } :: l)
    (r := R.TEXT_CNT_REMOTE_PROV) rfl (by decide)
  refine ⟨_, htrig, hcount, congrArg Host.Outcome.next (hrun.trans (run_provIn_taken ?_ ?_ ?_))⟩
  · rwa [hu.now_eq, hu.deadline_eq]
  · rwa [hu.provSeen_eq]
  · rwa [hu.flOn_eq]

theorem trigProv_remembered (hoff : s.flOn (line % 16) anchor = false) (hdue : s.now ≤ s.deadline anchor)
    (hnew : s.provSeen src (line % 16) anchor = false) :
    Completes (.trigProv n line src hops anchor true) s fun t => t.provSeen src (line % 16) anchor = true ∧
      t.trig = { s.trig with remotes := t.trig.remotes } ∧ t.seg = s.seg := by
  obtain ⟨u, hu, hrun⟩ := trigIn_forwards hn hc line src hops anchor (provIn n (line % 16) src anchor)
  have hremember : run (provIn n (line % 16) src anchor) u = run (rememberProv src (line % 16) anchor) u := by
    refine run_provIn_remembered ?_ ?_ ?_
    · rwa [hu.now_eq, hu.deadline_eq]
    · rwa [hu.provSeen_eq]
    · rwa [hu.flOn_eq]
  exact ⟨_, congrArg Host.Outcome.next (hrun.trans hremember), provSeen_rememberProv .., by rw [← hu.trig_eq]; rfl, hu.seg_eq⟩

theorem trigProv_dropped (hhops : 63 ≤ hops) (hdrop : s.deadline anchor < s.now ∨ s.provSeen src (line % 16) anchor = true) :
    Completes (.trigProv n line src hops anchor true) s fun t => Counted s t (pgFport n) R.FPORT_CNT_RX_DROP 2 ∧ RegsOnly s t := by
  have hu : Forwarded s (run (.inc (pgFport n) R.FPORT_CNT_RX_DROP) s) := forwarded_of_only (forwards_rxDrop hn) s
  have hrun : run (trigIn n 1 line src hops anchor true (provIn n (line % 16) src anchor)) s =
      run (.inc (pgFport n) R.FPORT_CNT_RX_DROP) (run (.inc (pgFport n) R.FPORT_CNT_RX_DROP) s) := by
    rw [run_trigIn hn hc, forwardTrig, if_pos (show 63 ≤ (trigMsg s 1 line src hops anchor).hops from hhops), run_provIn_dropped]
    rwa [hu.deadline_eq, hu.now_eq, hu.provSeen_eq]
  exact ⟨_, congrArg Host.Outcome.next hrun, counted_inc_twice _ _ s rfl, rfl⟩

end

/-- A confirmation or cancellation as it arrives. -/
def resolveIn (n line src hops anchor : Nat) (ok : Bool) : Prog :=
  trigIn n (if ok then 2 else 3) line src hops anchor true
    (.ask fun t => .when (t.flOn (line % 16) anchor) (remoteResolve src (line % 16) anchor ok))

variable {ok : Bool} (hc : s.portCarries n (if ok then 2 else 3) = true) (hon : s.flOn (line % 16) anchor = true)
include hn hc hon

theorem resolveIn_forwards (src hops : Nat) :
    ∃ u, Forwarded s u ∧ run (resolveIn n line src hops anchor ok) s = run (remoteResolve src (line % 16) anchor ok) u := by
  obtain ⟨u, hu, hrun⟩ := trigIn_forwards hn hc line src hops anchor
    (.ask fun t => .when (t.flOn (line % 16) anchor) (remoteResolve src (line % 16) anchor ok))
  exact ⟨u, hu, hrun.trans (by rw [run_ask, run_when, hu.flOn_eq, if_pos hon])⟩

theorem resolveIn_open {m : Remote} (hm : (s.trig.remotes.find? fun r => r.own src (line % 16) anchor) = some m) (hst : m.st = 0) :
    ∃ u, Counted s u pgText (if ok then R.TEXT_CNT_REMOTE_CONF else R.TEXT_CNT_REMOTE_CXL) 1 ∧
      u.trig = { s.trig with
        remotes := modFirst (fun r => r.own src (line % 16) anchor) (fun r => { r with st := 1 }) s.trig.remotes } ∧
      run (resolveIn n line src hops anchor ok) s = run (srcResolve (48 + line % 16) anchor ok false) u := by
  obtain ⟨u, hu, hrun⟩ := resolveIn_forwards hn hc hon src hops
  obtain ⟨htrig, hcount⟩ := countRemote_counts hu (modFirst (fun r => r.own src (line % 16) anchor) fun r => { r with st := 1 })
    (r := if ok then R.TEXT_CNT_REMOTE_CONF else R.TEXT_CNT_REMOTE_CXL) (by cases ok <;> rfl) (by cases ok <;> decide)
  exact ⟨_, hcount, htrig, hrun.trans (run_remoteResolve_open (by rwa [hu.trig_eq]) hst ok)⟩

end

section
variable {s : State} {n line src hops anchor : Nat} (hn : n < 4) (hon : s.flOn (line % 16) anchor = true)
  (hm : (s.trig.remotes.find? fun r => r.own src (line % 16) anchor) = none)
include hn hon hm

theorem trigConf_unannounced (hc : s.portCarries n 2 = true) :
    ∃ u, Counted s u pgText R.TEXT_CNT_REMOTE_CONF 1 ∧
      u.trig = { s.trig with
        remotes := { src := src, line := line % 16, anchor := anchor, st := 1, prov := false, kept := [], defs := [] } :: s.trig.remotes } ∧
      exec (.trigConf n line src hops anchor true) s = .next (run (srcEvent (48 + line % 16) anchor false) u) := by
  obtain ⟨u, hu, hrun⟩ := resolveIn_forwards (ok := true) hn hc hon src hops
  obtain ⟨htrig, hcount⟩ := countRemote_counts hu
    (fun l => { src := src, line := line % 16, anchor := anchor, st := 1, prov := false, kept := [], defs := [] } :: l)
    (r := R.TEXT_CNT_REMOTE_CONF) rfl (by decide)
  exact ⟨_, hcount, htrig, congrArg Host.Outcome.next (hrun.trans (run_remoteResolve_unannounced (by rwa [hu.trig_eq])))⟩

theorem trigCxl_stray (hc : s.portCarries n 3 = true) :
    Completes (.trigCxl n line src hops anchor true) s fun t => Counted s t pgText R.TEXT_CNT_LATE 1 ∧ t.trig = s.trig := by
  obtain ⟨u, hu, hrun⟩ := resolveIn_forwards (ok := false) hn hc hon src hops
  exact ⟨_, congrArg Host.Outcome.next (hrun.trans (run_remoteResolve_stray (by rwa [hu.trig_eq]))),
    hu.counted_inc rfl (by decide), hu.trig_eq⟩

end

section
variable {s : State} {n g anchor : Nat} (hn : n < 4) (hg : g < 4) (hc : s.portCarries n 4 = true) (level : Bool) (src hops : Nat)
include hn hg hc

theorem gate_waits (hsrc : bit (s.get pgFlink R.FLINK_GATE_SRC) g = true) (hq : s.nowQ ≤ anchor + nsQ (s.get pgFlink R.FLINK_GATE_LAT)) :
    Completes (.gate n g level src hops anchor true) s fun t =>
      t.link = { s.link with gateWait := s.link.gateWait ++ [(g, level, anchor + nsQ (s.get pgFlink R.FLINK_GATE_LAT))] } := by
  obtain ⟨u, hu, hexec⟩ := gate_forwards hn hg hc level src hops anchor
  refine ⟨_, hexec, ?_⟩
  rw [run_gateMsg_early (by rwa [hu.gateSrc_eq]) (by rwa [hu.nowQ_eq, hu.gateLat_eq]), hu.gateLat_eq, putWaiting, hu.link_eq]

theorem gate_late (hsrc : bit (s.get pgFlink R.FLINK_GATE_SRC) g = true) (hq : anchor + nsQ (s.get pgFlink R.FLINK_GATE_LAT) < s.nowQ) :
    ∃ u, Counted s u pgFlink R.FLINK_CNT_GATE_LATE 1 ∧ u.link = s.link ∧
      exec (.gate n g level src hops anchor true) s = .next (run (lineApply g level) u) := by
  obtain ⟨u, hu, hexec⟩ := gate_forwards hn hg hc level src hops anchor
  obtain ⟨hcount, hlink⟩ := gateLate_counts hu
  exact ⟨_, hcount, hlink, hexec.trans (congrArg _ (run_gateMsg_late (by rwa [hu.gateSrc_eq]) (by rwa [hu.nowQ_eq, hu.gateLat_eq])))⟩

theorem gate_ball (hsrc : bit (s.get pgFlink R.FLINK_GATE_SRC) g = false) :
    Completes (.gate n g level src hops anchor true) s fun t => t.link = { s.link with lineLvl := Tab.put s.link.lineLvl g level } := by
  obtain ⟨u, hu, hexec⟩ := gate_forwards hn hg hc level src hops anchor
  have hball : bit (u.get pgFlink R.FLINK_GATE_SRC) g = false := by rwa [hu.gateSrc_eq]
  have hlink := link_lineApply_ball (level := level) hball
  rw [hu.link_eq] at hlink
  exact ⟨_, hexec.trans (congrArg _ (run_gateMsg_ball anchor hball)), hlink⟩

end

/-! ### The statement -/

/-- Settles O37: a message that arrives is forwarded, which leaves everything that its delivery rests on, and then each case of its delivery is its
own lemma. -/
theorem triggerAndGateMessagesAct : Obligations.TriggerAndGateMessagesAct := by
  unfold Obligations.TriggerAndGateMessagesAct
  intro s n line src hops anchor g level m k q old seen
  refine ⟨fun hn hc => trigProv_taken hn hc, fun hn hc => trigProv_remembered hn hc, fun hn hc => trigProv_dropped hn hc,
    fun hn hc hon => ⟨fun hm hst => ?_, fun hm => trigConf_unannounced hn hon hm hc⟩,
    fun hn hc hon => ⟨fun hm hst => ?_, fun hm => trigCxl_stray hn hon hm hc⟩,
    fun hn hg hc => ⟨gate_waits hn hg hc level src hops, gate_late hn hg hc level src hops, gate_ball hn hg hc level src hops⟩,
    fun hwait => ⟨fun hq => ?_, fun hq => ?_⟩⟩
  · obtain ⟨u, hcount, htrig, hrun⟩ := resolveIn_open (ok := true) (hops := hops) hn hc hon hm hst
    exact ⟨u, hcount, htrig, congrArg Host.Outcome.next hrun⟩
  · obtain ⟨u, hcount, htrig, hrun⟩ := resolveIn_open (ok := false) (hops := hops) hn hc hon hm hst
    exact ⟨u, hcount, htrig, congrArg Host.Outcome.next hrun⟩
  · exact ⟨_, rfl, congrArg Host.Outcome.next (run_gateDue_due hwait hq)⟩
  · exact ⟨_, congrArg Host.Outcome.next (run_gateDue_early hwait hq), rfl⟩

end Sys2Proof.Machine

/-! SUPPORT. Proofs: a finished record and a pending pip enter a stream's queue, and what they write on its page (R172, R176 to R178). -/

namespace Sys2Proof.Machine

/-! ### What queueing writes on a stream's page -/

/-- The act queues for stream n: it leaves the items that wait as they are, and of the page it writes the given fields and EVT_RAW. -/
def Act.files (n : Nat) (rows : List Row) : Act → Prop
  | .fld b hi lo _ => (∃ r ∈ rows, r.addr (pgSt n) 0 = b ∧ r.hi = hi ∧ r.lo = lo) ∨ b = (pgSt n).base + 0x014 ∨
      b < (pgSt 0).base ∨ b ∈ deliveryCells
  | .mem _ _ | .emit _ | .host _ | .tx _ => True
  | .seg f => ∀ g m, (Tab.get (f g).strms Strm.reset m).built = (Tab.get g.strms Strm.reset m).built ∧
      (Tab.get (f g).strms Strm.reset m).outSeq = (Tab.get g.strms Strm.reset m).outSeq
  | _ => False

/-- A field of the ST page that shares no bit with any of the given ones, nor with the common header. -/
def Row.apartFrom (r : Row) (rows : List Row) : Bool :=
  decide (0x40 ≤ r.off) && decide (r.off < 0x1000) &&
    rows.all fun t => t.sound && (decide (r.off ≠ t.off) || decide (r.hi < t.lo) || decide (t.hi < r.lo))

section
variable {n : Nat} {rows : List Row}

theorem files_delivers (a : Act) (h : a.delivers) : a.files n rows := by
  cases a with
  | fld b hi lo v => exact .inr (.inr (.inr h))
  | mem | emit | host | tx => trivial
  | _ => exact h.elim

theorem files_row {r : Row} (hr : r ∈ rows) (v : Nat) : (Act.fld (r.addr (pgSt n) 0) r.hi r.lo v).files n rows := .inl ⟨r, hr, rfl, rfl, rfl⟩

theorem files_set {r : Row} (hr : r ∈ rows) (v : Nat) : Prog.Only (Act.files n rows) (.set (pgSt n) r v) := (only_set ..).2 (files_row hr v)

theorem files_inc {r : Row} (hr : r ∈ rows) : Prog.Only (Act.files n rows) (.inc (pgSt n) r) := only_inc _ _ (files_row hr)

theorem files_raise (k : Nat) : Prog.Only (Act.files n rows) (raise (pgSt n) k) := only_raise _ _ files_delivers (.inr (.inl rfl))

theorem files_modStrm (m : Nat) (f : Strm → Strm) (h : ∀ t, (f t).built = t.built ∧ (f t).outSeq = t.outSeq) :
    Prog.Only (Act.files n rows) (modStrm m f) := by
  refine ⟨fun g j => ?_, trivial⟩
  rw [Tab.get_mod]
  split
  · next hj => exact hj ▸ h _
  · exact ⟨rfl, rfl⟩

/-- A program that queues for a stream leaves the fields that share no bit with those it writes. -/
theorem get_of_files {r : Row} (hn : n < 256) (hr : r.apartFrom rows = true) {p : Prog} (h : Prog.Only (Act.files n rows) p) (s : State) :
    (run p s).get (pgSt n) r = s.get (pgSt n) r := by
  simp only [Row.apartFrom, Bool.and_eq_true, decide_eq_true_eq, List.all_eq_true, Bool.or_eq_true] at hr
  obtain ⟨⟨hlow, hhigh⟩, hrows⟩ := hr
  have hbase : (pgSt n).base = 0x100000 + 0x1000 * n := rfl
  have haddr : r.addr (pgSt n) 0 = 0x100000 + 0x1000 * n + r.off := rfl
  refine h.keeps (fun t => t.get (pgSt n) r) (fun a t ha => ?_) s
  cases a with
  | fld b hi lo v =>
    rcases ha with ⟨x, hx, rfl, rfl, rfl⟩ | rfl | hb | hb
    · obtain ⟨hs, hd⟩ := hrows x hx
      refine geti_seti_other t (pgSt n) (pgSt n) x r 0 0 v hs ?_
      rw [haddr, show x.addr (pgSt n) 0 = 0x100000 + 0x1000 * n + x.off from rfl]
      omega
    · simp only [State.get, State.geti, cell_applyAct_fld, haddr, hbase]
      rw [if_neg (by omega)]
    · have h0 : (pgSt 0).base = 0x100000 := rfl
      simp only [State.get, State.geti, cell_applyAct_fld, haddr]
      rw [if_neg (by omega)]
    · have := deliveryCells_range b hb
      simp only [State.get, State.geti, cell_applyAct_fld, haddr]
      rw [if_neg (by omega)]
  | mem | emit | host | tx | seg => rfl
  | _ => exact ha.elim

theorem built_of_files {p : Prog} (h : Prog.Only (Act.files n rows) p) (s : State) (m : Nat) :
    ((run p s).strm m).built = (s.strm m).built ∧ ((run p s).strm m).outSeq = (s.strm m).outSeq := by
  refine Prod.mk.inj (h.keeps (fun t => ((t.strm m).built, (t.strm m).outSeq)) (fun a t ha => ?_) s)
  cases a with
  | seg f => exact Prod.ext_iff.2 (ha t.seg m)
  | fld | mem | emit | host | tx => rfl
  | _ => exact ha.elim

/-- Fields that a queue's status takes. -/
def eqRows : List Row := [R.ST_EQ_FILL, R.ST_EQ_HIGH, R.ST_PIP_RES_FULL]

/-- Fields that a loss is counted in. -/
def lostRows : List Row := [R.ST_CNT_LOST_LO, R.ST_CNT_LOST_HI, R.ST_CNT_BUF_FULL, R.ST_CNT_OVERRUN]

/-- Fields that a queued pip is counted in. -/
def pipRows : List Row := [R.ST_CNT_PIP, R.ST_CNT_REC]

theorem files_eqStat (h : eqRows ⊆ rows) : Prog.Only (Act.files n rows) (eqStat n) := fun _ => by
  have hset {r : Row} (hr : r ∈ eqRows) (v : Nat) : Prog.Only (Act.files n rows) (.set (pgSt n) r v) := files_set (h hr) v
  simp only [only_all_cons, only_all_nil, only_when, files_raise, implies_true, and_true, true_and]
  exact ⟨hset (by decide) _, hset (by decide) _, hset (by decide) _⟩

theorem files_countLoss (h : lostRows ⊆ rows) (cause len : Nat) : Prog.Only (Act.files n rows) (countLoss n cause len) := fun s => by
  have hrow {r : Row} (hr : r ∈ lostRows) (v : Nat) : (Act.fld (r.addr (pgSt n) 0) r.hi r.lo v).files n rows := files_row (h hr) v
  have overrun : Prog.Only (Act.files n rows) (.addi pgHist R.HIST_CNT_OVERRUN (s.srcChan n) 1) := by
    have hc : s.srcChan n < 8 := Nat.mod_lt _ (by decide)
    refine only_addi _ _ _ _ fun _ => .inr (.inr (.inl ?_))
    have ha : R.HIST_CNT_OVERRUN.addr pgHist (s.srcChan n) < 0x41000 + 0x1000 := by
      have hb : pgHist.base = 0x40000 := rfl
      simp only [Row.addr, R.HIST_CNT_OVERRUN]
      omega
    exact Nat.lt_of_lt_of_le ha (by decide)
  have hist : Prog.Only (Act.files n rows) (raise pgHist 1) := only_raise _ _ files_delivers (.inr (.inr (.inl (by decide))))
  simp only [only_all_cons, only_all_nil, only_when, overrun, hist, files_raise, implies_true, and_true]
  exact ⟨only_add64 _ _ _ _ (hrow (by decide)) (hrow (by decide)), fun _ => only_inc _ _ (hrow (by decide)),
    fun _ => only_inc _ _ (hrow (by decide)), files_modStrm _ _ fun _ => ⟨rfl, rfl⟩⟩

theorem files_flushPend (h : eqRows ⊆ rows) (h' : pipRows ⊆ rows) : Prog.Only (Act.files n rows) (flushPend n) := fun s => by
  dsimp only
  split
  · trivial
  · split
    · simp only [only_all_cons, only_all_nil, files_eqStat h, and_true]
      exact ⟨files_modStrm _ _ fun _ => ⟨rfl, rfl⟩, files_inc (h' (by decide)), files_inc (h' (by decide))⟩
    · trivial

end

theorem files_pushPip {n : Nat} {rows : List Row} {r : Rec} (hr : r.stream = n) (h : eqRows ⊆ rows) (h' : pipRows ⊆ rows) (h'' : lostRows ⊆ rows) :
    Prog.Only (Act.files n rows) (pushPip r) := by
  subst hr
  simp only [pushPip, only_all_cons, only_all_nil, files_flushPend h h', and_true, true_and]
  intro s
  dsimp only
  split
  · exact files_countLoss h'' _ _
  · simp only [only_all_cons, only_all_nil, only_when, files_countLoss h'', files_eqStat h, and_true]
    exact ⟨files_modStrm _ _ fun _ => ⟨rfl, rfl⟩, fun _ => ⟨files_inc (h' (by decide)), files_inc (h' (by decide))⟩⟩

/-! ### Losses and pips that are counted (R178, R180) -/

theorem Counted.before {s u t : State} {p : Pg} {r : Row} {k : Nat} (h : u.get p r = s.get p r) (hc : Counted u t p r k) : Counted s t p r k :=
  hc.of_get_eq h.symm rfl

theorem Counted.after {s u t : State} {p : Pg} {r : Row} {k : Nat} (hc : Counted s u p r k) (h : t.get p r = u.get p r) : Counted s t p r k :=
  hc.of_get_eq rfl h

/-- A loss by a full buffer is counted once (R180). -/
theorem counted_countLoss {n : Nat} (hn : n < 256) (len : Nat) (s : State) :
    Counted s (run (countLoss n 2 len) s) (pgSt n) R.ST_CNT_BUF_FULL 1 := by
  have hlost : Prog.Only (Act.files n [R.ST_CNT_LOST_LO, R.ST_CNT_LOST_HI]) (.add64 (pgSt n) R.ST_CNT_LOST_LO R.ST_CNT_LOST_HI len) :=
    only_add64 _ _ _ _ (files_row (by decide)) (files_row (by decide))
  have hnoted (c : Bool) (hc : c = false) (q : Prog) (f : Strm → Strm) (hf : ∀ t, (f t).built = t.built ∧ (f t).outSeq = t.outSeq) :
      Prog.Only (Act.files n []) (.all [.when c q, modStrm n f, raise (pgSt n) 1]) := by
    subst hc
    simp only [only_all_cons, only_all_nil, files_raise, and_true]
    exact ⟨trivial, files_modStrm _ _ hf⟩
  rw [countLoss, run_ask, run_all_cons, run_all_cons, run_when, if_pos (by decide)]
  have hcount := counted_inc (pgSt n) R.ST_CNT_BUF_FULL (run (.add64 (pgSt n) R.ST_CNT_LOST_LO R.ST_CNT_LOST_HI len) s) (by decide)
  refine (hcount.before (get_of_files hn (by decide) hlost s)).after ?_
  refine get_of_files hn (rows := []) (by decide) ?_ _
  exact hnoted _ (by decide) _ _ fun _ => ⟨rfl, rfl⟩

/-- A pip for a record lost to a full buffer counts the loss once, its destination not being stopped (R178, R180). -/
theorem counted_pushPip {n : Nat} {r : Rec} (hn : n < 256) (hr : r.stream = n) (hc : r.cause = 2) {s : State} (hp : (s.strm n).pend = none)
    (hd : s.seg.stopped.contains (s.dest n) = false) : Counted s (run (pushPip r) s) (pgSt n) R.ST_CNT_BUF_FULL 1 := by
  subst hr
  have hflush : run (flushPend r.stream) s = s := by simp only [flushPend, run_ask, hp, run_nil]
  have hplaced (new : Bool) : Prog.Only (Act.files r.stream pipRows) (.when new (.all [.inc (pgSt r.stream) R.ST_CNT_PIP,
      .inc (pgSt r.stream) R.ST_CNT_REC])) := by
    simp only [only_all_cons, only_all_nil, only_when, and_true]
    exact fun _ => ⟨files_inc (by decide), files_inc (by decide)⟩
  have hstat : Prog.Only (Act.files r.stream eqRows) (.all [eqStat r.stream]) := by
    simp only [only_all_cons, only_all_nil, files_eqStat (List.Subset.refl _), and_true]
  rw [pushPip, run_pair, hflush, run_ask]
  simp only [hd, Bool.false_eq_true, if_false, hc]
  rw [run_all_cons, run_all_cons, run_all_cons]
  refine Counted.before ?_ ((counted_countLoss hn r.len _).after (get_of_files hn (by decide) hstat _))
  exact get_of_files hn (by decide) (hplaced _) _

/-! ### Records in a queue (R177, Table 8-4) -/

theorem markGap_length (g : Option Nat) (q : List Rec) : (markGap g q).length = q.length := by
  induction q generalizing g with
  | nil => rfl
  | cons r rs ih =>
    rw [markGap]
    split
    · simp [ih]
    · split <;> simp [ih]

/-- Marking gaps changes at most the bytes of the last record. -/
theorem markGap_concat (g : Option Nat) (q : List Rec) (x : Rec) : ∃ q' b, markGap g (q ++ [x]) = q' ++ [{ x with bytes := b }] := by
  induction q generalizing g with
  | nil =>
    simp only [List.nil_append, markGap]
    split
    · exact ⟨[], x.bytes, rfl⟩
    · split
      · split
        · exact ⟨[], _, rfl⟩
        · exact ⟨[], x.bytes, rfl⟩
      · exact ⟨[], x.bytes, rfl⟩
  | cons r rs ih =>
    rw [List.cons_append, markGap]
    split
    · obtain ⟨q', b, h⟩ := ih (some r.frame)
      exact ⟨r :: q', b, by rw [h]; rfl⟩
    · split
      · obtain ⟨q', b, h⟩ := ih none
        exact ⟨_ :: q', b, by rw [h]; rfl⟩
      · obtain ⟨q', b, h⟩ := ih g
        exact ⟨r :: q', b, by rw [h]; rfl⟩

theorem strm_light {p : Prog} (h : Prog.Only Act.light p) (s : State) (n : Nat) : (run p s).strm n = s.strm n := by
  rw [State.strm, (only_light h s).2.2.2.1, State.strm]

theorem get_modStrm (n : Nat) (f : Strm → Strm) (s : State) (p : Pg) (r : Row) : (run (modStrm n f) s).get p r = s.get p r :=
  get_congr (s := s) rfl p r

/-- A data record that has entered its queue is last there, and has been counted. -/
theorem queueData_queues {n : Nat} (hn : n < 256) {r : Rec} (hr : r.stream = n) (s : State) :
    let t := run (queueData r) s
    ((t.strm n).built = (s.strm n).built ∧ (t.strm n).outSeq = (s.strm n).outSeq) ∧ Counted s t (pgSt n) R.ST_CNT_REC 1 ∧
    ∃ q b, q.length = (s.strm n).queue.length ∧ (t.strm n).queue = q ++ [{ r with bytes := b }] := by
  subst hr
  have hcounts (c : Bool) : Prog.Only Act.light (.all [.inc (pgSt r.stream) R.ST_CNT_REC, .when c (.inc (pgSt r.stream) R.ST_CNT_TRUNC)]) := by
    simp only [only_all_cons, only_all_nil, only_when, and_true]
    exact ⟨only_inc _ _ fun _ => trivial, fun _ => only_inc _ _ fun _ => trivial⟩
  have htrunc (c : Bool) : Prog.Only (Act.files r.stream [R.ST_CNT_TRUNC]) (.all [.when c (.inc (pgSt r.stream) R.ST_CNT_TRUNC)]) := by
    simp only [only_all_cons, only_all_nil, only_when, and_true]
    exact fun _ => files_inc (by decide)
  intro t
  have hs : t.strm r.stream = _ := (strm_light (hcounts _) _ _).trans ((strm_modStrm ..).trans (if_pos rfl))
  refine ⟨by rw [hs]; exact ⟨rfl, rfl⟩, ?_, ?_⟩
  · exact (counted_inc _ R.ST_CNT_REC _ (by decide)).after (get_of_files hn (by decide) (htrunc _) _)
  · obtain ⟨q, b, hq⟩ := markGap_concat none (s.strm r.stream).queue
      (if (s.strm r.stream).gap && !((s.strm r.stream).queue.any fun x => x.ty = 1 && decide (x.frame = r.frame)) && r.ty = 1 then
        { r with bytes := withFlag 3 r.bytes } else r)
    have hlen := congrArg List.length hq
    rw [markGap_length, List.length_append, List.length_append] at hlen
    refine ⟨q, b, (Nat.add_right_cancel hlen).symm, ?_⟩
    rw [hs]
    refine hq.trans ?_
    split <;> rfl

/-! ### A builder finishes a record (R23, R172, R177) -/

/-- A data record at the head of a stream's items is left to its builder. -/
theorem run_pump_data {n k : Nat} {r : Rec} {rs : List Rec} {rest : List (Nat × List Rec)} {s : State} (hb : (s.strm n).built = (k, r :: rs) :: rest)
    (hk : k ≤ (s.strm n).outSeq) (hd : r.isData = true) : run (pump n) s = s := by
  have hty : r.ty ≠ 0x0E := by
    have := of_decide_eq_true hd
    omega
  have hpos : ∃ c, (s.strm n).built.foldl (fun a e => a + e.2.length + 1) 1 = c + 1 := by
    have hmono : ∀ (l : List (Nat × List Rec)) (a : Nat), a ≤ l.foldl (fun a e => a + e.2.length + 1) a := by
      intro l
      induction l with
      | nil => exact fun a => Nat.le_refl a
      | cons e l ih =>
        intro a
        have := ih (a + e.2.length + 1)
        rw [List.foldl_cons]
        omega
    exact ⟨_, (Nat.sub_add_cancel (hmono _ 1)).symm⟩
  obtain ⟨c, hc⟩ := hpos
  rw [pump, run_ask, hc, pumpBuilt, run_ask]
  simp only [Strm.nextItem, hb, hk, if_true, if_neg hty, run_nil]

/-- A segment whose items have all been taken is done with. -/
theorem run_pump_empty {n k : Nat} {s : State} (hb : (s.strm n).built = [(k, [])]) (hk : k ≤ (s.strm n).outSeq) :
    run (pump n) s = run (modStrm n fun _ =>
      { s.strm n with built := [], outSeq := if k = (s.strm n).outSeq then k + 1 else (s.strm n).outSeq }) s := by
  rw [pump, run_ask, hb]
  simp only [List.foldl_cons, List.foldl_nil, List.length_nil, Nat.add_zero, Nat.reduceAdd]
  rw [pumpBuilt, run_ask]
  simp only [Strm.nextItem, hb, hk, if_true]
  rw [run_pair, pumpBuilt, run_ask]
  simp only [strm_modStrm, if_true, Strm.nextItem, run_nil]

section
variable {s : State} {n k : Nat} {r : Rec} (hb : (s.strm n).built = [(k, [r])]) (hk : k ≤ (s.strm n).outSeq) (hd : r.isData = true)
include hb hk hd

/-- The only record that waits is placed, and its segment is done with. -/
theorem run_recordBuilt {t : State} (hp : run (pushData r) (run (modStrm n fun _ => { s.strm n with built := [(k, [])] }) s) = t)
    (ht : (t.strm n).built = [(k, [])] ∧ (t.strm n).outSeq = (s.strm n).outSeq) :
    ∃ o, run (recordBuilt n) s = run (modStrm n fun _ => { t.strm n with built := [], outSeq := o }) t := by
  obtain ⟨hb', ho'⟩ := ht
  refine ⟨_, Eq.trans ?_ (run_pump_empty hb' (ho' ▸ hk))⟩
  rw [recordBuilt, run_all_cons, run_pump_data hb hk hd, run_pair, run_ask]
  simp only [Strm.nextItem, hb, hk, if_true]
  rw [run_pair, hp]

end

/-- A record for which there is room enters the queue of its stream (R176, R177). -/
theorem run_pushData_room {n : Nat} {r : Rec} {s : State} (hr : r.stream = n) (hp : (s.strm n).pend = none)
    (hs : s.seg.stopped.contains (s.dest n) = false) (hd : s.destDown (s.dest n) = false)
    (hroom : outUsed (s.strm n).queue + r.bytes.length ≤ s.eqBytes n - pipReserve) :
    run (pushData r) s = run (eqStat n) (run (.set (pgSt n) R.ST_EQ_FULL 0) (run (queueData { r with dest := s.dest n, queuedAt := s.now }) s)) := by
  subst hr
  have hflush : run (flushPend r.stream) s = s := by simp only [flushPend, run_ask, hp, run_nil]
  rw [pushData, run_pair, hflush, run_ask]
  simp only [hs, hd, hp, hroom, Bool.false_eq_true, if_false, Option.isNone_none, decide_true, Bool.and_self, if_true]
  rw [run_all_cons, run_pair]

/-- A record for which there is none is lost where the policy drops new records (R177). -/
theorem run_pushData_full {n : Nat} {r : Rec} {s : State} (hr : r.stream = n) (hp : (s.strm n).pend = none)
    (hs : s.seg.stopped.contains (s.dest n) = false) (hd : s.destDown (s.dest n) = false)
    (hfull : s.eqBytes n - pipReserve < outUsed (s.strm n).queue + r.bytes.length) (hpol : s.st n R.ST_POLICY = 0) :
    run (pushData r) s = run (pushPip (lossOf { r with dest := s.dest n, queuedAt := s.now } 2)) (run (.set (pgSt n) R.ST_EQ_FULL 1) s) := by
  subst hr
  have hflush : run (flushPend r.stream) s = s := by simp only [flushPend, run_ask, hp, run_nil]
  rw [pushData, run_pair, hflush, run_ask]
  simp only [hs, hd, Nat.not_le.2 hfull, hpol, Bool.false_eq_true, if_false, decide_false, Bool.and_false, if_true]
  rw [run_pair]

section
variable {s : State} {n k : Nat} {r : Rec} (hn : n < 256) (hb : (s.strm n).built = [(k, [r])]) (hk : k ≤ (s.strm n).outSeq) (hd : r.isData = true)
  (hr : r.stream = n) (hp : (s.strm n).pend = none) (hs : s.seg.stopped.contains (s.dest n) = false) (hdown : s.destDown (s.dest n) = false)
include hn hb hk hd hr hp hs hdown

theorem recordBuilt_queues (hroom : outUsed (s.strm n).queue + r.bytes.length ≤ s.eqBytes n - pipReserve) :
    let t := run (recordBuilt n) s
    (t.strm n).built = [] ∧ (t.strm n).queue.length = (s.strm n).queue.length + 1 ∧ t.get (pgSt n) R.ST_EQ_FULL = 0 ∧
    Counted s t (pgSt n) R.ST_CNT_REC 1 ∧
    ∃ x, (t.strm n).queue.getLast? = some x ∧ x.ty = r.ty ∧ x.seq = r.seq ∧ x.first = r.first ∧ x.len = r.len ∧ x.dest = s.dest n := by
  set u := run (modStrm n fun _ => { s.strm n with built := [(k, [])] }) s with hu
  have hstrm : u.strm n = { s.strm n with built := [(k, [])] } := (strm_modStrm ..).trans (if_pos rfl)
  have hplace := run_pushData_room (s := u) hr (by rw [hstrm, hp]) hs hdown (by rw [hstrm]; exact hroom)
  set v := run (queueData { r with dest := u.dest n, queuedAt := u.now }) u with hv
  obtain ⟨⟨hbuilt, hout⟩, hcount, q, b, hlen, hq⟩ := queueData_queues (r := { r with dest := u.dest n, queuedAt := u.now }) hn hr u
  rw [← hv] at hbuilt hout hcount hq
  set w := run (.set (pgSt n) R.ST_EQ_FULL 0) v with hw
  have hstat : Prog.Only (Act.files n eqRows) (eqStat n) := files_eqStat (List.Subset.refl _)
  have hlight : Prog.Only Act.light (eqStat n) := fun _ => by
    simp only [only_all_cons, only_all_nil, only_when, only_set, light_raise, Act.light, implies_true, and_self]
  have hkept : (run (eqStat n) w).strm n = v.strm n := strm_light hlight w n
  obtain ⟨o, hrun⟩ := run_recordBuilt hb hk hd hplace (by rw [hkept, hbuilt, hout, hstrm]; exact ⟨rfl, rfl⟩)
  intro t
  have ht : t.strm n = { v.strm n with built := [], outSeq := o } := by
    rw [show t = _ from hrun, strm_modStrm, if_pos rfl, hkept]
  have hreg (x : Row) : t.get (pgSt n) x = (run (eqStat n) w).get (pgSt n) x := by
    rw [show t = _ from hrun, get_modStrm]
  refine ⟨by rw [ht], ?_, ?_, ?_, { r with dest := u.dest n, queuedAt := u.now, bytes := b }, ?_, rfl, rfl, rfl, rfl, rfl⟩
  · simp only [ht, hq, List.length_append, List.length_singleton, hlen, hstrm]
  · exact ((hreg _).trans (get_of_files hn (by decide) hstat w)).trans (get_set_same v _ _ 0 (by decide))
  · refine (hcount.after ?_).before (get_modStrm ..)
    refine ((hreg _).trans (get_of_files hn (by decide) hstat w)).trans ?_
    exact get_set_other v (pgSt n) (pgSt n) _ _ 0 (by decide) (.inl (by simp [Row.addr, R.ST_CNT_REC, R.ST_EQ_FULL]))
  · simp only [ht, hq, List.getLast?_concat]

theorem recordBuilt_drops (hfull : s.eqBytes n - pipReserve < outUsed (s.strm n).queue + r.bytes.length) (hpol : s.st n R.ST_POLICY = 0) :
    let t := run (recordBuilt n) s
    (t.strm n).built = [] ∧ t.get (pgSt n) R.ST_EQ_FULL = 1 ∧ Counted s t (pgSt n) R.ST_CNT_BUF_FULL 1 := by
  set u := run (modStrm n fun _ => { s.strm n with built := [(k, [])] }) s with hu
  have hstrm : u.strm n = { s.strm n with built := [(k, [])] } := (strm_modStrm ..).trans (if_pos rfl)
  have hplace := run_pushData_full (s := u) hr (by rw [hstrm, hp]) hs hdown (by rw [hstrm]; exact hfull) hpol
  set p := lossOf { r with dest := u.dest n, queuedAt := u.now } 2 with hpip
  set w := run (.set (pgSt n) R.ST_EQ_FULL 1) u with hw
  have hfiles : Prog.Only (Act.files n (eqRows ++ pipRows ++ lostRows)) (pushPip p) :=
    files_pushPip hr (by decide) (by decide) (by decide)
  obtain ⟨hbuilt, hout⟩ := built_of_files hfiles w n
  have hkept : w.strm n = u.strm n := rfl
  have hdest : w.dest n = s.dest n := by
    have hset {x : Row} (hx : x.off = 0x070) : w.get (pgSt n) x = s.get (pgSt n) x :=
      get_set_other u (pgSt n) (pgSt n) R.ST_EQ_FULL x 1 (by decide) (.inl (by simp [Row.addr, R.ST_EQ_FULL, hx]))
    rw [State.dest, hset rfl, hset rfl, State.dest]
  obtain ⟨o, hrun⟩ := run_recordBuilt hb hk hd hplace (by rw [hbuilt, hout, hkept, hstrm]; exact ⟨rfl, rfl⟩)
  intro t
  have hreg (x : Row) : t.get (pgSt n) x = (run (pushPip p) w).get (pgSt n) x := by
    rw [show t = _ from hrun, get_modStrm]
  refine ⟨?_, ?_, ?_⟩
  · rw [show t = _ from hrun, strm_modStrm, if_pos rfl]
  · exact ((hreg _).trans (get_of_files hn (by decide) hfiles w)).trans (get_set_same u _ _ 1 (by decide))
  · have hlost := counted_pushPip (r := p) hn hr rfl (s := w) (by rw [hkept, hstrm]; exact hp) (by rw [hdest]; exact hs)
    exact (hlost.after (hreg R.ST_CNT_BUF_FULL)).before
      (get_set_other u (pgSt n) (pgSt n) R.ST_EQ_FULL R.ST_CNT_BUF_FULL 1 (by decide) (.inl (by simp [Row.addr, R.ST_CNT_BUF_FULL, R.ST_EQ_FULL])))

end

/-! ### Pending pips and entry records (R178, R266, R474) -/

/-- A pending pip enters the reserve when it has room, and is counted (R178). -/
theorem flushPend_queues {s : State} {n : Nat} {r : Rec} (hn : n < 256) (hp : (s.strm n).pend = some r)
    (hres : resUsed (s.strm n).queue + 80 ≤ pipReserve) :
    let t := run (flushPend n) s
    (t.strm n).pend = none ∧ (t.strm n).queue.length = (s.strm n).queue.length + 1 ∧ Counted s t (pgSt n) R.ST_CNT_PIP 1 := by
  have hlight : Prog.Only Act.light (.all [.inc (pgSt n) R.ST_CNT_PIP, .inc (pgSt n) R.ST_CNT_REC, eqStat n]) := by
    simp only [only_all_cons, only_all_nil, only_ask, only_when, only_set, light_raise, eqStat, Act.light, implies_true, and_true]
    exact ⟨only_inc _ _ fun _ => trivial, only_inc _ _ fun _ => trivial⟩
  have hrest : Prog.Only (Act.files n (R.ST_CNT_REC :: eqRows)) (.all [.inc (pgSt n) R.ST_CNT_REC, eqStat n]) := by
    simp only [only_all_cons, only_all_nil, and_true]
    exact ⟨files_inc (by decide), files_eqStat (by decide)⟩
  simp only [flushPend, run_ask, hp, hres, decide_true, Bool.true_or, if_true]
  rw [run_all_cons, strm_light hlight, strm_modStrm, if_pos rfl, run_all_cons]
  refine ⟨rfl, by simp, ?_⟩
  exact Counted.before rfl ((counted_inc _ R.ST_CNT_PIP _ (by decide)).after (get_of_files hn (by decide) hrest _))

/-- A stream whose entry record has closed holds none. -/
theorem closeEntries_closes (n : Nat) (s : State) : ((run (closeEntries n) s).strm n).openRec = none := by
  have hq (r : Rec) (c : Bool) (s : State) : ((run (.when c (pushData r)) s).strm n).openRec = (s.strm n).openRec := by
    rw [run_when]
    split
    · rw [(queuesOnly_run (queues_pushData r) s).2.1 n]
    · rfl
  rw [closeEntries, run_ask]
  split
  · rw [run_pair, hq, strm_modStrm, if_pos rfl]
  · next h => rw [run_nil, h]

/-- Settles O30: a record that fits joins its queue, one that does not is counted as lost, a pending pip enters the reserve, and entry records
close. -/
theorem recordEventsAct : Obligations.RecordEventsAct := by
  intro s n k r o
  refine ⟨fun hn hb hk hd hr hp hs hdown => ⟨fun hroom => ⟨_, rfl, recordBuilt_queues hn hb hk hd hr hp hs hdown hroom⟩,
    fun hfull hpol => ⟨_, rfl, recordBuilt_drops hn hb hk hd hr hp hs hdown hfull hpol⟩⟩, fun hn hp hres => ⟨_, rfl, flushPend_queues hn hp hres⟩,
    fun ho hkind hdue => ?_, fun ho hkind hdue => ?_⟩
  · have hcond : (s.st n R.ST_SRC_KIND = 1 || s.st n R.ST_SRC_KIND = 2) && decide (o.openedAt + s.flushQ ≤ s.now) := by
      simpa using ⟨hkind, hdue⟩
    refine ⟨_, rfl, ?_⟩
    rw [run_ask]
    simp only [ho]
    rw [hcond]
    exact closeEntries_closes n s
  · refine ⟨_, rfl, ?_⟩
    rw [run_ask]
    simp only [ho, hkind, hdue, decide_true, Bool.and_self]
    exact closeEntries_closes n s

end Sys2Proof.Machine

/-! SUPPORT. Proofs: commands that wait for a frame complete, and an open frame closes (R181, R182, R184, R403). -/

namespace Sys2Proof.Machine

/-! ### What completing commands leaves -/

/-- The acts that completing commands consists of: on the pages of sequencers and beyond, in rings, and the commands held. -/
def Act.completes : Act → Prop
  | .fld b _ _ _ => 0x200000 ≤ b
  | .mem _ _ | .emit _ | .host _ | .tx _ | .cmd _ => True
  | _ => False

/-- Nothing has changed but what completing commands may change. -/
structure CommandsOnly (s t : State) : Prop where
  frame : t = { s with regs := t.regs, hbm := t.hbm, out := t.out, host := t.host, tx := t.tx, cmd := t.cmd }
  cells : ∀ a, a < 0x200000 → t.cell a = s.cell a

theorem CommandsOnly.refl (s : State) : CommandsOnly s s := ⟨rfl, fun _ _ => rfl⟩

theorem CommandsOnly.trans {s t u : State} (h : CommandsOnly s t) (h' : CommandsOnly t u) : CommandsOnly s u :=
  ⟨h'.frame.trans (by rw [h.frame]), fun a ha => (h'.cells a ha).trans (h.cells a ha)⟩

theorem commandsOnly_run {p : Prog} (h : Prog.Only Act.completes p) (s : State) : CommandsOnly s (run p s) := by
  induction p generalizing s with
  | nil => exact .refl s
  | ask k ih => exact ih s (h s) s
  | act a k ih =>
    refine CommandsOnly.trans ?_ (ih h.2 _)
    have ha : a.completes := h.1
    cases a with
    | fld b hi lo v => exact ⟨rfl, fun a hlow => by rw [cell_applyAct_fld, if_neg (Nat.ne_of_lt (Nat.lt_of_lt_of_le hlow ha))]⟩
    | mem | emit | host | tx | cmd => exact ⟨rfl, fun _ _ => rfl⟩
    | _ => exact ha.elim

section
variable {s t : State} (h : CommandsOnly s t)
include h

theorem CommandsOnly.get_eq {p : Pg} {r : Row} (ha : r.addr p 0 < 0x200000) : t.get p r = s.get p r := by
  rw [State.get, State.geti, h.cells _ ha, State.get, State.geti]

theorem CommandsOnly.raised_eq {p : Pg} {k : Nat} (ha : p.base + 0x014 < 0x200000) : t.raised p k = s.raised p k := by
  rw [State.raised, State.evtRaw, h.cells _ ha, State.raised, State.evtRaw]

theorem CommandsOnly.fstate_eq : t.fstate = s.fstate := h.get_eq (by decide)
theorem CommandsOnly.seg_eq : t.seg = s.seg := by rw [h.frame]
theorem CommandsOnly.time_eq : t.time = s.time := by rw [h.frame]
theorem CommandsOnly.pwr_eq : t.pwr = s.pwr := by rw [h.frame]

theorem CommandsOnly.nowQ_eq : t.nowQ = s.nowQ := by
  have hrun : t.scsRun = s.scsRun := by rw [State.scsRun, h.get_eq (by decide), State.scsRun]
  have hfree : t.free = s.free := by rw [h.frame]
  have hcclk : t.cclkQ s.time.cc = s.cclkQ s.time.cc := by
    rw [State.cclkQ, State.instant, State.tieFor, h.time_eq, hfree, State.cclkQ, State.instant, State.tieFor]
  rw [State.nowQ, hrun, State.tie, h.time_eq, hcclk, State.now, h.time_eq, State.nowQ, State.tie, State.now]

end

theorem completes_of_delivers (a : Act) (h : a.delivers) : a.completes := by
  cases a with
  | fld b hi lo v => exact Nat.le_trans (by decide) (deliveryCells_range b h).1
  | mem | emit | host | tx => trivial
  | _ => exact h.elim

theorem completes_sqStat (q : Nat) : Prog.Only Act.completes (sqStat q) := fun s => by
  have hset (r : Row) (v : Nat) : Prog.Only Act.completes (.set (pgSq q) r v) := (only_set ..).2 (high_sq q r 0)
  have hraise : Prog.Only Act.completes (raise (pgSq q) 3) := only_raise _ _ completes_of_delivers (by
    show 0x200000 ≤ 0x200000 + 0x1000 * q + 0x014
    omega)
  simp only [only_all_cons, only_all_nil, only_when, hset, hraise, implies_true, and_true]

theorem completes_sendCompletion (h : Held) (q status result : Nat) : Prog.Only Act.completes (sendCompletion h q status result) := fun s => by
  simp only [only_all_cons, only_all_nil, and_true]
  exact ⟨only_modRing _ _ completes_of_delivers, only_ringFlush _ completes_of_delivers⟩

theorem completes_finishCmd (q k status result : Nat) : Prog.Only Act.completes (finishCmd q k status result) := fun s => by
  dsimp only
  split
  · trivial
  · simp only [only_all_cons, only_all_nil, and_true, releaseSlot, completes_sendCompletion, completes_sqStat, true_and]
    exact ⟨only_inc _ _ fun _ => high_sq q _ 0, ⟨trivial, trivial⟩, ⟨trivial, trivial⟩⟩

theorem completes_finishWaiters (op status result : Nat) : Prog.Only Act.completes (finishWaiters op status result) := fun _ =>
  only_each _ _ fun _ _ => completes_finishCmd _ _ _ _

theorem completes_waitWork (q k : Nat) : Prog.Only Act.completes (waitWork q k) := by
  simp only [waitWork, only_all_cons, only_all_nil, completes_sqStat, and_true]
  exact ⟨⟨trivial, trivial⟩, ⟨trivial, trivial⟩⟩

/-! ### Which commands are held -/

theorem light_sqStat (q : Nat) : Prog.Only Act.light (sqStat q) := fun s => by
  simp only [only_all_cons, only_all_nil, only_when, only_set, light_raise, Act.light, implies_true, and_true]

theorem cmd_light {p : Prog} (h : Prog.Only Act.light p) (s : State) : (run p s).cmd = s.cmd := (only_light h s).2.2.2.2.2.2.2.1

theorem light_sendCompletion (h : Held) (q status result : Nat) : Prog.Only Act.light (sendCompletion h q status result) := fun s => by
  simp only [only_all_cons, only_all_nil, and_true]
  exact ⟨only_modRing _ _ light_of_delivers, only_ringFlush _ light_of_delivers⟩

/-- A command that completes leaves its slot, and the others stay in theirs. -/
theorem heldAt_finishCmd (q k status result p j : Nat) (s : State) :
    (run (finishCmd q k status result) s).heldAt p j = if p = q ∧ j = k then none else s.heldAt p j := by
  rw [finishCmd, run_ask]
  split
  · next hnone =>
    split
    · next hpj => rw [run_nil, hpj.1, hpj.2, hnone]
    · rfl
  · next h _ =>
    have hsent : (run (.all [sendCompletion h q status result, .inc (pgSq q) R.SQ_CNT_CMDS]) s).cmd = s.cmd :=
      cmd_light (by
        simp only [only_all_cons, only_all_nil, light_sendCompletion, true_and, and_true]
        exact only_inc _ _ fun _ => trivial) s
    rw [run_all_cons, run_pair, ← run_pair (sendCompletion h q status result)]
    generalize run (.all [sendCompletion h q status result, .inc (pgSq q) R.SQ_CNT_CMDS]) s = u at hsent
    rw [releaseSlot, run_all_cons, run_pair, heldAt_congr (cmd_light (light_sqStat q) _), State.heldAt, seqr_modSeqr]
    have hseqr (x : Nat) : (run (.cmd fun c => { c with dmas := c.dmas.filter fun d => !(d.sq = q && d.slot = k) }) u).seqr x = s.seqr x := by
      show Tab.get u.cmd.seqs Seqr.reset x = _
      rw [hsent, State.seqr]
    by_cases hp : p = q
    · subst hp
      rw [if_pos rfl, hseqr, Tab.find_del]
      simp only [true_and, State.heldAt]
    · rw [if_neg hp, if_neg (fun hpj => hp hpj.1), hseqr, State.heldAt]

/-- A slot that is empty stays so while others complete, and one that is among them is empty afterwards. -/
theorem heldAt_each_finishCmd {q k status result : Nat} (l : List (Nat × Nat × Held)) (s : State)
    (h : s.heldAt q k = none ∨ ∃ x, (q, k, x) ∈ l) :
    (run (.each l fun e => finishCmd e.1 e.2.1 status result) s).heldAt q k = none := by
  induction l generalizing s with
  | nil => exact h.resolve_right fun ⟨x, hx⟩ => absurd hx List.not_mem_nil
  | cons e l ih =>
    rw [run_each_cons]
    refine ih _ ?_
    rw [heldAt_finishCmd]
    split
    · exact .inl rfl
    · next hne =>
      rcases h with h | ⟨x, hx⟩
      · exact .inl h
      · rcases List.mem_cons.1 hx with rfl | hx
        · exact absurd ⟨rfl, rfl⟩ hne
        · exact .inr ⟨x, hx⟩

theorem Tab.mem_of_find {α : Type} {t : Tab α} {a : Nat} {x : α} (h : Tab.find t a = some x) : (a, x) ∈ t := by
  induction t with
  | nil => cases h
  | cons e t ih =>
    obtain ⟨b, y⟩ := e
    rw [Tab.find] at h
    split at h
    · next hab =>
      cases h
      exact hab ▸ List.mem_cons_self
    · exact List.mem_cons_of_mem _ (ih h)

theorem mem_allHeld {s : State} {q k : Nat} {h : Held} (hh : s.heldAt q k = some h) : (q, k, h) ∈ s.allHeld := by
  rw [State.heldAt, State.seqr, Tab.get] at hh
  cases hz : Tab.find s.cmd.seqs q with
  | none =>
    rw [hz] at hh
    cases hh
  | some z =>
    rw [hz] at hh
    exact List.mem_flatMap.2 ⟨(q, z), Tab.mem_of_find hz, List.mem_map.2 ⟨(k, h), Tab.mem_of_find hh, rfl⟩⟩

/-- A command that waits for hardware with an opcode completes with the others that do. -/
theorem heldAt_finishWaiters {q k op : Nat} {h : Held} {s : State} (hh : s.heldAt q k = some h) (hw : h.wait = .work) (hop : h.op = op)
    (status result : Nat) : (run (finishWaiters op status result) s).heldAt q k = none := by
  rw [finishWaiters, run_ask]
  exact heldAt_each_finishCmd _ _ (.inr ⟨h, List.mem_filter.2 ⟨mem_allHeld hh, by simp [hw, hop]⟩⟩)

theorem heldAt_of_finishWaiters {q k : Nat} {s : State} (op status result : Nat) :
    (run (finishWaiters op status result) s).heldAt q k = none ∨ (run (finishWaiters op status result) s).heldAt q k = s.heldAt q k := by
  rw [finishWaiters, run_ask]
  generalize s.waiters (fun h => h.op = op) = l
  induction l generalizing s with
  | nil => exact .inr rfl
  | cons e l ih =>
    rw [run_each_cons]
    rcases ih (s := run (finishCmd e.1 e.2.1 status result) s) with h | h
    · exact .inl h
    · rw [h, heldAt_finishCmd]
      split
      · exact .inl rfl
      · exact .inr rfl

/-- A command whose step ends in a wait keeps its slot, and its sequencer is free. -/
theorem waitWork_waits {q k : Nat} {h : Held} {s : State} (hh : s.heldAt q k = some h) :
    (run (waitWork q k) s).heldAt q k = some { h with wait := .work } ∧ ((run (waitWork q k) s).seqr q).cur = none := by
  have hz : (run (waitWork q k) s).seqr q = { s.seqr q with held := Tab.put (s.seqr q).held k { h with wait := .work }, cur := none } := by
    rw [waitWork, run_all_cons, run_pair, State.seqr, cmd_light (light_sqStat q), ← State.seqr, seqr_modSeqr, if_pos rfl, run_modHeld _ _ _ _ _ hh]
  exact ⟨by rw [State.heldAt, hz, Tab.find_put, if_pos rfl], by rw [hz]⟩

end Sys2Proof.Machine

/-! SUPPORT. Proofs: an open frame closes, and FRAME_OPEN and FRAME_CLOSE (R170, R181, R182, R184). -/

namespace Sys2Proof.Machine

/-! ### What requests and the closing of a frame leave -/

/-- The acts that triggers, requests and the closing of a frame consist of: the number of the frame and commands are left alone. -/
def Act.triggers : Act → Prop
  | .fld b _ _ _ => b ≠ R.TOP_FRAME_NUM.addr pgTop 0
  | .mem _ _ | .emit _ | .host _ | .tx _ | .seg _ | .trig _ => True
  | _ => False

theorem triggers_of_queues (a : Act) (h : a.queues) : a.triggers := by
  cases a with
  | fld b hi lo v =>
    have hb : queueCell b := h
    have h1 : pgHist.base = 0x40000 := rfl
    have h2 : (pgSt 0).base = 0x100000 := rfl
    have h3 : R.TOP_FRAME_NUM.addr pgTop 0 = 0x84 := rfl
    unfold queueCell at hb
    show b ≠ _
    omega
  | mem | emit | host | tx | seg => trivial
  | _ => exact h.elim

theorem triggers_of_delivers (a : Act) (h : a.delivers) : a.triggers := triggers_of_queues a (queues_of_delivers a h)

theorem cmd_of_triggers {p : Prog} (h : Prog.Only Act.triggers p) (s : State) : (run p s).cmd = s.cmd :=
  h.keeps State.cmd (fun a t ha => by
    cases a with
    | cmd f => exact ha.elim
    | _ => rfl) s

theorem triggers_queues {p : Prog} (h : Prog.Only Act.queues p) : Prog.Only Act.triggers p := Prog.Only.mono triggers_of_queues p h

theorem triggers_modStrm (n : Nat) (f : Strm → Strm) : Prog.Only Act.triggers (modStrm n f) := ⟨trivial, trivial⟩

theorem triggers_pumpBuilt (n k : Nat) : Prog.Only Act.triggers (pumpBuilt n k) := by
  induction k with
  | zero => trivial
  | succ k ih =>
    intro s
    dsimp only
    split
    · simp only [only_all_cons, only_all_nil, and_true]
      exact ⟨triggers_modStrm _ _, ih⟩
    · split
      · simp only [only_all_cons, only_all_nil, and_true]
        exact ⟨triggers_modStrm _ _, triggers_queues (queues_pushPip _), ih⟩
      · trivial
    · trivial

theorem triggers_pump (n : Nat) : Prog.Only Act.triggers (pump n) := fun _ => triggers_pumpBuilt n _

theorem triggers_takeSeq (n : Nat) : Prog.Only Act.triggers (takeSeq n) := by
  have high (r : Row) (v : Nat) : (Act.fld (r.addr (pgSt n) 0) r.hi r.lo v).triggers := triggers_of_queues _ (queueCell_st r n 0)
  simp only [takeSeq, only_all_cons, only_all_nil, and_true]
  exact ⟨only_add64 _ _ _ _ (high _) (high _), only_inc _ _ (high _)⟩

theorem triggers_confirmReq (r : Req) : Prog.Only Act.triggers (confirmReq r) := fun s => by
  dsimp only
  split
  · simp only [only_all_cons, only_all_nil, triggers_takeSeq, and_true, true_and]
    exact ⟨trivial, trivial⟩
  · split
    · simp only [only_all_cons, only_all_nil, triggers_takeSeq, and_true, true_and]
      exact ⟨trivial, trivial⟩
    · simp only [only_all_cons, only_all_nil, triggers_takeSeq, triggers_pump, and_true, true_and]
      exact ⟨triggers_queues (queues_inc_st _ _), triggers_modStrm _ _⟩

theorem triggers_contClose (n q : Nat) : Prog.Only Act.triggers (contClose n q) := fun s => by
  have hsegment : Prog.Only Act.triggers (contSegment n q) := fun s => by
    simp only [only_when, only_all_cons, only_all_nil, triggers_confirmReq, triggers_modStrm, implies_true, and_self]
  simp only [only_all_cons, only_all_nil, only_when, and_true]
  exact ⟨fun _ => only_each _ _ fun _ _ => hsegment, trivial, trivial⟩

/-! ### The close condition (R182, R184) -/

/-- What a closing frame shows at the end. -/
def showClose (cause q : Nat) : Prog :=
  .all [.set pgTop R.TOP_CLOSE_CAUSE cause, .setQ pgTop R.TOP_CLOSE_TIME q, .set pgTop R.TOP_STATE 3, raise pgTop 2]

theorem run_closeFrame {s : State} (cause at_ : Nat) (h : s.fstate = 2) :
    run (closeFrame cause at_) s = run (showClose cause (max at_ s.seg.tOpen)) (run (.trig fun t => { t with armUpto := some (max at_ s.seg.tOpen) })
      (run (.seg fun g => { g with tClose := some (max at_ s.seg.tOpen), drain := 0, drainTmo := s.get pgTop R.TOP_DRAIN_TMO })
        (run (.each (List.range 256) fun n => contClose n (max at_ s.seg.tOpen)) s))) := by
  simp only [closeFrame, run_ask, if_pos h, showClose, run_all_cons, run_all_nil]

theorem light_showClose (cause q : Nat) : Prog.Only Act.light (showClose cause q) := by
  simp only [showClose, only_all_cons, only_all_nil, only_set, light_raise, Act.light, and_true, true_and]
  exact only_setQ _ _ _ fun _ _ => trivial

/-- A field of the TOP page that a delivery leaves, besides EVT_RAW. -/
theorem get_raise_top (k : Nat) (r : Row) (h : 0x40 ≤ r.off) (h' : r.off < 0x1000) (s : State) :
    (run (raise pgTop k) s).get pgTop r = s.get pgTop r := by
  have hb : r.addr pgTop 0 = r.off := by
    show 0 + r.off + r.stride * 0 = _
    omega
  have hc : (run (raise pgTop k) s).cell (r.addr pgTop 0) = s.cell (r.addr pgTop 0) :=
    cell_raise pgTop k _ s (notMem_deliveryCells (by omega)) (by
      show _ ≠ 0 + 0x014
      omega)
  rw [State.get, State.geti, hc, State.get, State.geti]

/-- The instant of a close is written beside other fields. -/
theorem get_setQ_close (q : Nat) {r : Row} (h : r.off < 0x09C) (s : State) :
    (run (.setQ pgTop R.TOP_CLOSE_TIME q) s).get pgTop r = s.get pgTop r := by
  refine only_get (only_setQ _ _ _ fun i v => ?_) s
  show 0 + r.off + r.stride * 0 ≠ 0 + 0x09C + 4 * i
  omega

/-- The state and the cause are shown, and the event raised. -/
theorem showClose_shows {cause : Nat} (hc : cause < 8) (q : Nat) (s : State) :
    let t := run (showClose cause q) s
    t.fstate = 3 ∧ t.get pgTop R.TOP_CLOSE_CAUSE = cause ∧ t.raised pgTop 2 = true := by
  simp only [showClose, run_all_cons, run_all_nil]
  refine ⟨?_, ?_, raised_raise rfl (by decide) (by decide) _⟩
  · rw [State.fstate, get_raise_top 2 R.TOP_STATE (by decide) (by decide)]
    exact get_set_same _ pgTop R.TOP_STATE 3 (by decide)
  · rw [get_raise_top 2 R.TOP_CLOSE_CAUSE (by decide) (by decide), get_set_other _ pgTop pgTop R.TOP_STATE R.TOP_CLOSE_CAUSE 3 (by decide)
      (by decide), get_setQ_close q (by decide), get_set_same _ pgTop R.TOP_CLOSE_CAUSE cause (by decide)]
    exact Nat.mod_eq_of_lt hc

/-- What an open frame's close leaves: the frame drains, the cause and the instant known (R182, R184). -/
structure FrameCloses (s t : State) (cause q : Nat) : Prop where
  fstate : t.fstate = 3
  cause : t.get pgTop R.TOP_CLOSE_CAUSE = cause
  tClose : t.seg.tClose = some q
  armUpto : t.trig.armUpto = some q
  raised : t.raised pgTop 2 = true
  cmd : t.cmd = s.cmd

theorem closeFrame_closes {s : State} {cause : Nat} (at_ : Nat) (h : s.fstate = 2) (hc : cause < 8) :
    FrameCloses s (run (closeFrame cause at_) s) cause (max at_ s.seg.tOpen) := by
  have hcont : Prog.Only Act.triggers (.each (List.range 256) fun n => contClose n (max at_ s.seg.tOpen)) :=
    only_each _ _ fun n _ => triggers_contClose n _
  have hcmd := cmd_of_triggers hcont s
  rw [run_closeFrame cause at_ h]
  generalize run (.each (List.range 256) fun n => contClose n (max at_ s.seg.tOpen)) s = u at hcmd
  obtain ⟨-, -, htrig, hseg, -, -, -, hkept, -⟩ := only_light (light_showClose cause (max at_ s.seg.tOpen))
    (run (.trig fun t => { t with armUpto := some (max at_ s.seg.tOpen) })
      (run (.seg fun g => { g with tClose := some (max at_ s.seg.tOpen), drain := 0, drainTmo := s.get pgTop R.TOP_DRAIN_TMO }) u))
  obtain ⟨hstate, hcause, hraised⟩ := showClose_shows hc (max at_ s.seg.tOpen)
    (run (.trig fun t => { t with armUpto := some (max at_ s.seg.tOpen) })
      (run (.seg fun g => { g with tClose := some (max at_ s.seg.tOpen), drain := 0, drainTmo := s.get pgTop R.TOP_DRAIN_TMO }) u))
  exact ⟨hstate, hcause, by rw [hseg]; rfl, by rw [htrig]; rfl, hraised, hkept.trans hcmd⟩

/-- A frame that drains stays so at another close condition, which may name the cause (Table 6-5). -/
theorem closeFrame_drains {s : State} (cause at_ : Nat) (h : s.fstate ≠ 2) :
    (run (closeFrame cause at_) s).fstate = s.fstate ∧ (run (closeFrame cause at_) s).cmd = s.cmd := by
  rw [closeFrame, run_ask]
  dsimp only
  rw [if_neg h, run_when]
  split
  · exact ⟨get_set_other _ pgTop pgTop R.TOP_CLOSE_CAUSE R.TOP_STATE cause (by decide) (by decide), rfl⟩
  · exact ⟨rfl, rfl⟩

theorem run_closeFrame_idle {s : State} (cause at_ : Nat) (h : s.fstate = 0) : run (closeFrame cause at_) s = s := by
  rw [closeFrame, run_ask]
  dsimp only
  rw [if_neg (by omega), run_when, if_neg (by simp [h])]

/-! ### FRAME_OPEN and FRAME_CLOSE (R181, R182, R403) -/

section
variable {s : State} {q k : Nat} {h : Held}

/-- The end of a step finds nothing pending. -/
theorem run_stepEnds_none (hends : ∀ x, s.heldAt q k = some x → x.ends = []) : run (stepEnds q k) s = s := by
  rw [stepEnds, run_ask]
  split
  · rfl
  · next x hx => rw [hends x hx]; rfl

theorem run_waitFor (work : Prog) : run (waitFor q k work) s = run (stepEnds q k) (run work (run (waitWork q k) s)) := by
  rw [waitFor, run_all_cons, run_pair]

/-- The condition of FRAME_CFG is armed for a gate: the settings are read, and every FRAME_OPEN completes (R181). -/
theorem armOpen_gate (hsrc : s.get pgTop R.TOP_OPEN_SRC = 1) (hh : s.heldAt q k = some h) (hw : h.wait = .work) (hop : h.op = 0x10) :
    let t := run armOpen s
    t.fstate = 1 ∧ t.heldAt q k = none ∧ t.seg.cfg = (s.cell (pgTop.base + 0x060)).toNat ∧ t.seg.closeCount = s.get pgTop R.TOP_CLOSE_COUNT ∧
      t.seg.dur = s.get64 pgTop R.TOP_FRAME_DUR_LO R.TOP_FRAME_DUR_HI := by
  have hcfg : bits (s.cell (pgTop.base + 0x060)).toNat 1 0 = 1 := hsrc
  rw [armOpen, run_ask]
  dsimp only
  simp only [hcfg]
  rw [run_all_cons, run_all_cons, run_pair]
  generalize hu : run (.set pgTop R.TOP_LATE_OPEN 0) (run (.set pgTop R.TOP_STATE 1) _) = u
  have hcmd : u.cmd = s.cmd := by rw [← hu]; rfl
  have hstate : u.fstate = 1 := by
    rw [← hu, State.fstate, get_set_other _ pgTop pgTop R.TOP_LATE_OPEN R.TOP_STATE 0 (by decide) (by decide)]
    exact get_set_same _ pgTop R.TOP_STATE 1 (by decide)
  have hdone := commandsOnly_run (completes_finishWaiters 0x10 stOK s.nextFrame) u
  refine ⟨hdone.fstate_eq.trans hstate, heldAt_finishWaiters ((heldAt_congr hcmd).trans hh) hw hop _ _, ?_⟩
  rw [hdone.seg_eq, ← hu]
  exact ⟨rfl, rfl, rfl⟩

theorem frameOpenStep_arms (hh : s.heldAt q k = some h) (hop : h.op = 0x10) (hbusy : s.openBusy = false)
    (hstep : s.get pgTime R.TIME_STEP_PEND = 0) (hsrc : s.get pgTop R.TOP_OPEN_SRC = 1) :
    let t := run (frameOpenStep q k) s
    t.fstate = 1 ∧ t.heldAt q k = none ∧ t.seg.cfg = (s.cell (pgTop.base + 0x060)).toNat ∧ t.seg.closeCount = s.get pgTop R.TOP_CLOSE_COUNT ∧
      t.seg.dur = s.get64 pgTop R.TOP_FRAME_DUR_LO R.TOP_FRAME_DUR_HI := by
  have hwait := commandsOnly_run (completes_waitWork q k) s
  obtain ⟨hheld, -⟩ := waitWork_waits hh
  rw [frameOpenStep, run_ask, hbusy, if_neg Bool.false_ne_true, run_waitFor]
  generalize run (waitWork q k) s = u at hwait hheld
  rw [frameOpenCmd, run_ask, if_neg (by rw [hwait.get_eq (by decide), hstep]; decide)]
  have harmed := armOpen_gate ((hwait.get_eq (by decide)).trans hsrc) hheld rfl hop
  rw [run_stepEnds_none fun x hx => by rw [harmed.2.1] at hx; cases hx]
  rwa [hwait.cells _ (by decide), hwait.get_eq (by decide), State.get64, hwait.get_eq (by decide), hwait.get_eq (by decide)] at harmed

/-- The command that closes or drains a frame waits for the end of the drain. -/
theorem frameCloseStep_waits (hh : s.heldAt q k = some h) (hends : h.ends = []) (hopen : s.seg.openWait = false) (hf : 2 ≤ s.fstate) :
    ∃ u, CommandsOnly s u ∧ run (frameCloseStep q k) s = run (closeFrame 0 s.nowQ) u ∧
      (run (frameCloseStep q k) s).heldAt q k = some { h with wait := .work } ∧ ((run (frameCloseStep q k) s).seqr q).cur = none := by
  have hwait := commandsOnly_run (completes_waitWork q k) s
  obtain ⟨hheld, hcur⟩ := waitWork_waits hh
  rw [frameCloseStep, run_ask, if_pos (decide_eq_true hf), run_waitFor]
  generalize run (waitWork q k) s = u at hwait hheld hcur
  have hclose : run frameCloseCmd u = run (closeFrame 0 s.nowQ) u := by
    rw [frameCloseCmd, run_ask, if_neg (by simp [hwait.fstate_eq, hwait.seg_eq, hopen]; omega), hwait.nowQ_eq]
  have hcmd : (run (closeFrame 0 s.nowQ) u).cmd = u.cmd := by
    by_cases h2 : u.fstate = 2
    · exact (closeFrame_closes _ h2 (by decide)).cmd
    · exact (closeFrame_drains _ _ h2).2
  have hheld' := (heldAt_congr (q := q) (k := k) hcmd).trans hheld
  rw [hclose, run_stepEnds_none fun x hx => by rw [hheld'] at hx; cases hx; exact hends]
  exact ⟨u, hwait, rfl, hheld', by rw [State.seqr, hcmd]; exact hcur⟩

/-- An armed open is cancelled, and the command completes at once. -/
theorem frameCloseStep_cancels (hends : ∀ x, s.heldAt q k = some x → x.ends = []) (hf : s.fstate = 1) :
    (run (frameCloseStep q k) s).fstate = 0 ∧ (run (frameCloseStep q k) s).heldAt q k = none := by
  rw [frameCloseStep, run_ask, if_neg (by simp [hf]), run_pair, frameCloseCmd, run_ask, if_pos (by simp [hf]), run_all_cons, run_pair]
  set u := run (.seg fun g => { g with openWait := false }) (run (.set pgTop R.TOP_STATE 0) s) with hu
  have hstate : u.fstate = 0 := get_set_same s pgTop R.TOP_STATE 0 (by decide)
  have hdone := commandsOnly_run (completes_finishWaiters 0x10 stBusy 0) u
  have hheld := heldAt_of_finishWaiters (q := q) (k := k) (s := u) 0x10 stBusy 0
  generalize run (finishWaiters 0x10 stBusy 0) u = v at hdone hheld
  have hvends : ∀ x, v.heldAt q k = some x → x.ends = [] := by
    rcases hheld with h | h
    · rw [h]; exact fun x hx => by cases hx
    · rw [h]; exact hends
  have hfinish : run (doneCmd q k stOK s.frameNum) v = run (finishCmd q k stOK s.frameNum) v := by
    cases hv : v.heldAt q k with
    | none => rw [doneCmd, run_ask, hv]; rfl
    | some x => exact run_doneCmd _ _ hv (hvends x hv)
  rw [hfinish, heldAt_finishCmd, if_pos ⟨rfl, rfl⟩]
  exact ⟨(commandsOnly_run (completes_finishCmd ..) v).fstate_eq.trans (hdone.fstate_eq.trans hstate), rfl⟩

end

/-- Settles O13: FRAME_OPEN arms a gate's open or is refused, and FRAME_CLOSE closes, cancels, waits or has nothing to do. -/
theorem frameCommands : Obligations.FrameCommands := by
  intro s q k h
  have opens : exec (.frameOpen q) s = .next (run (cmdRow q 0x10 fun k _ => frameOpenStep q k) s) := rfl
  have closes : exec (.frameClose q) s = .next (run (cmdRow q 0x11 fun k _ => frameCloseStep q k) s) := rfl
  refine ⟨fun hc hbusy hstep hsrc => ?_, fun hc hbusy => ?_, fun hc hopen => ⟨fun hf => ?_, fun hf => ?_, fun hf => ?_, fun hf => ?_⟩⟩
  · refine ⟨_, opens, ?_⟩
    rw [run_cmdRow hc]
    exact frameOpenStep_arms (heldAt_of_current hc.1) hc.2.1 hbusy hstep hsrc
  · have hheld := heldAt_of_current hc.1
    refine ⟨s, rfl, hheld, opens.trans (congrArg _ ?_)⟩
    rw [run_cmdRow hc, frameOpenStep, run_ask, if_pos hbusy]
    exact run_doneCmd _ _ hheld hc.ends
  · obtain ⟨u, hu, hrun, hheld, hcur⟩ := frameCloseStep_waits (heldAt_of_current hc.1) hc.ends hopen (by omega)
    have hcloses := closeFrame_closes (cause := 0) s.nowQ (hu.fstate_eq.trans hf) (by decide)
    rw [hu.seg_eq, ← hrun] at hcloses
    refine ⟨_, closes, ?_⟩
    rw [run_cmdRow hc]
    exact ⟨hheld, hcur, hcloses.fstate, hcloses.tClose, hcloses.cause, hcloses.armUpto.trans hcloses.tClose.symm⟩
  · refine ⟨_, closes, ?_⟩
    rw [run_cmdRow hc]
    refine frameCloseStep_cancels (fun x hx => ?_) hf
    rw [heldAt_of_current hc.1] at hx
    cases hx
    exact hc.ends
  · obtain ⟨u, hu, hrun, hheld, hcur⟩ := frameCloseStep_waits (heldAt_of_current hc.1) hc.ends hopen (by omega)
    have hstate := (closeFrame_drains 0 s.nowQ (s := u) (by rw [hu.fstate_eq]; omega)).1
    refine ⟨_, closes, ?_⟩
    rw [run_cmdRow hc]
    exact ⟨hheld, hcur, by dsimp only; rw [hrun, hstate, hu.fstate_eq]⟩
  · have hheld := heldAt_of_current hc.1
    refine ⟨s, rfl, hheld, closes.trans (congrArg _ ?_)⟩
    rw [run_cmdRow hc, frameCloseStep, run_ask, if_neg (by simp [hf]), run_pair, frameCloseCmd, run_ask, if_neg (by simp [hf, hopen]),
      run_closeFrame_idle _ _ hf]
    exact run_doneCmd _ _ hheld hc.ends

end Sys2Proof.Machine

/-! SUPPORT. Proofs: the trigger engine never writes the number of the frame (R134 to R162, R182). -/

namespace Sys2Proof.Machine

/-! ### Fields of pages beyond TOP -/

section
variable {p : Pg} (h : 0x1000 ≤ p.base)
include h

@[simp] theorem triggers_fld (r : Row) (i hi lo v : Nat) : (Act.fld (r.addr p i) hi lo v).triggers := by
  show p.base + r.off + r.stride * i ≠ 0 + 0x084 + 4 * 0
  omega

@[simp] theorem triggers_raise (k : Nat) : Prog.Only Act.triggers (raise p k) := only_raise _ _ triggers_of_delivers (by
  show p.base + 0x014 ≠ 0 + 0x084 + 4 * 0
  omega)

end

@[simp] theorem le_base_tu (n : Nat) : 0x1000 ≤ (pgTu n).base := Nat.le_add_right_of_le (show 0x1000 ≤ 0x20000 by decide)
@[simp] theorem le_base_tcomb : 0x1000 ≤ pgTcomb.base := by decide
@[simp] theorem le_base_text : 0x1000 ≤ pgText.base := by decide
@[simp] theorem le_base_st (n : Nat) : 0x1000 ≤ (pgSt n).base := Nat.le_add_right_of_le (show 0x1000 ≤ 0x100000 by decide)
@[simp] theorem le_base_fport (n : Nat) : 0x1000 ≤ (pgFport n).base := Nat.le_add_right_of_le (show 0x1000 ≤ 0x441000 by decide)

@[simp] theorem triggers_trig (f : Trig → Trig) : Prog.Only Act.triggers (.trig f) := ⟨trivial, trivial⟩
@[simp] theorem triggers_onSeg (f : Seg → Seg) : Prog.Only Act.triggers (.seg f) := ⟨trivial, trivial⟩
@[simp] theorem triggers_modTu (n : Nat) (f : Tu → Tu) : Prog.Only Act.triggers (modTu n f) := triggers_trig _
@[simp] theorem triggers_modDef (d : Nat) (f : TDef → TDef) : Prog.Only Act.triggers (modDef d f) := triggers_trig _
@[simp] theorem triggers_modTout (n : Nat) (f : TOut → TOut) : Prog.Only Act.triggers (modTout n f) := triggers_trig _
@[simp] theorem triggers_modRemote (src a : Nat) (f : Remote → Remote) : Prog.Only Act.triggers (modRemote src a f) :=
  (only_when ..).2 fun _ => triggers_trig _
@[simp] theorem triggers_setLevel (src a : Nat) (v : Bool) : Prog.Only Act.triggers (setLevel src a v) := triggers_trig _

/-! ### What the triggers of a definition come to -/

@[simp] theorem triggers_closeFrame (cause at_ : Nat) : Prog.Only Act.triggers (closeFrame cause at_) := fun s => by
  have hset {r : Row} (h : r.off ≠ 0x084) (i v : Nat) (hs : r.off + r.stride * i ≠ 0x084) : (Act.fld (r.addr pgTop i) r.hi r.lo v).triggers := by
    show 0 + r.off + r.stride * i ≠ 0 + 0x084 + 4 * 0
    omega
  have hraise : Prog.Only Act.triggers (raise pgTop 2) :=
    only_raise _ _ triggers_of_delivers (show (0 + 0x014 : Nat) ≠ 0 + 0x084 + 4 * 0 by decide)
  dsimp only
  split
  · simp only [only_all_cons, only_all_nil, triggers_onSeg, triggers_trig, hraise, only_set, and_true, true_and]
    refine ⟨only_each _ _ fun n _ => triggers_contClose n _, hset (by decide) 0 _ (by decide), only_setQ _ _ _ fun i v => ?_,
      hset (by decide) 0 _ (by decide)⟩
    show 0 + 0x09C + 4 * i ≠ 0 + 0x084 + 4 * 0
    omega
  · exact (only_when ..).2 fun _ => (only_set ..).2 (hset (by decide) 0 _ (by decide))

@[simp] theorem triggers_countTrigger (d : Nat) : Prog.Only Act.triggers (countTrigger d) := fun s => by
  have hinc : Prog.Only Act.triggers (.inc pgTop R.TOP_TRIG_COUNT) := only_inc _ _ fun _ =>
    (show (0 + 0x08C + 4 * 0 : Nat) ≠ 0 + 0x084 + 4 * 0 by decide)
  simp only [only_when, only_all_cons, only_all_nil, hinc, triggers_closeFrame, implies_true, and_self]

@[simp] theorem triggers_holdDiscard (d a : Nat) : Prog.Only Act.triggers (holdDiscard d a) := fun s => by simp
@[simp] theorem triggers_startHold (d a : Nat) : Prog.Only Act.triggers (startHold d a) := fun _ => triggers_modDef _ _

theorem triggers_toutPin (n pin : Nat) (on : Bool) : Prog.Only Act.triggers (toutPin n pin on) := fun _ => (only_out _).2 trivial

theorem triggers_pulseOut (n : Nat) (prov : Option Nat) : Prog.Only Act.triggers (pulseOut n prov) := fun s => by
  simp [triggers_toutPin]

theorem triggers_toutAnnounce (d a : Nat) (k : Ann) (phase : Bool) : Prog.Only Act.triggers (toutAnnounce d a k phase) := fun s => by
  refine only_each _ _ fun n _ => ?_
  split <;> simp [triggers_pulseOut, triggers_toutPin]

theorem triggers_exportTrig (d a : Nat) (k : Ann) : Prog.Only Act.triggers (exportTrig d a k) := fun _ =>
  (only_when ..).2 fun _ => fun _ => only_each _ _ fun n _ =>
    only_sendLink _ _ (fun _ => trivial) (fun _ => trivial) fun v => triggers_fld (le_base_fport n) _ _ _ _ v

@[simp] theorem triggers_announce (d a : Nat) (k : Ann) (phase : Bool) : Prog.Only Act.triggers (announce d a k phase) := by
  simp only [announce, only_all_cons, only_all_nil, triggers_toutAnnounce, triggers_exportTrig, and_self]

@[simp] theorem triggers_provStat (d : Nat) : Prog.Only Act.triggers (provStat d) := fun _ =>
  (only_setBit ..).2 (triggers_fld le_base_tcomb _ _ _ _ _)

theorem triggers_confirmReqs (d anchor code : Nat) : Prog.Only Act.triggers (confirmReqs d anchor code) := fun _ =>
  only_each _ _ fun _ _ => fun _ => triggers_confirmReq _

theorem triggers_keepReqs (d anchor code : Nat) : Prog.Only Act.triggers (keepReqs d anchor code) := fun s => by
  simp only [only_all_cons, only_all_nil, and_true]
  refine ⟨only_each _ _ fun n _ => fun _ => ?_, triggers_onSeg _⟩
  simp [triggers_confirmReq]

theorem triggers_finalize (d : Nat) (p : Prov) (ok : Bool) : Prog.Only Act.triggers (finalize d p ok) := fun s => by
  have hdrop : Prog.Only Act.triggers (dropReqs d p.anchor) := triggers_onSeg _
  simp [triggers_confirmReqs, triggers_keepReqs, hdrop]

theorem triggers_defDrain (d k : Nat) : Prog.Only Act.triggers (defDrain d k) := by
  induction k with
  | zero => trivial
  | succ k ih =>
    intro s
    dsimp only
    split
    · split
      · simp [triggers_finalize, ih]
      · exact triggers_provStat d
    · exact triggers_provStat d

@[simp] theorem triggers_defSettle (d : Nat) : Prog.Only Act.triggers (defSettle d) := fun _ => triggers_defDrain d _

@[simp] theorem triggers_defResolve (d a src : Nat) (ok late : Bool) : Prog.Only Act.triggers (defResolve d a src ok late) := by
  simp [defResolve]

@[simp] theorem triggers_defEvent (d a src : Nat) (prov : Bool) : Prog.Only Act.triggers (defEvent d a src prov) := fun s => by
  have hreserve (code : Nat) : Prog.Only Act.triggers (reserveReqs d a code) := fun _ => only_each _ _ fun _ _ => triggers_onSeg _
  simp [hreserve]

/-! ### Sequences and events -/

@[simp] theorem triggers_seqStop (d : Nat) : Prog.Only Act.triggers (seqStop d) := fun s => by
  dsimp only
  split <;> simp

theorem triggers_seqTake (d term a src : Nat) : Prog.Only Act.triggers (seqTake d term a src) := fun s => by
  dsimp only
  split
  · simp
  · split <;> simp
  · exact triggers_seqStop d

theorem triggers_seqRunN (d k : Nat) : Prog.Only Act.triggers (seqRunN d k) := by
  induction k with
  | zero => trivial
  | succ k ih =>
    intro s
    dsimp only
    split
    · simp [triggers_seqTake, ih]
    · trivial

theorem triggers_takeEvent (d : Nat) (e : SrcEv) : Prog.Only Act.triggers (takeEvent d e) := fun s => by
  have hfire (j : Nat) : Prog.Only Act.triggers (seqFire d j e.anchor e.src) := fun s => by simp
  dsimp only
  split
  · trivial
  · split
    · simp [hfire]
    · split
      · trivial
      · simp only [only_all_cons, only_all_nil, triggers_modDef, triggers_defEvent, true_and, and_true]
        split <;> simp

theorem triggers_settleN (k : Nat) : Prog.Only Act.triggers (settleN k) := by
  induction k with
  | zero => trivial
  | succ k ih =>
    intro s
    dsimp only
    split
    · simp [triggers_takeEvent, ih]
    · exact only_each _ _ fun d _ => fun _ => triggers_seqRunN d _

@[simp] theorem triggers_trigSettle : Prog.Only Act.triggers trigSettle := fun _ => triggers_settleN _

@[simp] theorem triggers_srcResolve (src a : Nat) (ok late : Bool) : Prog.Only Act.triggers (srcResolve src a ok late) := fun _ => by simp

/-! ### Trigger units and inputs -/

@[simp] theorem triggers_tuStat (n : Nat) : Prog.Only Act.triggers (tuStat n) := fun _ => by simp

@[simp] theorem triggers_tuUnknown (n a : Nat) : Prog.Only Act.triggers (tuUnknown n a) := fun _ => by
  have hlevel (v : Bool) : Prog.Only Act.triggers (tuSetLevel n a 0 v) := fun _ => by simp
  have hdone (c : Cand) : Prog.Only Act.triggers (candDone n c false) := by simp [candDone]
  simp [hlevel, hdone]

@[simp] theorem triggers_tuRestart (n : Nat) : Prog.Only Act.triggers (tuRestart n) := fun _ => by simp

theorem triggers_discardCands : Prog.Only Act.triggers discardCands := by
  simp only [discardCands, only_all_cons, only_all_nil, triggers_trig, true_and, and_true]
  refine ⟨only_each _ _ fun d _ => by simp, fun s => only_each _ _ fun n _ => ?_⟩
  have hcount : Prog.Only Act.triggers (.each (s.tu n).cands fun _ => .inc (pgTu n) R.TU_CNT_CANCELLED) := only_each _ _ fun _ _ => by simp
  simp [hcount]

theorem triggers_polChanged (old : State) : Prog.Only Act.triggers (polChanged old) := fun s => by
  have htin (i a : Nat) (v : Bool) : Prog.Only Act.triggers (tinLevel i a v) := fun _ => by simp
  simp [htin]

end Sys2Proof.Machine

/-! SUPPORT. Proofs: what settling, enables and calibration runs of the converter array leave (R84, R86, R108, R115, R117, R128). -/

namespace Sys2Proof.Machine

/-- The acts that settling, enables and calibration runs consist of: below the BANK pages no cell, and no request. -/
def Act.banks : Act → Prop
  | .fld b _ _ _ => 0x10000 ≤ b
  | .mem _ _ | .emit _ | .host _ | .tx _ | .conv _ | .cal _ | .cmd _ | .useFree => True
  | .seg f => ∀ g, (f g).reqs = g.reqs
  | _ => False

theorem banks_of_queues (a : Act) (h : a.queues) : a.banks := by
  cases a with
  | fld b hi lo v =>
    have hb : queueCell b := h
    have h1 : pgHist.base = 0x40000 := rfl
    have h2 : (pgSt 0).base = 0x100000 := rfl
    unfold queueCell at hb
    show 0x10000 ≤ b
    omega
  | seg f => exact fun g => by rw [(h g).1]
  | mem | emit | host | tx => trivial
  | _ => exact h.elim

theorem banks_queues {p : Prog} (h : Prog.Only Act.queues p) : Prog.Only Act.banks p := Prog.Only.mono banks_of_queues p h

theorem banks_of_delivers (a : Act) (h : a.delivers) : a.banks := banks_of_queues a (queues_of_delivers a h)

theorem banks_of_completes (a : Act) (h : a.completes) : a.banks := by
  cases a with
  | fld b hi lo v => exact Nat.le_trans (show 0x10000 ≤ 0x200000 by decide) h
  | mem | emit | host | tx | cmd => trivial
  | _ => exact h.elim

/-! ### Registers -/

section
variable {p : Pg} (h : 0x10000 ≤ p.base)
include h

@[simp] theorem banks_fld (r : Row) (i hi lo v : Nat) : (Act.fld (r.addr p i) hi lo v).banks := by
  show 0x10000 ≤ p.base + r.off + r.stride * i
  omega

@[simp] theorem banks_raise (k : Nat) : Prog.Only Act.banks (raise p k) := only_raise _ _ banks_of_delivers (by
  show 0x10000 ≤ p.base + 0x014
  omega)

end

@[simp] theorem high_base_bank (b : Nat) : 0x10000 ≤ (pgBank b).base := Nat.le_add_right_of_le (show 0x10000 ≤ 0x10000 by decide)
@[simp] theorem high_base_tdc (k : Nat) : 0x10000 ≤ (pgTdc k).base := Nat.le_add_right_of_le (show 0x10000 ≤ 0x30000 by decide)
@[simp] theorem high_base_tu (n : Nat) : 0x10000 ≤ (pgTu n).base := Nat.le_add_right_of_le (show 0x10000 ≤ 0x20000 by decide)
@[simp] theorem high_base_st (n : Nat) : 0x10000 ≤ (pgSt n).base := Nat.le_add_right_of_le (show 0x10000 ≤ 0x100000 by decide)
@[simp] theorem high_base_sq (q : Nat) : 0x10000 ≤ (pgSq q).base := Nat.le_add_right_of_le (show 0x10000 ≤ 0x200000 by decide)
@[simp] theorem high_base_cal : 0x10000 ≤ pgCal.base := by decide
@[simp] theorem high_base_hist : 0x10000 ≤ pgHist.base := by decide
@[simp] theorem high_base_tcomb : 0x10000 ≤ pgTcomb.base := by decide
@[simp] theorem high_base_acc : 0x10000 ≤ pgAcc.base := by decide
@[simp] theorem high_base_den : 0x10000 ≤ pgDen.base := by decide

@[simp] theorem banks_conv (f : Conv → Conv) : Prog.Only Act.banks (.conv f) := ⟨trivial, trivial⟩
@[simp] theorem banks_cal (f : Cal → Cal) : Prog.Only Act.banks (.cal f) := ⟨trivial, trivial⟩
@[simp] theorem banks_modChan (c : Nat) (f : Chan → Chan) : Prog.Only Act.banks (modChan c f) := banks_conv _

/-! ### What the CAL and BANK pages show -/

@[simp] theorem banks_showRuns : Prog.Only Act.banks showRuns := fun s => by
  dsimp only
  split <;> simp

@[simp] theorem banks_showRot : Prog.Only Act.banks showRot := fun _ => only_each _ _ fun _ _ => by simp

@[simp] theorem banks_showOverride : Prog.Only Act.banks showOverride := fun _ => by simp

@[simp] theorem banks_showBanks (die : Nat) : Prog.Only Act.banks (showBanks die) := fun _ => only_each _ _ fun _ _ => by simp

@[simp] theorem banks_powerChan (c : Nat) (v : Bool) : Prog.Only Act.banks (powerChan c v) := fun _ => only_each _ _ fun _ _ => by simp

@[simp] theorem banks_startSettle (b code : Nat) : Prog.Only Act.banks (startSettle b code) := fun _ => by simp

@[simp] theorem banks_endSettle (b : Nat) : Prog.Only Act.banks (endSettle b) := fun _ => by simp

@[simp] theorem banks_emptyHist (c : Nat) : Prog.Only Act.banks (emptyHist c) := by simp [emptyHist]

/-! ### Holds and runs -/

@[simp] theorem banks_holdBegin (c kind : Nat) (hard : Bool) : Prog.Only Act.banks (holdBegin c kind hard) := fun _ => banks_modChan _ _

@[simp] theorem banks_holdBack (c : Nat) : Prog.Only Act.banks (holdBack c) := fun _ => banks_modChan _ _

@[simp] theorem banks_holdEnd (c : Nat) : Prog.Only Act.banks (holdEnd c) := fun s => by
  have hlogs (l : List Nat) (f : Nat → Rec) : Prog.Only Act.banks (.each l fun n => pushLog (f n)) :=
    only_each _ _ fun _ _ => banks_queues (queues_pushLog _)
  dsimp only
  split
  · trivial
  · simp [hlogs]

@[simp] theorem banks_measureNext (r : Nat) : Prog.Only Act.banks (measureNext r) := fun s => by
  dsimp only
  split
  · simp only [only_all_cons, only_all_nil, banks_cal, banks_showRuns, banks_showRot, true_and, and_true]
    split <;> simp
  · trivial

@[simp] theorem banks_startRun (r kind : Nat) (chans : List Nat) (hard : Bool) (cmd : Option Nat) :
    Prog.Only Act.banks (startRun r kind chans hard cmd) := fun _ => by simp

@[simp] theorem banks_startOwnRun (r kind die : Nat) (chans : List Nat) : Prog.Only Act.banks (startOwnRun r kind die chans) := fun _ => by simp

@[simp] theorem banks_startDue (die : Nat) (hard : Bool) : Prog.Only Act.banks (startDue die hard) := fun _ => by simp

theorem banks_endCmd (q k rank status result : Nat) : Prog.Only Act.banks (endCmd q k rank status result) := fun s => by
  have hsend (h : Held) : Prog.Only Act.banks (sendCompletion h q status result) :=
    Prog.Only.mono banks_of_completes _ (completes_sendCompletion h q status result)
  have hstat : Prog.Only Act.banks (sqStat q) := Prog.Only.mono banks_of_completes _ (completes_sqStat q)
  have hcmd (f : Cmd → Cmd) : Prog.Only Act.banks (.cmd f) := ⟨trivial, trivial⟩
  have hslot (f : Seqr → Seqr) : Prog.Only Act.banks (modSeqr q f) := hcmd _
  dsimp only
  split
  · trivial
  · simp [hsend, hstat, hcmd, hslot, releaseSlot, incRaise]

theorem banks_abortRunFor (newly : Option Nat) (r : Nat) : Prog.Only Act.banks (abortRunFor newly r) := fun s => by
  have hsettled (l : List Nat) : Prog.Only Act.banks (runSettled l) := fun _ => only_each _ _ fun _ _ => banks_endSettle _
  dsimp only
  split
  · trivial
  · simp only [only_all_cons, only_all_nil, banks_cal, hsettled, banks_showRuns, banks_showRot, true_and, and_true]
    refine ⟨only_each _ _ fun _ _ => banks_holdBack _, only_inc _ _ fun _ => banks_fld high_base_cal .., banks_raise high_base_cal _, ?_⟩
    split
    · exact banks_endCmd _ _ _ _ _
    · trivial

@[simp] theorem banks_leaveRuns (c : Nat) : Prog.Only Act.banks (leaveRuns c) := fun s => only_each _ _ fun e _ => by
  simp [abortRun, banks_abortRunFor]

theorem banks_abortRunsOf (die : Nat) : Prog.Only Act.banks (abortRunsOf die) := fun _ => only_each _ _ fun _ _ => banks_abortRunFor _ _

theorem banks_freePipe (c : Nat) : Prog.Only Act.banks (freePipe c) :=
  only_each _ _ fun _ _ => fun _ => ⟨trivial, banks_modChan _ _⟩

theorem banks_remeasure (c : Nat) : Prog.Only Act.banks (remeasure c) := fun _ => only_each _ _ fun _ _ => by simp

end Sys2Proof.Machine

/-! SUPPORT. Proofs: a TIME open comes due, and the frame opens (R47, R146, R167, R181, R189). -/

namespace Sys2Proof.Machine

/-! ### Applying commits leaves the number of the frame (R53) -/

/-- The cell that holds the number of the frame. -/
def frameNumCell : Nat := R.TOP_FRAME_NUM.addr pgTop 0

theorem keepsNum_triggers {p : Prog} (h : Prog.Only Act.triggers p) : Prog.Only (Act.spares frameNumCell) p :=
  Prog.Only.mono (fun a ha => by
    cases a with
    | fld b hi lo v => exact Ne.symm ha
    | wr => exact ha.elim
    | _ => trivial) p h

theorem keepsNum_banks {p : Prog} (h : Prog.Only Act.banks p) : Prog.Only (Act.spares frameNumCell) p :=
  Prog.Only.mono (fun a ha => by
    cases a with
    | fld b hi lo v =>
      have hb : 0x10000 ≤ b := ha
      show 0 + 0x084 + 4 * 0 ≠ b
      omega
    | wr => exact ha.elim
    | _ => trivial) p h

theorem keepsNum_copyLive (p : Pg) : Prog.Only (Act.spares frameNumCell) (copyLive p) := fun _ =>
  only_each _ _ fun r _ => only_each _ _ fun i _ => (only_setLivei ..).2 (by
    show 0 + 0x084 + 4 * 0 ≠ r.addr p i + 0x800
    omega)

/-- Pages lie a page apart where they begin at offset 0. -/
theorem Kind.base_low (k : Kind) : 0x1000 ≤ k.base ∨ k.base = 0 ∧ k.stride % 0x1000 = 0 := by cases k <;> decide

theorem keepsNum_setPend (p : Pg) (v : Bool) : Prog.Only (Act.spares frameNumCell) (setPend p v) := by
  have hlow : 0x1000 ≤ p.base ∨ p.base % 0x1000 = 0 := by
    show 0x1000 ≤ p.kind.base + p.kind.stride * p.inst ∨ (p.kind.base + p.kind.stride * p.inst) % 0x1000 = 0
    rcases p.kind.base_low with h | ⟨hb, hs⟩
    · exact .inl (Nat.le_add_right_of_le h)
    · exact .inr (by rw [hb, Nat.zero_add, Nat.mul_mod, hs, Nat.zero_mul])
  simp only [setPend, only_all_cons, only_all_nil, only_one, and_true]
  refine ⟨?_, ?_⟩
  · show 0 + 0x084 + 4 * 0 ≠ p.base + 0x00C
    omega
  · show 0 + 0x084 + 4 * 0 ≠ p.base + 0x010
    omega

theorem keepsNum_syncStop (c : Nat) : Prog.Only (Act.spares frameNumCell) (syncStop c) := fun s => by
  have hchan (f : Chan → Chan) : Prog.Only (Act.spares frameNumCell) (modChan c f) := keepsNum_banks (banks_modChan _ _)
  dsimp only
  split
  · simp only [only_all_cons, only_all_nil, hchan, true_and, and_true]
    exact only_each _ _ fun n _ => keepsNum_triggers (by simp)
  · exact (only_when ..).2 fun _ => hchan _
  · simp only [only_all_cons, only_all_nil, only_when, hchan, keepsNum_banks (banks_freePipe c), implies_true, and_self]
  · trivial

theorem keepsNum_modeChanged (die : Nat) : Prog.Only (Act.spares frameNumCell) (modeChanged die) := by
  have hseg (f : Seg → Seg) : Prog.Only (Act.spares frameNumCell) (.seg f) := ⟨trivial, trivial⟩
  simp only [modeChanged, only_all_cons, only_all_nil, only_ask, only_when, hseg, implies_true, true_and, and_true,
    keepsNum_banks (banks_abortRunsOf die), keepsNum_banks (banks_showBanks die), keepsNum_banks banks_showRot, keepsNum_banks banks_showOverride,
    keepsNum_banks (banks_raise high_base_hist 2)]
  exact ⟨only_each _ _ fun _ _ => keepsNum_banks (by simp), fun _ => only_each _ _ fun _ _ => keepsNum_banks (by simp),
    fun _ _ => only_each _ _ fun _ _ => keepsNum_banks (by simp), fun _ => ⟨keepsNum_banks (banks_startOwnRun _ _ _ _),
      only_each _ _ fun _ _ => keepsNum_syncStop _⟩,
    only_each _ _ fun _ _ => keepsNum_triggers (by simp)⟩

theorem keepsNum_bankEffects (old : State) : Prog.Only (Act.spares frameNumCell) (bankEffects old) := fun s => only_each _ _ fun die _ => by
  have hsettles (l : List Nat) : Prog.Only Act.banks (.each l fun b => startSettle b 0) := only_each _ _ fun _ _ => by simp
  split
  · exact keepsNum_modeChanged die
  · simp only [only_all_cons, only_all_nil, keepsNum_banks (banks_showBanks die), and_true]
    exact only_each _ _ fun c _ => keepsNum_banks (by simp [hsettles, banks_remeasure])

theorem keepsNum_trigEffects (old : State) (ps : List Pg) : Prog.Only (Act.spares frameNumCell) (trigEffects old ps) := fun s => by
  simp only [only_all_cons, only_all_nil, only_when, keepsNum_triggers triggers_discardCands, keepsNum_triggers (triggers_polChanged old),
    implies_true, true_and, and_true]
  exact ⟨only_each _ _ fun _ _ => keepsNum_triggers (by simp), fun _ => only_each _ _ fun _ _ => keepsNum_triggers (by simp),
    only_each _ _ fun _ _ => keepsNum_triggers (by simp [triggers_toutPin])⟩

@[simp] theorem high_base_rdma : 0x10000 ≤ pgRdma.base := by decide
@[simp] theorem high_base_qpc (c : Nat) : 0x10000 ≤ (pgQpc c).base := Nat.le_add_right_of_le (show 0x10000 ≤ Kind.qpc.base by decide)

@[simp] theorem banks_setSum (x v : Nat) : Prog.Only Act.banks (setSum x v) := by
  unfold setSum
  split <;> simp

@[simp] theorem banks_minRate (c : Nat) : Prog.Only Act.banks (minRate c) := fun _ => by simp

@[simp] theorem banks_releaseCharge (n : Nat) : Prog.Only Act.banks (releaseCharge n) := fun s => by
  have hsums : Prog.Only Act.banks (.each (s.chargedOn (s.dest n)) fun x => .ask fun t => setSum x (t.sumOn x - t.geti pgRdma R.RDMA_ADM_CHARGE n)) :=
    only_each _ _ fun _ _ => fun _ => banks_setSum _ _
  simp [hsums]

theorem banks_makeCharge (n : Nat) : Prog.Only Act.banks (makeCharge n) := by
  simp only [makeCharge, only_all_cons, only_all_nil, only_ask, only_when, only_seti, banks_releaseCharge, banks_minRate,
    banks_fld high_base_rdma, implies_true, and_true, true_and]
  exact fun _ _ => only_each _ _ fun _ _ => fun _ => banks_setSum _ _

theorem keepsNum_streamEffects (old : State) (ps : List Pg) : Prog.Only (Act.spares frameNumCell) (streamEffects old ps) := fun s => by
  have hstrm (n : Nat) (f : Strm → Strm) : Prog.Only (Act.spares frameNumCell) (modStrm n f) := ⟨trivial, trivial⟩
  have hmap (n : Nat) (f : Map → Map) : Prog.Only (Act.spares frameNumCell) (modMap n f) := ⟨trivial, trivial⟩
  have hden (r : Row) (i v : Nat) : Prog.Only (Act.spares frameNumCell) (.seti pgDen r i v) := keepsNum_banks (by simp)
  simp only [only_all_cons, only_all_nil, only_when, and_true]
  refine ⟨only_each _ _ fun u _ => ?_, only_each _ _ fun m _ => hden _ _ _, fun s => only_each _ _ fun n _ => ?_,
    only_each _ _ fun n _ => keepsNum_banks (banks_makeCharge n), only_each _ _ fun n _ => ?_, fun _ => only_each _ _ fun p _ => ⟨trivial, trivial⟩⟩
  · simp only [only_ite, only_all_cons, only_all_nil, hstrm, hmap, hden, implies_true, and_self]
  · exact keepsNum_banks (by simp)
  · exact keepsNum_banks (by simp [banks_queues (queues_eqStat n)])

theorem keepsNum_placeAll : Prog.Only (Act.spares frameNumCell) placeAll := fun s => by
  simp only [only_all_cons, only_all_nil, and_true]
  refine ⟨⟨trivial, trivial⟩, only_each _ _ fun e _ => fun t => (only_when ..).2 fun _ => fun t => ⟨trivial, ?_⟩⟩
  dsimp only
  split
  · exact ⟨trivial, trivial⟩
  · trivial

theorem keepsNum_applyPages (ps : List Pg) : Prog.Only (Act.spares frameNumCell) (applyPages ps) := fun old => by
  have hpool : Prog.Only (Act.spares frameNumCell) showPool := fun _ => keepsNum_banks (by simp)
  simp only [only_when, only_all_cons, only_all_nil, only_ask, keepsNum_bankEffects, keepsNum_trigEffects, keepsNum_streamEffects,
    keepsNum_placeAll, hpool, and_true]
  exact fun _ => ⟨only_each _ _ fun p _ => keepsNum_copyLive p, only_each _ _ fun p _ => keepsNum_setPend p false,
    fun _ => only_each _ _ fun c _ => keepsNum_banks (by simp)⟩

theorem frameNum_of_spares {p : Prog} (h : Prog.Only (Act.spares frameNumCell) p) (s : State) : (run p s).frameNum = s.frameNum :=
  only_get (p := p) (q := pgTop) (r := R.TOP_FRAME_NUM) h s

/-- Commits that are sound apply at an open, and leave the number of the frame (R47). -/
theorem frameNum_commitAtOpen {s : State} (h : s.openRefused = none) : (run commitAtOpen s).frameNum = s.frameNum := by
  have hsound : ((s.verdict s.pendingPages).bad.isEmpty && (s.verdict s.pendingPages).joint.isNone) = true := by
    rw [State.openRefused, Verdict.status] at h
    by_contra hbad
    simp only [hbad, if_false] at h
    split at h <;> cases h
  have hheld : Prog.Only (Act.spares frameNumCell) showHeld :=
    fun _ => (only_set ..).2 (show (0 + 0x084 + 4 * 0 : Nat) ≠ 0 + 0x040 + 4 * 0 by decide)
  rw [commitAtOpen, run_ask]
  dsimp only
  rw [if_pos hsound, run_pair, frameNum_of_spares hheld, frameNum_of_spares (keepsNum_applyPages _)]

/-! ### The frame opens (R167, R181) -/

/-- A power state is taken, and cells of the TOP page are not written. -/
theorem setPower_takes {v : Nat} (hv : v < 4) (s : State) :
    (run (setPower v) s).pstate = v ∧ ∀ a, a < 0x1000 → (run (setPower v) s).cell a = s.cell a := by
  have hmode (v : Nat) (a : Nat) (ha : a < 0x300000) : Prog.Only (Act.spares a) (.each (List.range 4) fun m => .set (pgMc m) R.MC_MODE v) :=
    only_each _ _ fun m _ => (only_set ..).2 (by
      show a ≠ 0x300000 + 0x1000 * m + _ + _
      omega)
  have hrest (b : Bool) (w v a : Nat) (ha : a ≠ 0x5014) (ha' : a ≠ R.CLK_SQ_HALF.addr pgClk 0) (hlow : a < 0x300000) :
      Prog.Only (Act.spares a) (.all [.when b (raise pgPwr 1), .set pgClk R.CLK_SQ_HALF w,
        .each (List.range 4) fun m => .set (pgMc m) R.MC_MODE v]) := by
    simp only [only_all_cons, only_all_nil, only_when, only_set, hmode v a hlow, and_true]
    exact ⟨fun _ => only_raise _ _ (spares_of_delivers a (notMem_deliveryCells (by omega))) ha, ha'⟩
  rw [setPower, run_ask, run_all_cons]
  refine ⟨?_, fun a ha => ?_⟩
  · rw [State.pstate, only_get (hrest _ _ _ _ (by decide) (by decide) (by decide)), get_set_same _ _ _ _ (by decide)]
    exact Nat.mod_eq_of_lt hv
  · have hclk : R.CLK_SQ_HALF.addr pgClk 0 = 0x1000 + R.CLK_SQ_HALF.off := rfl
    rw [only_cell (hrest _ _ _ _ (by omega) (by omega) (by omega)), Prog.set, cell_seti, if_neg]
    show a ≠ 0x5000 + 0x040 + 4 * 0
    omega

theorem light_setPower (v : Nat) : Prog.Only Act.light (setPower v) := fun s => by
  have hmode (v : Nat) : Prog.Only Act.light (.each (List.range 4) fun m => .set (pgMc m) R.MC_MODE v) :=
    only_each _ _ fun _ _ => (only_set ..).2 trivial
  simp only [only_all_cons, only_all_nil, only_when, only_set, light_raise, hmode, Act.light, implies_true, and_self]

/-- The acts that leave the number and the state of the frame, the power state and the instant of the opening. -/
def Act.opens : Act → Prop
  | .fld b _ _ _ => b ≠ 0x084 ∧ b ≠ 0x088 ∧ b ≠ 0x5040
  | .wr _ _ => False
  | .seg f => ∀ g, (f g).tOpen = g.tOpen
  | _ => True

/-- A frame with a number has been opened at an instant, and the device is awake for it. -/
structure Opened (num q : Nat) (t : State) : Prop where
  fstate : t.fstate = 2
  number : t.frameNum = num
  power : t.pstate = 3
  tOpen : t.seg.tOpen = q

theorem opened_of_only {num q : Nat} {p : Prog} (h : Prog.Only Act.opens p) {s : State} (hs : Opened num q s) : Opened num q (run p s) := by
  have cell (a : Nat) (ha : a = 0x084 ∨ a = 0x088 ∨ a = 0x5040) : (run p s).cell a = s.cell a :=
    only_cell (Prog.Only.mono (fun x hx => by
      cases x with
      | fld b hi lo v =>
        obtain ⟨h1, h2, h3⟩ := hx
        show a ≠ b
        omega
      | wr => exact hx.elim
      | _ => trivial) p h) s
  have hstate : (run p s).fstate = s.fstate := congrArg (fun w : Word => bits w.toNat 2 0) (cell 0x088 (by decide))
  have hnum : (run p s).frameNum = s.frameNum := congrArg (fun w : Word => bits w.toNat 31 0) (cell 0x084 (by decide))
  have hpower : (run p s).pstate = s.pstate := congrArg (fun w : Word => bits w.toNat 1 0) (cell 0x5040 (by decide))
  have hopen : (run p s).seg.tOpen = s.seg.tOpen := h.keeps (fun t => t.seg.tOpen) (fun a t ha => by
    cases a with
    | seg f => exact ha t.seg
    | _ => rfl) s
  exact ⟨hstate.trans hs.fstate, hnum.trans hs.number, hpower.trans hs.power, hopen.trans hs.tOpen⟩

theorem opens_of_delivers (a : Act) (h : a.delivers) : a.opens := by
  cases a with
  | fld b hi lo v =>
    have := deliveryCells_range b h
    exact ⟨by omega, by omega, by omega⟩
  | mem | emit | host | tx => trivial
  | _ => exact h.elim

/-- What an opening frame does once its number, its state and its instant stand. -/
theorem opens_streams (q : Nat) (l : List Nat) : Prog.Only Act.opens (.each l fun n => .all [joinFrame n q 0, .set (pgSt n) R.ST_DRAINED 0]) := by
  refine only_each _ _ fun n _ => ?_
  have high (r : Row) (v : Nat) : Prog.Only Act.opens (.set (pgSt n) r v) := (only_set ..).2 (by
    have hb := pgSt_base_le n
    have hb0 : (pgSt 0).base = 0x100000 := rfl
    refine ⟨?_, ?_, ?_⟩ <;>
    · show (pgSt n).base + _ + _ ≠ _
      omega)
  have join : Prog.Only Act.opens (joinFrame n q 0) := fun s => by
    simp only [only_when, only_all_cons, only_all_nil, high, and_true]
    exact fun _ => ⟨fun _ => rfl, trivial⟩
  simp only [only_all_cons, only_all_nil, high, join, and_self]

theorem opens_tdcStat (k : Nat) : Prog.Only Act.opens (tdcStat k) := fun s => by
  have high (r : Row) (v : Nat) : (Act.fld (r.addr (pgTdc k) 0) r.hi r.lo v).opens := by
    have hb := high_base_tdc k
    refine ⟨?_, ?_, ?_⟩ <;>
    · show (pgTdc k).base + _ + _ ≠ _
      omega
  simp only [only_all_cons, only_all_nil, only_set, high, and_true, true_and]
  exact only_set64 _ _ _ _ (high _) (high _)

/-- The frame is open at Q-time q, with the next number, and the device is in ACTIVE (R181). -/
theorem frameOpens_opens (q : Nat) (s : State) : Opened s.nextFrame q (run (frameOpens q) s) ∧ (run (frameOpens q) s).raised pgTop 1 = true := by
  have hnext : s.nextFrame < 2 ^ 32 := by
    have hlt : s.frameNum < 2 ^ 32 := geti_lt s pgTop R.TOP_FRAME_NUM 0
    unfold State.nextFrame
    split <;> omega
  rw [frameOpens, run_ask, run_all_cons, run_all_cons, run_all_cons, run_all_cons, run_all_cons, run_all_cons, run_all_cons]
  generalize hu : run (.set pgTop R.TOP_STATE 2) (run (.set pgTop R.TOP_FRAME_NUM s.nextFrame) _) = u
  have hstate : u.fstate = 2 := by
    rw [← hu]
    exact get_set_same _ _ _ _ (by decide)
  have hnum : u.frameNum = s.nextFrame := by
    rw [← hu, State.frameNum, get_set_other _ pgTop pgTop R.TOP_STATE R.TOP_FRAME_NUM 2 (by decide) (by decide), get_set_same _ _ _ _ (by decide)]
    exact Nat.mod_eq_of_lt hnext
  have hpower : Opened s.nextFrame u.seg.tOpen (run (setPower 3) u) := by
    obtain ⟨hp, hcells⟩ := setPower_takes (v := 3) (by decide) u
    have cell (a : Nat) (ha : a < 0x1000) := hcells a ha
    refine ⟨(congrArg (fun w : Word => bits w.toNat 2 0) (cell 0x088 (by decide))).trans hstate,
      (congrArg (fun w : Word => bits w.toNat 31 0) (cell 0x084 (by decide))).trans hnum, hp, ?_⟩
    rw [(only_light (light_setPower 3) u).2.2.2.1]
  have hshown : Prog.Only Act.opens (.all [.set pgTop R.TOP_TRIG_COUNT 0, .setQ pgTop R.TOP_OPEN_TIME q]) := by
    simp only [Prog.setQ, only_all_cons, only_all_nil, only_set, only_seti, and_true]
    exact ⟨⟨by decide, by decide, by decide⟩, ⟨by decide, by decide, by decide⟩, ⟨by decide, by decide, by decide⟩, by decide, by decide, by decide⟩
  have hshown' := opened_of_only hshown hpower
  rw [run_pair] at hshown'
  generalize run (.setQ pgTop R.TOP_OPEN_TIME q) (run (.set pgTop R.TOP_TRIG_COUNT 0) (run (setPower 3) u)) = v at hshown'
  generalize hw : run (.seg _) v = w
  have hopened : Opened s.nextFrame q w := by
    rw [← hw]
    exact ⟨hshown'.fstate, hshown'.number, hshown'.power, rfl⟩
  have hrest (f : Trig → Trig) (g : Nat → Chan → Chan) (k : TimeB → TimeB) (l : List Nat) : Prog.Only Act.opens (.all [.trig f,
      .each (List.range 8) fun c => modChan c (g c), .time k, .each (List.range 16) tdcStat,
      .each l fun n => .all [joinFrame n q 0, .set (pgSt n) R.ST_DRAINED 0], raise pgTop 1]) := by
    simp only [only_all_cons, only_all_nil, opens_streams, true_and, and_true]
    exact ⟨⟨trivial, trivial⟩, only_each _ _ fun _ _ => ⟨trivial, trivial⟩, ⟨trivial, trivial⟩, only_each _ _ fun k _ => opens_tdcStat k,
      only_raise pgTop 1 opens_of_delivers ⟨by decide, by decide, by decide⟩⟩
  refine ⟨opened_of_only (hrest _ _ _ _) hopened, ?_⟩
  simp only [run_all_cons, run_all_nil]
  exact raised_raise rfl (by decide) (by decide) _

/-- An open that nothing refuses or holds is made: the commits apply, the frame is open, and FRAME_OPEN completes (R47, R181). -/
theorem openNow_opens {s : State} (q : Nat) (h : s.openRefused = none) :
    Opened s.nextFrame q (run (openNow q) s) ∧ (run (openNow q) s).raised pgTop 1 = true := by
  rw [openNow, run_ask, h]
  simp only
  rw [run_all_cons, run_pair]
  have hnum := frameNum_commitAtOpen h
  generalize run commitAtOpen s = u at hnum
  obtain ⟨hopened, hraised⟩ := frameOpens_opens q u
  have hnext : u.nextFrame = s.nextFrame := by rw [State.nextFrame, hnum, State.nextFrame]
  rw [hnext] at hopened
  generalize run (frameOpens q) u = v at hopened hraised
  have hdone := commandsOnly_run (completes_finishWaiters 0x10 stOK s.nextFrame) v
  have hpower : (run (finishWaiters 0x10 stOK s.nextFrame) v).pstate = v.pstate := hdone.get_eq (by decide)
  have hnumber : (run (finishWaiters 0x10 stOK s.nextFrame) v).frameNum = v.frameNum := hdone.get_eq (by decide)
  exact ⟨⟨hdone.fstate_eq.trans hopened.fstate, hnumber.trans hopened.number, hpower.trans hopened.power, by rw [hdone.seg_eq]; exact hopened.tOpen⟩,
    (hdone.raised_eq (by decide)).trans hraised⟩

theorem run_tryOpen {s : State} (hrun : s.scsRun = true) (hholds : s.runHolds = false) : run tryOpen s = run (openNow s.nextQ) s := by
  rw [tryOpen, run_ask, if_neg (by simp [hrun]), if_neg (by simp [hholds])]

end Sys2Proof.Machine

/-! SUPPORT. Proofs: a step of Q-time that waited is made (R251). -/

namespace Sys2Proof.Machine

/-! ### A step of Q-time (R251) -/

/-- A counter advances by one and an event is raised. -/
theorem counted_incRaise {p : Pg} {r : Row} (hr : r.sound = true) (k : Nat) (hlow : r.addr p 0 ∉ deliveryCells) (hne : r.addr p 0 ≠ p.base + 0x014)
    (s : State) : Counted s (run (incRaise p r k) s) p r 1 := by
  rw [incRaise, run_pair]
  exact (counted_inc p r s hr).after (only_get (only_raise p k (spares_of_delivers _ hlow) hne) _)

/-- What is shown of a step once Q-time has jumped. -/
def showStep : Prog :=
  .all [.ask fun s => .when s.time.stepTai (.set pgTime R.TIME_TAI_VALID 1), .set pgTime R.TIME_STEP_PEND 0, incRaise pgTime R.TIME_CNT_STEP 5]

theorem light_showStep : Prog.Only Act.light showStep := by
  simp only [showStep, only_all_cons, only_all_nil, only_ask, only_when, only_set, light_incRaise, Act.light, implies_true, and_self]

theorem showStep_shows (s : State) :
    let t := run showStep s
    t.get pgTime R.TIME_STEP_PEND = 0 ∧ Counted s t pgTime R.TIME_CNT_STEP 1 ∧ t.raised pgTime 5 = true := by
  rw [showStep, run_all_cons, run_pair]
  generalize hu : run (.ask fun s => .when s.time.stepTai (.set pgTime R.TIME_TAI_VALID 1)) s = u
  have hcount : u.get pgTime R.TIME_CNT_STEP = s.get pgTime R.TIME_CNT_STEP := by
    rw [← hu, run_ask, run_when]
    split
    · exact get_set_other s pgTime pgTime R.TIME_TAI_VALID R.TIME_CNT_STEP 1 (by decide) (by decide)
    · rfl
  have hcleared := get_set_same u pgTime R.TIME_STEP_PEND 0 (by decide)
  have hcount' := get_set_other u pgTime pgTime R.TIME_STEP_PEND R.TIME_CNT_STEP 0 (by decide) (by decide)
  generalize run (.set pgTime R.TIME_STEP_PEND 0) u = v at hcleared hcount'
  have hkept : Prog.Only (Act.spares (R.TIME_STEP_PEND.addr pgTime 0)) (incRaise pgTime R.TIME_CNT_STEP 5) :=
    only_incRaise _ _ _ (spares_of_delivers _ (by decide)) (show (_ : Nat) ≠ _ by decide) fun _ => (show (_ : Nat) ≠ _ by decide)
  have hcounted := counted_incRaise (p := pgTime) (r := R.TIME_CNT_STEP) (by decide) 5 (by decide) (by decide) v
  refine ⟨(only_get hkept v).trans hcleared, hcounted.before (hcount'.trans hcount), ?_⟩
  rw [incRaise, run_pair]
  exact raised_raise rfl (by decide) (by decide) _

/-- A step that waited: Q-time has jumped by its error, and no open went on. -/
theorem stepDone_steps {s : State} (hopen : s.seg.openWait = false) :
    let t := run (.all [stepBy s.time.err, openPending]) s
    t.time.q = ((s.time.q : Int) + s.time.err * 2 ^ 32).toNat % 2 ^ 128 ∧ t.time.err = 0 ∧ t.get pgTime R.TIME_STEP_PEND = 0 ∧
      Counted s t pgTime R.TIME_CNT_STEP 1 ∧ t.raised pgTime 5 = true := by
  have hstep : run (stepBy s.time.err) s = run showStep (run (.time fun t =>
      { t with q := ((t.q : Int) + s.time.err * 2 ^ 32).toNat % 2 ^ 128, err := 0, theta := t.theta - s.time.err })
      (run (shiftTimes s.time.err) s)) := by
    simp only [stepBy, showStep, run_all_cons, run_all_nil]
  have hshift : (run (shiftTimes s.time.err) s).time.q = s.time.q ∧ (run (shiftTimes s.time.err) s).seg = s.seg ∧
      (run (shiftTimes s.time.err) s).regs = s.regs := by
    rw [shiftTimes, run_pair]
    exact ⟨rfl, rfl, rfl⟩
  obtain ⟨hq, hseg, hregs⟩ := hshift
  rw [run_pair, hstep]
  generalize run (shiftTimes s.time.err) s = u at hq hseg hregs
  generalize hv : run (.time _) u = v
  have hvq : v.time.q = ((s.time.q : Int) + s.time.err * 2 ^ 32).toNat % 2 ^ 128 ∧ v.time.err = 0 := by
    rw [← hv, ← hq]
    exact ⟨rfl, rfl⟩
  have hvseg : v.seg = s.seg := by rw [← hv]; exact hseg
  have hvregs : v.regs = s.regs := by rw [← hv]; exact hregs
  obtain ⟨-, -, -, hlseg, hltime, -⟩ := only_light light_showStep v
  obtain ⟨hpend, hcount, hraised⟩ := showStep_shows v
  rw [run_openPending_none (by rw [hlseg, hvseg, hopen])]
  dsimp only
  rw [hltime]
  exact ⟨hvq.1, hvq.2, hpend, hcount.before (get_congr hvregs _ _), hraised⟩

end Sys2Proof.Machine

/-! SUPPORT. Proofs: the records of a frame are written, and its pods are queued (R184, R187, R192). -/

namespace Sys2Proof.Machine

/-! ### Rings that have nothing to write -/

/-- No ring has an entry of the device's, nor a record begun. -/
def IdleRings (s : State) : Prop := ∀ e ∈ s.host.rings, e.2.ents = [] ∧ e.2.part = none

theorem IdleRings.ring {s : State} (h : IdleRings s) (n : Nat) : (s.ring n).ents = [] ∧ (s.ring n).part = none := by
  rw [State.ring, Tab.get]
  cases hf : Tab.find s.host.rings n with
  | none => exact ⟨rfl, rfl⟩
  | some r => exact h _ (Tab.mem_of_find hf)

theorem idleRings_modRing {s : State} (h : IdleRings s) (n : Nat) (f : Ring → Ring) (hf : ∀ r, (f r).ents = r.ents ∧ (f r).part = r.part) :
    IdleRings (run (modRing n f) s) := fun e he => by
  rcases Tab.mem_put _ _ _ _ (show e ∈ Tab.put s.host.rings n (f (s.ring n)) from he) with rfl | he
  · exact ⟨(hf _).1.trans (h.ring n).1, (hf _).2.trans (h.ring n).2⟩
  · exact h e he

theorem idleRings_only {p : Prog} (hp : Prog.Only Act.keepsRings p) {s : State} (h : IdleRings s) : IdleRings (run p s) := by
  have hrings := hp.keeps (fun s => s.host.rings) (fun a t ha => by
    cases a with
    | host f => exact ha t.host
    | _ => rfl) s
  exact fun e he => h e (by rw [← hrings]; exact he)

theorem idleRings_eventRingPut {s : State} {q : Prog} (h : IdleRings s) (n : Nat) (w : WaitEnt) (hq : ∀ s, IdleRings s → IdleRings (run q s)) :
    IdleRings (run (eventRingPut n w q) s) := by
  rw [eventRingPut, run_ask]
  split
  · rw [run_pair, evtDrop, run_pair]
    exact hq _ (idleRings_only (only_inc _ _ fun _ => trivial) (idleRings_modRing h n _ fun _ => ⟨rfl, rfl⟩))
  · rw [run_pair]
    have hput := idleRings_modRing h n (fun r => { r with waiting := r.waiting ++ [w] }) fun _ => ⟨rfl, rfl⟩
    rw [run_ringFlush_none (by rw [(hput.ring n).1]; exact fun _ h => absurd h List.not_mem_nil)]
    exact hput

/-- An event's delivery gives an idle ring nothing to write but what waits. -/
theorem idleRings_deliverN (k e : Nat) {s : State} (h : IdleRings s) : IdleRings (run (deliverN k e) s) := by
  induction k generalizing e s with
  | zero => exact h
  | succ k ih =>
    have again : ∀ s, IdleRings s → IdleRings (run (dropAgain k) s) := fun s hs => by
      have hset : IdleRings (run (setSource pgPcie 3) s) := idleRings_only ((only_one (.fld _ _ _ _)).2 trivial) hs
      rw [dropAgain, run_ask, run_pair, run_when]
      split
      · exact ih _ hset
      · exact hset
    have drop : ∀ s, IdleRings s → IdleRings (run (evtDrop (dropAgain k)) s) := fun s hs => by
      rw [evtDrop, run_pair]
      exact again _ (idleRings_only (only_inc _ _ fun _ => trivial) hs)
    rw [deliverN, run_ask]
    simp only
    split
    · exact idleRings_only ((only_one (.host _)).2 fun _ => rfl) h
    · split
      · split
        · exact idleRings_only (keepsRings_msixDeliver _) h
        · exact drop _ h
      · split
        · exact idleRings_eventRingPut h _ _ again
        · exact drop _ h
      · split
        · split
          · exact idleRings_only (only_txSend _ _ (fun _ => trivial) fun _ => trivial) h
          · exact drop _ h
        · exact drop _ h
      · refine idleRings_only ?_ h
        simp only [only_all_cons, only_all_nil, only_when, only_out, and_true]
        exact ⟨⟨fun _ => rfl, trivial⟩, fun _ => trivial⟩
      · exact h

theorem idleRings_raise {s : State} (p : Pg) (k : Nat) (h : IdleRings s) : IdleRings (run (raise p k) s) := by
  have hset : IdleRings (run (setSource p k) s) := idleRings_only ((only_one (.fld _ _ _ _)).2 trivial) h
  rw [run_raise]
  split
  · exact idleRings_deliverN 2 _ hset
  · exact hset

/-! ### DRAINED (R192) -/

/-- A stream shows DRAINED. -/
def showDrainedOf (n : Nat) : Prog := .all [.set (pgSt n) R.ST_DRAINED 1, raise (pgSt n) 3]

/-- DRAINED is shown on ST pages, and the event raised there; a delivery may write PCIE's counters. -/
theorem spares_showDrainedOf (n a : Nat) (h : a % 0x1000 ≠ 0x074) (h' : a % 0x1000 ≠ 0x014) (hlow : a < 0x400000) :
    Prog.Only (Act.spares a) (showDrainedOf n) := by
  have hb : (pgSt n).base = 0x100000 + 0x1000 * n := rfl
  simp only [showDrainedOf, only_all_cons, only_all_nil, only_set, and_true]
  refine ⟨?_, only_raise _ _ (spares_of_delivers a (notMem_deliveryCells (.inl hlow))) ?_⟩
  · show a ≠ (pgSt n).base + 0x074 + 4 * 0
    omega
  · show a ≠ (pgSt n).base + 0x014
    omega

theorem light_showDrainedOf (n : Nat) : Prog.Only Act.light (showDrainedOf n) := by
  simp only [showDrainedOf, only_all_cons, only_all_nil, only_set, light_raise, Act.light, and_self]

theorem drained_showDrainedOf (m : Nat) {n : Nat} (hn : n < 256) {s : State} (h : m = n ∨ s.get (pgSt n) R.ST_DRAINED = 1) :
    (run (showDrainedOf m) s).get (pgSt n) R.ST_DRAINED = 1 := by
  have hraise : Prog.Only (Act.spares (R.ST_DRAINED.addr (pgSt n) 0)) (raise (pgSt m) 3) := by
    refine only_raise _ _ (spares_of_delivers _ (notMem_deliveryCells (.inl ?_))) ?_
    · show 0x100000 + 0x1000 * n + 0x074 + 4 * 0 < _
      omega
    · show 0x100000 + 0x1000 * n + 0x074 + 4 * 0 ≠ 0x100000 + 0x1000 * m + 0x014
      omega
  rw [showDrainedOf, run_pair, only_get hraise]
  by_cases hm : m = n
  · rw [hm]
    exact get_set_same s (pgSt n) R.ST_DRAINED 1 (by decide)
  · refine (get_set_other s (pgSt m) (pgSt n) R.ST_DRAINED R.ST_DRAINED 1 (by decide) (.inl ?_)).trans (h.resolve_left hm)
    show 0x100000 + 0x1000 * n + 0x074 + 4 * 0 ≠ 0x100000 + 0x1000 * m + 0x074 + 4 * 0
    omega

section
variable (s : State)

theorem run_showDrained : run showDrained s =
    run (.each (which 256 fun n => (s.strm n).inPod && s.get (pgSt n) R.ST_DRAINED = 0 && s.streamWritten n) showDrainedOf) s := rfl

theorem light_showDrained : Prog.Only Act.light showDrained := fun _ => only_each _ _ fun n _ => light_showDrainedOf n

theorem cell_showDrained (a : Nat) (h : a % 0x1000 ≠ 0x074) (h' : a % 0x1000 ≠ 0x014) (hlow : a < 0x400000) :
    (run showDrained s).cell a = s.cell a :=
  only_cell (show Prog.Only (Act.spares a) showDrained from fun _ => only_each _ _ fun n _ => spares_showDrainedOf n a h h' hlow) s

theorem idleRings_showDrained (h : IdleRings s) : IdleRings (run showDrained s) := by
  rw [run_showDrained]
  refine run_each_keeps (P := IdleRings) (fun n _ t ht => ?_) s h
  rw [showDrainedOf, run_pair]
  exact idleRings_raise _ _ (idleRings_only ((only_set ..).2 trivial) ht)

/-- Every stream of the frame that is written shows DRAINED. -/
theorem drained_showDrained {n : Nat} (hn : n < 256) (hp : (s.strm n).inPod = true) (hw : s.streamWritten n = true) :
    (run showDrained s).get (pgSt n) R.ST_DRAINED = 1 := by
  rw [run_showDrained]
  by_cases h0 : s.get (pgSt n) R.ST_DRAINED = 0
  · refine run_each_establishes (P := fun t => t.get (pgSt n) R.ST_DRAINED = 1) (a := n) ?_ (fun t => drained_showDrainedOf n hn (.inl rfl))
      (fun m _ t ht => drained_showDrainedOf m hn (.inr ht)) s
    exact List.mem_filter.2 ⟨List.mem_range.2 hn, by simp [hp, h0, hw]⟩
  · have h1 : s.get (pgSt n) R.ST_DRAINED = 1 := by
      have : s.get (pgSt n) R.ST_DRAINED < 2 := geti_lt s (pgSt n) R.ST_DRAINED 0
      omega
    exact run_each_keeps (P := fun t => t.get (pgSt n) R.ST_DRAINED = 1) (fun m _ t ht => drained_showDrainedOf m hn (.inr ht)) s h1

end

/-- Nothing of a stream stays to be written where nothing of it is in the rings and all else is as it was. -/
theorem streamWritten_of_idle {s t : State} {n : Nat} (hw : s.streamWritten n = true) (hseg : t.seg = s.seg) (hnet : t.net = s.net)
    (hslot : t.slotOf n = s.slotOf n) (hidle : IdleRings t) : t.streamWritten n = true := by
  rw [State.streamWritten, Bool.and_eq_true, Bool.and_eq_true] at hw
  obtain ⟨⟨hqueues, -⟩, hctx⟩ := hw
  have hstrm : t.strm n = s.strm n := by rw [State.strm, hseg, State.strm]
  have hmap (m : Nat) : t.map m = s.map m := by rw [State.map, hseg, State.map]
  rw [State.streamWritten, Bool.and_eq_true, Bool.and_eq_true]
  refine ⟨⟨?_, ?_⟩, by rw [hnet]; exact hctx⟩
  · rw [hstrm, hslot]
    simp only [hmap]
    exact hqueues
  · rw [Bool.not_eq_true', List.any_eq_false]
    intro e he
    obtain ⟨hents, hpart⟩ := hidle e he
    simp [hents, hpart]

/-- Live copies are not written. -/
theorem livei_showDrained (s : State) (p : Pg) (r : Row) (i : Nat) (h : 0x800 ≤ (r.addr p i + 0x800) % 0x1000)
    (hlow : r.addr p i + 0x800 < 0x400000) :
    (run showDrained s).livei p r i = s.livei p r i := by
  rw [State.livei, cell_showDrained s _ (by omega) (by omega) hlow, State.livei]

theorem slotOf_showDrained (s : State) {n : Nat} (hn : n < 256) : (run showDrained s).slotOf n = s.slotOf n := by
  have hst : R.ST_DEN_EN.addr (pgSt n) 0 = 0x100000 + 0x1000 * n + 0x064 + 4 * 0 := rfl
  have hden (m : Nat) (hm : m < 16) (r : Row) (hr : r.off = 0x040 ∧ r.stride = 32) :
      (run showDrained s).livei pgDen r m = s.livei pgDen r m := by
    have hb : r.addr pgDen m = 0x42000 + r.off + r.stride * m := rfl
    obtain ⟨ho, hs⟩ := hr
    rw [ho, hs] at hb
    exact livei_showDrained s _ _ _ (by omega) (by omega)
  have hen : (run showDrained s).st n R.ST_DEN_EN = s.st n R.ST_DEN_EN := livei_showDrained s _ _ _ (by omega) (by omega)
  rw [State.slotOf, State.slotOf, hen]
  congr 2
  refine List.filter_congr fun m hm => ?_
  have hm := List.mem_range.1 hm
  rw [hden m hm _ ⟨rfl, rfl⟩, hden m hm _ ⟨rfl, rfl⟩]

/-- The third wait of the drain ends: every stream of the frame shows DRAINED, and the pods are awaited (R184). -/
theorem drainRecords_drains {s : State} (hf : s.fstate = 3) (hd : s.seg.drain = 2) (hr : s.host.rings = [])
    (hw : ∀ n, n < 256 → s.streamWritten n = true) :
    let t := run drainRecords s
    t.seg.drain = 3 ∧ t.seg.podWait = s.podDests ∧ ∀ n, n < 256 → (s.strm n).inPod = true → t.get (pgSt n) R.ST_DRAINED = 1 := by
  have hdrained (n : Nat) (hn : n < 256) (hp : (s.strm n).inPod = true) := drained_showDrained s hn hp (hw n hn)
  obtain ⟨-, -, -, hseg, -, -, hnet, -⟩ := only_light light_showDrained s
  have hidle := idleRings_showDrained s fun e he => by rw [hr] at he; cases he
  have hnum : (run showDrained s).frameNum = s.frameNum :=
    congrArg (fun w : Word => bits w.toNat 31 0) (cell_showDrained s 0x084 (by decide) (by decide) (by decide))
  have hwritten : (List.range 256).all (run showDrained s).streamWritten = true := List.all_eq_true.2 fun n hn => by
    have hn := List.mem_range.1 hn
    exact streamWritten_of_idle (hw n hn) hseg hnet (slotOf_showDrained s hn) hidle
  have hdests : (run showDrained s).podDests = s.podDests := by rw [State.podDests, State.podDests, hnum]; simp only [State.strm, hseg]
  have hrun : run drainRecords s = run (.seg fun g => { g with drain := 3 }) (run (queuePods s.podDests false) (run showDrained s)) := by
    rw [drainRecords, run_ask, run_when, if_pos (by simp [hf, hd]), run_all_cons, hr, List.map_nil, run_each_nil, run_pair, run_ask, run_when,
      if_pos hwritten, run_pair, hdests]
  rw [hrun]
  generalize run showDrained s = u at hdrained
  refine ⟨rfl, rfl, fun n hn hp => (get_congr ?_ _ _).trans (hdrained n hn hp)⟩
  rfl

end Sys2Proof.Machine

/-! SUPPORT. Proofs: what is partly filled is flushed once the requests of a frame are done (R184, R266, R270, R271). -/

namespace Sys2Proof.Machine

/-! ### Flushes leave what the pairs are set to (R271) -/

section
variable {a : Nat} (ha : 0x43800 ≤ a ∧ a < 0x44000)
include ha

theorem spares_of_queues (x : Act) (h : x.queues) : x.spares a := by
  cases x with
  | fld b hi lo v =>
    have hb : queueCell b := h
    have hhist : pgHist.base = 0x40000 := rfl
    have hst : (pgSt 0).base = 0x100000 := rfl
    unfold queueCell at hb
    show a ≠ b
    omega
  | wr => exact h.elim
  | _ => trivial

theorem sparesLive_pushData (r : Rec) : Prog.Only (Act.spares a) (pushData r) := Prog.Only.mono (spares_of_queues ha) _ (queues_pushData r)

/-- A field of the DIFF page that holds no setting lies below the live copies. -/
theorem sparesLive_fld {r : Row} (hr : r.off < 0x800) (hi lo v : Nat) : (Act.fld (r.addr pgDiff 0) hi lo v).spares a := by
  show a ≠ 0x43000 + r.off + r.stride * 0
  omega

theorem sparesLive_raise (k : Nat) : Prog.Only (Act.spares a) (raise pgDiff k) :=
  only_raise _ _ (spares_of_delivers a (notMem_deliveryCells (.inl (by omega)))) (show a ≠ 0x43014 by omega)

theorem sparesLive_closeEntries (n : Nat) : Prog.Only (Act.spares a) (closeEntries n) := fun s => by
  dsimp only
  split
  · simp only [only_all_cons, only_all_nil, only_when, sparesLive_pushData ha, implies_true, and_true]
    exact ⟨trivial, trivial⟩
  · trivial

theorem sparesLive_addEntry (n : Nat) (e : List Byte) (qt : Nat) : Prog.Only (Act.spares a) (addEntry n e qt) := by
  simp only [addEntry, only_all_cons, only_all_nil, and_true]
  refine ⟨fun _ => ⟨trivial, trivial⟩, fun s => ?_⟩
  dsimp only
  split
  · exact (only_when ..).2 fun _ => sparesLive_closeEntries ha n
  · trivial

theorem sparesLive_diffDrop (n : Nat) : Prog.Only (Act.spares a) (diffDrop n) := (only_when ..).2 fun _ => by
  simp only [only_all_cons, only_all_nil, sparesLive_raise ha, and_true]
  exact only_add _ _ _ fun _ => sparesLive_fld ha (by decide) _ _ _

theorem sparesLive_closeHist (p : Nat) : Prog.Only (Act.spares a) (closeHist p) := fun s => (only_when ..).2 fun _ => by
  simp only [only_all_cons, only_all_nil, and_true]
  exact ⟨only_each _ _ fun _ _ => sparesLive_pushData ha _, only_inc _ _ fun _ => sparesLive_fld ha (by decide) _ _ _, trivial, trivial⟩

theorem sparesLive_emitDiff (p : Nat) (x y : Stamp) : Prog.Only (Act.spares a) (emitDiff p x y) := fun s => by
  have hcount : Prog.Only (Act.spares a) (.inc pgDiff R.DIFF_CNT_DIFFS) := only_inc _ _ fun _ => sparesLive_fld ha (by decide) _ _ _
  have hpair (f : Pair → Pair) : Prog.Only (Act.spares a) (modPair p f) := ⟨trivial, trivial⟩
  have hentries (e : List Byte) : Prog.Only (Act.spares a) (.each (s.diffStreams p false) fun n => addEntry n e x.q) :=
    only_each _ _ fun _ _ => sparesLive_addEntry ha _ _ _
  simp only [only_all_cons, only_all_nil, only_ite, only_ask, only_when, hcount, hpair, hentries, sparesLive_closeHist ha, sparesLive_raise ha,
    implies_true, and_true]

theorem sparesLive_diffOf (p : Nat) (x : Stamp) : Prog.Only (Act.spares a) (diffOf p false x) := fun s => by
  have hpair (f : Pair → Pair) : Prog.Only (Act.spares a) (modPair p f) := ⟨trivial, trivial⟩
  have hnone : Prog.Only (Act.spares a) (.inc pgDiff R.DIFF_CNT_NO_MATCH) := only_inc _ _ fun _ => sparesLive_fld ha (by decide) _ _ _
  have hexcess (n : Nat) : Prog.Only (Act.spares a) (.add pgDiff R.DIFF_CNT_ALL_EXCESS n) :=
    only_add _ _ _ fun _ => sparesLive_fld ha (by decide) _ _ _
  have hemit (l : List Stamp) : Prog.Only (Act.spares a) (.each l (emitDiff p x)) := only_each _ _ fun _ _ => sparesLive_emitDiff ha _ _ _
  simp only [only_all_cons, only_all_nil, only_ite, only_when, hpair, hnone, hexcess, hemit, sparesLive_diffDrop ha, implies_true, and_true,
    Bool.false_eq_true, false_implies]

theorem sparesLive_diffFlush (p : Nat) : Prog.Only (Act.spares a) (diffFlush p) := fun s => by
  have hall (l : List Stamp) : Prog.Only (Act.spares a) (.each l (diffOf p false)) := only_each _ _ fun _ _ => sparesLive_diffOf ha _ _
  simp only [only_ite, only_when, hall, sparesLive_diffDrop ha, implies_true, and_true]

end

/-- What a program leaves of the settings of the pairs. -/
theorem df_of_only {q : Prog} (hq : ∀ a, 0x43800 ≤ a ∧ a < 0x44000 → Prog.Only (Act.spares a) q) {p : Nat} (hp : p < 64) {r : Row}
    (hr : 0x080 ≤ r.off ∧ r.off + r.stride * 63 < 0x800) (s : State) : (run q s).df p r = s.df p r := by
  have haddr : r.addr pgDiff p = 0x43000 + r.off + r.stride * p := rfl
  have hle : r.stride * p ≤ r.stride * 63 := Nat.mul_le_mul_left _ (by omega)
  rw [State.df, State.livei, only_cell (hq _ ⟨by omega, by omega⟩), State.df, State.livei]

/-! ### Histograms close (R271) -/

/-- The histogram of a pair that has one is empty. -/
def HistClosed (p : Nat) (s : State) : Prop := s.df p R.DIFF_USE = 1 → s.df p R.DIFF_OUT = 1 → (s.pair' p).hist = []

theorem pair_closeHist_other {p m : Nat} (h : p ≠ m) (s : State) : (run (closeHist m) s).pair' p = s.pair' p := by
  have hq := queuesOnly_run (only_each ((s.diffStreams m true).filter fun n => s.strmVer n ≠ 1) (fun n => pushData (histRecord s m n))
    fun n _ => queues_pushData _) s
  rw [closeHist, run_ask, run_when]
  split
  · rw [run_all_cons, run_pair]
    generalize run (.each _ _) s = u at hq ⊢
    have htime : u.pair' p = s.pair' p := by rw [State.pair', hq.1, State.pair']
    have hpair (f : Pair → Pair) (t : State) : (run (modPair m f) t).pair' p = t.pair' p := (Tab.get_mod ..).trans (if_neg h)
    rw [hpair]
    exact htime
  · rfl

theorem df_closeHist {p : Nat} (hp : p < 64) (m : Nat) {r : Row} (hr : 0x080 ≤ r.off ∧ r.off + r.stride * 63 < 0x800) (s : State) :
    (run (closeHist m) s).df p r = s.df p r := df_of_only (fun _ ha => sparesLive_closeHist ha m) hp hr s

theorem histClosed_closeHist {p : Nat} (hp : p < 64) (m : Nat) {s : State} (h : p = m ∨ HistClosed p s) : HistClosed p (run (closeHist m) s) := by
  intro hu ho
  rw [df_closeHist hp m (by decide)] at hu ho
  by_cases hm : p = m
  · rw [← hm]
    exact (closeHist_closes hu ho).2.1
  · rw [pair_closeHist_other hm]
    exact h.resolve_left hm hu ho

/-! ### Entry records close (R184) -/

/-- What every permitted act preserves, the program preserves. -/
theorem Prog.Only.preserves {W : Act → Prop} {p : Prog} (hp : Prog.Only W p) (P : State → Prop) (h : ∀ a s, W a → P s → P (applyAct a s))
    {s : State} (hs : P s) : P (run p s) := by
  induction p generalizing s with
  | nil => exact hs
  | ask k ih => exact ih s (hp s) hs
  | act a k ih => exact ih hp.2 (h a s hp.1 hs)

/-- The acts that leave the stamps and the pairs, and open no entry record of a stream. -/
def Act.flushes (n : Nat) : Act → Prop
  | .time _ => False
  | .seg f => ∀ g : Seg, (Tab.get g.strms Strm.reset n).openRec = none → (Tab.get (f g).strms Strm.reset n).openRec = none
  | _ => True

theorem flushes_of_queues (n : Nat) (x : Act) (h : x.queues) : x.flushes n := by
  cases x with
  | time => exact h.elim
  | seg f =>
    intro g hg
    rw [(h g).2 n]
    exact hg
  | _ => trivial

theorem flushes_modStrm (n m : Nat) (f : Strm → Strm) (h : ∀ t, t.openRec = none → (f t).openRec = none) :
    Prog.Only (Act.flushes n) (modStrm m f) := by
  refine ⟨fun g hg => ?_, trivial⟩
  rw [Tab.get_mod]
  split
  · next hm => exact h _ (hm ▸ hg)
  · exact hg

theorem flushes_flushStream (n m : Nat) : Prog.Only (Act.flushes n) (flushStream m) := fun s => by
  have hinc (r : Row) : Prog.Only (Act.flushes n) (.inc pgAcc r) := only_inc _ _ fun _ => trivial
  have hraise (k : Nat) : Prog.Only (Act.flushes n) (raise pgAcc k) :=
    only_raise _ _ (fun a ha => flushes_of_queues n a (queues_of_delivers a ha)) trivial
  have hpush (r : Rec) : Prog.Only (Act.flushes n) (pushData r) := Prog.Only.mono (flushes_of_queues n) _ (queues_pushData r)
  have hepoch : Prog.Only (Act.flushes n) (closeEpoch m 4) := fun s => by
    simp only [only_all_cons, only_all_nil, only_when, incRaise, hinc, hraise, implies_true, and_true]
    exact fun _ => flushes_modStrm n m _ fun _ h => h
  have hmap (k : Nat) : Prog.Only (Act.flushes n) (closeMap k 4) := fun s => (only_when ..).2 fun _ => ⟨fun _ h => h, trivial⟩
  have hentries : Prog.Only (Act.flushes n) (closeEntries m) := fun s => by
    dsimp only
    split
    · simp only [only_all_cons, only_all_nil, only_when, hpush, implies_true, and_true]
      exact flushes_modStrm n m _ fun _ _ => rfl
    · trivial
  simp only [only_all_cons, only_all_nil, only_when, hepoch, hentries, implies_true, and_true, true_and]
  split
  · exact hmap _
  · trivial

theorem openRec_flushStream {n : Nat} (m : Nat) {s : State} (h : m = n ∨ (s.strm n).openRec = none) :
    ((run (flushStream m) s).strm n).openRec = none := by
  by_cases hm : m = n
  · rw [hm, flushStream, run_ask, run_all_cons, run_pair]
    exact closeEntries_closes n _
  · exact (flushes_flushStream n m).preserves (fun t => (t.strm n).openRec = none) (fun a t ha ht => by
      cases a with
      | seg f => exact ha t.seg ht
      | _ => exact ht) (h.resolve_left hm)

theorem time_flushStreams (l : List Nat) (s : State) : (run (.each l flushStream) s).time = s.time :=
  (only_each l flushStream fun m _ => flushes_flushStream 0 m).keeps (fun t => t.time) (fun a t ha => by
    cases a with
    | time => exact ha.elim
    | _ => rfl) s

/-! ### The second wait of the drain ends (R184) -/

/-- What is partly filled is flushed: the histograms of the pairs that count are empty, and no stream has an open entry record. -/
theorem drainRequests_flushes {s v : State} (hv : run stampRelease s = v) (hf : v.fstate = 3) (hd : v.seg.drain = 1) (hr : v.requestsDone = true) :
    let t := run drainRequests s
    t.seg.drain = 2 ∧ (∀ p, p < 64 → v.df p R.DIFF_USE = 1 → v.df p R.DIFF_OUT = 1 → (t.pair' p).hist = []) ∧
      ∀ n, n < 256 → (t.strm n).openRec = none := by
  have hrun : run drainRequests s = run (.seg fun g => { g with drain := 2 }) (run (.each (List.range 256) flushStream)
      (run (.each (which 64 fun p => v.df p R.DIFF_USE = 1 && v.df p R.DIFF_OUT = 1) closeHist) (run (.each (List.range 64) diffFlush) v))) := by
    rw [drainRequests, run_pair, hv, run_ask, run_when, if_pos (by simp [hf, hd, hr]), run_all_cons, run_all_cons, run_pair]
  rw [hrun]
  have hflush (p : Nat) (hp : p < 64) {r : Row} (hr : 0x080 ≤ r.off ∧ r.off + r.stride * 63 < 0x800) :=
    df_of_only (fun a ha => only_each (List.range 64) diffFlush fun m _ => sparesLive_diffFlush ha m) hp hr v
  generalize run (.each (List.range 64) diffFlush) v = u at hflush
  have hclosed (p : Nat) (hp : p < 64) (hu : v.df p R.DIFF_USE = 1) (ho : v.df p R.DIFF_OUT = 1) :
      ((run (.each (which 64 fun p => v.df p R.DIFF_USE = 1 && v.df p R.DIFF_OUT = 1) closeHist) u).pair' p).hist = [] := by
    have hdf {r : Row} (hr : 0x080 ≤ r.off ∧ r.off + r.stride * 63 < 0x800) :=
      df_of_only (fun a ha => only_each (which 64 fun p => v.df p R.DIFF_USE = 1 && v.df p R.DIFF_OUT = 1) closeHist
        fun m _ => sparesLive_closeHist ha m) hp hr u
    refine run_each_establishes (P := HistClosed p) (List.mem_filter.2 ⟨List.mem_range.2 hp, by simp [hu, ho]⟩)
      (fun t => histClosed_closeHist hp p (.inl rfl)) (fun m _ t ht => histClosed_closeHist hp m (.inr ht)) u ?_ ?_
    · exact (hdf (by decide)).trans ((hflush p hp (by decide)).trans hu)
    · exact (hdf (by decide)).trans ((hflush p hp (by decide)).trans ho)
  generalize run (.each _ closeHist) u = w at hclosed
  have htime := time_flushStreams (List.range 256) w
  have hopen (n : Nat) (hn : n < 256) : ((run (.each (List.range 256) flushStream) w).strm n).openRec = none :=
    run_each_establishes (P := fun t => (t.strm n).openRec = none) (List.mem_range.2 hn) (fun t => openRec_flushStream n (.inl rfl))
      (fun m _ t ht => openRec_flushStream m (.inr ht)) w
  generalize run (.each (List.range 256) flushStream) w = x at htime hopen
  refine ⟨rfl, fun p hp hu ho => ?_, fun n hn => hopen n hn⟩
  have hpair : x.pair' p = w.pair' p := by rw [State.pair', htime, State.pair']
  show (x.pair' p).hist = []
  rw [hpair]
  exact hclosed p hp hu ho

end Sys2Proof.Machine

/-! SUPPORT. Proofs: enables and runs that waited for the end of a frame, where the trigger engine has nothing to settle (R86, R115, R139, R183). -/

namespace Sys2Proof.Machine

/-! ### A trigger engine with nothing to settle -/

/-- No event waits, and no definition has a provisional trigger or a firing. -/
def Trig.Quiet (t : Trig) : Prop :=
  t.waiting = [] ∧ ∀ d, (Tab.get t.defs TDef.reset d).provs = [] ∧ (Tab.get t.defs TDef.reset d).firings = []

/-- The acts that leave requests, power and the first pages alone, and give a quiet trigger engine nothing to settle. -/
def Act.calm : Act → Prop
  | .trig f => ∀ t : Trig, t.Quiet → (f t).Quiet
  | .time _ => True
  | a => a.banks

theorem calm_of_banks (a : Act) (h : a.banks) : a.calm := by
  cases a with
  | trig f => exact h.elim
  | time f => exact h.elim
  | _ => exact h

theorem calm_banks {p : Prog} (h : Prog.Only Act.banks p) : Prog.Only Act.calm p := Prog.Only.mono calm_of_banks p h

/-- Nothing has changed of the requests, the power state and the cells of the first pages. -/
structure Spared (s t : State) : Prop where
  reqs : t.seg.reqs = s.seg.reqs
  pwr : t.pwr = s.pwr
  cells : ∀ a, a < 0x10000 → t.cell a = s.cell a

theorem Spared.refl (s : State) : Spared s s := ⟨rfl, rfl, fun _ _ => rfl⟩

theorem Spared.trans {s t u : State} (h : Spared s t) (h' : Spared t u) : Spared s u :=
  ⟨h'.reqs.trans h.reqs, h'.pwr.trans h.pwr, fun a ha => (h'.cells a ha).trans (h.cells a ha)⟩

theorem Spared.get_eq {s t : State} (h : Spared s t) {p : Pg} {r : Row} (ha : r.addr p 0 < 0x10000) : t.get p r = s.get p r := by
  rw [State.get, State.geti, h.cells _ ha, State.get, State.geti]

theorem spared_of_calm {p : Prog} (h : Prog.Only Act.calm p) (s : State) : Spared s (run p s) := by
  induction p generalizing s with
  | nil => exact .refl s
  | ask k ih => exact ih s (h s) s
  | act a k ih =>
    refine Spared.trans ?_ (ih h.2 _)
    have ha : a.calm := h.1
    cases a with
    | fld b hi lo v => exact ⟨rfl, rfl, fun a hlow => by rw [cell_applyAct_fld, if_neg (Nat.ne_of_lt (Nat.lt_of_lt_of_le hlow ha))]⟩
    | seg f => exact ⟨ha s.seg, rfl, fun _ _ => rfl⟩
    | mem | emit | host | tx | conv | cal | cmd | useFree | trig | time => exact ⟨rfl, rfl, fun _ _ => rfl⟩
    | _ => exact ha.elim

theorem quiet_of_calm {p : Prog} (h : Prog.Only Act.calm p) {s : State} (hs : s.trig.Quiet) : (run p s).trig.Quiet :=
  h.preserves (fun t => t.trig.Quiet) (fun a t ha ht => by
    cases a with
    | trig f => exact ha t.trig ht
    | _ => exact ht) hs

/-- A program that from a quiet trigger engine leaves a quiet one, and the rest spared. -/
def Prog.Calms (p : Prog) : Prop := ∀ s : State, s.trig.Quiet → (run p s).trig.Quiet ∧ Spared s (run p s)

theorem calms_of_only {p : Prog} (h : Prog.Only Act.calm p) : p.Calms := fun s hs => ⟨quiet_of_calm h hs, spared_of_calm h s⟩

theorem calms_nil : Prog.Calms .nil := fun s hs => ⟨hs, .refl s⟩

theorem calms_of_banks {p : Prog} (h : Prog.Only Act.banks p) : p.Calms := calms_of_only (calm_banks h)

theorem calms_all {ps : List Prog} (h : ∀ p ∈ ps, p.Calms) : Prog.Calms (.all ps) := by
  induction ps with
  | nil => exact calms_nil
  | cons p ps ih =>
    intro s hs
    obtain ⟨hq, hp⟩ := h p List.mem_cons_self s hs
    obtain ⟨hq', hp'⟩ := ih (fun q hq => h q (List.mem_cons_of_mem _ hq)) (run p s) hq
    rw [run_all_cons]
    exact ⟨hq', hp.trans hp'⟩

theorem calms_each {α : Type} {l : List α} {f : α → Prog} (h : ∀ x ∈ l, (f x).Calms) : Prog.Calms (.each l f) := calms_all fun p hp => by
  obtain ⟨x, hx, rfl⟩ := List.mem_map.1 hp
  exact h x hx

theorem calms_when {c : Bool} {p : Prog} (h : c = true → p.Calms) : Prog.Calms (.when c p) := by
  cases c with
  | false => exact calms_nil
  | true => exact h rfl

theorem calms_ask {k : State → Prog} (h : ∀ s, s.trig.Quiet → (k s).Calms) : Prog.Calms (.ask k) := fun s hs => by
  rw [run_ask]
  exact h s hs s hs

theorem calms_pair {p q : Prog} (hp : p.Calms) (hq : q.Calms) : Prog.Calms (.all [p, q]) := calms_all (by simp [hp, hq])

/-! ### The combiner has nothing to do (R144, R145, R148) -/

theorem quiet_tdef {s : State} (h : s.trig.Quiet) (d : Nat) : (s.tdef d).provs = [] ∧ (s.tdef d).firings = [] := h.2 d

theorem calms_defSettle (d : Nat) : (defSettle d).Calms := calms_ask fun s hs => by
  rw [(quiet_tdef hs d).1]
  refine calms_ask fun t ht => ?_
  rw [(quiet_tdef ht d).1]
  exact calms_of_banks fun _ => (only_setBit ..).2 (banks_fld high_base_tcomb _ _ _ _ _)

theorem calms_seqRun (d : Nat) : (seqRun d).Calms := calms_ask fun s hs => by
  rw [(quiet_tdef hs d).2]
  refine calms_ask fun t ht => ?_
  dsimp only
  rw [(quiet_tdef ht d).2]
  exact calms_nil

theorem calms_trigSettle : trigSettle.Calms := calms_ask fun s hs => by
  rw [hs.1]
  refine calms_ask fun t ht => ?_
  dsimp only
  rw [ht.1]
  exact calms_each fun d _ => calms_seqRun d

/-- Nothing of a source that resolves is found among triggers that are none. -/
theorem calms_defResolve (d a src : Nat) (ok late : Bool) : (defResolve d a src ok late).Calms := by
  refine calms_pair (calms_of_only ⟨fun t ht => ⟨ht.1, fun e => ?_⟩, trivial⟩) (calms_defSettle d)
  obtain ⟨hp, hf⟩ := ht.2 e
  rw [Tab.get_mod]
  split
  · next he =>
    rw [← he]
    exact ⟨by rw [hp]; rfl, hf⟩
  · exact ⟨hp, hf⟩

/-- A candidate that is cancelled leaves nothing to settle. -/
theorem calms_srcResolve_cancelled (src a : Nat) : (srcResolve src a false false).Calms := calms_ask fun s _ => by
  refine calms_all ?_
  simp only [List.forall_mem_cons, List.not_mem_nil, false_implies, implies_true, and_true]
  refine ⟨calms_of_only ⟨fun t ht => ⟨?_, ht.2⟩, trivial⟩, calms_each fun d _ => calms_defResolve d a src false false, calms_trigSettle⟩
  simp [ht.1]

/-! ### Trigger units that lose their channel (R139) -/

theorem calm_modTu (n : Nat) (f : Tu → Tu) : Prog.Only Act.calm (modTu n f) := ⟨fun _ ht => ht, trivial⟩

theorem calms_tuUnknown (n a : Nat) : (tuUnknown n a).Calms := calms_ask fun s _ => by
  have hset (r : Row) (v : Nat) : Prog.Only Act.calm (.set (pgTu n) r v) := calm_banks (by simp)
  have hlevel (v : Bool) : Prog.Only Act.calm (tuSetLevel n a 0 v) := fun _ => by
    have hlist : Prog.Only Act.calm (setLevel n a v) := ⟨fun _ ht => ht, trivial⟩
    have hraise : Prog.Only Act.calm (raise (pgTu n) 2) := calm_banks (banks_raise (high_base_tu n) 2)
    simp only [only_all_cons, only_all_nil, only_when, hlist, calm_modTu, hset, hraise, implies_true, and_self]
  have hdone (c : Cand) : (candDone n c false).Calms := calms_all (by
    simp only [List.forall_mem_cons, List.not_mem_nil, false_implies, implies_true, and_true]
    exact ⟨calms_of_only (calm_modTu _ _), calms_of_banks (only_inc _ _ fun _ => banks_fld (high_base_tu n) ..), calms_srcResolve_cancelled _ _⟩)
  have hstat : Prog.Only Act.calm (tuStat n) := fun _ => by simp only [only_all_cons, only_all_nil, hset, and_self]
  refine calms_all ?_
  simp only [List.forall_mem_cons, List.not_mem_nil, false_implies, implies_true, and_true]
  exact ⟨calms_when fun _ => calms_of_only (hlevel _), calms_of_only (calm_modTu _ _), calms_each fun _ _ => hdone _, calms_of_only hstat⟩

theorem calms_syncStop (c : Nat) : (syncStop c).Calms := calms_ask fun s _ => by
  have hchan (f : Chan → Chan) : (modChan c f).Calms := calms_of_banks (banks_modChan c f)
  dsimp only
  split
  · exact calms_pair (hchan _) (calms_each fun n _ => calms_pair (calms_of_only (calm_modTu _ _)) (calms_tuUnknown n _))
  · exact calms_when fun _ => hchan _
  · exact calms_pair (hchan _) (calms_when fun _ => calms_of_banks (banks_freePipe c))
  · exact calms_nil

/-! ### What waited for the end of the frame (R86, R115, R264) -/

theorem calms_applyEn (b : Nat) (old new : Bool) : (applyEn b old new).Calms := calms_ask fun s _ => calms_when fun _ => by
  have hstart (l : List Nat) : Prog.Only Act.banks (.each l fun x => startSettle x 1) := only_each _ _ fun _ _ => banks_startSettle _ _
  have hend (l : List Nat) : Prog.Only Act.banks (.each l endSettle) := only_each _ _ fun _ _ => banks_endSettle _
  refine calms_all ?_
  simp only [List.forall_mem_cons, List.not_mem_nil, false_implies, implies_true, and_true]
  refine ⟨calms_when fun _ => calms_of_banks ?_, calms_syncStop b, calms_of_banks banks_showRot⟩
  simp only [only_ite, only_all_cons, only_all_nil, only_when, banks_powerChan, hstart, hend, banks_startOwnRun, banks_leaveRuns, banks_holdEnd,
    implies_true, and_self]

theorem calms_applyEnHeld : applyEnHeld.Calms := calms_ask fun _ _ => calms_each fun _ _ =>
  calms_pair (calms_of_banks (banks_conv _)) (calms_applyEn _ _ _)

theorem calms_cdStart (k : Nat) : (cdStart k).Calms := calms_of_only fun _ => by
  have hset (v : Nat) : Prog.Only Act.calm (.set (pgTdc k) R.TDC_CD_BUSY v) := calm_banks (by simp)
  have htdc (f : Tdc → Tdc) : Prog.Only Act.calm (modTdc k f) := ⟨trivial, trivial⟩
  simp only [only_all_cons, only_all_nil, hset, htdc, and_self]

/-- Enables, runs and tests that waited for the end of the frame. -/
def afterFrame : Prog :=
  .all [applyEnHeld, .each [0, 1] fun d => .ask fun s => startDue d (s.hardDue d),
    .each [0, 1] fun k => .ask fun s => .when (s.tdc k).cdWait (cdStart k)]

theorem calms_afterFrame : afterFrame.Calms := by
  refine calms_all ?_
  simp only [List.forall_mem_cons, List.not_mem_nil, false_implies, implies_true, and_true]
  exact ⟨calms_applyEnHeld, calms_each fun _ _ => calms_ask fun _ _ => calms_of_banks (banks_startDue _ _),
    calms_each fun _ _ => calms_ask fun _ _ => calms_when fun _ => calms_cdStart _⟩

end Sys2Proof.Machine

/-! SUPPORT. Proofs: a frame ends, with every pod written or abandoned (R35, R184, R186, R188). -/

namespace Sys2Proof.Machine

/-! ### Per-frame state clears (R188) -/

/-- What is cleared of streams and maps. -/
def clearStreams : Prog :=
  .all [.each (List.range 256) fun n => .all [.set (pgSt n) R.ST_IN_FRAME 0, .set64 (pgSt n) R.ST_NEXT_SEQ_LO R.ST_NEXT_SEQ_HI 0, eqStat n],
    .each (List.range 16) fun m => .seti pgDen R.DEN_SAT m 0]

/-- What is cleared of stamps and pairs. -/
def clearStamps : Prog :=
  .all [.set pgTcomb R.TCOMB_PROV 0,
    .time fun t => { t with pairs := [], held := [], tdcs := t.tdcs.map fun e => (e.1, { e.2 with fifo := [] }) },
    .each (List.range 16) tdcStat, engineStat]

theorem calm_clearStreams : Prog.Only Act.calm clearStreams := by
  have hst (r : Row) (n v : Nat) : Prog.Only Act.calm (.set (pgSt n) r v) := calm_banks (by simp)
  have hseq (n : Nat) : Prog.Only Act.banks (.set64 (pgSt n) R.ST_NEXT_SEQ_LO R.ST_NEXT_SEQ_HI 0) :=
    only_set64 _ _ _ _ (fun _ => banks_fld (high_base_st n) ..) fun _ => banks_fld (high_base_st n) ..
  simp only [clearStreams, only_all_cons, only_all_nil, and_true]
  refine ⟨only_each _ _ fun n _ => ?_, only_each _ _ fun m _ => calm_banks (by simp)⟩
  simp only [only_all_cons, only_all_nil, hst, calm_banks (hseq n), calm_banks (banks_queues (queues_eqStat n)), and_self]

theorem calm_clearStamps : Prog.Only Act.calm clearStamps := by
  have hset {p : Pg} (hp : 0x10000 ≤ p.base) (r : Row) (v : Nat) : Prog.Only Act.calm (.set p r v) := calm_banks (by simp [hp])
  have htdc (k : Nat) : Prog.Only Act.banks (tdcStat k) := fun _ => by
    simp only [only_all_cons, only_all_nil, only_set, banks_fld (high_base_tdc k), and_true, true_and]
    exact only_set64 _ _ _ _ (fun _ => banks_fld (high_base_tdc k) ..) fun _ => banks_fld (high_base_tdc k) ..
  have hengine : Prog.Only Act.calm engineStat := fun _ => by
    simp only [only_all_cons, only_all_nil, hset high_base_acc, and_self]
  simp only [clearStamps, only_all_cons, only_all_nil, hset high_base_tcomb, hengine, and_true, true_and]
  exact ⟨⟨trivial, trivial⟩, only_each _ _ fun k _ => calm_banks (htdc k)⟩

/-- The state of the frame is cleared: no request is left and no trigger is to settle. -/
structure Cleared (s t : State) : Prop where
  quiet : t.trig.Quiet
  reqs : t.seg.reqs = []
  count : t.get pgTop R.TOP_TRIG_COUNT = 0
  pwr : t.pwr = s.pwr
  cells : ∀ a, a < 0x10000 → a ≠ 0x08C → t.cell a = s.cell a

/-- Programs in sequence, grouped. -/
theorem run_all_grouped (f a b g c d e h z : Prog) (s : State) :
    run (.all [f, a, b, g, c, d, e, h, z]) s = run z (run (.all [c, d, e, h]) (run g (run (.all [a, b]) (run f s)))) := by
  simp only [run_all_cons, run_all_nil]

theorem clearFrame_clears (s : State) : Cleared s (run clearFrame s) := by
  have hstreams (t : State) := spared_of_calm calm_clearStreams t
  have hstamps := calm_clearStamps
  rw [clearStreams] at hstreams
  rw [clearStamps] at hstamps
  rw [clearFrame, run_all_grouped]
  generalize hu : run (.seg _) s = u
  have hu' : u.seg.reqs = [] ∧ u.pwr = s.pwr ∧ u.regs = s.regs := by
    rw [← hu]
    exact ⟨rfl, rfl, rfl⟩
  obtain ⟨hureqs, hupwr, huregs⟩ := hu'
  specialize hstreams u
  generalize run (.all [.each _ _, .each _ _]) u = v at hstreams
  generalize hw : run (.trig _) v = w
  have hw' : w.trig.Quiet ∧ Spared v w := by
    rw [← hw]
    exact ⟨⟨rfl, fun _ => ⟨rfl, rfl⟩⟩, rfl, rfl, fun _ _ => rfl⟩
  obtain ⟨hwquiet, hwspared⟩ := hw'
  have hquiet := quiet_of_calm hstamps hwquiet
  have hspared := (hstreams.trans hwspared).trans (spared_of_calm hstamps w)
  generalize run (.all _) w = x at hquiet hspared
  have hcell (a : Nat) : u.cell a = s.cell a := by rw [State.cell, huregs, State.cell]
  refine ⟨hquiet, hspared.reqs.trans hureqs, get_set_same x pgTop R.TOP_TRIG_COUNT 0 (by decide), hspared.pwr.trans hupwr, fun a ha hne => ?_⟩
  have htop : R.TOP_TRIG_COUNT.addr pgTop 0 = 0x08C := rfl
  rw [Prog.set, cell_seti, htop, if_neg hne, hspared.cells a ha, hcell]

/-! ### The frame ends (R183, R188) -/

/-- What is left of a frame that is over: the device is in READY again, and besides the state of the frame, what is held and the count of
triggers, the TOP page is as it was. -/
structure FrameOver (s t : State) : Prop where
  power : t.pstate = 2
  reqs : t.seg.reqs = []
  count : t.get pgTop R.TOP_TRIG_COUNT = 0
  abandoned : t.get pgTop R.TOP_ABANDONED = s.get pgTop R.TOP_ABANDONED
  pwr : t.pwr = s.pwr
  cells : ∀ a, a < 0x1000 → a ≠ 0x040 → a ≠ 0x088 → a ≠ 0x08C → t.cell a = s.cell a

/-- A field of the TOP page that is written leaves the other cells. -/
theorem cell_set_top (r : Row) (v : Nat) (s : State) {a : Nat} (ha : a ≠ r.addr pgTop 0) : (run (.set pgTop r v) s).cell a = s.cell a := by
  rw [Prog.set, cell_seti, if_neg ha]

theorem get_abandoned_set_state (v : Nat) (s : State) :
    (run (.set pgTop R.TOP_STATE v) s).get pgTop R.TOP_ABANDONED = s.get pgTop R.TOP_ABANDONED :=
  get_set_other s pgTop pgTop R.TOP_STATE R.TOP_ABANDONED v (by decide) (by decide)

section
variable {s t : State} (h : FrameOver s t)
include h

theorem FrameOver.spared {u : State} (hu : Spared t u) : FrameOver s u :=
  ⟨(hu.get_eq (by decide)).trans h.power, hu.reqs.trans h.reqs, (hu.get_eq (by decide)).trans h.count, (hu.get_eq (by decide)).trans h.abandoned,
    hu.pwr.trans h.pwr, fun a ha h0 h1 h2 => (hu.cells a (by omega)).trans (h.cells a ha h0 h1 h2)⟩

theorem FrameOver.set_state (v : Nat) : FrameOver s (run (.set pgTop R.TOP_STATE v) t) :=
  ⟨(get_set_other t pgTop pgPwr R.TOP_STATE R.PWR_STATE v (by decide) (by decide)).trans h.power, h.reqs,
    (get_set_other t pgTop pgTop R.TOP_STATE R.TOP_TRIG_COUNT v (by decide) (by decide)).trans h.count,
    (get_abandoned_set_state v t).trans h.abandoned, h.pwr,
    fun a ha h0 h1 h2 => (cell_set_top R.TOP_STATE v t h1).trans (h.cells a ha h0 h1 h2)⟩

theorem FrameOver.set_held (v : Nat) : FrameOver s (run (.set pgTop R.TOP_HELD v) t) :=
  ⟨(get_set_other t pgTop pgPwr R.TOP_HELD R.PWR_STATE v (by decide) (by decide)).trans h.power, h.reqs,
    (get_set_other t pgTop pgTop R.TOP_HELD R.TOP_TRIG_COUNT v (by decide) (by decide)).trans h.count,
    (get_set_other t pgTop pgTop R.TOP_HELD R.TOP_ABANDONED v (by decide) (by decide)).trans h.abandoned, h.pwr,
    fun a ha h0 h1 h2 => (cell_set_top R.TOP_HELD v t h0).trans (h.cells a ha h0 h1 h2)⟩

end

/-- The controller sends the frame's last completions, clears its state and takes the device to READY. -/
theorem frameOver_clears (status : Nat) (s : State) :
    let t := run (setPower 2) (run clearFrame (run (.set pgTop R.TOP_STATE 4) (run (finishWaiters 0x11 status 0) s)))
    t.trig.Quiet ∧ FrameOver s t := by
  have hdone := commandsOnly_run (completes_finishWaiters 0x11 status 0) s
  dsimp only
  generalize run (finishWaiters 0x11 status 0) s = u at hdone
  have hab := (get_abandoned_set_state 4 u).trans (hdone.get_eq (by decide))
  have hcell (a : Nat) (ha : a ≠ 0x088) := cell_set_top R.TOP_STATE 4 u (a := a) ha
  have hpwr : (run (.set pgTop R.TOP_STATE 4) u).pwr = s.pwr := hdone.pwr_eq
  generalize run (.set pgTop R.TOP_STATE 4) u = v at hab hcell hpwr
  obtain ⟨hquiet, hreqs, hcount, hcpwr, hccells⟩ := clearFrame_clears v
  generalize run clearFrame v = w at hquiet hreqs hcount hcpwr hccells
  obtain ⟨hpower, hpcells⟩ := setPower_takes (v := 2) (by decide) w
  obtain ⟨-, -, hptrig, hpseg, -, -, -, -, -, -, hppwr, -⟩ := only_light (light_setPower 2) w
  generalize run (setPower 2) w = x at hpower hpcells hptrig hpseg hppwr
  have get {r : Row} (hr : r.addr pgTop 0 < 0x1000) : x.get pgTop r = w.get pgTop r := by
    rw [State.get, State.geti, hpcells _ hr, State.get, State.geti]
  have getab : w.get pgTop R.TOP_ABANDONED = v.get pgTop R.TOP_ABANDONED := by
    rw [State.get, State.geti, hccells _ (by decide) (by decide), State.get, State.geti]
  exact ⟨hptrig ▸ hquiet, hpower, hpseg ▸ hreqs, (get (by decide)).trans hcount, (get (by decide)).trans (getab.trans hab),
    hppwr.trans (hcpwr.trans hpwr), fun a ha h0 h1 h2 => by
    rw [hpcells a ha, hccells a (by omega) h2, hcell a h1, hdone.cells a (by omega)]⟩

/-- What the controller does once it is idle: a repeated open is armed, or the device goes to STANDBY because of SHUT. -/
def afterIdle : Prog :=
  .all [.ask fun s => .when (decide (s.get pgTop R.TOP_FRAME_REPEAT ≠ 0) && !s.pwr.shutPend) (.all [
      .set pgTop R.TOP_FRAME_REPEAT (s.get pgTop R.TOP_FRAME_REPEAT - 1), frameOpenCmd]),
    .ask fun s => .when s.pwr.shutPend (beginTransit 1)]

theorem run_afterIdle_none {s : State} (hrepeat : s.get pgTop R.TOP_FRAME_REPEAT = 0) (hshut : s.pwr.shutPend = false) : run afterIdle s = s := by
  simp [afterIdle, run_ask, run_when, hrepeat, hshut]

theorem run_frameEnds (status : Nat) (s : State) : run (frameEnds status) s =
    run afterIdle (run showHeld (run (.set pgTop R.TOP_STATE 0) (run afterFrame (run (setPower 2) (run clearFrame (run (.set pgTop R.TOP_STATE 4)
      (run (finishWaiters 0x11 status 0) s))))))) := by
  simp only [frameEnds, afterFrame, afterIdle, run_all_cons, run_all_nil]

/-- A frame ends that is not repeated, with no SHUT waiting: the controller is idle. -/
theorem frameEnds_ends {s : State} (status : Nat) (hrepeat : s.get pgTop R.TOP_FRAME_REPEAT = 0) (hshut : s.pwr.shutPend = false) :
    (run (frameEnds status) s).fstate = 0 ∧ FrameOver s (run (frameEnds status) s) := by
  rw [run_frameEnds]
  obtain ⟨hquiet, hover⟩ := frameOver_clears status s
  generalize run (setPower 2) _ = u at hquiet hover
  have hwaited := hover.spared (calms_afterFrame u hquiet).2
  generalize run afterFrame u = v at hwaited
  have hidle : (run (.set pgTop R.TOP_STATE 0) v).fstate = 0 := get_set_same v pgTop R.TOP_STATE 0 (by decide)
  have hover := hwaited.set_state 0
  generalize run (.set pgTop R.TOP_STATE 0) v = w at hidle hover
  obtain ⟨b, hb⟩ : ∃ b, run showHeld w = run (.set pgTop R.TOP_HELD b) w := ⟨_, run_ask ..⟩
  have hidle : (run (.set pgTop R.TOP_HELD b) w).fstate = 0 :=
    (get_set_other w pgTop pgTop R.TOP_HELD R.TOP_STATE b (by decide) (by decide)).trans hidle
  have hover := hover.set_held b
  rw [hb]
  generalize run (.set pgTop R.TOP_HELD b) w = x at hidle hover
  have hxrepeat : x.get pgTop R.TOP_FRAME_REPEAT = 0 := by
    rw [← hrepeat, State.get, State.geti, hover.cells _ (by decide) (by decide) (by decide) (by decide), State.get, State.geti]
  rw [run_afterIdle_none hxrepeat (by rw [hover.pwr, hshut])]
  exact ⟨hidle, hover⟩

theorem FrameOver.get_eq {s t : State} (h : FrameOver s t) {r : Row} (ha : r.addr pgTop 0 < 0x1000)
    (hr : r.addr pgTop 0 ≠ 0x040 ∧ r.addr pgTop 0 ≠ 0x088 ∧ r.addr pgTop 0 ≠ 0x08C) : t.get pgTop r = s.get pgTop r := by
  rw [State.get, State.geti, h.cells _ ha hr.1 hr.2.1 hr.2.2, State.get, State.geti]

theorem FrameOver.raised_eq {s t : State} (h : FrameOver s t) (k : Nat) : t.raised pgTop k = s.raised pgTop k := by
  rw [State.raised, State.evtRaw, h.cells _ (by decide) (by decide) (by decide) (by decide), State.raised, State.evtRaw]

/-! ### Every pod of the frame is written (R184) -/

/-- FRAME_CLOSE completes, and the frame ends. -/
theorem finishClose_ends {s : State} (status : Nat) (hrepeat : s.get pgTop R.TOP_FRAME_REPEAT = 0) (hshut : s.pwr.shutPend = false) :
    (run (frameEnds status) (run (finishClose status) s)).fstate = 0 ∧ FrameOver s (run (frameEnds status) (run (finishClose status) s)) := by
  have hdone : CommandsOnly s (run (finishClose status) s) := by
    rw [finishClose, run_ask]
    exact commandsOnly_run (completes_finishWaiters 0x11 status s.frameNum) s
  generalize run (finishClose status) s = u at hdone
  obtain ⟨hidle, hover⟩ := frameEnds_ends (s := u) status ((hdone.get_eq (by decide)).trans hrepeat) (by rw [hdone.pwr_eq, hshut])
  generalize run (frameEnds status) u = v at hidle hover
  exact ⟨hidle, hover.power, hover.reqs, hover.count, hover.abandoned.trans (hdone.get_eq (by decide)), hover.pwr.trans hdone.pwr_eq,
    fun a ha h0 h1 h2 => (hover.cells a ha h0 h1 h2).trans (hdone.cells a (by omega))⟩

theorem podDone_ends {s : State} (hf : s.fstate = 3) (hd : s.seg.drain = 3) (hp : s.seg.podWait = [])
    (hrepeat : s.get pgTop R.TOP_FRAME_REPEAT = 0) (hshut : s.pwr.shutPend = false) :
    let t := run podDone s
    t.fstate = 0 ∧ t.pstate = 2 ∧ t.raised pgTop 3 = true ∧ t.get pgTop R.TOP_ABANDONED = 0 ∧ t.seg.reqs = [] ∧
      t.get pgTop R.TOP_TRIG_COUNT = 0 := by
  rw [podDone, run_ask, run_when, if_pos (by simp [hf, hd, hp]), run_all_cons, run_all_cons, run_pair]
  have hab := get_set_same s pgTop R.TOP_ABANDONED 0 (by decide)
  have hrep := (get_set_other s pgTop pgTop R.TOP_ABANDONED R.TOP_FRAME_REPEAT 0 (by decide) (by decide)).trans hrepeat
  have hpwr : (run (.set pgTop R.TOP_ABANDONED 0) s).pwr.shutPend = false := hshut
  generalize run (.set pgTop R.TOP_ABANDONED 0) s = u at hab hrep hpwr
  have hab := (get_raise_top 3 R.TOP_ABANDONED (by decide) (by decide) u).trans hab
  have hrep := (get_raise_top 3 R.TOP_FRAME_REPEAT (by decide) (by decide) u).trans hrep
  have hraised : (run (raise pgTop 3) u).raised pgTop 3 = true := raised_raise rfl (by decide) (by decide) u
  obtain ⟨-, -, -, -, -, -, -, -, -, -, hrpwr, -⟩ := only_light (light_raise pgTop 3) u
  generalize run (raise pgTop 3) u = v at hab hrep hraised hrpwr
  obtain ⟨hidle, hover⟩ := finishClose_ends stOK hrep (by rw [hrpwr, hpwr])
  exact ⟨hidle, hover.power, (hover.raised_eq 3).trans hraised, hover.abandoned.trans hab, hover.reqs, hover.count⟩

/-! ### A drain is abandoned (R186) -/

/-- The acts by which an abandoned drain gives up what is left of a frame: of the first pages no cell, and not the power state. -/
def Act.abandons : Act → Prop
  | .fld b _ _ _ => 0x10000 ≤ b
  | .mem _ _ | .emit _ | .host _ | .tx _ | .seg _ => True
  | _ => False

theorem abandons_of_queues (a : Act) (h : a.queues) : a.abandons := by
  have hb := banks_of_queues a h
  cases a with
  | fld b hi lo v => exact hb
  | mem | emit | host | tx | seg => trivial
  | _ => exact h.elim

theorem abandons_queues {p : Prog} (h : Prog.Only Act.queues p) : Prog.Only Act.abandons p := Prog.Only.mono abandons_of_queues p h

theorem abandons_seg (f : Seg → Seg) : Prog.Only Act.abandons (.seg f) := ⟨trivial, trivial⟩

/-- What giving up leaves. -/
theorem kept_of_abandons {p : Prog} (h : Prog.Only Act.abandons p) (s : State) :
    (run p s).pwr = s.pwr ∧ ∀ a, a < 0x10000 → (run p s).cell a = s.cell a := by
  refine ⟨h.keeps State.pwr (fun a t ha => ?_) s, fun a ha => only_cell (Prog.Only.mono (fun x hx => ?_) p h) s⟩
  · cases a with
    | pwr => exact ha.elim
    | _ => rfl
  · cases x with
    | fld b hi lo v => exact Nat.ne_of_lt (Nat.lt_of_lt_of_le ha hx)
    | wr => exact hx.elim
    | _ => trivial

theorem abandons_closeEntries (n : Nat) : Prog.Only Act.abandons (closeEntries n) := fun s => by
  dsimp only
  split
  · simp only [only_all_cons, only_all_nil, only_when, abandons_queues (queues_pushData _), implies_true, and_true]
    exact abandons_seg _
  · trivial

theorem abandons_dropMore (n d cause : Nat) (also more : List Rec) : Prog.Only Act.abandons (dropMore n d cause also more) := fun s => by
  dsimp only
  split
  · trivial
  · simp only [only_all_cons, only_all_nil, abandons_queues (queues_inc_st _ _), abandons_queues (queues_eqStat _), and_true]
    exact ⟨abandons_seg _, trivial, trivial, only_each _ _ fun _ _ => abandons_queues (queues_countLoss _ _ _)⟩

theorem abandons_abandonStream (n d cause : Nat) : Prog.Only Act.abandons (abandonStream n d cause) := by
  have hstrm (f : Strm → Strm) : Prog.Only Act.abandons (modStrm n f) := abandons_seg _
  simp only [abandonStream, only_all_cons, only_all_nil, only_ask, only_when, abandons_closeEntries, abandons_dropMore, abandons_seg, hstrm,
    abandons_queues (queues_flushPend n), implies_true, and_true, true_and]
  intro s
  refine ⟨fun _ => only_each _ _ fun _ _ => abandons_queues (queues_pushPip _), fun _ => ?_⟩
  split
  · exact abandons_seg _
  · trivial

/-- However the rest of a frame is given up, the abandoned frame is counted and ends. -/
theorem abandoned_ends {p q : Prog} (hp : Prog.Only Act.abandons p) (hq : Prog.Only Act.abandons q) {s : State}
    (hrepeat : s.get pgTop R.TOP_FRAME_REPEAT = 0) (hshut : s.pwr.shutPend = false) :
    let t := run (.all [p, q, .set pgTop R.TOP_ABANDONED 1, incRaise pgTop R.TOP_CNT_ABANDONED 4, finishClose stTimeout, frameEnds stTimeout]) s
    t.fstate = 0 ∧ t.get pgTop R.TOP_ABANDONED = 1 ∧ Counted s t pgTop R.TOP_CNT_ABANDONED 1 ∧ t.raised pgTop 4 = true := by
  rw [run_all_cons, run_all_cons, run_all_cons, run_all_cons, run_pair]
  obtain ⟨hppwr, hpcells⟩ := kept_of_abandons hp s
  generalize run p s = u at hppwr hpcells
  obtain ⟨hqpwr, hqcells⟩ := kept_of_abandons hq u
  generalize run q u = v at hqpwr hqcells
  have get {r : Row} (hr : r.addr pgTop 0 < 0x10000) : v.get pgTop r = s.get pgTop r := by
    rw [State.get, State.geti, hqcells _ hr, hpcells _ hr, State.get, State.geti]
  have hrepeat : v.get pgTop R.TOP_FRAME_REPEAT = 0 := (get (by decide)).trans hrepeat
  have hcount : v.get pgTop R.TOP_CNT_ABANDONED = s.get pgTop R.TOP_CNT_ABANDONED := get (by decide)
  have hab := get_set_same v pgTop R.TOP_ABANDONED 1 (by decide)
  have hrepeat := (get_set_other v pgTop pgTop R.TOP_ABANDONED R.TOP_FRAME_REPEAT 1 (by decide) (by decide)).trans hrepeat
  have hcount := (get_set_other v pgTop pgTop R.TOP_ABANDONED R.TOP_CNT_ABANDONED 1 (by decide) (by decide)).trans hcount
  have hpwr : (run (.set pgTop R.TOP_ABANDONED 1) v).pwr.shutPend = false := (congrArg Pwr.shutPend (hqpwr.trans hppwr)).trans hshut
  generalize run (.set pgTop R.TOP_ABANDONED 1) v = w at hab hrepeat hcount hpwr
  have keeps {r : Row} (h : ∀ a : Act, a.delivers → a.spares (r.addr pgTop 0)) (h0 : r.addr pgTop 0 ≠ 0x014) (h1 : r.addr pgTop 0 ≠ 0x0AC) :
      (run (incRaise pgTop R.TOP_CNT_ABANDONED 4) w).get pgTop r = w.get pgTop r :=
    only_get (only_incRaise pgTop R.TOP_CNT_ABANDONED 4 h h0 fun _ => h1) w
  have hab := (keeps (spares_of_delivers _ (by decide)) (by decide) (by decide)).trans hab
  have hrepeat := (keeps (spares_of_delivers _ (by decide)) (by decide) (by decide)).trans hrepeat
  have hcounted : Counted w _ pgTop R.TOP_CNT_ABANDONED 1 := counted_incRaise (by decide) 4 (by decide) (by decide) w
  have hraised : (run (incRaise pgTop R.TOP_CNT_ABANDONED 4) w).raised pgTop 4 = true := by
    rw [incRaise, run_pair]
    exact raised_raise rfl (by decide) (by decide) _
  obtain ⟨-, -, -, -, -, -, -, -, -, -, hipwr, -⟩ := only_light (light_incRaise pgTop R.TOP_CNT_ABANDONED 4) w
  generalize run (incRaise pgTop R.TOP_CNT_ABANDONED 4) w = x at hab hrepeat hcounted hraised hipwr
  obtain ⟨hidle, hover⟩ := finishClose_ends stTimeout hrepeat (by rw [hipwr, hpwr])
  exact ⟨hidle, hover.abandoned.trans hab, (hcounted.before hcount).after (hover.get_eq (by decide) (by decide)), (hover.raised_eq 4).trans hraised⟩

theorem drainAbandoned_ends {s : State} {u : Nat} (hf : s.fstate = 3) (hu : s.seg.tClose = some u) (hlate : u + msQ s.seg.drainTmo ≤ s.now)
    (hrepeat : s.get pgTop R.TOP_FRAME_REPEAT = 0) (hshut : s.pwr.shutPend = false) :
    let t := run drainAbandoned s
    t.fstate = 0 ∧ t.get pgTop R.TOP_ABANDONED = 1 ∧ Counted s t pgTop R.TOP_CNT_ABANDONED 1 ∧ t.raised pgTop 4 = true := by
  rw [drainAbandoned, run_ask, run_when, if_pos (by simp [hf, hu, hlate])]
  refine abandoned_ends ?_ ?_ hrepeat hshut
  · have hpods (l : List Nat) : Prog.Only Act.abandons (queuePods l false) := fun _ => abandons_seg _
    simp only [only_when, only_all_cons, only_all_nil, only_ask, abandons_seg, hpods, implies_true, and_true]
    exact fun _ => ⟨only_each _ _ fun _ _ => only_each _ _ fun _ _ => abandons_abandonStream _ _ _,
      only_each _ _ fun _ _ => fun _ => only_each _ _ fun _ _ => abandons_queues (queues_countLoss _ _ _)⟩
  · exact (only_when ..).2 fun _ _ => abandons_seg _

end Sys2Proof.Machine

/-! SUPPORT. Proofs: the events of the frame controller (R181, R182, R184, R186, R188, R251). -/

namespace Sys2Proof.Machine

/-- Settles O28: an armed open that is due opens the frame, a frame that lasts long enough closes, each wait of the drain ends or is abandoned, and
a step of Q-time that waited is made. -/
theorem frameEventsAct : Obligations.FrameEventsAct := by
  intro s u
  refine ⟨fun hf hsrc hwait hdue hrun hholds hopen => ⟨_, rfl, ?_⟩, fun hen hdue hf => ⟨_, rfl, ?_⟩, ?_, ?_,
    fun hf hd hr hw => ⟨_, rfl, drainRecords_drains hf hd hr hw⟩, fun hf hrep hshut => ⟨fun hd hp => ⟨_, rfl, podDone_ends hf hd hp hrep hshut⟩,
      fun hu hlate => ⟨_, rfl, drainAbandoned_ends hf hu hlate hrep hshut⟩⟩, fun hpend hf hopen => ⟨_, rfl, ?_⟩⟩
  · rw [run_ask, run_when, if_pos (by simp [hf, hsrc, hwait, hdue]), run_tryOpen hrun hholds]
    obtain ⟨hopened, hraised⟩ := openNow_opens s.nextQ hopen
    exact ⟨hopened.fstate, hopened.number, hopened.power, hopened.tOpen, hraised⟩
  · rw [run_ask, run_when, if_pos (by simp [hen, hdue])]
    have hcloses := closeFrame_closes (cause := 2) s.nowQ hf (by decide)
    exact ⟨hcloses.fstate, hcloses.cause, hcloses.tClose, hcloses.armUpto, hcloses.raised⟩
  · intro v hf hd hr
    refine ⟨_, rfl, ?_⟩
    rw [run_pair, drainProvs, run_ask]
    show run (.when (v.fstate = 3 && v.seg.drain = 0 && v.provsResolved) _) v = _
    rw [run_when, if_pos (by simp [hf, hd, hr])]
    rfl
  · intro v hf hd hr
    exact ⟨_, rfl, drainRequests_flushes (v := v) rfl hf hd hr⟩
  · rw [run_ask, run_when, if_pos (by simp [hpend, hf])]
    exact stepDone_steps hopen

end Sys2Proof.Machine

/-! SUPPORT. Proofs: what the disciplining of the time base changes (R247 to R253, R275). -/

namespace Sys2Proof.Machine

/-! ### Fields of the TIME page -/

/-- ERR_INFO of the TIME page as one field. -/
def timeErr : Row := ⟨0x028, 31, 0, .ro, 0, [], 4, 1⟩

/-- What a step of Q-time shows. -/
def stepRows : List Row := [R.TIME_TAI_VALID, R.TIME_STEP_PEND, R.TIME_CNT_STEP]

/-- What a change of STATE shows. -/
def stateRows : List Row := [R.TIME_STATE, R.TIME_CNT_HOLDOVER]

/-- What a selection shows. -/
def selectRows : List Row := R.TIME_SEL :: R.TIME_CNT_SWITCH :: stateRows ++ stepRows

/-- What the loss of a source shows. -/
def lossRows : List Row := [R.TIME_QUAL, timeErr]

/-- The same sources are qualified, and nothing has been told of PPS_IN. -/
def TimeB.SameSources (t u : TimeB) : Prop :=
  (∀ x, (Tab.find u.qual x).isSome = (Tab.find t.qual x).isSome) ∧ (t.ppsLast = none → u.ppsLast = none) ∧ u.ppsGood = t.ppsGood ∧
    u.ppsSet = t.ppsSet

theorem TimeB.SameSources.refl (t : TimeB) : t.SameSources t := ⟨fun _ => rfl, id, rfl, rfl⟩

theorem TimeB.SameSources.trans {t u v : TimeB} (h : t.SameSources u) (h' : u.SameSources v) : t.SameSources v := by
  obtain ⟨hqual, hlast, hgood, hset⟩ := h
  obtain ⟨hqual', hlast', hgood', hset'⟩ := h'
  exact ⟨fun x => (hqual' x).trans (hqual x), fun hn => hlast' (hlast hn), hgood'.trans hgood, hset'.trans hset⟩

/-- The acts that disciplining the time base consists of: they write some fields of the TIME page, set its sources, and qualify no source. -/
def Act.disciplines (X : List Row) : Act → Prop
  | .fld b hi lo v => b ∈ deliveryCells ∨ b = pgTime.base + 0x014 ∧ hi = lo ∧ lo < 32 ∧ v = 1 ∨
      ∃ x ∈ X, b = x.addr pgTime 0 ∧ x.lo ≤ lo ∧ lo ≤ hi ∧ hi ≤ x.hi
  | .wr b _ => timeErr ∈ X ∧ b = timeErr.addr pgTime 0
  | .time f => ∀ t : TimeB, t.SameSources (f t)
  | .mem _ _ | .emit _ | .host _ | .tx _ | .trig _ | .net _ | .useFree => True
  | _ => False

section
variable {X Y : List Row} {p : Prog}

theorem disciplines_mono (h : X ⊆ Y) (a : Act) (ha : a.disciplines X) : a.disciplines Y := by
  cases a with
  | fld b hi lo v =>
    rcases ha with hd | hev | ⟨x, hx, hcell⟩
    · exact .inl hd
    · exact .inr (.inl hev)
    · exact .inr (.inr ⟨x, h hx, hcell⟩)
  | wr b v => exact ⟨h ha.1, ha.2⟩
  | time f => exact ha
  | mem | emit | host | tx | trig | net | useFree => trivial
  | _ => exact ha.elim

theorem Prog.Only.widen (hp : Prog.Only (Act.disciplines X) p) (h : X ⊆ Y) : Prog.Only (Act.disciplines Y) p :=
  hp.mono (disciplines_mono h)

/-- A field that shares no bit with those that are written is kept. -/
theorem get_of_disciplines (hp : Prog.Only (Act.disciplines X) p) {r : Row} (hr : r.apartFrom X = true) (s : State) :
    (run p s).get pgTime r = s.get pgTime r := by
  simp only [Row.apartFrom, Bool.and_eq_true, decide_eq_true_eq, List.all_eq_true, Bool.or_eq_true, Row.sound] at hr
  obtain ⟨⟨hlow, hhigh⟩, hX⟩ := hr
  have haddr (x : Row) : x.addr pgTime 0 = 0x2000 + x.off := rfl
  have hbase : pgTime.base = 0x2000 := rfl
  have hcell' := haddr r
  refine hp.keeps (fun t => t.get pgTime r) (fun a t ha => ?_) s
  cases a with
  | fld b hi lo v =>
    simp only [State.get, State.geti, cell_applyAct_fld]
    split
    · next hb =>
      rcases ha with hd | ⟨hev, -⟩ | ⟨x, hx, hcell, hxlo, hlohi, hxhi⟩
      · have := deliveryCells_range b hd
        omega
      · omega
      · obtain ⟨⟨-, hn⟩, hapart⟩ := hX x hx
        have := haddr x
        rw [putField_toNat _ _ _ _ hlohi (by omega), bits_putBits_other _ _ _ _ _ _ hlohi (by omega), hb]
    · rfl
  | wr b v =>
    have : timeErr.addr pgTime 0 = 0x2028 := rfl
    simp only [State.get, State.geti, cell_applyAct_wr]
    rw [if_neg (by rw [haddr, ha.2]; omega)]
  | time | mem | emit | host | tx | trig | net | useFree => rfl
  | _ => exact ha.elim

/-- The sources that are qualified, and what is known of PPS_IN, stay. -/
theorem sources_of_disciplines (hp : Prog.Only (Act.disciplines X) p) (s : State) : s.time.SameSources (run p s).time :=
  hp.preserves (fun t => s.time.SameSources t.time) (fun a t ha ht => by
    cases a with
    | time f => exact ht.trans (ha t.time)
    | fld | wr | mem | emit | host | tx | trig | net | useFree => exact ht
    | _ => exact ha.elim) (.refl _)

theorem qualified_of_disciplines (hp : Prog.Only (Act.disciplines X) p) (s : State) (x : Nat) : (run p s).qualified x = s.qualified x :=
  (sources_of_disciplines hp s).1 x

/-- An event source of the time base that is set stays set. -/
theorem raised_of_disciplines (hp : Prog.Only (Act.disciplines X) p) (hX : (X.all fun x => x.off ≠ 0x014) = true) {s : State} {k : Nat}
    (h : s.raised pgTime k = true) : (run p s).raised pgTime k = true := by
  simp only [List.all_eq_true, decide_eq_true_eq] at hX
  refine hp.preserves (fun t => t.raised pgTime k = true) (fun a t ha ht => ?_) h
  cases a with
  | fld b hi lo v =>
    simp only [State.raised, State.evtRaw, cell_applyAct_fld] at ht ⊢
    split
    · next hb =>
      rcases ha with hd | ⟨-, rfl, hlt, rfl⟩ | ⟨x, hx, hcell, -⟩
      · exact absurd (hb ▸ hd) (by decide)
      · rw [← hb, bit_putField _ _ _ _ _ (Nat.le_refl _) hlt]
        split
        · next hk => rw [show k - hi = 0 by omega]; rfl
        · exact ht
      · have := hX x hx
        exact absurd (hb.trans hcell) (by simp only [Row.addr]; omega)
    · exact ht
  | wr b v =>
    simp only [State.raised, State.evtRaw, cell_applyAct_wr] at ht ⊢
    rw [if_neg]
    · exact ht
    · rintro h14
      exact absurd (h14.trans ha.2) (by decide)
  | time | mem | emit | host | tx | trig | net | useFree => exact ht
  | _ => exact ha.elim

/-- ERR_INFO of the time base stays. -/
theorem errInfo_of_disciplines (hp : Prog.Only (Act.disciplines X) p) (hX : (X.all fun x => x.off ≠ 0x028) = true) (s : State) :
    (run p s).errInfo pgTime = s.errInfo pgTime := by
  simp only [List.all_eq_true, decide_eq_true_eq] at hX
  refine errInfo_of_spares (hp.mono (fun a ha => ?_) p) s
  cases a with
  | fld b hi lo v =>
    rcases ha with hd | ⟨rfl, -⟩ | ⟨x, hx, rfl, -⟩
    · exact spares_of_delivers (pgTime.base + 0x028) (by decide) (.fld b hi lo v) hd
    · exact (show pgTime.base + 0x028 ≠ pgTime.base + 0x014 by decide)
    · have := hX x hx
      exact fun h => this (Nat.add_left_cancel h).symm
  | wr b v => exact absurd rfl (hX _ ha.1)
  | time | mem | emit | host | tx | trig | net | useFree => trivial
  | _ => exact ha.elim

end

/-! ### The parts of disciplining -/

section
variable {X : List Row}

theorem disciplines_of_delivers (a : Act) (h : a.delivers) : a.disciplines X := by
  cases a with
  | fld b hi lo v => exact .inl h
  | mem | emit | host | tx => trivial
  | _ => exact h.elim

theorem disciplines_row {r : Row} (hs : r.sound = true) (hr : r ∈ X) (v : Nat) : (Act.fld (r.addr pgTime 0) r.hi r.lo v).disciplines X := by
  simp only [Row.sound, Bool.and_eq_true, decide_eq_true_eq] at hs
  exact .inr (.inr ⟨r, hr, rfl, Nat.le_refl _, hs.1, Nat.le_refl _⟩)

theorem disciplines_set {r : Row} (hs : r.sound = true) (hr : r ∈ X) (v : Nat) : Prog.Only (Act.disciplines X) (.set pgTime r v) :=
  (only_set ..).2 (disciplines_row hs hr v)

theorem disciplines_raise {k : Nat} (hk : k < 32) : Prog.Only (Act.disciplines X) (raise pgTime k) :=
  only_raise _ _ disciplines_of_delivers (.inr (.inl ⟨rfl, rfl, hk, rfl⟩))

theorem disciplines_incRaise {r : Row} {k : Nat} (hs : r.sound = true) (hr : r ∈ X) (hk : k < 32) :
    Prog.Only (Act.disciplines X) (incRaise pgTime r k) :=
  only_incRaise _ _ _ disciplines_of_delivers (.inr (.inl ⟨rfl, rfl, hk, rfl⟩)) (disciplines_row hs hr)

theorem disciplines_capture (h : timeErr ∈ X) (code detail : Nat) : Prog.Only (Act.disciplines X) (capture pgTime code detail) :=
  only_capture _ _ _ disciplines_of_delivers (.inr (.inl ⟨rfl, rfl, by decide, rfl⟩))
    (.inr (.inr ⟨_, h, rfl, by decide, by decide, by decide⟩)) fun _ => ⟨h, rfl⟩

theorem disciplines_time {f : TimeB → TimeB} (h : ∀ t : TimeB, t.SameSources (f t)) : Prog.Only (Act.disciplines X) (.time f) := ⟨h, trivial⟩

end

theorem Tab.isSome_find_map {α β : Type} (t : Tab α) (g : Nat → α → β) (x : Nat) :
    (Tab.find (t.map fun e => (e.1, g e.1 e.2)) x).isSome = (Tab.find t x).isSome := by
  induction t with
  | nil => rfl
  | cons e t ih =>
    obtain ⟨k, v⟩ := e
    simp only [List.map_cons, Tab.find]
    split
    · rfl
    · exact ih

theorem disciplines_discState (v : Nat) : Prog.Only (Act.disciplines stateRows) (discState v) := fun s => by
  simp only [only_all_cons, only_all_nil, only_when, and_true]
  exact ⟨fun _ => disciplines_raise (by decide), fun _ => disciplines_incRaise (by decide) (by decide) (by decide),
    disciplines_set (by decide) (by decide) v⟩

theorem disciplines_shiftTimes (err : Int) : Prog.Only (Act.disciplines stepRows) (shiftTimes err) := by
  simp only [shiftTimes, only_all_cons, only_all_nil, and_true]
  refine ⟨disciplines_time fun t => ⟨Tab.isSome_find_map t.qual fun _ q => shifted err q, fun h => ?_, rfl, rfl⟩, trivial, trivial⟩
  simp only [h, Option.map_none]

theorem disciplines_stepBy (err : Int) : Prog.Only (Act.disciplines stepRows) (stepBy err) := by
  simp only [stepBy, only_all_cons, only_all_nil, only_ask, only_when, and_true]
  exact ⟨disciplines_shiftTimes err, disciplines_time fun t => ⟨fun _ => rfl, id, rfl, rfl⟩,
    fun _ _ => disciplines_set (by decide) (by decide) 1, disciplines_set (by decide) (by decide) 0,
    disciplines_incRaise (by decide) (by decide) (by decide)⟩

theorem disciplines_stepSoon (err : Int) : Prog.Only (Act.disciplines stepRows) (stepSoon err) := fun s => by
  simp only [only_ite, only_all_cons, only_all_nil, and_true]
  exact ⟨fun _ => disciplines_stepBy err, fun _ => ⟨disciplines_time fun t => ⟨fun _ => rfl, id, rfl, rfl⟩,
    disciplines_set (by decide) (by decide) 1, disciplines_raise (by decide)⟩⟩

theorem disciplines_meetError (src : Nat) (phase : Int) : Prog.Only (Act.disciplines stepRows) (meetError src phase) := fun s => by
  simp only [only_all_cons, only_all_nil, only_ite, only_when, and_true]
  exact ⟨disciplines_time fun t => ⟨fun _ => rfl, id, rfl, rfl⟩, fun _ => ⟨disciplines_time fun t => ⟨fun _ => rfl, id, rfl, rfl⟩,
    disciplines_set (by decide) (by decide) 0, fun _ => disciplines_set (by decide) (by decide) 1⟩, fun _ => disciplines_stepSoon _⟩

/-- What follows the choice of a source: STATE, and its phase error. -/
def meetSource (mean : Int) (src : Nat) (phase : Int) : Prog :=
  if src = 0 then .all [discState 3, .set pgTime R.TIME_STEP_PEND 0, .time fun t => { t with err := 0, stepTai := false, servo := mean }]
  else .all [discState 1, meetError src phase]

theorem disciplines_meetSource (mean : Int) (src : Nat) (phase : Int) :
    Prog.Only (Act.disciplines (stateRows ++ stepRows)) (meetSource mean src phase) := by
  have hstate (v : Nat) : Prog.Only (Act.disciplines (stateRows ++ stepRows)) (discState v) := (disciplines_discState v).widen (by decide)
  simp only [meetSource, only_ite, only_all_cons, only_all_nil, and_true]
  exact ⟨fun _ => ⟨hstate 3, disciplines_set (by decide) (by decide) 0, disciplines_time fun t => ⟨fun _ => rfl, id, rfl, rfl⟩⟩,
    fun _ => ⟨hstate 1, (disciplines_meetError src phase).widen (by decide)⟩⟩

theorem disciplines_selectSource (src : Nat) (phase : Int) : Prog.Only (Act.disciplines selectRows) (selectSource src phase) := fun s => by
  rw [only_when]
  intro _
  simp only [only_all_cons, only_all_nil, and_true]
  exact ⟨disciplines_set (by decide) (by decide) src, disciplines_incRaise (by decide) (by decide) (by decide),
    (disciplines_meetSource s.servoMean src phase).widen (by decide)⟩

theorem disciplines_settleSource : Prog.Only (Act.disciplines selectRows) settleSource := fun s => by
  dsimp only
  simp only [only_when, only_all_cons, only_all_nil, and_true]
  refine fun _ => ⟨fun _ => ?_, disciplines_time fun t => ⟨fun _ => rfl, id, rfl, rfl⟩⟩
  split
  · exact disciplines_selectSource _ _
  · exact fun t => ⟨trivial, disciplines_selectSource _ _⟩

theorem disciplines_showQual : Prog.Only (Act.disciplines [R.TIME_QUAL]) showQual := fun _ => disciplines_set (by decide) (by decide) _

/-- What follows the loss of a source that is no longer qualified. -/
def lossShown (src : Nat) (phase : Int) (wasSelected : Bool) : Prog :=
  .all [showQual, .when wasSelected (capture pgTime 0x20 src), .when (src = 2 || src = 3) (modPtp (src - 2) fun p => { p with syncs := 0 }),
    .ask fun t => .time fun x => { x with phases := Tab.put x.phases t.bestSource phase }]

theorem run_sourceLost {src : Nat} {s : State} (h : s.qualified src = true) (phase : Int) :
    run (sourceLost src phase) s = run settleSource (run (lossShown src phase (s.get pgTime R.TIME_SEL = src))
      (run (.time fun t => { t with qual := Tab.del t.qual src }) s)) := by
  simp only [sourceLost, lossShown, run_ask, run_when, h, if_true, run_all_cons, run_all_nil]

theorem disciplines_lossShown (src : Nat) (phase : Int) (b : Bool) : Prog.Only (Act.disciplines lossRows) (lossShown src phase b) := by
  simp only [lossShown, only_all_cons, only_all_nil, only_when, only_ask, and_true]
  exact ⟨disciplines_showQual.widen (by decide), fun _ => disciplines_capture (by decide) _ _, fun _ => ⟨trivial, trivial⟩,
    fun _ => disciplines_time fun t => ⟨fun _ => rfl, id, rfl, rfl⟩⟩

/-! ### What disciplining shows -/

theorem get_onTime {s : State} {f : TimeB → TimeB} (p : Pg) (r : Row) : (run (.time f) s).get p r = s.get p r := get_congr (s := s) rfl p r

/-- STATE takes its value. -/
theorem state_discState {v : Nat} (hv : v < 4) (s : State) : (run (discState v) s).get pgTime R.TIME_STATE = v := by
  simp only [discState, run_ask, run_all_cons, run_all_nil]
  rw [get_set_same _ _ _ _ (by decide)]
  exact Nat.mod_eq_of_lt hv

/-- A time base that becomes LOCKED raises an event. -/
theorem raised_discState_locked {s : State} (h : s.get pgTime R.TIME_STATE ≠ 2) : (run (discState 2) s).raised pgTime 2 = true := by
  have hrun : run (discState 2) s = run (.set pgTime R.TIME_STATE 2) (run (raise pgTime 2) s) := by
    simp only [discState, run_ask, run_all_cons, run_all_nil, run_when, decide_eq_true (Ne.symm h), Bool.true_and, decide_true, if_true,
      show decide (2 = 3) = false from rfl, Bool.and_false, Bool.false_eq_true, if_false]
  rw [hrun]
  exact raised_of_disciplines (X := stateRows) (disciplines_set (by decide) (by decide) 2) (by decide)
    (raised_raise rfl (by decide) (by decide) s)

/-- A source that is chosen anew: SEL, the count of changes, and STATE. -/
theorem selectSource_selects {s : State} {src : Nat} (hsrc : src < 8) (h : src ≠ s.get pgTime R.TIME_SEL) (phase : Int) :
    let t := run (selectSource src phase) s
    t.get pgTime R.TIME_SEL = src ∧ Counted s t pgTime R.TIME_CNT_SWITCH 1 ∧ t.get pgTime R.TIME_STATE = (if src = 0 then 3 else 1) := by
  have hrun : run (selectSource src phase) s = run (meetSource s.servoMean src phase)
      (run (incRaise pgTime R.TIME_CNT_SWITCH 1) (run (.set pgTime R.TIME_SEL src) s)) := by
    simp only [selectSource, meetSource, run_ask, run_when, decide_eq_true h, if_true, run_all_cons, run_all_nil]
  have hmeet := disciplines_meetSource s.servoMean src phase
  have hinc : Prog.Only (Act.disciplines [R.TIME_CNT_SWITCH]) (incRaise pgTime R.TIME_CNT_SWITCH 1) :=
    disciplines_incRaise (by decide) (by decide) (by decide)
  dsimp only
  rw [hrun]
  refine ⟨?_, ?_, ?_⟩
  · rw [get_of_disciplines hmeet (by decide), get_of_disciplines hinc (by decide), get_set_same _ _ _ _ (by decide)]
    exact Nat.mod_eq_of_lt hsrc
  · refine ((counted_incRaise (by decide) 1 (by decide) (by decide) _).before ?_).after (get_of_disciplines hmeet (by decide) _)
    exact get_set_other _ _ _ _ _ _ (by decide) (by decide)
  · generalize run (incRaise pgTime R.TIME_CNT_SWITCH 1) _ = u
    by_cases h0 : src = 0
    · simp only [meetSource, if_pos h0, run_all_cons, run_all_nil]
      rw [get_onTime, get_set_other _ _ _ _ _ _ (by decide) (by decide)]
      exact state_discState (by decide) u
    · simp only [meetSource, if_neg h0, run_all_cons, run_all_nil]
      rw [get_of_disciplines (disciplines_meetError src phase) (by decide)]
      exact state_discState (by decide) u

/-- Nothing changes in the selection: the source in use is still qualified, or there is none to use. -/
theorem settleSource_stays {s : State} (h : s.get pgTime R.TIME_SEL ≠ 0 ∧ s.qualified (s.get pgTime R.TIME_SEL) = true ∨
    s.get pgTime R.TIME_SEL = 0 ∧ s.bestSource = 0) : (run settleSource s).regs = s.regs := by
  have hc : (decide (s.get pgTime R.TIME_SEL ≠ 0) && !(s.qualified (s.get pgTime R.TIME_SEL)) ||
      (decide (s.get pgTime R.TIME_SEL = 0) && decide (s.bestSource ≠ 0))) = false := by
    rcases h with ⟨h, hq⟩ | ⟨h, hb⟩
    · simp [h, hq]
    · simp [h, hb]
  simp only [settleSource, run_ask, run_when, run_all_cons, run_all_nil, hc, Bool.false_eq_true, if_false]
  split <;> rfl

/-- The selection follows: the best source is chosen with the phase error that has been told. -/
theorem run_settleSource {s : State} {v : Int} (hpend : s.pending.any changesSource = false)
    (h : s.get pgTime R.TIME_SEL ≠ 0 ∧ s.qualified (s.get pgTime R.TIME_SEL) = false ∨ s.get pgTime R.TIME_SEL = 0 ∧ s.bestSource ≠ 0)
    (hv : Tab.find s.time.phases s.bestSource = some v) :
    run settleSource s = run (.time fun t => { t with phases := [] }) (run (selectSource s.bestSource v) s) := by
  have hc : (decide (s.get pgTime R.TIME_SEL ≠ 0) && !(s.qualified (s.get pgTime R.TIME_SEL)) ||
      (decide (s.get pgTime R.TIME_SEL = 0) && decide (s.bestSource ≠ 0))) = true := by
    rcases h with ⟨h, hq⟩ | ⟨h, hb⟩
    · simp [h, hq]
    · simp [h, hb]
  simp only [settleSource, run_ask, run_when, run_all_cons, run_all_nil, hc, hv, hpend, Bool.not_false, if_true]

/-- A source in the slots is one of seven. -/
theorem mem_prios {s : State} {src : Nat} (h : src ∈ s.prios) : src ≠ 0 ∧ src < 8 := by
  obtain ⟨hmem, hne⟩ := List.mem_filter.1 h
  refine ⟨of_decide_eq_true hne, ?_⟩
  have hlt (r : Row) : s.get pgTime r < 2 ^ (r.hi + 1 - r.lo) := geti_lt s pgTime r 0
  simp only [List.mem_cons, List.not_mem_nil, or_false] at hmem
  rcases hmem with rfl | rfl | rfl | rfl <;> exact hlt _

/-- The slots are kept. -/
theorem prios_congr {s t : State} (h0 : t.get pgTime R.TIME_PRIO0 = s.get pgTime R.TIME_PRIO0)
    (h1 : t.get pgTime R.TIME_PRIO1 = s.get pgTime R.TIME_PRIO1) (h2 : t.get pgTime R.TIME_PRIO2 = s.get pgTime R.TIME_PRIO2)
    (h3 : t.get pgTime R.TIME_PRIO3 = s.get pgTime R.TIME_PRIO3) : t.prios = s.prios := by
  rw [State.prios, h0, h1, h2, h3, State.prios]

theorem prios_of_disciplines {p : Prog} (hp : Prog.Only (Act.disciplines selectRows) p) (s : State) : (run p s).prios = s.prios :=
  prios_congr (get_of_disciplines hp (by decide) s) (get_of_disciplines hp (by decide) s) (get_of_disciplines hp (by decide) s)
    (get_of_disciplines hp (by decide) s)

end Sys2Proof.Machine

/-! SUPPORT. Proofs: the events of the time base (R247 to R252, R255, R275). -/

namespace Sys2Proof.Machine

/-! ### Steering (R247, R248, R252) -/

/-- The values of the loop. -/
def steerLoop (age v : Int) (st : Nat) (phase : Int) (t : TimeB) : TimeB :=
  { t with
    age := age, servo := v, servos := if st = 0 then t.servos else (v :: t.servos).take 10000,
    err := if st = 1 then phase else t.err }

/-- The device measures the loop and the clocks. -/
def measureLoop (st : Nat) (phase : Int) : Prog :=
  .all [.when (st = 1 || st = 2) (.set pgTime R.TIME_PHASE_ERR (unsgn 32 (clampS 32 (divAway (phase * 10 ^ 12) (2 ^ 48))))), measureClocks]

theorem light_measureLoop (st : Nat) (phase : Int) : Prog.Only Act.light (measureLoop st phase) := by
  simp only [measureLoop, measureClocks, withFree, only_ask, only_when, only_all_cons, only_all_nil, only_set, only_act, Act.light,
    implies_true, and_self]

/-- What is measured is shown at PHASE_ERR and in two fields of the clocks. -/
theorem spares_measureLoop {a : Nat} (h : a ∉ [R.TIME_PHASE_ERR.addr pgTime 0, R.CLK_PHASE_ERR.addr pgClk 0, R.CLK_REF_OFFSET.addr pgClk 0])
    (st : Nat) (phase : Int) : Prog.Only (Act.spares a) (measureLoop st phase) := by
  simp only [List.mem_cons, List.not_mem_nil, or_false, not_or] at h
  obtain ⟨hphase, hclk, href⟩ := h
  simp only [measureLoop, measureClocks, withFree, only_ask, only_when, only_all_cons, only_all_nil, only_set, only_act, and_true]
  exact ⟨fun _ => hphase, fun _ _ => ⟨fun _ _ => ⟨trivial, hclk⟩, fun _ _ => ⟨trivial, href⟩⟩⟩

/-- The state after the steering word is written. -/
def steered (age v : Int) (word st : Nat) (phase : Int) (s : State) : State :=
  run (measureLoop st phase) (run (.set pgTime R.TIME_STEER word) (run (.time (steerLoop age v st phase)) s))

section
variable (age v : Int) (word st : Nat) (phase : Int) (s : State)

theorem steered_loop : (steered age v word st phase s).time.age = age ∧ (steered age v word st phase s).time.servo = v := by
  obtain ⟨-, -, -, -, htime, -⟩ :=
    only_light (light_measureLoop st phase) (run (.set pgTime R.TIME_STEER word) (run (.time (steerLoop age v st phase)) s))
  rw [steered, htime]
  exact ⟨rfl, rfl⟩

theorem steer_steered (hw : word < 2 ^ 32) : (steered age v word st phase s).get pgTime R.TIME_STEER = word := by
  rw [steered, only_get (spares_measureLoop (by decide) _ _), get_set_same _ _ _ _ (by decide)]
  exact Nat.mod_eq_of_lt hw

/-- What is shown of the source is as it was. -/
theorem get_steered {r : Row} (h : r.addr pgTime 0 = pgTime.base + 0x058) : (steered age v word st phase s).get pgTime r = s.get pgTime r := by
  have hspare : Prog.Only (Act.spares (r.addr pgTime 0)) (measureLoop st phase) := spares_measureLoop (by rw [h]; decide) _ _
  have hne : r.addr pgTime 0 ≠ R.TIME_STEER.addr pgTime 0 := by rw [h]; decide
  rw [steered, only_get hspare, get_set_other _ _ _ _ _ _ (by decide) (.inl hne)]
  exact get_congr (s := s) rfl _ _

end

theorem light_discState (v : Nat) : Prog.Only Act.light (discState v) := fun _ => by
  simp only [only_all_cons, only_all_nil, only_when, only_set, light_raise, light_incRaise, Act.light, implies_true, and_self]

/-- STATE follows the phase error: to LOCKED where it is held, and away from it where it is not. -/
def lockFollows (st : Nat) (held waits : Bool) : Prog := .all [.when (st = 1 && held && !waits) (discState 2), .when (st = 2 && !held) (discState 1)]

section
variable (st : Nat) (held waits : Bool) (u : State)

theorem lockFollows_keeps : (run (lockFollows st held waits) u).time = u.time ∧
    (run (lockFollows st held waits) u).get pgTime R.TIME_STEER = u.get pgTime R.TIME_STEER := by
  have hlight : Prog.Only Act.light (lockFollows st held waits) := by
    simp only [lockFollows, only_all_cons, only_all_nil, only_when, light_discState, implies_true, and_self]
  have hdisc : Prog.Only (Act.disciplines stateRows) (lockFollows st held waits) := by
    simp only [lockFollows, only_all_cons, only_all_nil, only_when, disciplines_discState, implies_true, and_self]
  obtain ⟨-, -, -, -, htime, -⟩ := only_light hlight u
  exact ⟨htime, get_of_disciplines hdisc (by decide) u⟩

theorem lockFollows_stays : run (lockFollows 2 true waits) u = u := by simp [lockFollows]

theorem lockFollows_loses : (run (lockFollows 2 false waits) u).get pgTime R.TIME_STATE = 1 := by
  have hrun : run (lockFollows 2 false waits) u = run (discState 1) u := by simp [lockFollows]
  rw [hrun]
  exact state_discState (by decide) u

theorem lockFollows_locks (h : u.get pgTime R.TIME_STATE ≠ 2) :
    (run (lockFollows 1 true false) u).get pgTime R.TIME_STATE = 2 ∧ (run (lockFollows 1 true false) u).raised pgTime 2 = true := by
  have hrun : run (lockFollows 1 true false) u = run (discState 2) u := by simp [lockFollows]
  rw [hrun]
  exact ⟨state_discState (by decide) u, raised_discState_locked h⟩

end

/-- The phase error against the source in use: of PARENT it is theta (R315). -/
def State.phaseOf (s : State) (phase : Int) : Int := if s.get pgTime R.TIME_SEL = 1 then s.time.theta else phase

/-- The steering word is computed, and STATE follows the phase error against a source that gives one. -/
theorem steerUpdate_steers (comp servo phase freq : Int) (s : State) :
    let age := s.time.age + within 1000000 (sgn 24 (s.get pgTime R.TIME_XO_AGE) - s.time.age)
    let t := run (steerUpdate comp servo phase freq) s
    t.time.age = age ∧ t.time.servo = s.servoNow servo ∧
      t.get pgTime R.TIME_STEER = unsgn 32 (within 60000000 (comp - age + s.servoNow servo)) ∧
      (s.get pgTime R.TIME_SEL ≠ 5 →
        (s.get pgTime R.TIME_STATE = 2 → (s.phaseOf phase).natAbs * 10 ^ 8 < 2 ^ 48 → t.get pgTime R.TIME_STATE = 2) ∧
        (s.get pgTime R.TIME_STATE = 2 → 2 ^ 48 ≤ (s.phaseOf phase).natAbs * 10 ^ 8 → t.get pgTime R.TIME_STATE = 1) ∧
        (s.get pgTime R.TIME_STATE = 1 → (s.phaseOf phase).natAbs * 10 ^ 8 < 2 ^ 48 → s.get pgTime R.TIME_STEP_PEND = 0 →
          t.get pgTime R.TIME_STATE = 2 ∧ t.raised pgTime 2 = true)) := by
  intro age t
  let word := unsgn 32 (within 60000000 (comp - age + s.servoNow servo))
  let st := s.get pgTime R.TIME_STATE
  let held : Bool := if s.get pgTime R.TIME_SEL = 5 then decide (freq.natAbs < 100) else decide ((s.phaseOf phase).natAbs * 10 ^ 8 < 2 ^ 48)
  obtain ⟨hage, hservo⟩ := steered_loop age (s.servoNow servo) word st (s.phaseOf phase) s
  have hsteer := steer_steered age (s.servoNow servo) word st (s.phaseOf phase) s (unsgn_lt ..)
  have hstate := get_steered age (s.servoNow servo) word st (s.phaseOf phase) s (r := R.TIME_STATE) rfl
  have hrun : t = run (lockFollows st held (s.get pgTime R.TIME_STEP_PEND ≠ 0)) (steered age (s.servoNow servo) word st (s.phaseOf phase) s) := by
    simp only [t, steerUpdate, run_ask, run_all_cons, run_all_nil, steered, measureLoop, lockFollows, decide_not, Bool.not_not]
    rfl
  generalize steered age (s.servoNow servo) word st (s.phaseOf phase) s = u at *
  obtain ⟨htime, hkept⟩ := lockFollows_keeps st held (s.get pgTime R.TIME_STEP_PEND ≠ 0) u
  rw [← hrun] at htime hkept
  refine ⟨by rw [htime, hage], by rw [htime, hservo], hkept.trans hsteer, fun hsel => ⟨fun hst hph => ?_, fun hst hph => ?_,
    fun hst hph hpend => ?_⟩⟩
  all_goals simp only [st, held, if_neg hsel, hst] at hrun
  · rw [decide_eq_true hph, lockFollows_stays] at hrun
    rw [hrun, hstate, hst]
  · rw [decide_eq_false (Nat.not_lt.2 hph)] at hrun
    rw [hrun]
    exact lockFollows_loses _ u
  · rw [decide_eq_true hph, hpend] at hrun
    rw [hrun]
    exact lockFollows_locks u (by rw [hstate, hst]; decide)

/-! ### Sources that qualify and are lost (R249, R250) -/

/-- A source is put among the qualified ones, and QUAL shows it. -/
def qualifyShown (src : Nat) (phase : Int) (q : Nat) : Prog :=
  .all [.time fun t => { t with qual := Tab.put t.qual src q, phases := Tab.put t.phases src phase }, showQual]

theorem run_sourceQualify {src : Nat} {s : State} (h : s.qualified src = false) (phase : Int) :
    run (sourceQualify src phase) s = run settleSource (run (qualifyShown src phase s.now) s) := by
  simp only [sourceQualify, qualifyShown, run_ask, run_when, h, Bool.not_false, if_true, run_all_cons, run_all_nil]

section
variable (src : Nat) (phase : Int) (q : Nat) (s : State)

theorem time_showQual : (run showQual s).time = s.time := by
  obtain ⟨-, -, -, -, htime, -⟩ := only_light (p := showQual) (fun _ => (only_set ..).2 trivial) s
  exact htime

theorem time_qualifyShown : (run (qualifyShown src phase q) s).time =
    { s.time with qual := Tab.put s.time.qual src q, phases := Tab.put s.time.phases src phase } := by
  rw [qualifyShown, run_pair, time_showQual]
  rfl

/-- The source is qualified, and the others are as they were. -/
theorem qualified_qualifyShown (x : Nat) : (run (qualifyShown src phase q) s).qualified x = (decide (x = src) || s.qualified x) := by
  rw [State.qualified, time_qualifyShown, Tab.find_put]
  by_cases h : x = src
  · rw [if_pos h, decide_eq_true h]
    rfl
  · rw [if_neg h, decide_eq_false h, Bool.false_or]
    rfl

/-- QUAL is all that is shown. -/
theorem get_qualifyShown {r : Row} (hr : r.apartFrom [R.TIME_QUAL] = true) :
    (run (qualifyShown src phase q) s).get pgTime r = s.get pgTime r := by
  rw [qualifyShown, run_pair, get_of_disciplines disciplines_showQual hr, get_onTime]

theorem prios_qualifyShown : (run (qualifyShown src phase q) s).prios = s.prios :=
  prios_congr (get_qualifyShown _ _ _ _ (by decide)) (get_qualifyShown _ _ _ _ (by decide)) (get_qualifyShown _ _ _ _ (by decide))
    (get_qualifyShown _ _ _ _ (by decide))

end

theorem exec_sourceQualify {s : State} {src : Nat} (hmay : s.mayQualify src = true) (hq : s.qualified src = false) (phase : Int) :
    exec (.sourceQualify src phase) s = .next (run settleSource (run settleSource (run (qualifyShown src phase s.now) s))) := by
  rw [← run_sourceQualify hq, ← run_pair]
  have hrun : run (.ask fun s => if s.mayQualify src then .all [sourceQualify src phase, settleSource] else settleSource) s =
      run (.all [sourceQualify src phase, settleSource]) s := by rw [run_ask, hmay, if_pos rfl]
  rw [← hrun]
  rfl

/-- A source that qualifies while another is in use is only shown. -/
theorem sourceQualify_waits {s : State} {src : Nat} (hmay : s.mayQualify src = true) (hq : s.qualified src = false) (phase : Int)
    (hsel : s.qualified (s.get pgTime R.TIME_SEL) = true) (h0 : s.get pgTime R.TIME_SEL ≠ 0) :
    Completes (.sourceQualify src phase) s fun t => t.qualified src = true ∧ t.get pgTime R.TIME_SEL = s.get pgTime R.TIME_SEL := by
  refine ⟨_, exec_sourceQualify hmay hq phase, ?_⟩
  have husel := get_qualifyShown src phase s.now s (r := R.TIME_SEL) (by decide)
  have huqual (x : Nat) := qualified_qualifyShown src phase s.now s x
  generalize run (qualifyShown src phase s.now) s = u at *
  have hkeeps (v : State) (hv : v.get pgTime R.TIME_SEL = s.get pgTime R.TIME_SEL) (hvq : v.qualified (s.get pgTime R.TIME_SEL) = true) :
      (run settleSource v).get pgTime R.TIME_SEL = s.get pgTime R.TIME_SEL :=
    (get_congr (settleSource_stays (.inl (by rw [hv]; exact ⟨h0, hvq⟩))) _ _).trans hv
  have hv := hkeeps u husel (by rw [huqual, hsel, Bool.or_true])
  refine ⟨?_, hkeeps _ hv ?_⟩
  · rw [qualified_of_disciplines disciplines_settleSource, qualified_of_disciplines disciplines_settleSource, huqual, decide_eq_true rfl,
      Bool.true_or]
  · rw [qualified_of_disciplines disciplines_settleSource, huqual, hsel, Bool.or_true]

/-- A source that qualifies while there is none, and that alone has a slot, is chosen. -/
theorem sourceQualify_selects {s : State} {src : Nat} (hmay : s.mayQualify src = true) (hq : s.qualified src = false) (phase : Int)
    (hpend : s.pending.any changesSource = false) (h0 : s.get pgTime R.TIME_SEL = 0) (hprios : s.prios = [src]) :
    Completes (.sourceQualify src phase) s fun t => t.qualified src = true ∧ t.get pgTime R.TIME_SEL = src ∧ t.get pgTime R.TIME_STATE = 1 ∧
      Counted s t pgTime R.TIME_CNT_SWITCH 1 := by
  refine ⟨_, exec_sourceQualify hmay hq phase, ?_⟩
  obtain ⟨hsrc0, hsrc⟩ := mem_prios (s := s) (src := src) (by rw [hprios]; exact List.mem_singleton_self src)
  have husel := (get_qualifyShown src phase s.now s (r := R.TIME_SEL) (by decide)).trans h0
  have hucnt := get_qualifyShown src phase s.now s (r := R.TIME_CNT_SWITCH) (by decide)
  have huqual : (run (qualifyShown src phase s.now) s).qualified src = true := by
    rw [qualified_qualifyShown, decide_eq_true rfl, Bool.true_or]
  have hubest : (run (qualifyShown src phase s.now) s).bestSource = src := by
    rw [State.bestSource, prios_qualifyShown, hprios, List.filter_singleton, huqual]
    rfl
  have huphase : Tab.find (run (qualifyShown src phase s.now) s).time.phases src = some phase := by
    rw [time_qualifyShown]
    exact (Tab.find_put ..).trans (if_pos rfl)
  have hupend : (run (qualifyShown src phase s.now) s).pending.any changesSource = false := by rw [run_pending, hpend]
  generalize run (qualifyShown src phase s.now) s = u at *
  obtain ⟨hsel, hcount, hstate⟩ := selectSource_selects (s := u) hsrc (by rw [husel]; exact hsrc0) phase
  have hrun := run_settleSource hupend (.inr ⟨husel, by rw [hubest]; exact hsrc0⟩) (by rw [hubest]; exact huphase)
  rw [hubest] at hrun
  have hvqual := qualified_of_disciplines disciplines_settleSource u src
  have hvregs : (run settleSource u).regs = (run (selectSource src phase) u).regs := by rw [hrun]; rfl
  have hregs : (run settleSource (run settleSource u)).regs = (run (selectSource src phase) u).regs := by
    refine (settleSource_stays (.inl ?_)).trans hvregs
    rw [get_congr hvregs, hsel, hvqual, huqual]
    exact ⟨hsrc0, rfl⟩
  refine ⟨?_, (get_congr hregs _ _).trans hsel, (get_congr hregs _ _).trans (hstate.trans (if_neg hsrc0)),
    (hcount.before hucnt).after (get_congr hregs _ _)⟩
  rw [qualified_of_disciplines disciplines_settleSource, hvqual, huqual]

/-! ### A source is lost (R250, R252) -/

/-- The state in which a source has been lost, before the selection follows. -/
def State.lost (s : State) (src : Nat) (phase : Int) : State :=
  run (lossShown src phase (s.get pgTime R.TIME_SEL = src)) (run (.time fun t => { t with qual := Tab.del t.qual src }) s)

section
variable (s : State) (src : Nat) (phase : Int)

theorem qualified_lost (x : Nat) : (s.lost src phase).qualified x = (decide (x ≠ src) && s.qualified x) := by
  rw [State.lost, qualified_of_disciplines (disciplines_lossShown src phase _)]
  show (Tab.find (Tab.del s.time.qual src) x).isSome = _
  rw [Tab.find_del]
  by_cases h : x = src
  · rw [if_pos h, decide_eq_false (not_not.2 h)]
    rfl
  · rw [if_neg h, decide_eq_true h, Bool.true_and]
    rfl

theorem get_lost {r : Row} (hr : r.apartFrom lossRows = true) : (s.lost src phase).get pgTime r = s.get pgTime r := by
  rw [State.lost, get_of_disciplines (disciplines_lossShown src phase _) hr, get_onTime]

theorem prios_lost : (s.lost src phase).prios = s.prios :=
  prios_congr (get_lost _ _ _ (by decide)) (get_lost _ _ _ (by decide)) (get_lost _ _ _ (by decide)) (get_lost _ _ _ (by decide))

/-- The phase error is that of the best source that is left. -/
theorem phase_lost : Tab.find (s.lost src phase).time.phases (s.lost src phase).bestSource = some phase := by
  simp only [State.lost, lossShown, run_all_cons, run_all_nil]
  generalize run (.when (src = 2 || src = 3) _) _ = u
  exact (Tab.find_put ..).trans (if_pos rfl)

/-- The loss of the source in use is captured. -/
theorem captured_lost (h : s.get pgTime R.TIME_SEL = src) : Captured s (s.lost src phase) pgTime 0x20 src := by
  simp only [State.lost, lossShown, run_all_cons, run_all_nil, decide_eq_true h, run_when, if_true]
  have hqual : (run showQual (run (.time fun t => { t with qual := Tab.del t.qual src }) s)).errInfo pgTime = s.errInfo pgTime :=
    errInfo_of_disciplines disciplines_showQual (by decide) _
  generalize run showQual _ = u at hqual
  refine (captured_capture rfl (by decide) 0x20 src (s := u)).of_errInfo_eq hqual ?_
  generalize run (capture pgTime 0x20 src) u = v
  split <;> rfl

end

theorem run_sourceLost_lost {s : State} {src : Nat} (h : s.qualified src = true) (phase : Int) :
    run (sourceLost src phase) s = run settleSource (s.lost src phase) := run_sourceLost h phase

theorem exec_sourceLost {s : State} {src : Nat} (hmay : s.mayLose src = true) (hq : s.qualified src = true) (phase : Int) :
    exec (.sourceLost src phase) s = .next (run settleSource (run settleSource (s.lost src phase))) := by
  rw [← run_sourceLost_lost hq, ← run_pair]
  have hrun : run (.ask fun s => if s.mayLose src then .all [sourceLost src phase, settleSource] else settleSource) s =
      run (.all [sourceLost src phase, settleSource]) s := by rw [run_ask, hmay, if_pos rfl]
  rw [← hrun]
  rfl

/-- The slots hold no qualified source. -/
theorem bestSource_none {s : State} (h : ∀ x ∈ s.prios, s.qualified x = false) : s.bestSource = 0 := by
  rw [State.bestSource, List.filter_eq_nil_iff.2 fun x hx => by rw [h x hx]; exact Bool.false_ne_true]
  rfl

/-- The source in use is lost and no other is qualified: HOLDOVER. -/
theorem sourceLost_holdover {s : State} {src : Nat} (hq : s.qualified src = true) (hmay : s.mayLose src = true)
    (hpend : s.pending.any changesSource = false) (hsel : s.get pgTime R.TIME_SEL = src) (h0 : src ≠ 0)
    (hothers : ∀ x ∈ s.prios, x ≠ src → s.qualified x = false) (phase : Int) :
    Completes (.sourceLost src phase) s fun t => t.qualified src = false ∧ t.get pgTime R.TIME_SEL = 0 ∧ t.get pgTime R.TIME_STATE = 3 ∧
      Captured s t pgTime 0x20 src := by
  refine ⟨_, exec_sourceLost hmay hq phase, ?_⟩
  have huqual (x : Nat) := qualified_lost s src phase x
  have husel := (get_lost s src phase (r := R.TIME_SEL) (by decide)).trans hsel
  have hbest : (s.lost src phase).bestSource = 0 := bestSource_none fun x hx => by
    rw [huqual]
    by_cases h : x = src
    · rw [decide_eq_false (not_not.2 h), Bool.false_and]
    · rw [hothers x (by rwa [prios_lost] at hx) h, Bool.and_false]
  have hphase := phase_lost s src phase
  have hcapt := captured_lost s src phase hsel
  have hupend : (s.lost src phase).pending.any changesSource = false := by
    rw [State.lost, run_pending, run_pending, hpend]
  generalize s.lost src phase = u at *
  have hsrc : u.qualified src = false := by rw [huqual, decide_eq_false (not_not.2 rfl), Bool.false_and]
  obtain ⟨hvsel, -, hvstate⟩ := selectSource_selects (s := u) (src := 0) (by decide) (by rw [husel]; exact Ne.symm h0) phase
  have hrun := run_settleSource hupend (.inl (by rw [husel]; exact ⟨h0, hsrc⟩)) hphase
  rw [hbest] at hrun
  have hvregs : (run settleSource u).regs = (run (selectSource 0 phase) u).regs := by rw [hrun]; rfl
  have hvbest : (run settleSource u).bestSource = 0 := by
    rw [State.bestSource, prios_of_disciplines disciplines_settleSource, show (run settleSource u).qualified = u.qualified from
      funext (qualified_of_disciplines disciplines_settleSource u)]
    exact hbest
  have hregs : (run settleSource (run settleSource u)).regs = (run (selectSource 0 phase) u).regs :=
    (settleSource_stays (.inr ⟨(get_congr hvregs _ _).trans hvsel, hvbest⟩)).trans hvregs
  refine ⟨?_, (get_congr hregs _ _).trans hvsel, (get_congr hregs _ _).trans (hvstate.trans (if_pos rfl)), hcapt.of_errInfo_eq rfl ?_⟩
  · rw [qualified_of_disciplines disciplines_settleSource, qualified_of_disciplines disciplines_settleSource, hsrc]
  · rw [errInfo_of_disciplines disciplines_settleSource (by decide), errInfo_of_disciplines disciplines_settleSource (by decide)]

/-! ### A source of a higher slot (R250) -/

theorem find?_getD_mem {l : List Nat} {f : Nat → Bool} (h : (l.find? f).getD 0 ≠ 0) : (l.find? f).getD 0 ∈ l := by
  cases hf : l.find? f with
  | none => exact absurd (by rw [hf]; rfl) h
  | some b => exact List.mem_of_find?_eq_some hf

theorem longSource_mem {s : State} (h : s.longSource ≠ 0) : s.longSource ∈ s.prios := find?_getD_mem h

/-- A source that has stayed qualified in a higher slot is chosen. -/
theorem revertTimer_selects {s : State} (hrev : s.get pgTime R.TIME_REVERT = 1) (h0 : s.longSource ≠ 0)
    (hslot : s.slotOfSource s.longSource < s.slotOfSource (s.get pgTime R.TIME_SEL)) (phase : Int) :
    Completes (.revertTimer phase) s fun t => t.get pgTime R.TIME_SEL = s.longSource ∧ t.get pgTime R.TIME_STATE = 1 := by
  obtain ⟨-, hlt⟩ := mem_prios (longSource_mem h0)
  have hne : s.longSource ≠ s.get pgTime R.TIME_SEL := fun h => Nat.lt_irrefl _ (h ▸ hslot)
  obtain ⟨hsel, -, hstate⟩ := selectSource_selects hlt hne phase
  refine completes_of_when (q := selectSource s.longSource phase) rfl ?_ ⟨hsel, hstate.trans (if_neg h0)⟩
  rw [hrev, decide_eq_true h0, decide_eq_true hslot]
  rfl

/-! ### PPS_IN and PPS_OUT (R249, R253, R275) -/

theorem run_stepBy (err : Int) (s : State) : run (stepBy err) s = run showStep (run (.time fun t =>
    { t with q := ((t.q : Int) + err * 2 ^ 32).toNat % 2 ^ 128, err := 0, theta := t.theta - err }) (run (shiftTimes err) s)) := by
  simp only [stepBy, showStep, run_all_cons, run_all_nil]

/-- Seconds of a source of TAI are shown as valid with the step. -/
theorem tai_showStep {s : State} (h : s.time.stepTai = true) : (run showStep s).get pgTime R.TIME_TAI_VALID = 1 := by
  simp only [showStep, run_all_cons, run_all_nil, run_ask, run_when, h, if_true]
  have hinc : Prog.Only (Act.disciplines [R.TIME_CNT_STEP]) (incRaise pgTime R.TIME_CNT_STEP 5) :=
    disciplines_incRaise (by decide) (by decide) (by decide)
  rw [get_of_disciplines hinc (by decide), get_set_other _ _ _ _ _ _ (by decide) (by decide), get_set_same _ _ _ _ (by decide)]
  rfl

theorem regs_shiftTimes (err : Int) (s : State) : (run (shiftTimes err) s).regs = s.regs := by
  rw [shiftTimes, run_pair]
  rfl

theorem stepTai_shiftTimes (err : Int) (s : State) : (run (shiftTimes err) s).time.stepTai = s.time.stepTai := by
  rw [shiftTimes, run_pair]
  rfl

/-- A step that gives Q-time its TAI seconds. -/
theorem stepBy_steps {s : State} (h : s.time.stepTai = true) (err : Int) :
    (run (stepBy err) s).get pgTime R.TIME_TAI_VALID = 1 ∧ Counted s (run (stepBy err) s) pgTime R.TIME_CNT_STEP 1 := by
  rw [run_stepBy]
  have hregs := regs_shiftTimes err s
  have htai := (stepTai_shiftTimes err s).trans h
  generalize run (shiftTimes err) s = u at *
  obtain ⟨-, hcount, -⟩ := showStep_shows (run (.time fun t =>
    { t with q := ((t.q : Int) + err * 2 ^ 32).toNat % 2 ^ 128, err := 0, theta := t.theta - err }) u)
  exact ⟨tai_showStep htai, hcount.before (get_congr hregs _ _)⟩

/-- A step that waits for the frame controller to be IDLE. -/
theorem stepSoon_waits {s : State} (h : s.fstate ≠ 0) (err : Int) : (run (stepSoon err) s).get pgTime R.TIME_STEP_PEND = 1 ∧
    (run (stepSoon err) s).time.err = err ∧ (run (stepSoon err) s).raised pgTime 4 = true := by
  rw [stepSoon, run_ask, if_neg h]
  simp only [run_all_cons, run_all_nil]
  generalize hu : run (.set pgTime R.TIME_STEP_PEND 1) _ = u
  have hpend : u.get pgTime R.TIME_STEP_PEND = 1 := by rw [← hu, get_set_same _ _ _ _ (by decide)]; rfl
  have herr : u.time.err = err := by rw [← hu]; rfl
  obtain ⟨-, -, -, -, htime, -⟩ := only_light (light_raise pgTime 4) u
  refine ⟨?_, by rw [htime, herr], raised_raise rfl (by decide) (by decide) u⟩
  rw [get_of_disciplines (X := []) (disciplines_raise (by decide)) (by decide), hpend]

/-- An edge of PPS_IN is remembered, and is good a second after the last. -/
def ppsSeen (q : Nat) (good : Bool) (t : TimeB) : TimeB := { t with ppsLast := some q, ppsGood := if good then t.ppsGood + 1 else 1 }

/-- An edge is 1 s after the last one, to 1 us. -/
def TimeB.ppsNext (t : TimeB) (q : Nat) : Bool :=
  match t.ppsLast with
  | some p => decide (q ≤ p + secQ 1 + usQ 1) && decide (p + secQ 1 ≤ q + usQ 1)
  | none => false

theorem ppsSeen_good (q : Nat) (t : TimeB) : (ppsSeen q (t.ppsNext q) t).ppsGood = (match t.ppsLast with
    | some p => if q ≤ p + secQ 1 + usQ 1 ∧ p + secQ 1 ≤ q + usQ 1 then t.ppsGood + 1 else 1
    | none => 1) := by
  unfold ppsSeen TimeB.ppsNext
  cases t.ppsLast with
  | none => rfl
  | some p => simp only [Bool.and_eq_true, decide_eq_true_eq]

section
variable {s : State} {b : Bool} (hb : b ≠ decide (s.get pgTime R.TIME_PPS_IN_POL = 1)) (h4 : s.get pgTime R.TIME_SEL ≠ 4) (q : Nat) (phase : Int)
include hb h4

theorem run_ppsInEdge_plain (hset : s.time.ppsSet = none) :
    run (ppsInEdge b q phase) s = run (.time (ppsSeen q (s.time.ppsNext q))) s := by
  have hactive : (b != decide (s.get pgTime R.TIME_PPS_IN_POL = 1)) = true := bne_iff_ne.2 hb
  simp only [ppsInEdge, run_ask, run_when, hactive, if_true, run_all_cons, run_all_nil, hset, run_nil, decide_eq_false h4, Bool.false_and,
    Bool.false_eq_true, if_false]
  rfl

theorem run_ppsInEdge_set {sec : Nat} (hset : s.time.ppsSet = some sec) :
    run (ppsInEdge b q phase) s = run (stepSoon (((sec : Int) - nearestSecond q) * 2 ^ 48))
      (run (.time fun t => { t with ppsSet := none, stepTai := true }) (run (.time (ppsSeen q (s.time.ppsNext q))) s)) := by
  have hactive : (b != decide (s.get pgTime R.TIME_PPS_IN_POL = 1)) = true := bne_iff_ne.2 hb
  simp only [ppsInEdge, run_ask, run_when, hactive, if_true, run_all_cons, run_all_nil, hset, decide_eq_false h4, Bool.false_and,
    Bool.false_eq_true, if_false]
  rfl

/-- The edge that a TIME_SET waited for takes the seconds. -/
theorem ppsInEdge_sets {sec : Nat} (hset : s.time.ppsSet = some sec) :
    let t := run (ppsInEdge b q phase) s
    t.time.ppsSet = none ∧ (s.fstate = 0 → t.get pgTime R.TIME_TAI_VALID = 1 ∧ Counted s t pgTime R.TIME_CNT_STEP 1) ∧
      (s.fstate ≠ 0 → t.get pgTime R.TIME_STEP_PEND = 1 ∧ t.time.err = ((sec : Int) - nearestSecond q) * 2 ^ 48 ∧
        t.raised pgTime 4 = true) := by
  dsimp only
  rw [run_ppsInEdge_set hb h4 q phase hset]
  generalize hu : run (.time fun t => { t with ppsSet := none, stepTai := true }) (run (.time (ppsSeen q (s.time.ppsNext q))) s) = u
  have huset : u.time.ppsSet = none := by rw [← hu]; rfl
  have hutai : u.time.stepTai = true := by rw [← hu]; rfl
  have huregs : u.regs = s.regs := by rw [← hu]; rfl
  have hufstate : u.fstate = s.fstate := get_congr huregs _ _
  obtain ⟨-, -, -, hkept⟩ := sources_of_disciplines (disciplines_stepSoon (((sec : Int) - nearestSecond q) * 2 ^ 48)) u
  refine ⟨hkept.trans huset, fun h0 => ?_, fun h0 => stepSoon_waits (by rw [hufstate]; exact h0) _⟩
  obtain ⟨htai, hcount⟩ := stepBy_steps hutai (((sec : Int) - nearestSecond q) * 2 ^ 48)
  rw [stepSoon, run_ask, if_pos (hufstate.trans h0)]
  exact ⟨htai, hcount.before (get_congr huregs _ _)⟩

end

/-- What a loss of a source keeps of PPS_IN, of the count of missed edges, and of an event. -/
theorem sourceLost_keeps (src : Nat) (phase : Int) {s : State} (hlast : s.time.ppsLast = none) (hgood : s.time.ppsGood = 0)
    (hraised : s.raised pgTime 6 = true) :
    let t := run (sourceLost src phase) s
    t.time.ppsLast = none ∧ t.time.ppsGood = 0 ∧ t.qualified src = false ∧
      t.get pgTime R.TIME_CNT_PPS_MISS = s.get pgTime R.TIME_CNT_PPS_MISS ∧ t.raised pgTime 6 = true := by
  dsimp only
  cases hq : s.qualified src with
  | false =>
    have hrun : run (sourceLost src phase) s = s := by rw [sourceLost, run_ask, hq]; rfl
    rw [hrun]
    exact ⟨hlast, hgood, hq, rfl, hraised⟩
  | true =>
    have hshown := disciplines_lossShown src phase (s.get pgTime R.TIME_SEL = src)
    rw [run_sourceLost_lost hq]
    have huqual : (s.lost src phase).qualified src = false := by rw [qualified_lost, decide_eq_false (not_not.2 rfl), Bool.false_and]
    have hucnt := get_lost s src phase (r := R.TIME_CNT_PPS_MISS) (by decide)
    obtain ⟨-, hulast, hugood, -⟩ := sources_of_disciplines hshown (run (.time fun t => { t with qual := Tab.del t.qual src }) s)
    have huraised : (s.lost src phase).raised pgTime 6 = true := raised_of_disciplines hshown (by decide)
      (s := run (.time fun t => { t with qual := Tab.del t.qual src }) s) hraised
    have hulast : (s.lost src phase).time.ppsLast = none := hulast hlast
    have hugood : (s.lost src phase).time.ppsGood = 0 := hugood.trans hgood
    generalize s.lost src phase = u at *
    obtain ⟨hqual', hlast', hgood', -⟩ := sources_of_disciplines disciplines_settleSource u
    exact ⟨hlast' hulast, hgood'.trans hugood, (hqual' src).trans huqual, (get_of_disciplines disciplines_settleSource (by decide) u).trans hucnt,
      raised_of_disciplines disciplines_settleSource (by decide) huraised⟩

/-- PPS_IN is missed. -/
theorem ppsMiss_misses {s : State} {p : Nat} (hlast : s.time.ppsLast = some p) (hpast : p + secQ 1 + usQ 1 ≤ s.now) (phase : Int) :
    Completes (.ppsMiss phase) s fun t => t.time.ppsLast = none ∧ t.time.ppsGood = 0 ∧ t.qualified 4 = false ∧
      Counted s t pgTime R.TIME_CNT_PPS_MISS 1 ∧ t.raised pgTime 6 = true := by
  have hrun : run (ppsMiss phase) s = run (sourceLost 4 phase) (run (incRaise pgTime R.TIME_CNT_PPS_MISS 6)
      (run (.time fun t => { t with ppsLast := none, ppsGood := 0 }) s)) := by
    simp only [ppsMiss, run_ask, hlast, run_when, decide_eq_true hpast, if_true, run_all_cons, run_all_nil]
  refine ⟨run (ppsMiss phase) s, rfl, ?_⟩
  rw [hrun]
  generalize hu : run (.time fun t => { t with ppsLast := none, ppsGood := 0 }) s = u
  have hulast : u.time.ppsLast = none := by rw [← hu]; rfl
  have hugood : u.time.ppsGood = 0 := by rw [← hu]; rfl
  have hucnt : u.get pgTime R.TIME_CNT_PPS_MISS = s.get pgTime R.TIME_CNT_PPS_MISS := by rw [← hu, get_onTime]
  have hcount := counted_incRaise (p := pgTime) (r := R.TIME_CNT_PPS_MISS) (by decide) 6 (by decide) (by decide) u
  have hraised : (run (incRaise pgTime R.TIME_CNT_PPS_MISS 6) u).raised pgTime 6 = true := by
    rw [incRaise, run_pair]
    exact raised_raise rfl (by decide) (by decide) _
  obtain ⟨-, -, -, -, htime, -⟩ := only_light (light_incRaise pgTime R.TIME_CNT_PPS_MISS 6) u
  obtain ⟨hlast', hgood, hqual, hcnt, hraised'⟩ := sourceLost_keeps 4 phase (by rw [htime, hulast]) (by rw [htime, hugood]) hraised
  exact ⟨hlast', hgood, hqual, (hcount.after hcnt).before hucnt, hraised'⟩

/-- A whole second: the event, the settings in use, and a pulse where it is enabled. -/
theorem second_follows (s : State) : let t := run second s
    t.raised pgTime 7 = true ∧ t.time.ppsOut = (s.cell (pgTime.base + 0x050)).toNat ∧
      (s.get pgTime R.TIME_PPS_OUT_EN = 1 → t.out.head? = some (.pin 12 (decide (s.get pgTime R.TIME_PPS_OUT_POL = 0))) ∧
        t.time.ppsOff = some (s.now + usQ (s.get pgTime R.TIME_PPS_OUT_WIDTH))) := by
  have hraised := raised_raise (p := pgTime) (k := 7) rfl (by decide) (by decide) s
  simp only [second, run_ask, run_all_cons, run_all_nil, run_when]
  generalize run (raise pgTime 7) s = u at hraised
  by_cases hen : s.get pgTime R.TIME_PPS_OUT_EN = 1
  · rw [decide_eq_true hen, if_pos rfl]
    exact ⟨hraised, rfl, fun _ => ⟨rfl, rfl⟩⟩
  · rw [decide_eq_false hen, if_neg Bool.false_ne_true]
    exact ⟨hraised, rfl, fun h => absurd h hen⟩

/-! ### The tie (R255) -/

/-- TIE_P takes a period. -/
theorem get64_setTie (x : Tie) (s : State) : (run (setTie x) s).get64 pgTime R.TIME_TIE_P_LO R.TIME_TIE_P_HI = x.per % 2 ^ 48 := by
  simp only [setTie, Prog.set64, run_all_cons, run_all_nil, run_ask]
  generalize run (.time _) s = u
  generalize hv : run (.set pgTime R.TIME_TIE_P_LO (x.per % 2 ^ 48 % 2 ^ 32)) u = v
  have hlow : v.get pgTime R.TIME_TIE_P_LO = x.per % 2 ^ 48 % 2 ^ 32 % 2 ^ 32 := by rw [← hv]; exact get_set_same _ _ _ _ (by decide)
  generalize hw : run (.set pgTime R.TIME_TIE_P_HI (x.per % 2 ^ 48 / 2 ^ 32)) v = w
  have hhigh : w.get pgTime R.TIME_TIE_P_HI = x.per % 2 ^ 48 / 2 ^ 32 % 2 ^ 16 := by rw [← hw]; exact get_set_same _ _ _ _ (by decide)
  have hlow' : w.get pgTime R.TIME_TIE_P_LO = x.per % 2 ^ 48 % 2 ^ 32 % 2 ^ 32 := by
    rw [← hw, get_set_other _ _ _ _ _ _ (by decide) (by decide), hlow]
  rw [State.get64, get_set_other _ _ _ _ R.TIME_TIE_P_LO _ (by decide) (by decide),
    get_set_other _ _ _ _ R.TIME_TIE_P_HI _ (by decide) (by decide), hlow', hhigh]
  omega

theorem time_setTie (x : Tie) (s : State) : (run (setTie x) s).time = { s.time with ties := x :: s.time.ties } := by
  simp only [setTie, Prog.set64, run_all_cons, run_all_nil, run_ask]
  rfl

theorem tieMeasure_ties {s : State} (hscs : s.scsRun = true) (hcc : s.time.cc % 1024 = 0) (q : Nat) :
    Completes (.tieMeasure q) s fun t =>
      let ms := ((s.time.cc, q) :: s.time.meas).take 64
      t.time.meas = ms ∧ t.time.ties = ⟨(Config.fitTie ms).1, s.time.cc, (Config.fitTie ms).2 % 2 ^ 48⟩ :: s.time.ties ∧
      t.get64 pgTime R.TIME_TIE_P_LO R.TIME_TIE_P_HI = (Config.fitTie ms).2 % 2 ^ 48 := by
  generalize hms : ((s.time.cc, q) :: s.time.meas).take 64 = ms
  have hrun : run (tieMeasure q) s = run (setTie { qref := (Config.fitTie ms).1, cref := s.time.cc, per := (Config.fitTie ms).2 % 2 ^ 48 })
      (run (.time fun t => { t with meas := ms }) s) := by
    simp only [tieMeasure, run_ask, run_when, hscs, hcc, decide_true, Bool.and_self, if_true, run_all_cons, run_all_nil, hms]
  refine ⟨run (tieMeasure q) s, rfl, ?_⟩
  rw [hrun]
  simp only [time_setTie, get64_setTie, Nat.mod_mod]
  exact ⟨rfl, rfl, trivial⟩

/-- Settles O33, event by event: what each event's program runs to in the given state, and what the rest of it keeps. -/
theorem timeBaseEventsAct : Obligations.TimeBaseEventsAct := by
  unfold Obligations.TimeBaseEventsAct
  intro s comp servo phase freq src q p sec b
  refine ⟨⟨_, rfl, steerUpdate_steers comp servo phase freq s⟩,
    fun hmay hq hpend => ⟨sourceQualify_waits hmay hq phase, sourceQualify_selects hmay hq phase hpend⟩,
    fun hq hmay hpend hsel h0 hothers => sourceLost_holdover hq hmay hpend hsel h0 hothers phase,
    fun hrev h0 hslot => revertTimer_selects hrev h0 hslot phase, fun hb h4 => ⟨fun hset => ?_, fun hset h0 => ?_, fun hset h0 => ?_⟩,
    fun hlast hpast => ppsMiss_misses hlast hpast phase, ⟨_, rfl, second_follows s⟩, fun hscs hcc => tieMeasure_ties hscs hcc q⟩
  · refine ⟨run (ppsInEdge b q phase) s, rfl, ?_⟩
    rw [run_ppsInEdge_plain hb h4 q phase hset]
    exact ⟨rfl, ppsSeen_good q s.time⟩
  · obtain ⟨hnone, hnow, -⟩ := ppsInEdge_sets hb h4 q phase hset
    exact ⟨run (ppsInEdge b q phase) s, rfl, hnone, hnow h0⟩
  · obtain ⟨hnone, -, hwaits⟩ := ppsInEdge_sets hb h4 q phase hset
    exact ⟨run (ppsInEdge b q phase) s, rfl, hnone, hwaits h0⟩

end Sys2Proof.Machine

/-! SUPPORT. Proofs: the rules of the event inputs have a state where they fail. -/

namespace Sys2Proof.Machine

/-- A state whose combiner counts in a cell that is not its own: 982 stands for a definition, where the combiner has 0 to 15. Its four
provisional triggers are open, and a fifth event waits for it; the missed triggers of a definition 982 are counted at LEVEL of TDC0. -/
def strayMissed : State := { State.reset with
  regs := [(0x3004C, 3#32), (0x3BB30, 1#32)]
  trig := { State.reset.trig with
    armFrom := some 0
    waiting := [(982, { src := 0, anchor := 5, prov := true, res := none, late := false })]
    defs := [(982, { TDef.reset with provs := List.replicate 4 openProv })] } }

theorem coreOn_strayMissed : strayMissed.coreOn = true := by decide +kernel

/-- The state keeps what every step keeps, so no well-formedness of the model excludes it. -/
theorem wf_strayMissed : strayMissed.wf = true := by decide +kernel

/-- A falling edge of EVT0 sets LEVEL 0; then the combiner goes on: the event that waited is missed, and the count takes LEVEL to 1. -/
theorem level_strayMissed : (run (.ask fun s => .when s.coreOn (evEdge 0 true 0 0)) strayMissed).get (pgTdc 0) R.TDC_LEVEL = 1 := by
  decide +kernel

/-- Refutes O32: in a state whose combiner holds an event of a definition that it does not have, a falling edge leaves LEVEL 1, as the event
that is missed is counted in the word that holds LEVEL. The statement asks no form of the state, and this one is well kept
(`wf_strayMissed`). -/
theorem not_eventInputsAct : ¬ Obligations.EventInputsAct := by
  unfold Obligations.EventInputsAct
  intro h
  let x : RawStamp := { c := 0, j := 0, m := 0, falling := true, presc := false, cnt := 0, ovf := false }
  let y : Stamp := { q := 0, cnt := 0, falling := true, presc := false, ovf := false }
  obtain ⟨hedge, -⟩ := h strayMissed 0 0 0 0 true x [] y y [] [] [] (0, [], [])
  obtain ⟨t, ht, -, hlevel, -⟩ := hedge (by decide) (by decide) (by decide) coreOn_strayMissed
  have hrun : exec (.evEdge 0 true 0 0) strayMissed = .next (run (.ask fun s => .when s.coreOn (evEdge 0 true 0 0)) strayMissed) := rfl
  obtain rfl := Host.Outcome.next.inj (hrun.symm.trans ht)
  exact Nat.one_ne_zero (level_strayMissed.symm.trans hlevel)

end Sys2Proof.Machine

/-! SUPPORT. Proofs: LINK_REMOTE, TIME_SET and MON_READ (R253, R324, R398, R470). -/

namespace Sys2Proof.Machine

/-! ### A step that ends in a wait shows it on its sequencer's page alone -/

theorem Tab.put_ne_nil {α : Type} (t : Tab α) (a : Nat) (x : α) : Tab.put t a x ≠ [] := fun h => by
  have hf := Tab.find_put t a a x
  rw [h, if_pos rfl] at hf
  cases hf

/-- A sequencer that holds a command is in RUN or WAIT. -/
theorem sqState_holds {s : State} {q : Nat} (h : (s.seqr q).held ≠ []) : s.sqState q ≠ 0 ∧ s.sqState q ≠ 3 := by
  have hc : (s.seqr q).held.isEmpty = false := by rw [List.isEmpty_eq_false_iff]; exact h
  simp only [State.sqState, hc, Bool.false_eq_true, if_false]
  split <;> decide

/-- The status of a sequencer that holds a command: no event. -/
theorem run_sqStat_holds {s : State} {q : Nat} (h : (s.seqr q).held ≠ []) :
    run (sqStat q) s = run (.set (pgSq q) R.SQ_STATE (s.sqState q)) (run (.set (pgSq q) R.SQ_CMDS (s.seqr q).held.length) s) := by
  obtain ⟨h0, h3⟩ := sqState_holds h
  simp only [sqStat, run_ask, run_all_cons, run_all_nil, run_when, h0, h3, decide_false, Bool.or_self, Bool.and_false, Bool.false_eq_true,
    if_false]

/-- A command waits: the sequencer's STATE and CMDS show it, and nothing else has changed. -/
structure WaitShown (q : Nat) (s t : State) : Prop where
  frame : t = { s with regs := t.regs, cmd := t.cmd }
  cells : ∀ a, a % 0x1000 ≠ 0x040 → t.cell a = s.cell a

theorem waitWork_shown {s : State} {q k : Nat} {h : Held} (hh : s.heldAt q k = some h) : WaitShown q s (run (waitWork q k) s) := by
  rw [waitWork, run_all_cons, run_pair]
  generalize hu : run (modHeld q k fun h => { h with wait := .work }) s = u
  have huheld : (u.seqr q).held = Tab.put (s.seqr q).held k { h with wait := .work } := by
    rw [← hu, run_modHeld _ _ _ _ _ hh]
  have huframe : u = { s with cmd := u.cmd } := by rw [← hu]; rfl
  generalize hv : run (modSeqr q fun z => { z with cur := none }) u = v
  have hvheld : (v.seqr q).held ≠ [] := by
    rw [← hv, seqr_modSeqr, if_pos rfl]
    exact fun he => Tab.put_ne_nil _ _ _ (huheld.symm.trans he)
  have hvframe : v = { s with cmd := v.cmd } := by rw [← hv, huframe]; rfl
  have hpage (r : Row) : r.addr (pgSq q) 0 = 0x200000 + 0x1000 * q + r.off + r.stride * 0 := rfl
  rw [run_sqStat_holds hvheld]
  refine ⟨by rw [hvframe]; rfl, fun a ha => ?_⟩
  have hstate := hpage R.SQ_STATE
  have hcmds := hpage R.SQ_CMDS
  have hoff : R.SQ_STATE.off = 0x040 ∧ R.SQ_CMDS.off = 0x040 := ⟨rfl, rfl⟩
  rw [Prog.set, cell_seti, if_neg (by omega), Prog.set, cell_seti, if_neg (by omega), hvframe]
  rfl

/-- Whether a port carries a request depends on its state alone. -/
theorem portCarries_request {s t : State} {n : Nat} (h : t.portState n = s.portState n) : t.portCarries n 8 = s.portCarries n 8 := by
  rw [State.portCarries, h, State.portCarries]
  rfl

section
variable {s t : State} {q : Nat} (h : WaitShown q s t)
include h

theorem WaitShown.get_eq {p : Pg} {r : Row} (ha : r.addr p 0 % 0x1000 ≠ 0x040) : t.get p r = s.get p r := by
  rw [State.get, State.geti, h.cells _ ha, State.get, State.geti]

theorem WaitShown.link_eq : t.link = s.link := by rw [h.frame]

theorem WaitShown.now_eq : t.now = s.now := by rw [State.now, h.frame, State.now]

theorem WaitShown.txOf_eq (n : Nat) : t.txOf n = s.txOf n := by rw [State.txOf, h.frame, State.txOf]

theorem WaitShown.portState_eq (n : Nat) : t.portState n = s.portState n := h.get_eq (by
  show (0x441000 + 0x1000 * n + 0x050 + 4 * 0) % 0x1000 ≠ 0x040
  omega)

theorem WaitShown.routeTo_eq (dst : Nat) : t.routeTo dst = s.routeTo dst := by
  have hup : t.upPort = s.upPort := by
    rw [State.upPort, h.get_eq (by decide), h.portState_eq, State.upPort]
  rw [State.routeTo, h.link_eq, hup, State.routeTo]

end

/-- A step that leaves its command to wait for hardware, which does not touch the commands. -/
theorem waitFor_waits {s : State} {q k : Nat} {h : Held} {work : Prog} (hh : s.heldAt q k = some h) (hends : h.ends = [])
    (hcmd : (run work (run (waitWork q k) s)).cmd = (run (waitWork q k) s).cmd) :
    run (waitFor q k work) s = run work (run (waitWork q k) s) ∧
      (run work (run (waitWork q k) s)).heldAt q k = some { h with wait := .work } ∧ ((run work (run (waitWork q k) s)).seqr q).cur = none := by
  obtain ⟨hheld, hcur⟩ := waitWork_waits hh
  have hheld' := (heldAt_congr (q := q) (k := k) hcmd).trans hheld
  refine ⟨?_, hheld', by rw [State.seqr, hcmd]; exact hcur⟩
  rw [run_waitFor, run_stepEnds_none fun x hx => by rw [hheld'] at hx; cases hx; exact hends]

/-! ### LINK_REMOTE (R312, R324) -/

/-- A message leaves a port that has nothing to send, and else waits there. -/
theorem txSend_sends {n : Nat} {m : Msg} (hcut : m.cut = none) (s : State) :
    let t := run (txSend n m) s
    (s.txOf n = PortTx.reset → .link n m.ty (msgBytes m) ∈ t.out) ∧
      (s.txOf n ≠ PortTx.reset → (t.txOf n).queue = (s.txOf n).queue ++ [m]) ∧ t.link = s.link ∧ t.cmd = s.cmd := by
  dsimp only
  rw [txSend, run_ask]
  by_cases hidle : s.txOf n = PortTx.reset
  · have hc : (decide ((s.txOf n).busy = 0) && (s.txOf n).queue.isEmpty) = true := by rw [hidle]; rfl
    rw [if_pos hc, run_pair, emitMsg, hcut]
    exact ⟨fun _ => List.mem_cons_self, fun h => absurd hidle h, rfl, rfl⟩
  · have hc : (decide ((s.txOf n).busy = 0) && (s.txOf n).queue.isEmpty) ≠ true := fun hc => hidle (by
      rw [Bool.and_eq_true, decide_eq_true_eq, List.isEmpty_iff] at hc
      obtain ⟨hbusy, hqueue⟩ := hc
      show (⟨(s.txOf n).queue, (s.txOf n).busy⟩ : PortTx) = ⟨[], 0⟩
      rw [hbusy, hqueue])
    rw [if_neg hc]
    refine ⟨fun h => absurd h hidle, fun _ => ?_, rfl, rfl⟩
    rw [State.txOf, putTx, Prog.tx]
    exact congrArg PortTx.queue ((Tab.get_put ..).trans (if_pos rfl))

/-- A request that has a free tag and a port that carries it. -/
theorem remoteRequest_sends {s : State} {tag p dst : Nat} (htag : ((List.range 16).find? fun t => !(s.link.reqs.any fun r => r.tag = t)) = some tag)
    (hroute : s.routeTo dst = some p) (hcarries : s.portCarries p 8 = true) (q k op off data : Nat) :
    let t := run (remoteRequest q k dst op off data) s
    (s.txOf p = PortTx.reset → ∃ b, Out.link p 8 b ∈ t.out) ∧
      (s.txOf p ≠ PortTx.reset → ∃ m, m.ty = 8 ∧ (t.txOf p).queue = (s.txOf p).queue ++ [m]) ∧
      t.link.reqs = s.link.reqs ++ [⟨tag, dst, p, q * 8 + k, s.now + usQ (s.get pgFlink R.FLINK_REMOTE_TMO)⟩] ∧ t.cmd = s.cmd := by
  dsimp only
  simp only [remoteRequest, run_ask, htag, hroute, hcarries, Bool.not_true, Bool.false_eq_true, if_false, run_all_cons, run_all_nil]
  generalize hm : ownMsg s 8 0 0 dst tag [off % 2 ^ 26 + op * 2 ^ 26 + data * 2 ^ 32, 0] = m
  have hty : m.ty = 8 := by rw [← hm]; rfl
  have hcut : m.cut = none := by rw [← hm]; rfl
  generalize hu : run (.link _) s = u
  have hureqs : u.link.reqs = s.link.reqs ++ [⟨tag, dst, p, q * 8 + k, s.now + usQ (s.get pgFlink R.FLINK_REMOTE_TMO)⟩] := by
    rw [← hu]
    rfl
  have hcarries' : (run (.set pgFlink R.FLINK_REMOTE_OUT u.link.reqs.length) u).portCarries p m.ty = true := by
    have hstate : (run (.set pgFlink R.FLINK_REMOTE_OUT u.link.reqs.length) u).portState p = s.portState p := by
      have hcell : R.FPORT_STATE.addr (pgFport p) 0 ≠ R.FLINK_REMOTE_OUT.addr pgFlink 0 := by
        show 0x441000 + 0x1000 * p + 0x050 + 4 * 0 ≠ 0x440000 + 0x1000 * 0 + 0x064 + 4 * 0
        omega
      rw [State.portState, get_set_other _ _ _ _ _ _ (by decide) (.inl hcell), ← hu]
      rfl
    rw [hty, portCarries_request hstate, hcarries]
  have hvtx : (run (.set pgFlink R.FLINK_REMOTE_OUT u.link.reqs.length) u).txOf p = s.txOf p := by rw [← hu]; rfl
  have hvcmd : (run (.set pgFlink R.FLINK_REMOTE_OUT u.link.reqs.length) u).cmd = s.cmd := by rw [← hu]; rfl
  have hvlink : (run (.set pgFlink R.FLINK_REMOTE_OUT u.link.reqs.length) u).link = u.link := rfl
  generalize run (.set pgFlink R.FLINK_REMOTE_OUT u.link.reqs.length) u = v at hcarries' hvtx hvcmd hvlink
  rw [sendLink, run_ask, hcarries', if_pos rfl]
  obtain ⟨hsent, hwaits, hlink, hcmd⟩ := txSend_sends (n := p) hcut v
  rw [hvtx] at hsent hwaits
  refine ⟨fun h => ⟨_, hty ▸ hsent h⟩, fun h => ⟨m, hty, hwaits h⟩, ?_, hcmd.trans hvcmd⟩
  rw [hlink, hvlink, hureqs]

theorem linkRemote_waits {s : State} {q k tag p : Nat} {h : Held} (hc : CommandRuns s q k h 0x30) (hform : h.pf 0 17 16 ≠ 3)
    (hroom : s.link.reqs.length < 16) (htag : ((List.range 16).find? fun t => !(s.link.reqs.any fun r => r.tag = t)) = some tag)
    (hroute : s.routeTo (h.pf 0 13 0) = some p) (hcarries : s.portCarries p 8 = true) :
    Waits (.linkRemote q) s q k h fun t => (s.txOf p = PortTx.reset → ∃ b, Out.link p 8 b ∈ t.out) ∧
      (s.txOf p ≠ PortTx.reset → ∃ m, m.ty = 8 ∧ (t.txOf p).queue = (s.txOf p).queue ++ [m]) ∧
      t.link.reqs = s.link.reqs ++ [⟨tag, h.pf 0 13 0, p, q * 8 + k, s.now + usQ (s.get pgFlink R.FLINK_REMOTE_TMO)⟩] := by
  have hexec : exec (.linkRemote q) s = .next (run (cmdRow q 0x30 (linkRemoteStep q)) s) := rfl
  have hheld := heldAt_of_current hc.1
  have hshown := waitWork_shown hheld
  have hsends := remoteRequest_sends (s := run (waitWork q k) s) (tag := tag) (p := p) (dst := h.pf 0 13 0) (by rw [hshown.link_eq, htag])
    (by rw [hshown.routeTo_eq, hroute]) (by rw [portCarries_request (hshown.portState_eq p), hcarries]) q k (h.pf 0 17 16) (h.pf 1 25 0) (h.p 2)
  rw [hshown.txOf_eq, hshown.link_eq, hshown.now_eq, hshown.get_eq (by decide)] at hsends
  obtain ⟨hidle, hbusy, hreqs, hcmd⟩ := hsends
  obtain ⟨hrun, hheld', hcur⟩ := waitFor_waits hheld hc.ends hcmd
  refine ⟨_, hexec, ?_⟩
  rw [run_cmdRow hc, linkRemoteStep, run_ask, if_neg hform, if_neg (by simp [hroom]), hrun]
  exact ⟨hheld', hcur, hidle, hbusy, hreqs⟩

/-! ### TIME_SET (R253) -/

theorem ofLe_lt (bs : List Byte) : ofLe bs < 256 ^ bs.length := by
  induction bs with
  | nil => decide
  | cons b bs ih =>
    have hb := b.isLt
    rw [ofLe, List.length_cons, Nat.pow_succ]
    omega

theorem field_lt (bs : List Byte) (o n : Nat) : field bs o n < 256 ^ n :=
  Nat.lt_of_lt_of_le (ofLe_lt _) (Nat.pow_le_pow_right (by decide) (List.length_take_le ..))

/-- A Q-time of the instruction is one of 96 bits. -/
theorem qtime_lt (h : Held) : h.qtime < 2 ^ 96 := by
  have hsec := field_lt h.bytes 8 6
  have hfrac := field_lt h.bytes 14 6
  unfold Held.qtime
  omega

section
variable {s : State} {q k : Nat} {h : Held} (hc : CommandRuns s q k h 0x32)
include hc

theorem timeSet_refused (hst : s.timeSetStatus ≠ 0) : Finishes (.timeSet q) s q k h s.timeSetStatus 0 (· = s) := by
  have hexec : exec (.timeSet q) s = .next (run (cmdRow q 0x32 (timeSetStep q)) s) := rfl
  have hheld := heldAt_of_current hc.1
  refine ⟨s, rfl, hheld, hexec.trans (congrArg _ ?_)⟩
  rw [run_cmdRow hc, timeSetStep, run_ask, if_neg (show s.timeSetStatus ≠ stOK from hst)]
  exact run_doneCmd _ _ hheld hc.ends

/-- A TIME_SET that is permitted has its effect and completes. -/
theorem timeSet_finishes (hst : s.timeSetStatus = 0) {P : State → Prop} (hcmd : (run (timeSet h.qtime) s).cmd = s.cmd)
    (hP : P (run (timeSet h.qtime) s)) : Finishes (.timeSet q) s q k h 0 0 P := by
  have hexec : exec (.timeSet q) s = .next (run (cmdRow q 0x32 (timeSetStep q)) s) := rfl
  have hheld := (heldAt_congr (q := q) (k := k) hcmd).trans (heldAt_of_current hc.1)
  refine ⟨_, hP, hheld, hexec.trans (congrArg _ ?_)⟩
  rw [run_cmdRow hc, timeSetStep, run_ask, if_pos (show s.timeSetStatus = stOK from hst), run_pair]
  exact run_doneCmd _ _ hheld hc.ends

end

/-- Q-time is set, and its seconds are valid (R253). -/
theorem timeSet_sets {s : State} (hsel : s.get pgTime R.TIME_SEL ≠ 4) {q : Nat} (hq : q < 2 ^ 96) :
    let t := run (timeSet q) s
    t.now = q ∧ t.get pgTime R.TIME_TAI_VALID = 1 ∧ t.cmd = s.cmd := by
  have hshift : (run (shiftTimes ((q : Int) - s.now)) s).cmd = s.cmd := by
    rw [shiftTimes, run_pair]
    rfl
  dsimp only
  rw [timeSet, run_ask, if_neg hsel, run_all_cons, run_pair]
  generalize run (shiftTimes ((q : Int) - s.now)) s = u at hshift
  generalize hv : run (.time _) u = v
  have hvnow : v.time.q = q * 2 ^ 32 % 2 ^ 128 := by rw [← hv]; rfl
  have hvcmd : v.cmd = s.cmd := by rw [← hv]; exact hshift
  refine ⟨?_, get_set_same v pgTime R.TIME_TAI_VALID 1 (by decide), (cmd_light ((only_set ..).2 trivial) v).trans hvcmd⟩
  show v.time.q / 2 ^ 32 = q
  omega

/-- The seconds wait for the next edge of PPS_IN (R253). -/
theorem run_timeSet_pps {s : State} (hsel : s.get pgTime R.TIME_SEL = 4) (q : Nat) :
    run (timeSet q) s = run (.time fun t => { t with ppsSet := some (q / 2 ^ 48) }) s := by
  rw [timeSet, run_ask, if_pos hsel]

/-! ### MON_READ (R470, R471) -/

/-- The converter has the request, whether or not it aborts a conversion. -/
theorem monRequest_asks (input : Nat) (urgent : Bool) (cmd : Nat) (s : State) :
    let t := run (monRequest input urgent cmd) s
    (∃ r ∈ t.pwr.reqs, r.cmd = some cmd ∧ r.input = input ∧ r.cls = if urgent then 0 else 3) ∧ t.cmd = s.cmd := by
  dsimp only
  rw [monRequest, run_ask, run_pair]
  generalize hu : run (.pwr _) s = u
  have hasked : ({ cls := if urgent then 0 else 3, input := input, due := s.now, cmd := some cmd } : MonReq) ∈ u.pwr.reqs := by
    rw [← hu]
    exact List.mem_append_right _ (List.mem_singleton_self _)
  have hucmd : u.cmd = s.cmd := by rw [← hu]; rfl
  cases hrun : s.pwr.running with
  | none => exact ⟨⟨_, hasked, rfl, rfl, rfl⟩, hucmd⟩
  | some r =>
    simp only [run_when]
    split
    · exact ⟨⟨_, List.mem_cons_of_mem _ hasked, rfl, rfl, rfl⟩, hucmd⟩
    · exact ⟨⟨_, hasked, rfl, rfl, rfl⟩, hucmd⟩

theorem monRead_waits {s : State} {q k : Nat} {h : Held} (hc : CommandRuns s q k h 0x33) :
    Waits (.monRead q) s q k h fun t => ∃ r ∈ t.pwr.reqs, r.cmd = some (q * 8 + k) ∧ r.input = h.pf 0 4 0 ∧
      r.cls = if bit (h.p 0) 8 then 0 else 3 := by
  have hexec : exec (.monRead q) s = .next (run (cmdRow q 0x33 (monReadStep q)) s) := rfl
  obtain ⟨hasked, hcmd⟩ := monRequest_asks (h.pf 0 4 0) (bit (h.p 0) 8) (q * 8 + k) (run (waitWork q k) s)
  obtain ⟨hrun, hheld, hcur⟩ := waitFor_waits (heldAt_of_current hc.1) hc.ends hcmd
  refine ⟨_, hexec, ?_⟩
  rw [run_cmdRow hc, monReadStep, hrun]
  exact ⟨hheld, hcur, hasked⟩

end Sys2Proof.Machine

/-! SUPPORT. Proofs: the trigger engine and the way to READY never write the power state (R134 to R162, R398, R456, R460). -/

namespace Sys2Proof.Machine

/-! ### Programs that leave the power state -/

/-- The cell that shows the power state and the transition. -/
def powerCell : Nat := R.PWR_STATE.addr pgPwr 0

theorem powerCell_eq : powerCell = 0x5040 := rfl

theorem keepsPower_banks {p : Prog} (h : Prog.Only Act.banks p) : Prog.Only (Act.spares powerCell) p :=
  Prog.Only.mono (fun a ha => by
    cases a with
    | fld b hi lo v =>
      have hb : 0x10000 ≤ b := ha
      show powerCell ≠ b
      rw [powerCell_eq]
      omega
    | wr => exact ha.elim
    | _ => trivial) p h

theorem keepsPower_queues {p : Prog} (h : Prog.Only Act.queues p) : Prog.Only (Act.spares powerCell) p := keepsPower_banks (banks_queues h)

theorem keepsPower_of_delivers (a : Act) (h : a.delivers) : a.spares powerCell := spares_of_delivers powerCell (by decide) a h

@[simp] theorem keepsPower_fld {p : Pg} (h : 0x10000 ≤ p.base) (r : Row) (i hi lo v : Nat) : (Act.fld (r.addr p i) hi lo v).spares powerCell := by
  show powerCell ≠ p.base + r.off + r.stride * i
  rw [powerCell_eq]
  omega

@[simp] theorem keepsPower_raise {p : Pg} (h : 0x10000 ≤ p.base) (k : Nat) : Prog.Only (Act.spares powerCell) (raise p k) :=
  keepsPower_banks (banks_raise h k)

@[simp] theorem high_base_text : 0x10000 ≤ pgText.base := by decide
@[simp] theorem high_base_flink : 0x10000 ≤ pgFlink.base := by decide
@[simp] theorem high_base_fport (n : Nat) : 0x10000 ≤ (pgFport n).base := Nat.le_add_right_of_le (show 0x10000 ≤ 0x441000 by decide)

@[simp] theorem keepsPower_trig (f : Trig → Trig) : Prog.Only (Act.spares powerCell) (.trig f) := ⟨trivial, trivial⟩
@[simp] theorem keepsPower_onSeg (f : Seg → Seg) : Prog.Only (Act.spares powerCell) (.seg f) := ⟨trivial, trivial⟩
@[simp] theorem keepsPower_modTu (n : Nat) (f : Tu → Tu) : Prog.Only (Act.spares powerCell) (modTu n f) := keepsPower_trig _
@[simp] theorem keepsPower_modDef (d : Nat) (f : TDef → TDef) : Prog.Only (Act.spares powerCell) (modDef d f) := keepsPower_trig _
@[simp] theorem keepsPower_modTout (n : Nat) (f : TOut → TOut) : Prog.Only (Act.spares powerCell) (modTout n f) := keepsPower_trig _
@[simp] theorem keepsPower_modRemote (src a : Nat) (f : Remote → Remote) : Prog.Only (Act.spares powerCell) (modRemote src a f) :=
  (only_when ..).2 fun _ => keepsPower_trig _
@[simp] theorem keepsPower_setLevel (src a : Nat) (v : Bool) : Prog.Only (Act.spares powerCell) (setLevel src a v) := keepsPower_trig _
@[simp] theorem keepsPower_modStrm (n : Nat) (f : Strm → Strm) : Prog.Only (Act.spares powerCell) (modStrm n f) := keepsPower_onSeg _

/-! ### Requests and the close of the frame -/

theorem keepsPower_pumpBuilt (n k : Nat) : Prog.Only (Act.spares powerCell) (pumpBuilt n k) := by
  induction k with
  | zero => trivial
  | succ k ih =>
    intro s
    dsimp only
    split
    · simp [ih]
    · split
      · simp [ih, keepsPower_queues (queues_pushPip _)]
      · trivial
    · trivial

theorem keepsPower_takeSeq (n : Nat) : Prog.Only (Act.spares powerCell) (takeSeq n) := by
  simp [takeSeq]

theorem keepsPower_confirmReq (r : Req) : Prog.Only (Act.spares powerCell) (confirmReq r) := fun s => by
  have hpump : Prog.Only (Act.spares powerCell) (pump r.stream) := fun _ => keepsPower_pumpBuilt _ _
  dsimp only
  split
  · simp [keepsPower_takeSeq]
  · split <;> simp [keepsPower_takeSeq, addBuilt, hpump]

theorem keepsPower_contClose (n q : Nat) : Prog.Only (Act.spares powerCell) (contClose n q) := fun s => by
  have hsegment : Prog.Only (Act.spares powerCell) (contSegment n q) := fun s => by simp [keepsPower_confirmReq]
  simp [hsegment]

@[simp] theorem keepsPower_closeFrame (cause at_ : Nat) : Prog.Only (Act.spares powerCell) (closeFrame cause at_) := fun s => by
  have htop (r : Row) (i v : Nat) (h : r.off + r.stride * i < 0x5040) : (Act.fld (r.addr pgTop i) r.hi r.lo v).spares powerCell := by
    show powerCell ≠ 0 + r.off + r.stride * i
    rw [powerCell_eq]
    omega
  have hclose : Prog.Only (Act.spares powerCell) (.setQ pgTop R.TOP_CLOSE_TIME (max at_ s.seg.tOpen)) := by
    simp only [Prog.setQ, only_all_cons, only_all_nil, only_seti, and_true]
    exact ⟨htop _ _ _ (by decide), htop _ _ _ (by decide), htop _ _ _ (by decide)⟩
  have hraise : Prog.Only (Act.spares powerCell) (raise pgTop 2) := only_raise _ _ keepsPower_of_delivers (show powerCell ≠ 0x014 by decide)
  dsimp only
  split
  · simp only [only_all_cons, only_all_nil, keepsPower_onSeg, keepsPower_trig, hclose, hraise, only_set, and_true, true_and]
    exact ⟨only_each _ _ fun n _ => keepsPower_contClose n _, htop _ _ _ (by decide), htop _ _ _ (by decide)⟩
  · exact (only_when ..).2 fun _ => (only_set ..).2 (htop _ _ _ (by decide))

@[simp] theorem keepsPower_countTrigger (d : Nat) : Prog.Only (Act.spares powerCell) (countTrigger d) := fun s => by
  have hinc : Prog.Only (Act.spares powerCell) (.inc pgTop R.TOP_TRIG_COUNT) := only_inc _ _ fun _ => (show powerCell ≠ 0x08C by decide)
  simp [hinc]

/-! ### What the triggers of a definition come to (R144 to R151) -/

@[simp] theorem keepsPower_announce (d a : Nat) (k : Ann) (phase : Bool) : Prog.Only (Act.spares powerCell) (announce d a k phase) := by
  have hpin (n pin : Nat) (on : Bool) : Prog.Only (Act.spares powerCell) (toutPin n pin on) := fun _ => (only_out _).2 trivial
  have hpulse (n : Nat) (prov : Option Nat) : Prog.Only (Act.spares powerCell) (pulseOut n prov) := fun s => by simp [hpin]
  have hout : Prog.Only (Act.spares powerCell) (toutAnnounce d a k phase) := fun s => by
    refine only_each _ _ fun n _ => ?_
    split <;> simp [hpulse, hpin]
  have hexport : Prog.Only (Act.spares powerCell) (exportTrig d a k) := fun _ => (only_when ..).2 fun _ => fun _ => only_each _ _ fun n _ =>
    only_sendLink _ _ (fun _ => trivial) (fun _ => trivial) fun v => keepsPower_fld (high_base_fport n) _ _ _ _ v
  simp only [announce, only_all_cons, only_all_nil, hout, hexport, and_self]

@[simp] theorem keepsPower_holdDiscard (d a : Nat) : Prog.Only (Act.spares powerCell) (holdDiscard d a) := fun s => by simp

@[simp] theorem keepsPower_provStat (d : Nat) : Prog.Only (Act.spares powerCell) (provStat d) := fun _ =>
  (only_setBit ..).2 (keepsPower_fld high_base_tcomb _ _ _ _ _)

theorem keepsPower_finalize (d : Nat) (p : Prov) (ok : Bool) : Prog.Only (Act.spares powerCell) (finalize d p ok) := fun s => by
  have hconfirm (anchor code : Nat) : Prog.Only (Act.spares powerCell) (confirmReqs d anchor code) := fun _ =>
    only_each _ _ fun _ _ => fun _ => keepsPower_confirmReq _
  have hkeep (anchor code : Nat) : Prog.Only (Act.spares powerCell) (keepReqs d anchor code) := fun s => by
    simp only [only_all_cons, only_all_nil, and_true]
    exact ⟨only_each _ _ fun n _ => fun _ => by simp [keepsPower_confirmReq], keepsPower_onSeg _⟩
  have hdrop : Prog.Only (Act.spares powerCell) (dropReqs d p.anchor) := keepsPower_onSeg _
  have hhold (a : Nat) : Prog.Only (Act.spares powerCell) (startHold d a) := fun _ => keepsPower_modDef _ _
  simp [hconfirm, hkeep, hdrop, hhold]

@[simp] theorem keepsPower_defSettle (d : Nat) : Prog.Only (Act.spares powerCell) (defSettle d) := fun s => by
  have hdrain (k : Nat) : Prog.Only (Act.spares powerCell) (defDrain d k) := by
    induction k with
    | zero => trivial
    | succ k ih =>
      intro s
      dsimp only
      split
      · split
        · simp [keepsPower_finalize, ih]
        · exact keepsPower_provStat d
      · exact keepsPower_provStat d
  exact hdrain _

@[simp] theorem keepsPower_defEvent (d a src : Nat) (prov : Bool) : Prog.Only (Act.spares powerCell) (defEvent d a src prov) := fun s => by
  have hreserve (code : Nat) : Prog.Only (Act.spares powerCell) (reserveReqs d a code) := fun _ => only_each _ _ fun _ _ => keepsPower_onSeg _
  simp [hreserve]

@[simp] theorem keepsPower_defResolve (d a src : Nat) (ok late : Bool) : Prog.Only (Act.spares powerCell) (defResolve d a src ok late) := by
  simp [defResolve]

/-! ### Sequences and events (R145, R148) -/

@[simp] theorem keepsPower_seqStop (d : Nat) : Prog.Only (Act.spares powerCell) (seqStop d) := fun s => by
  dsimp only
  split <;> simp

theorem keepsPower_seqRunN (d k : Nat) : Prog.Only (Act.spares powerCell) (seqRunN d k) := by
  have htake (term a src : Nat) : Prog.Only (Act.spares powerCell) (seqTake d term a src) := fun s => by
    dsimp only
    split
    · simp
    · split <;> simp
    · exact keepsPower_seqStop d
  induction k with
  | zero => trivial
  | succ k ih =>
    intro s
    dsimp only
    split
    · simp [htake, ih]
    · trivial

theorem keepsPower_takeEvent (d : Nat) (e : SrcEv) : Prog.Only (Act.spares powerCell) (takeEvent d e) := fun s => by
  have hfire (j : Nat) : Prog.Only (Act.spares powerCell) (seqFire d j e.anchor e.src) := fun s => by simp
  dsimp only
  split
  · trivial
  · split
    · simp [hfire]
    · split
      · trivial
      · simp only [only_all_cons, only_all_nil, keepsPower_modDef, keepsPower_defEvent, true_and, and_true]
        split <;> simp

@[simp] theorem keepsPower_trigSettle : Prog.Only (Act.spares powerCell) trigSettle := by
  have hsettle (k : Nat) : Prog.Only (Act.spares powerCell) (settleN k) := by
    induction k with
    | zero => trivial
    | succ k ih =>
      intro s
      dsimp only
      split
      · simp [keepsPower_takeEvent, ih]
      · exact only_each _ _ fun d _ => fun _ => keepsPower_seqRunN d _
  exact fun _ => hsettle _

@[simp] theorem keepsPower_srcResolve (src a : Nat) (ok late : Bool) : Prog.Only (Act.spares powerCell) (srcResolve src a ok late) := fun _ => by simp

/-! ### Trigger units (R139) -/

theorem keepsPower_tuUnknown (n a : Nat) : Prog.Only (Act.spares powerCell) (tuUnknown n a) := fun _ => by
  have hstat : Prog.Only (Act.spares powerCell) (tuStat n) := fun _ => by simp
  have hlevel (v : Bool) : Prog.Only (Act.spares powerCell) (tuSetLevel n a 0 v) := fun _ => by simp
  have hdone (c : Cand) : Prog.Only (Act.spares powerCell) (candDone n c false) := by simp [candDone]
  simp [hlevel, hdone, hstat]

theorem keepsPower_tuRestart (n : Nat) : Prog.Only (Act.spares powerCell) (tuRestart n) := fun _ => by
  simp [keepsPower_tuUnknown]

theorem keepsPower_syncStop (c : Nat) : Prog.Only (Act.spares powerCell) (syncStop c) := fun s => by
  have hchan (f : Chan → Chan) : Prog.Only (Act.spares powerCell) (modChan c f) := keepsPower_banks (banks_modChan _ _)
  dsimp only
  split
  · simp only [only_all_cons, only_all_nil, hchan, true_and, and_true]
    exact only_each _ _ fun n _ => by simp [keepsPower_tuUnknown]
  · exact (only_when ..).2 fun _ => hchan _
  · simp only [only_all_cons, only_all_nil, only_when, hchan, keepsPower_banks (banks_freePipe c), implies_true, and_self]
  · trivial

end Sys2Proof.Machine

/-! SUPPORT. Proofs: POWER_STATE (R398, R456 to R460). -/

namespace Sys2Proof.Machine

/-! ### What the CAL page shows (R104, R105) -/

theorem keepsPower_capture {p : Pg} (h : 0x10000 ≤ p.base) (code detail : Nat) : Prog.Only (Act.spares powerCell) (capture p code detail) := by
  have hne (x : Nat) : powerCell ≠ p.base + x := by
    rw [powerCell_eq]
    omega
  exact only_capture p _ _ keepsPower_of_delivers (hne _) (hne _) fun _ => hne _

theorem keepsPower_halfFails (x : SetHalf) : Prog.Only (Act.spares powerCell) (halfFails x) := by
  have hflash : Prog.Only (Act.spares powerCell) (checkFail 3 1) := only_each _ _ fun _ _ => by
    simp only [only_all_cons, only_all_nil, and_true]
    have hcell (x : Nat) (hx : x < 0x1000) : powerCell ≠ pgFlash.base + x := by
      show 0x5040 ≠ 0x6000 + x
      omega
    exact ⟨only_inc _ _ fun _ => hcell _ (by decide), only_raise _ _ keepsPower_of_delivers (hcell _ (by decide)),
      only_capture _ _ _ keepsPower_of_delivers (hcell _ (by decide)) (hcell _ (by decide)) fun _ => hcell _ (by decide)⟩
  have hlog (code ty d : Nat) : Prog.Only (Act.spares powerCell) (logFault code ty d) :=
    only_logFault _ _ _ keepsPower_of_delivers (show powerCell ≠ _ by decide) (fun _ => trivial) fun _ => (show powerCell ≠ _ by decide)
  simp only [halfFails, only_all_cons, only_all_nil, hflash, keepsPower_capture high_base_cal, hlog, and_self]

theorem keepsPower_showSets : Prog.Only (Act.spares powerCell) showSets := fun _ => by simp

theorem keepsPower_noSetIfNone (die : Nat) : Prog.Only (Act.spares powerCell) (noSetIfNone die) := fun _ => by
  have hchan (c : Nat) (f : Chan → Chan) : Prog.Only (Act.spares powerCell) (modChan c f) := keepsPower_banks (banks_modChan _ _)
  have hset (v : Bool) : Prog.Only (Act.spares powerCell) (setNoSet die v) := fun _ => by simp [keepsPower_capture, hchan]
  simp [hset]

theorem keepsPower_loadSets : Prog.Only (Act.spares powerCell) loadSets := fun s => by
  have hcal (f : Cal → Cal) : Prog.Only (Act.spares powerCell) (.cal f) := keepsPower_banks (banks_cal f)
  simp only [only_all_cons, only_all_nil, hcal, keepsPower_raise high_base_cal, keepsPower_showSets, keepsPower_noSetIfNone, true_and, and_true]
  exact only_each _ _ fun _ _ => keepsPower_halfFails _

theorem keepsPower_startCal (die : Nat) : Prog.Only (Act.spares powerCell) (startCal die) := fun s => by
  have hcal (f : Cal → Cal) : Prog.Only (Act.spares powerCell) (.cal f) := keepsPower_banks (banks_cal f)
  have hbit (v : Bool) : Prog.Only (Act.spares powerCell) (.setBit pgCal R.CAL_START_DONE die v) := by simp
  simp only [only_all_cons, only_all_nil, hcal, hbit, keepsPower_showSets, keepsPower_noSetIfNone, keepsPower_banks (banks_showBanks die),
    keepsPower_banks banks_showRot, and_true]
  exact only_each _ _ fun _ _ => keepsPower_banks (banks_startSettle _ _)

/-! ### The way to READY (R460) -/

/-- The way to READY begins with the transition, and what follows leaves the power state alone. -/
theorem run_readyStart (s : State) : ∃ p, Prog.Only (Act.spares powerCell) p ∧ run readyStart s = run p (run (beginTransit 2) s) := by
  have hconv (f : Conv → Conv) : Prog.Only (Act.spares powerCell) (.conv f) := keepsPower_banks (banks_conv f)
  have hcal (f : Cal → Cal) : Prog.Only (Act.spares powerCell) (.cal f) := keepsPower_banks (banks_cal f)
  have hstops : Prog.Only (Act.spares powerCell) syncStops := fun _ => only_each _ _ fun c _ => keepsPower_syncStop c
  refine ⟨_, ?_, run_all_cons (beginTransit 2) _ s⟩
  simp only [only_all_cons, only_all_nil, keepsPower_loadSets, hconv, hstops, only_ite, hcal, keepsPower_startCal, implies_true,
    keepsPower_banks banks_showOverride, keepsPower_banks banks_showRot, true_and, and_true]
  refine ⟨only_each _ _ fun b _ => keepsPower_banks (by simp), only_each _ _ fun c _ => keepsPower_banks (by simp),
    only_each _ _ fun n _ => keepsPower_tuRestart n, fun _ => ⟨only_each _ _ fun d _ => keepsPower_banks (by simp),
      only_each _ _ fun c _ => only_each _ _ fun b _ => keepsPower_banks (by simp), only_each _ _ fun d _ => keepsPower_banks (by simp)⟩⟩

theorem beginTransit_shows {target : Nat} (h : target < 4) (s : State) :
    (run (beginTransit target) s).get pgPwr R.PWR_TRANSIT = 1 ∧ (run (beginTransit target) s).get pgPwr R.PWR_TARGET = target := by
  rw [beginTransit, run_pair, get_set_other _ _ _ _ _ _ (by decide) (by decide), get_set_same _ _ _ _ (by decide), get_set_same _ _ _ _ (by decide)]
  exact ⟨rfl, Nat.mod_eq_of_lt h⟩

theorem readyStart_shows (s : State) : (run readyStart s).get pgPwr R.PWR_TRANSIT = 1 ∧ (run readyStart s).get pgPwr R.PWR_TARGET = 2 := by
  obtain ⟨p, hp, hrun⟩ := run_readyStart s
  obtain ⟨htransit, htarget⟩ := beginTransit_shows (target := 2) (by decide) s
  rw [hrun, only_get (r := R.PWR_TRANSIT) hp, only_get (r := R.PWR_TARGET) hp]
  exact ⟨htransit, htarget⟩

/-! ### A step that ends leaves the power state -/

theorem keepsPower_sendLink (n : Nat) (m : Msg) : Prog.Only (Act.spares powerCell) (sendLink n m) :=
  only_sendLink n m (fun _ => trivial) (fun _ => trivial) fun _ => keepsPower_fld (high_base_fport n) _ _ _ _ _

theorem keepsPower_devIdReady : Prog.Only (Act.spares powerCell) devIdReady := fun s => by
  have hroot (id depth : Nat) : Prog.Only (Act.spares powerCell) (setRoot id depth) := fun _ => by
    have hsend (n : Nat) : Prog.Only (Act.spares powerCell) (sendRoot n) := fun _ => keepsPower_sendLink _ _
    simp [hsend]
  have hshow : Prog.Only (Act.spares powerCell) showRoot := fun s => by
    simp only [only_all_cons, only_all_nil, only_when, only_set, keepsPower_fld high_base_flink, keepsPower_raise high_base_flink, implies_true,
      true_and, and_true, only_ite, hroot]
    intro _
    split
    · exact hroot _ _
    · trivial
  have hup (v : Nat) : Prog.Only (Act.spares powerCell) (announceUp v) := fun s => by
    dsimp only
    split
    · exact keepsPower_sendLink _ _
    · trivial
  have hlink (f : Link → Link) : Prog.Only (Act.spares powerCell) (.link f) := ⟨trivial, trivial⟩
  dsimp only
  split
  · simp [hlink, hup, hshow]
  · trivial

theorem keepsPower_cmdCleanup (c : Nat) : Prog.Only (Act.spares powerCell) (cmdCleanup c) := fun s => by
  have hcal (f : Cal → Cal) : Prog.Only (Act.spares powerCell) (.cal f) := keepsPower_banks (banks_cal f)
  have habort (r : Nat) : Prog.Only (Act.spares powerCell) (abortRun r) := keepsPower_banks (banks_abortRunFor _ _)
  simp only [only_all_cons, only_all_nil, only_ask, only_set, keepsPower_fld high_base_flink, keepsPower_devIdReady, implies_true, and_true, true_and]
  exact ⟨only_each _ _ fun e _ => by simp [hcal, habort], ⟨trivial, trivial⟩, ⟨trivial, trivial⟩, trivial, trivial⟩

theorem keepsPower_stepEnds (q k : Nat) : Prog.Only (Act.spares powerCell) (stepEnds q k) := fun s => by
  dsimp only
  split
  · trivial
  · split
    · simp [keepsPower_banks (banks_endCmd _ _ _ _ _), keepsPower_cmdCleanup]
    · trivial

/-! ### DORMANT (R27, R457, R458) -/

theorem keepsPower_disciplines {X : List Row} {p : Prog} (hp : Prog.Only (Act.disciplines X) p) (hX : (X.all fun x => x.off < 0x1000) = true) :
    Prog.Only (Act.spares powerCell) p := by
  simp only [List.all_eq_true, decide_eq_true_eq] at hX
  refine hp.mono (fun a ha => ?_) p
  cases a with
  | fld b hi lo v =>
    rcases ha with hd | ⟨rfl, -⟩ | ⟨x, hx, rfl, -⟩
    · exact keepsPower_of_delivers (.fld b hi lo v) hd
    · exact (show powerCell ≠ pgTime.base + 0x014 by decide)
    · have hoff := hX x hx
      show powerCell ≠ 0x2000 + x.off
      rw [powerCell_eq]
      omega
  | wr b v =>
    obtain ⟨-, rfl⟩ := ha
    exact (show powerCell ≠ timeErr.addr pgTime 0 by decide)
  | time | mem | emit | host | tx | trig | net | useFree => trivial
  | _ => exact ha.elim

theorem keepsPower_sourceGone (src : Nat) : Prog.Only (Act.spares powerCell) (sourceGone src) := fun s => by
  have hshown (phase : Int) (b : Bool) := keepsPower_disciplines (disciplines_lossShown src phase b) (by decide)
  have hsettle := keepsPower_disciplines disciplines_settleSource (by decide)
  have hlost (phase : Int) : Prog.Only (Act.spares powerCell) (sourceLost src phase) := fun s => by
    have := hshown phase (s.get pgTime R.TIME_SEL = src)
    simp only [lossShown, only_all_cons, only_all_nil, and_true] at this
    simp only [only_when, only_all_cons, only_all_nil, hsettle, this, and_true]
    exact fun _ => ⟨trivial, trivial⟩
  rw [only_when]
  exact fun _ _ => ⟨trivial, hlost _⟩

theorem keepsPower_coreLost (b : Bool) : Prog.Only (Act.spares powerCell) (coreLost b) := by
  have hpins : Prog.Only (Act.spares powerCell) corePinsOff := fun s => by
    simp only [only_all_cons, only_all_nil, only_when, only_out, and_true]
    exact ⟨only_each _ _ fun n _ => by simp only [only_all_cons, only_all_nil, only_when, only_out, Act.spares, implies_true, and_self],
      only_each _ _ fun _ _ => (only_out _).2 trivial, fun _ => trivial⟩
  have hmem : Prog.Only (Act.spares powerCell) memoryLost := fun s => by
    simp only [only_all_cons, only_all_nil, and_true]
    exact ⟨only_each _ _ fun _ _ => (only_one (.mem _ _)).2 trivial, only_each _ _ fun _ _ => (only_one (.lmem _ _)).2 trivial,
      only_each _ _ fun _ _ => (only_one .denyPop).2 trivial⟩
  have hflash : Prog.Only (Act.spares powerCell) (.set pgFlash R.FLASH_BUSY 0) := (only_set ..).2 (show powerCell ≠ _ by decide)
  simp only [coreLost, only_all_cons, only_all_nil, hpins, hmem, hflash, Prog.conv, Prog.cal, Prog.trig, Prog.seg, Prog.time, Prog.net, Prog.fab,
    Prog.disp, Prog.cmd, Prog.sec, Prog.host, Prog.pwr, Prog.sys, only_act, only_nil, Act.spares, and_self]

/-- What the pages show once every domain but one is off. -/
def offShown : Prog :=
  .all [
    resetCells keptDormant, showPend, .set pgPcie R.PCIE_PM_STATE 3,
    .set pgTop R.TOP_STATE 0, .set pgTop R.TOP_HELD 0, .set pgTop R.TOP_BUSY 0, .set pgTop R.TOP_GO 0, .set pgTop R.TOP_FE_RST 0]

/-- The page of the power state is one that DORMANT keeps (Table 17-2). -/
theorem keptDormant_powerCell : keptDormant (locate powerCell).1 (locate powerCell).2 = true := by decide +kernel

theorem keepsPower_offShown : Prog.Only (Act.spares powerCell) offShown := by
  have hcells : Prog.Only (Act.spares powerCell) (resetCells keptDormant) := fun s => only_each _ _ fun e he => (only_one (.wr _ _)).2 (by
    obtain ⟨-, hkept⟩ := List.mem_filter.1 he
    have hkept : (!keptDormant (locate e.1).1 (locate e.1).2) = true := hkept
    intro hcell
    rw [← hcell, keptDormant_powerCell] at hkept
    cases hkept)
  have hset {p : Pg} {r : Row} (h : powerCell ≠ r.addr p 0) (v : Nat) : Prog.Only (Act.spares powerCell) (.set p r v) := (only_set ..).2 h
  simp only [offShown, only_all_cons, only_all_nil, hcells, true_and, and_true]
  exact ⟨fun _ => hset (by decide) _, hset (by decide) _, hset (by decide) _, hset (by decide) _, hset (by decide) _, hset (by decide) _,
    hset (by decide) _⟩

theorem light_offShown : Prog.Only Act.light offShown := by
  have hcells : Prog.Only Act.light (resetCells keptDormant) := fun s => only_each _ _ fun _ _ => (only_one (.wr _ _)).2 trivial
  simp only [offShown, showPend, only_all_cons, only_all_nil, only_ask, hcells, only_set, Act.light, implies_true, and_self]

/-- No command is held by a core that has lost its state. -/
theorem heldAt_coreLost (b : Bool) (s : State) (q k : Nat) : (run (coreLost b) s).heldAt q k = none := by
  have hseqs : (run (coreLost b) s).cmd.seqs = [] := by
    simp only [coreLost, run_all_cons, run_all_nil]
    generalize run (.disp _) _ = u
    rfl
  rw [State.heldAt, State.seqr, hseqs]
  rfl

theorem run_powerOff (s : State) : run powerOff s = run (.set pgPwr R.PWR_TARGET 0) (run (.set pgPwr R.PWR_TRANSIT 0) (run offShown
    (run (.link fun l => { State.reset.link with ports := l.ports, ball := l.ball, parent := l.parent, up := l.up })
      (run (coreLost true) (run (.each [2, 3, 5] sourceGone) s))))) := by
  rw [powerOff, offShown]
  repeat rw [run_all_cons]
  rw [run_all_nil, run_all_nil]

/-- With every domain off but one, the power state stands and no command is held. -/
theorem powerOff_off (s : State) (q k : Nat) : (run powerOff s).pstate = s.pstate ∧ (run powerOff s).heldAt q k = none := by
  have hgone : Prog.Only (Act.spares powerCell) (.each [2, 3, 5] sourceGone) := only_each _ _ fun _ _ => keepsPower_sourceGone _
  rw [run_powerOff]
  generalize hu : run (.each [2, 3, 5] sourceGone) s = u
  have hupower : u.pstate = s.pstate := by rw [← hu]; exact only_get (r := R.PWR_STATE) hgone s
  have hheld := heldAt_coreLost true u q k
  have hvpower : (run (coreLost true) u).pstate = s.pstate := (only_get (r := R.PWR_STATE) (keepsPower_coreLost true) u).trans hupower
  generalize run (coreLost true) u = v at hheld hvpower
  generalize hw : run (.link _) v = w
  have hwheld : w.heldAt q k = none := by rw [← hw]; exact hheld
  have hwpower : w.pstate = s.pstate := by rw [← hw]; exact hvpower
  have hxheld : (run offShown w).heldAt q k = none := (heldAt_congr (cmd_light light_offShown w)).trans hwheld
  have hxpower : (run offShown w).pstate = s.pstate := (only_get (r := R.PWR_STATE) keepsPower_offShown w).trans hwpower
  generalize run offShown w = x at hxheld hxpower
  refine ⟨?_, hxheld⟩
  rw [State.pstate, get_set_other _ _ _ _ _ _ (by decide) (by decide), get_set_other _ _ _ _ _ _ (by decide) (by decide)]
  exact hxpower

/-- The device is in DORMANT, and holds no command. -/
theorem enterDormant_enters (q k : Nat) (s : State) : (run (enterDormant q k) s).pstate = 0 ∧ (run (enterDormant q k) s).heldAt q k = none := by
  have hrun : ∃ u, run (enterDormant q k) s = run powerOff (run (.set pgPwr R.PWR_STATE 0) u) := by
    simp only [enterDormant, run_all_cons, run_all_nil]
    exact ⟨_, rfl⟩
  obtain ⟨u, hu⟩ := hrun
  obtain ⟨hpower, hheld⟩ := powerOff_off (run (.set pgPwr R.PWR_STATE 0) u) q k
  rw [hu]
  exact ⟨hpower.trans (get_set_same u pgPwr R.PWR_STATE 0 (by decide)), hheld⟩

/-! ### POWER_STATE (R398, R456) -/

/-- The transition to a power state. -/
def transitTo (q k : Nat) : Nat → Prog
  | 0 => enterDormant q k
  | 1 => waitFor q k (beginTransit 1)
  | _ => waitFor q k readyStart

section
variable {s : State} {q k : Nat} {h : Held} (hc : CommandRuns s q k h 0x31) (hform : h.pf 0 1 0 ≠ 3)
include hc hform

/-- The state it asks for is the present one. -/
theorem powerState_same (hsame : h.pf 0 1 0 = s.pstate) : Finishes (.powerState q) s q k h 0 s.pstate (· = s) := by
  have hexec : exec (.powerState q) s = .next (run (cmdRow q 0x31 (powerStep q)) s) := rfl
  have hheld := heldAt_of_current hc.1
  refine ⟨s, rfl, hheld, hexec.trans (congrArg _ ?_)⟩
  rw [run_cmdRow hc, powerStep, run_ask, if_neg hform, if_pos hsame]
  exact run_doneCmd _ _ hheld hc.ends

variable (hother : h.pf 0 1 0 ≠ s.pstate) (hfree : s.powerRefused (h.pf 0 1 0) = false)
include hother hfree

/-- A transition that nothing refuses begins. -/
theorem exec_powerState : exec (.powerState q) s = .next (run (transitTo q k (h.pf 0 1 0)) s) := by
  have hexec : exec (.powerState q) s = .next (run (cmdRow q 0x31 (powerStep q)) s) := rfl
  rw [hexec, run_cmdRow hc, powerStep, run_ask, if_neg hform, if_neg hother, hfree, if_neg Bool.false_ne_true]
  rfl

theorem powerState_standby (h1 : h.pf 0 1 0 = 1) :
    Waits (.powerState q) s q k h fun t => t.get pgPwr R.PWR_TRANSIT = 1 ∧ t.get pgPwr R.PWR_TARGET = 1 := by
  have hcmd : (run (beginTransit 1) (run (waitWork q k) s)).cmd = (run (waitWork q k) s).cmd := by rw [beginTransit, run_pair]; rfl
  obtain ⟨hrun, hheld, hcur⟩ := waitFor_waits (heldAt_of_current hc.1) hc.ends hcmd
  refine ⟨_, exec_powerState hc hform hother hfree, ?_⟩
  rw [h1, transitTo, hrun]
  exact ⟨hheld, hcur, beginTransit_shows (by decide) _⟩

theorem powerState_ready (h2 : h.pf 0 1 0 = 2) :
    ∃ t, exec (.powerState q) s = .next t ∧ t.get pgPwr R.PWR_TRANSIT = 1 ∧ t.get pgPwr R.PWR_TARGET = 2 := by
  refine ⟨_, exec_powerState hc hform hother hfree, ?_⟩
  obtain ⟨htransit, htarget⟩ := readyStart_shows (run (waitWork q k) s)
  have hwork : transitTo q k 2 = waitFor q k readyStart := rfl
  rw [h2, hwork, run_waitFor, only_get (r := R.PWR_TRANSIT) (keepsPower_stepEnds q k), only_get (r := R.PWR_TARGET) (keepsPower_stepEnds q k)]
  exact ⟨htransit, htarget⟩

theorem powerState_dormant (h0 : h.pf 0 1 0 = 0) :
    ∃ t, exec (.powerState q) s = .next t ∧ t.pstate = 0 ∧ t.heldAt q k = none := by
  refine ⟨_, exec_powerState hc hform hother hfree, ?_⟩
  rw [h0]
  exact enterDormant_enters q k s

end

/-- Settles O18, command by command: a request leaves or waits at its port, the transition shows while the step's end leaves it, and Q-time and
the converter take what they are given. -/
theorem linkPowerTimeAndMonitorCommands : Obligations.LinkPowerTimeAndMonitorCommands := by
  unfold Obligations.LinkPowerTimeAndMonitorCommands
  intro s q k h
  refine ⟨fun tag p hc hform hroom htag hroute hcarries => linkRemote_waits hc hform hroom htag hroute hcarries,
    fun hc hform => ⟨powerState_same hc hform, fun hother hfree => ⟨powerState_standby hc hform hother hfree,
      powerState_ready hc hform hother hfree, powerState_dormant hc hform hother hfree⟩⟩,
    fun hc => ⟨timeSet_refused hc, fun hst hsel => ?_, fun hst hsel => ?_⟩, monRead_waits⟩
  · obtain ⟨hnow, htai, hcmd⟩ := timeSet_sets hsel (qtime_lt h)
    exact timeSet_finishes hc hst hcmd ⟨hnow, htai⟩
  · have hrun := run_timeSet_pps hsel h.qtime
    exact timeSet_finishes hc hst (by rw [hrun]; rfl) (by rw [hrun]; rfl)

end Sys2Proof.Machine

/-! SUPPORT. Proofs: what triggers, settling and calibration do leaves the pages from CLK to SEC and the tie as they were (R134 to R162, R285). -/

namespace Sys2Proof.Machine

/-! ### Acts of the acquisition -/

/-- The CCLK count and the ties stay. -/
def TimeB.SameTie (t u : TimeB) : Prop := u.cc = t.cc ∧ u.ties = t.ties

/-- The acts of triggers, settling and calibration: they write no cell of the pages from CLK to SEC, and keep the CCLK count and the ties. -/
def Act.acquires : Act → Prop
  | .fld b _ _ _ | .wr b _ => b < 0x1000 ∨ 0x10000 ≤ b
  | .time f => ∀ t : TimeB, t.SameTie (f t)
  | _ => True

theorem acquires_banks {p : Prog} (h : Prog.Only Act.banks p) : Prog.Only Act.acquires p :=
  Prog.Only.mono (fun a ha => by
    cases a with
    | fld b hi lo v => exact .inr ha
    | wr | time => exact ha.elim
    | _ => trivial) p h

theorem acquires_queues {p : Prog} (h : Prog.Only Act.queues p) : Prog.Only Act.acquires p := acquires_banks (banks_queues h)

theorem acquires_of_delivers (a : Act) (h : a.delivers) : a.acquires := by
  cases a with
  | fld b hi lo v =>
    have := deliveryCells_range b h
    exact .inr (by omega)
  | wr | time => exact h.elim
  | _ => trivial

section
variable {p : Pg} (h : 0x10000 ≤ p.base)
include h

@[simp] theorem acquires_fld (r : Row) (i hi lo v : Nat) : (Act.fld (r.addr p i) hi lo v).acquires := by
  refine .inr ?_
  show 0x10000 ≤ p.base + r.off + r.stride * i
  omega

@[simp] theorem acquires_raise (k : Nat) : Prog.Only Act.acquires (raise p k) := acquires_banks (banks_raise h k)

theorem acquires_capture (code detail : Nat) : Prog.Only Act.acquires (capture p code detail) := by
  have high (x : Nat) : p.base + x < 0x1000 ∨ 0x10000 ≤ p.base + x := .inr (by omega)
  exact only_capture _ _ _ acquires_of_delivers (high _) (high _) fun _ => high _

end

/-- Fields of the TOP page. -/
theorem acquires_top {r : Row} {i : Nat} (h : r.off + r.stride * i < 0x1000) (v : Nat) : (Act.fld (r.addr pgTop i) r.hi r.lo v).acquires :=
  .inl (by
    show 0 + r.off + r.stride * i < 0x1000
    omega)

theorem acquires_raise_top (k : Nat) : Prog.Only Act.acquires (raise pgTop k) :=
  only_raise _ _ acquires_of_delivers (.inl (show (0 + 0x014 : Nat) < 0x1000 by decide))

theorem acquires_setQ_top {r : Row} (h : r.off + r.stride * 2 < 0x1000) (q : Nat) : Prog.Only Act.acquires (.setQ pgTop r q) := by
  simp only [Prog.setQ, only_all_cons, only_all_nil, only_seti, and_true]
  exact ⟨acquires_top (by omega) _, acquires_top (by omega) _, acquires_top h _⟩

@[simp] theorem acquires_trig (f : Trig → Trig) : Prog.Only Act.acquires (.trig f) := ⟨trivial, trivial⟩
@[simp] theorem acquires_onSeg (f : Seg → Seg) : Prog.Only Act.acquires (.seg f) := ⟨trivial, trivial⟩
@[simp] theorem acquires_conv (f : Conv → Conv) : Prog.Only Act.acquires (.conv f) := ⟨trivial, trivial⟩
@[simp] theorem acquires_modChan (c : Nat) (f : Chan → Chan) : Prog.Only Act.acquires (modChan c f) := acquires_conv _
@[simp] theorem acquires_modTu (n : Nat) (f : Tu → Tu) : Prog.Only Act.acquires (modTu n f) := acquires_trig _
@[simp] theorem acquires_modDef (d : Nat) (f : TDef → TDef) : Prog.Only Act.acquires (modDef d f) := acquires_trig _
@[simp] theorem acquires_modTout (n : Nat) (f : TOut → TOut) : Prog.Only Act.acquires (modTout n f) := acquires_trig _
@[simp] theorem acquires_modRemote (src a : Nat) (f : Remote → Remote) : Prog.Only Act.acquires (modRemote src a f) :=
  (only_when ..).2 fun _ => acquires_trig _
@[simp] theorem acquires_setLevel (src a : Nat) (v : Bool) : Prog.Only Act.acquires (setLevel src a v) := acquires_trig _
@[simp] theorem acquires_modStrm (n : Nat) (f : Strm → Strm) : Prog.Only Act.acquires (modStrm n f) := acquires_onSeg _
@[simp] theorem acquires_toutPin (n pin : Nat) (on : Bool) : Prog.Only Act.acquires (toutPin n pin on) := fun _ => (only_out _).2 trivial

/-! ### Requests and the close of the frame -/

theorem acquires_pump (n : Nat) : Prog.Only Act.acquires (pump n) := fun s => by
  have hbuilt (k : Nat) : Prog.Only Act.acquires (pumpBuilt n k) := by
    induction k with
    | zero => trivial
    | succ k ih =>
      intro s
      dsimp only
      split
      · simp [ih]
      · split
        · simp [ih, acquires_queues (queues_pushPip _)]
        · trivial
      · trivial
  exact hbuilt _

theorem acquires_confirmReq (r : Req) : Prog.Only Act.acquires (confirmReq r) := fun s => by
  have htake : Prog.Only Act.acquires (takeSeq r.stream) := by simp [takeSeq]
  dsimp only
  split
  · simp [htake]
  · split <;> simp [htake, addBuilt, acquires_pump]

theorem acquires_contClose (n q : Nat) : Prog.Only Act.acquires (contClose n q) := fun s => by
  have hsegment : Prog.Only Act.acquires (contSegment n q) := fun s => by simp [acquires_confirmReq]
  simp [hsegment]

theorem acquires_closeFrame (cause at_ : Nat) : Prog.Only Act.acquires (closeFrame cause at_) := fun s => by
  dsimp only
  split
  · simp only [only_all_cons, only_all_nil, acquires_onSeg, acquires_trig, acquires_setQ_top (r := R.TOP_CLOSE_TIME) (by decide),
      acquires_raise_top, only_set, and_true, true_and]
    exact ⟨only_each _ _ fun n _ => acquires_contClose n _, acquires_top (by decide) _, acquires_top (by decide) _⟩
  · exact (only_when ..).2 fun _ => (only_set ..).2 (acquires_top (by decide) _)

/-! ### What the triggers of a definition come to (R144 to R151) -/

@[simp] theorem acquires_announce (d a : Nat) (k : Ann) (phase : Bool) : Prog.Only Act.acquires (announce d a k phase) := by
  have hpulse (n : Nat) (prov : Option Nat) : Prog.Only Act.acquires (pulseOut n prov) := fun s => by simp
  have hout : Prog.Only Act.acquires (toutAnnounce d a k phase) := fun s => by
    refine only_each _ _ fun n _ => ?_
    split <;> simp [hpulse]
  have hexport : Prog.Only Act.acquires (exportTrig d a k) := fun _ => (only_when ..).2 fun _ => fun _ => only_each _ _ fun n _ =>
    only_sendLink _ _ (fun _ => trivial) (fun _ => trivial) fun v => acquires_fld (high_base_fport n) _ _ _ _ v
  simp only [announce, only_all_cons, only_all_nil, hout, hexport, and_self]

@[simp] theorem acquires_holdDiscard (d a : Nat) : Prog.Only Act.acquires (holdDiscard d a) := fun s => by simp

@[simp] theorem acquires_provStat (d : Nat) : Prog.Only Act.acquires (provStat d) := fun _ =>
  (only_setBit ..).2 (acquires_fld high_base_tcomb _ _ _ _ _)

theorem acquires_finalize (d : Nat) (p : Prov) (ok : Bool) : Prog.Only Act.acquires (finalize d p ok) := fun s => by
  have hconfirm (anchor code : Nat) : Prog.Only Act.acquires (confirmReqs d anchor code) := fun _ =>
    only_each _ _ fun _ _ => fun _ => acquires_confirmReq _
  have hkeep (anchor code : Nat) : Prog.Only Act.acquires (keepReqs d anchor code) := fun s => by
    simp only [only_all_cons, only_all_nil, and_true]
    exact ⟨only_each _ _ fun n _ => fun _ => by simp [acquires_confirmReq], acquires_onSeg _⟩
  have hdrop : Prog.Only Act.acquires (dropReqs d p.anchor) := acquires_onSeg _
  have hhold : Prog.Only Act.acquires (startHold d p.anchor) := fun _ => acquires_modDef _ _
  have hcount : Prog.Only Act.acquires (countTrigger d) := fun s => by
    simp [only_inc pgTop R.TOP_TRIG_COUNT (acquires_top (by decide)), acquires_closeFrame]
  simp [hconfirm, hkeep, hdrop, hhold, hcount]

@[simp] theorem acquires_defSettle (d : Nat) : Prog.Only Act.acquires (defSettle d) := fun s => by
  have hdrain (k : Nat) : Prog.Only Act.acquires (defDrain d k) := by
    induction k with
    | zero => trivial
    | succ k ih =>
      intro s
      dsimp only
      split
      · split
        · simp [acquires_finalize, ih]
        · exact acquires_provStat d
      · exact acquires_provStat d
  exact hdrain _

@[simp] theorem acquires_defResolve (d a src : Nat) (ok late : Bool) : Prog.Only Act.acquires (defResolve d a src ok late) := by
  simp [defResolve]

@[simp] theorem acquires_defEvent (d a src : Nat) (prov : Bool) : Prog.Only Act.acquires (defEvent d a src prov) := fun s => by
  have hreserve (code : Nat) : Prog.Only Act.acquires (reserveReqs d a code) := fun _ => only_each _ _ fun _ _ => acquires_onSeg _
  simp [hreserve]

/-! ### Sequences and events (R145, R148) -/

@[simp] theorem acquires_seqStop (d : Nat) : Prog.Only Act.acquires (seqStop d) := fun s => by
  dsimp only
  split <;> simp

theorem acquires_seqRunN (d k : Nat) : Prog.Only Act.acquires (seqRunN d k) := by
  have htake (term a src : Nat) : Prog.Only Act.acquires (seqTake d term a src) := fun s => by
    dsimp only
    split
    · simp
    · split <;> simp
    · exact acquires_seqStop d
  induction k with
  | zero => trivial
  | succ k ih =>
    intro s
    dsimp only
    split
    · simp [htake, ih]
    · trivial

theorem acquires_takeEvent (d : Nat) (e : SrcEv) : Prog.Only Act.acquires (takeEvent d e) := fun s => by
  have hfire (j : Nat) : Prog.Only Act.acquires (seqFire d j e.anchor e.src) := fun s => by simp
  dsimp only
  split
  · trivial
  · split
    · simp [hfire]
    · split
      · trivial
      · simp only [only_all_cons, only_all_nil, acquires_modDef, acquires_defEvent, true_and, and_true]
        split <;> simp

@[simp] theorem acquires_trigSettle : Prog.Only Act.acquires trigSettle := by
  have hsettle (k : Nat) : Prog.Only Act.acquires (settleN k) := by
    induction k with
    | zero => trivial
    | succ k ih =>
      intro s
      dsimp only
      split
      · simp [acquires_takeEvent, ih]
      · exact only_each _ _ fun d _ => fun _ => acquires_seqRunN d _
  exact fun _ => hsettle _

@[simp] theorem acquires_srcResolve (src a : Nat) (ok late : Bool) : Prog.Only Act.acquires (srcResolve src a ok late) := fun _ => by simp

/-! ### Trigger units, and channels that stop (R139, R285) -/

@[simp] theorem acquires_tuStat (n : Nat) : Prog.Only Act.acquires (tuStat n) := fun _ => by simp

@[simp] theorem acquires_tuUnknown (n a : Nat) : Prog.Only Act.acquires (tuUnknown n a) := fun _ => by
  have hlevel (v : Bool) : Prog.Only Act.acquires (tuSetLevel n a 0 v) := fun _ => by simp
  have hdone (c : Cand) : Prog.Only Act.acquires (candDone n c false) := by simp [candDone]
  simp [hlevel, hdone]

theorem acquires_syncStop (c : Nat) : Prog.Only Act.acquires (syncStop c) := fun s => by
  dsimp only
  split
  · simp only [only_all_cons, only_all_nil, acquires_modChan, true_and, and_true]
    exact only_each _ _ fun n _ => by simp
  · exact (only_when ..).2 fun _ => acquires_modChan _ _
  · simp only [only_all_cons, only_all_nil, only_when, acquires_modChan, acquires_banks (banks_freePipe c), implies_true, and_self]
  · trivial

theorem acquires_syncStops : Prog.Only Act.acquires syncStops := fun _ => only_each _ _ fun c _ => acquires_syncStop c

theorem acquires_suspendDefs (ds : List Nat) : Prog.Only Act.acquires (suspendDefs ds) := fun _ => only_each _ _ fun d _ => by simp

theorem acquires_resumeDefs (ds : List Nat) : Prog.Only Act.acquires (resumeDefs ds) := fun _ => only_each _ _ fun d _ => by simp

end Sys2Proof.Machine

/-! SUPPORT. Proofs: what the clock loops write on the CLK page, and the gate of the SCS outputs (R281, R284, R285). -/

namespace Sys2Proof.Machine

/-! ### Fields and event sources of the CLK page -/

/-- The cells of the CLK page that hold its fields, and that of its event sources. -/
def clockCell (a : Nat) : Prop := a = 0x1014 ∨ 0x1040 ≤ a ∧ a < 0x1800

/-- The acts that write some fields of the CLK page, set its sources, and keep the CCLK count and the ties. -/
def Act.clocks (X : List Row) : Act → Prop
  | .fld b hi lo v => ¬ clockCell b ∨ b = 0x1014 ∧ hi = lo ∧ lo < 32 ∧ v = 1 ∨
      ∃ x ∈ X, b = x.addr pgClk 0 ∧ x.lo ≤ lo ∧ lo ≤ hi ∧ hi ≤ x.hi
  | .wr b _ => ¬ clockCell b
  | .time f => ∀ t : TimeB, t.SameTie (f t)
  | _ => True

/-- A field of the CLK page that shares no bit with any of the given ones. -/
def Row.clockApart (r : Row) (X : List Row) : Bool := r.apartFrom X && decide (r.off < 0x800)

theorem clockCell_clk {r : Row} (h : 0x40 ≤ r.off) (h' : r.off < 0x800) : clockCell (r.addr pgClk 0) := by
  refine .inr ⟨?_, ?_⟩
  · show 0x1040 ≤ 0x1000 + r.off
    omega
  · show 0x1000 + r.off < 0x1800
    omega

section
variable {X : List Row} {p : Prog}

/-- A field that shares no bit with those that are written is kept. -/
theorem get_of_clocks (hp : Prog.Only (Act.clocks X) p) {r : Row} (hr : r.clockApart X = true) (s : State) :
    (run p s).get pgClk r = s.get pgClk r := by
  simp only [Row.clockApart, Row.apartFrom, Bool.and_eq_true, decide_eq_true_eq, List.all_eq_true, Bool.or_eq_true, Row.sound] at hr
  obtain ⟨⟨⟨hlow, -⟩, hX⟩, hhigh⟩ := hr
  have hcell : clockCell (r.addr pgClk 0) := clockCell_clk hlow hhigh
  have haddr (x : Row) : x.addr pgClk 0 = 0x1000 + x.off := rfl
  refine hp.keeps (fun t => t.get pgClk r) (fun a t ha => ?_) s
  cases a with
  | fld b hi lo v =>
    simp only [State.get, State.geti, cell_applyAct_fld]
    split
    · next hb =>
      rcases ha with hn | ⟨hev, -⟩ | ⟨x, hx, hx0, hxlo, hlohi, hxhi⟩
      · exact absurd (hb ▸ hcell) hn
      · rw [haddr] at hb
        omega
      · obtain ⟨⟨-, hn⟩, hapart⟩ := hX x hx
        rw [haddr] at hb hx0
        rw [putField_toNat _ _ _ _ hlohi (by omega), bits_putBits_other _ _ _ _ _ _ hlohi (by omega), haddr, hb]
    · rfl
  | wr b v =>
    simp only [State.get, State.geti, cell_applyAct_wr]
    rw [if_neg fun hb : r.addr pgClk 0 = b => ha (hb ▸ hcell)]
  | _ => rfl

/-- An event source of the CLK page that is set stays set. -/
theorem raised_of_clocks (hp : Prog.Only (Act.clocks X) p) (hX : (X.all fun x => x.off ≠ 0x014) = true) {s : State} {k : Nat}
    (h : s.raised pgClk k = true) : (run p s).raised pgClk k = true := by
  simp only [List.all_eq_true, decide_eq_true_eq] at hX
  refine hp.preserves (fun t => t.raised pgClk k = true) (fun a t ha ht => ?_) h
  have hbase : pgClk.base + 0x014 = 0x1014 := rfl
  cases a with
  | fld b hi lo v =>
    simp only [State.raised, State.evtRaw, cell_applyAct_fld] at ht ⊢
    split
    · next hb =>
      rcases ha with hn | ⟨-, rfl, hlt, rfl⟩ | ⟨x, hx, hcell, -⟩
      · exact absurd (.inl (hb.symm.trans hbase)) hn
      · rw [← hb, bit_putField _ _ _ _ _ (Nat.le_refl _) hlt]
        split
        · next hk => rw [show k - hi = 0 by omega]; rfl
        · exact ht
      · have := hX x hx
        have : x.addr pgClk 0 = 0x1000 + x.off := rfl
        omega
    · exact ht
  | wr b v =>
    simp only [State.raised, State.evtRaw, cell_applyAct_wr] at ht ⊢
    rw [if_neg fun hb => ha (.inl (hb.symm.trans hbase))]
    exact ht
  | _ => exact ht

/-- The CCLK count and the ties stay. -/
theorem sameTie_of_clocks (hp : Prog.Only (Act.clocks X) p) (s : State) : s.time.SameTie (run p s).time :=
  hp.preserves (fun t => s.time.SameTie t.time) (fun a t ha ht => by
    cases a with
    | time f => exact ⟨(ha t.time).1.trans ht.1, (ha t.time).2.trans ht.2⟩
    | _ => exact ht) ⟨rfl, rfl⟩

/-! ### Programs of the clock loops -/

/-- `run_all_nil` as a step of rewriting: taken by definition, as simp takes it, the kernel compares whole runs. -/
theorem run_all_end (s : State) : run (.all []) s = s := by rw [run_all_nil]

theorem clocks_acquires (hp : Prog.Only Act.acquires p) : Prog.Only (Act.clocks X) p :=
  hp.mono (fun a ha => by
    have off {b : Nat} (h : b < 0x1000 ∨ 0x10000 ≤ b) : ¬ clockCell b := by
      unfold clockCell
      omega
    cases a with
    | fld b hi lo v => exact .inl (off ha)
    | wr b v => exact off ha
    | time f => exact ha
    | _ => trivial) p

theorem clocks_of_delivers (a : Act) (h : a.delivers) : a.clocks X := by
  cases a with
  | fld b hi lo v =>
    have := deliveryCells_range b h
    refine .inl ?_
    unfold clockCell
    omega
  | wr | time => exact h.elim
  | _ => trivial

theorem clocks_row {r : Row} (hs : r.sound = true) (hr : r ∈ X) (v : Nat) : (Act.fld (r.addr pgClk 0) r.hi r.lo v).clocks X := by
  simp only [Row.sound, Bool.and_eq_true, decide_eq_true_eq] at hs
  exact .inr (.inr ⟨r, hr, rfl, Nat.le_refl _, hs.1, Nat.le_refl _⟩)

theorem clocks_set {r : Row} (hs : r.sound = true) (hr : r ∈ X) (v : Nat) : Prog.Only (Act.clocks X) (.set pgClk r v) :=
  (only_set ..).2 (clocks_row hs hr v)

theorem clocks_raise {k : Nat} (hk : k < 32) : Prog.Only (Act.clocks X) (raise pgClk k) :=
  only_raise _ _ clocks_of_delivers (.inr (.inl ⟨rfl, rfl, hk, rfl⟩))

theorem clocks_incRaise {r : Row} {k : Nat} (hs : r.sound = true) (hr : r ∈ X) (hk : k < 32) :
    Prog.Only (Act.clocks X) (incRaise pgClk r k) :=
  only_incRaise _ _ _ clocks_of_delivers (.inr (.inl ⟨rfl, rfl, hk, rfl⟩)) (clocks_row hs hr)

theorem clocks_time {f : TimeB → TimeB} (h : ∀ t : TimeB, t.SameTie (f t)) : Prog.Only (Act.clocks X) (.time f) := ⟨h, trivial⟩

theorem clocks_out (o : Out) : Prog.Only (Act.clocks X) (.out o) := (only_out o).2 trivial

theorem clocks_logFault (code ty detail : Nat) : Prog.Only (Act.clocks X) (logFault code ty detail) := fun _ => by
  have hlog : Prog.Only Act.acquires (.all [.inc pgTop R.TOP_FLOG_COUNT, raise pgTop 10]) := by
    simp only [only_all_cons, only_all_nil, acquires_raise_top, and_true]
    exact only_inc _ _ (acquires_top (by decide))
  have hlog := clocks_acquires (X := X) hlog
  simp only [only_all_cons, only_all_nil, and_true] at hlog ⊢
  exact ⟨(only_one (.flog _)).2 trivial, hlog⟩

theorem clocks_showFsb (v : Nat) : Prog.Only (Act.clocks X) (showFsb v) := fun _ => clocks_acquires (only_each _ _ fun b _ => by simp)

/-- An event of the CLK page. -/
theorem raised_clk {k : Nat} (hk : k < 32) (s : State) : (run (raise pgClk k) s).raised pgClk k = true := raised_raise rfl (by decide) hk s

theorem counted_clk {r : Row} (hs : r.sound = true) (hr : r.clockApart [] = true) {k : Nat} (hk : k < 32) (s : State) :
    Counted s (run (incRaise pgClk r k) s) pgClk r 1 ∧ (run (incRaise pgClk r k) s).raised pgClk k = true := by
  rw [incRaise, run_pair]
  exact ⟨(counted_inc pgClk r s hs).after (get_of_clocks (clocks_raise hk) hr _), raised_clk hk _⟩

end

/-! ### The gate (R285) -/

/-- What follows once the gate is shown, in a state s that it is set in. -/
def gateEffects (s : State) : Prog :=
  .all [
    raise pgClk 8, showFsb 0, .time fun t => { t with gatedAt := some s.now },
    .when s.time.tickOn (.all [.time fun t => { t with tickOn := false }, .out (.pin pinSyncOut (s.live pgClk R.CLK_SYNC_OUT_POL = 1))]),
    syncStops, .each (List.range 16) fun k => tdcLock k false, suspendDefs (which 16 fun d => decide (s.td d R.TCOMB_MODE ≠ 0))]

theorem run_scsGate (s : State) : run scsGate s = run (.when (s.get pgClk R.CLK_GATED = 0) (.all [.set pgClk R.CLK_GATED 1, gateEffects s])) s := by
  simp only [scsGate, gateEffects, run_ask, run_when, run_all_cons, run_all_end]

theorem clocks_gateEffects {X : List Row} (s : State) : Prog.Only (Act.clocks X) (gateEffects s) := by
  have htdcs : Prog.Only Act.acquires (.each (List.range 16) fun k => tdcLock k false) := only_each _ _ fun _ _ => fun _ => by simp
  simp only [gateEffects, only_all_cons, only_all_nil, only_when, clocks_raise, clocks_showFsb, clocks_out, clocks_acquires acquires_syncStops,
    clocks_acquires htdcs, clocks_acquires (acquires_suspendDefs _), Nat.reduceLT, true_and, and_true]
  exact ⟨clocks_time fun _ => ⟨rfl, rfl⟩, fun _ => clocks_time fun _ => ⟨rfl, rfl⟩⟩

theorem clocks_scsGate {X : List Row} (h : R.CLK_GATED ∈ X) : Prog.Only (Act.clocks X) scsGate := fun s => by
  have heffects := clocks_gateEffects (X := X) s
  simp only [gateEffects, only_when, only_all_cons, only_all_nil, and_true] at heffects
  simp only [only_when, only_all_cons, only_all_nil, and_true]
  exact fun _ => ⟨clocks_set (by decide) h 1, heffects⟩

/-- The outputs are gated. -/
theorem scsGate_gates (s : State) : (run scsGate s).get pgClk R.CLK_GATED = 1 := by
  have hlt : s.get pgClk R.CLK_GATED < 2 := geti_lt s pgClk R.CLK_GATED 0
  rw [run_scsGate, run_when, run_pair]
  split
  · exact (get_of_clocks (X := []) (clocks_gateEffects s) (by decide) _).trans (get_set_same s pgClk R.CLK_GATED 1 (by decide))
  · next h =>
    rw [decide_eq_true_eq] at h
    omega

/-! ### A lock starts (R281) -/

/-- The fields that the start of a lock writes. -/
def lockRows : List Row := [R.CLK_STATE, R.CLK_GATED, R.CLK_SYNCED]

theorem clocks_startLock {X : List Row} (h : lockRows ⊆ X) : Prog.Only (Act.clocks X) startLock := by
  simp only [startLock, only_all_cons, only_all_nil, and_true]
  exact ⟨clocks_scsGate (h (by decide)), clocks_set (by decide) (h (by decide)) 1, clocks_set (by decide) (h (by decide)) 0,
    clocks_time fun _ => ⟨rfl, rfl⟩⟩

theorem startLock_starts (s : State) : (run startLock s).get pgClk R.CLK_STATE = 1 ∧ (run startLock s).get pgClk R.CLK_GATED = 1 := by
  simp only [startLock, run_all_cons, run_all_end, get_onTime]
  have hstate := get_set_same (run scsGate s) pgClk R.CLK_STATE 1 (by decide)
  have hgated := (get_set_other (run scsGate s) pgClk pgClk R.CLK_STATE R.CLK_GATED 1 (by decide) (by decide)).trans (scsGate_gates s)
  exact ⟨(get_set_other _ pgClk pgClk R.CLK_SYNCED R.CLK_STATE 0 (by decide) (by decide)).trans hstate,
    (get_set_other _ pgClk pgClk R.CLK_SYNCED R.CLK_GATED 0 (by decide) (by decide)).trans hgated⟩

end Sys2Proof.Machine

/-! SUPPORT. Proofs: a frame that opens writes of the CLK page only what shows the power state (R47, R53, R181). -/

namespace Sys2Proof.Machine

/-! ### Runs that end and start-up calibration that is owed (R73, R107, R128) -/

theorem acquires_abortRun (r : Nat) : Prog.Only Act.acquires (abortRun r) := acquires_banks (banks_abortRunFor none r)

theorem acquires_startCalAll : Prog.Only Act.acquires startCalAll := fun s => only_each _ _ fun die _ => fun s => by
  have hsettles : Prog.Only Act.acquires (.each (List.range 4) fun i => startSettle (4 * die + i) 3) :=
    only_each _ _ fun _ _ => acquires_banks (banks_startSettle _ _)
  have hsets : Prog.Only Act.acquires showSets := acquires_banks fun _ => by simp
  have hnone : Prog.Only Act.acquires (noSetIfNone die) := fun s => (only_when ..).2 fun _ => fun s => by
    simp [acquires_capture high_base_cal]
  have hcal (f : Cal → Cal) : Prog.Only Act.acquires (.cal f) := ⟨trivial, trivial⟩
  simp [hsettles, hsets, hnone, hcal, acquires_banks (banks_showBanks die), acquires_banks banks_showRot]

/-! ### What commits come to (R47, R53) -/

theorem acquires_modeChanged (die : Nat) : Prog.Only Act.acquires (modeChanged die) := by
  simp only [modeChanged, only_all_cons, only_all_nil, only_ask, only_when, acquires_onSeg, implies_true, true_and, and_true,
    acquires_banks (banks_abortRunsOf die), acquires_banks (banks_showBanks die), acquires_banks banks_showRot,
    acquires_banks banks_showOverride, acquires_banks (banks_raise high_base_hist 2)]
  exact ⟨only_each _ _ fun _ _ => acquires_banks (by simp), fun _ => only_each _ _ fun _ _ => acquires_banks (by simp),
    fun _ _ => only_each _ _ fun _ _ => acquires_banks (by simp), fun _ => ⟨acquires_banks (banks_startOwnRun _ _ _ _),
      only_each _ _ fun _ _ => acquires_syncStop _⟩,
    only_each _ _ fun n _ => fun _ => by simp⟩

theorem acquires_bankEffects (old : State) : Prog.Only Act.acquires (bankEffects old) := fun s => only_each _ _ fun die _ => by
  have hsettles (l : List Nat) : Prog.Only Act.banks (.each l fun b => startSettle b 0) := only_each _ _ fun _ _ => by simp
  split
  · exact acquires_modeChanged die
  · simp only [only_all_cons, only_all_nil, acquires_banks (banks_showBanks die), and_true]
    exact only_each _ _ fun c _ => acquires_banks (by simp [hsettles, banks_remeasure])

theorem acquires_trigEffects (old : State) (ps : List Pg) : Prog.Only Act.acquires (trigEffects old ps) := fun s => by
  have hdiscard : Prog.Only Act.acquires discardCands := by
    simp only [discardCands, only_all_cons, only_all_nil, acquires_trig, true_and, and_true]
    refine ⟨only_each _ _ fun d _ => by simp, fun s => only_each _ _ fun n _ => ?_⟩
    have hcount : Prog.Only Act.acquires (.each (s.tu n).cands fun _ => .inc (pgTu n) R.TU_CNT_CANCELLED) := only_each _ _ fun _ _ => by simp
    simp [hcount]
  have hpol : Prog.Only Act.acquires (polChanged old) := fun s => by
    have htin (i a : Nat) (v : Bool) : Prog.Only Act.acquires (tinLevel i a v) := fun _ => by simp
    simp [htin]
  simp only [only_all_cons, only_all_nil, only_when, hdiscard, hpol, implies_true, true_and, and_true]
  exact ⟨only_each _ _ fun _ _ => fun _ => by simp, fun _ => only_each _ _ fun _ _ => by simp, only_each _ _ fun _ _ => by simp⟩

theorem acquires_streamEffects (old : State) (ps : List Pg) : Prog.Only Act.acquires (streamEffects old ps) := fun s => by
  have hmap (n : Nat) (f : Map → Map) : Prog.Only Act.acquires (modMap n f) := acquires_onSeg _
  have hden (r : Row) (i v : Nat) : Prog.Only Act.acquires (.seti pgDen r i v) := acquires_banks (by simp)
  simp only [only_all_cons, only_all_nil, only_when, and_true]
  refine ⟨only_each _ _ fun u _ => ?_, only_each _ _ fun m _ => hden _ _ _, fun s => only_each _ _ fun n _ => ?_,
    only_each _ _ fun n _ => acquires_banks (banks_makeCharge n), only_each _ _ fun n _ => ?_,
    fun _ => only_each _ _ fun p _ => ⟨fun _ => ⟨rfl, rfl⟩, trivial⟩⟩
  · simp only [only_ite, only_all_cons, only_all_nil, acquires_modStrm, hmap, hden, implies_true, and_self]
  · exact acquires_banks (by simp)
  · exact acquires_banks (by simp [banks_queues (queues_eqStat n)])

theorem acquires_placeAll : Prog.Only Act.acquires placeAll := fun s => by
  simp only [only_all_cons, only_all_nil, and_true]
  refine ⟨⟨trivial, trivial⟩, only_each _ _ fun e _ => fun t => (only_when ..).2 fun _ => fun t => ⟨trivial, ?_⟩⟩
  dsimp only
  split
  · exact ⟨trivial, trivial⟩
  · trivial

/-! ### Pages, and the fields of CLK -/

/-- Pages that begin below the TIME page begin at multiples of 4 KiB. -/
theorem Pg.base_low (p : Pg) : 0x2000 ≤ p.base ∨ p.base % 0x1000 = 0 := by
  have hkind : 0x2000 ≤ p.kind.base ∨ p.kind.base % 0x1000 = 0 ∧ p.kind.stride % 0x1000 = 0 := by cases p.kind <;> decide
  rcases hkind with h | ⟨hb, hs⟩
  · exact .inl (Nat.le_add_right_of_le h)
  · refine .inr ?_
    show (p.kind.base + p.kind.stride * p.inst) % 0x1000 = 0
    rw [Nat.add_mod, Nat.mul_mod, hb, hs, Nat.zero_mul]

/-- Of a page's common header only its event sources may be those of CLK. -/
theorem header_notClock (p : Pg) {x : Nat} (hx : x < 0x40) (h14 : x ≠ 0x014) : ¬ clockCell (p.base + x) := by
  have := p.base_low
  unfold clockCell
  omega

section
variable {X : List Row}

theorem clocks_raise_page (p : Pg) {k : Nat} (hk : k < 32) : Prog.Only (Act.clocks X) (raise p k) := by
  refine only_raise _ _ clocks_of_delivers ?_
  by_cases h : p.base = 0x1000
  · exact .inr (.inl ⟨by rw [h], rfl, hk, rfl⟩)
  · have := p.base_low
    refine .inl ?_
    unfold clockCell
    omega

theorem clocks_capture (p : Pg) (code detail : Nat) : Prog.Only (Act.clocks X) (capture p code detail) := fun s => by
  have hinfo : ¬ clockCell (p.base + 0x028) := header_notClock p (by decide) (by decide)
  simp only [only_ite, only_all_cons, only_all_nil, only_one, only_when, clocks_raise_page p (k := 0) (by decide), implies_true, and_true]
  exact ⟨fun _ => .inl hinfo, fun _ => hinfo⟩

theorem clocks_setPend (p : Pg) (v : Bool) : Prog.Only (Act.clocks X) (setPend p v) := by
  simp only [setPend, only_all_cons, only_all_nil, only_one, and_true]
  exact ⟨.inl (header_notClock p (by decide) (by decide)), .inl (header_notClock p (by decide) (by decide))⟩

theorem Kind.low_kinds (k : Kind) (h : k.base < 0x1000) : k ∈ [Kind.top, .none] := by
  revert h
  cases k <;> decide

/-- The kinds of page that begin at offset 0 have their live copies in the first 4 KiB. -/
theorem live_table : ∀ k ∈ [Kind.top, .none], ∀ r ∈ k.rows.filter fun r => r.acc = .rws, ∀ i < r.count, r.off + r.stride * i < 0x800 := by decide

theorem clocks_copyLive (p : Pg) : Prog.Only (Act.clocks X) (copyLive p) := fun _ =>
  only_each _ _ fun r hr => only_each _ _ fun i hi => (only_setLivei ..).2 (.inl (by
    have haddr : r.addr p i = p.base + r.off + r.stride * i := rfl
    unfold clockCell
    by_cases h : p.base < 0x1000
    · have hk : p.kind ∈ [Kind.top, .none] := Kind.low_kinds _ (Nat.lt_of_le_of_lt (Nat.le_add_right _ _) h)
      have := live_table _ hk r hr i (List.mem_range.1 hi)
      have := p.base_low
      omega
    · omega))

theorem clocks_showHeld : Prog.Only (Act.clocks X) showHeld := clocks_acquires fun _ => (only_set ..).2 (acquires_top (by decide) _)

/-- Commits that fall due apply, or are refused with their errors captured, and no field of CLK is written. -/
theorem clocks_commitAtOpen : Prog.Only (Act.clocks X) commitAtOpen := fun s => by
  have hpool : Prog.Only Act.acquires showPool := fun _ => acquires_banks (by simp)
  have happly (ps : List Pg) : Prog.Only (Act.clocks X) (applyPages ps) := fun old => by
    simp only [only_when, only_all_cons, only_all_nil, only_ask, clocks_acquires (acquires_bankEffects old),
      clocks_acquires (acquires_trigEffects old ps), clocks_acquires (acquires_streamEffects old ps), clocks_acquires acquires_placeAll,
      clocks_acquires hpool, and_true]
    exact fun _ => ⟨only_each _ _ fun p _ => clocks_copyLive p, only_each _ _ fun p _ => clocks_setPend p false,
      fun _ => only_each _ _ fun c _ => clocks_acquires (acquires_banks (banks_emptyHist c))⟩
  have hbad (n : Nat) : Prog.Only (Act.clocks X) (admissionRefused n) := by
    simp only [admissionRefused, only_all_cons, only_all_nil, clocks_capture, and_true]
    exact clocks_acquires (by simp [incRaise])
  have hjoint (v : Verdict) : Prog.Only (Act.clocks X) (refuse v) := by
    simp only [refuse, only_all_cons, only_all_nil, and_true]
    refine ⟨only_each _ _ fun e _ => ?_, only_each _ _ fun n _ => hbad n, ?_⟩
    · simp only [only_all_cons, only_all_nil, clocks_setPend, clocks_capture, and_self]
    · split
      · trivial
      · simp only [only_all_cons, only_all_nil, only_when, and_true]
        refine ⟨only_each _ _ fun p _ => clocks_setPend p false, ?_, fun _ => clocks_raise_page _ (by decide), ?_⟩
        · split
          · exact clocks_capture _ _ _
          · trivial
        · split
          · simp only [only_all_cons, only_all_nil, only_ask, clocks_capture, implies_true, and_true]
            exact clocks_acquires (by simp [incRaise])
          · trivial
  simp only [only_all_cons, only_all_nil, only_ite, happly, hjoint, clocks_showHeld, implies_true, and_self]

end

/-! ### The frame opens (R167, R181) -/

theorem high_base_mc (m : Nat) : 0x10000 ≤ (pgMc m).base := Nat.le_add_right_of_le (show 0x10000 ≤ 0x300000 by decide)

theorem clocks_setPower (v : Nat) : Prog.Only (Act.clocks [R.CLK_SQ_HALF]) (setPower v) := fun s => by
  have hstate : Prog.Only (Act.clocks [R.CLK_SQ_HALF]) (.set pgPwr R.PWR_STATE v) := (only_set ..).2 (.inl (by
    show ¬ clockCell 0x5040
    unfold clockCell
    omega))
  have hmode (m w : Nat) : Prog.Only Act.acquires (.set (pgMc m) R.MC_MODE w) :=
    (only_set ..).2 (acquires_fld (high_base_mc m) _ _ _ _ _)
  simp only [only_all_cons, only_all_nil, only_when, hstate, clocks_raise_page pgPwr (k := 1) (by decide), implies_true, true_and, and_true]
  exact ⟨clocks_set (by decide) (by decide) _, only_each _ _ fun m _ => clocks_acquires (hmode m _)⟩

theorem acquires_finishWaiters (op status result : Nat) : Prog.Only Act.acquires (finishWaiters op status result) :=
  acquires_banks (Prog.Only.mono banks_of_completes _ (completes_finishWaiters op status result))

theorem acquires_set_top {r : Row} (h : r.off + r.stride * 0 < 0x1000) (v : Nat) : Prog.Only Act.acquires (.set pgTop r v) :=
  (only_set ..).2 (acquires_top h v)

theorem clocks_frameOpens (q : Nat) : Prog.Only (Act.clocks [R.CLK_SQ_HALF]) (frameOpens q) := fun s => by
  have htop {r : Row} (h : r.off + r.stride * 0 < 0x1000) (v : Nat) : Prog.Only (Act.clocks [R.CLK_SQ_HALF]) (.set pgTop r v) :=
    clocks_acquires (acquires_set_top h v)
  have hstreams (l : List Nat) : Prog.Only Act.acquires (.each l fun n => .all [joinFrame n q 0, .set (pgSt n) R.ST_DRAINED 0]) :=
    only_each _ _ fun n _ => by
      have hjoin : Prog.Only Act.acquires (joinFrame n q 0) := fun _ => by simp
      simp [hjoin]
  have htdcs : Prog.Only Act.acquires (.each (List.range 16) tdcStat) := only_each _ _ fun k _ => fun _ => by simp
  have hchans (f : Nat → Chan → Chan) : Prog.Only Act.acquires (.each (List.range 8) fun c => modChan c (f c)) := only_each _ _ fun c _ => by simp
  simp only [only_all_cons, only_all_nil, only_when, clocks_setPower, clocks_acquires (hstreams _), clocks_acquires htdcs, clocks_acquires (hchans _),
    clocks_acquires (acquires_onSeg _), clocks_acquires (acquires_trig _), clocks_acquires (acquires_raise_top 1),
    clocks_acquires (acquires_setQ_top (r := R.TOP_OPEN_TIME) (by decide) q), true_and, and_true]
  exact ⟨fun _ => htop (by decide) _, htop (by decide) _, htop (by decide) _, htop (by decide) _, clocks_time fun _ => ⟨rfl, rfl⟩⟩

theorem clocks_openNow (q : Nat) : Prog.Only (Act.clocks [R.CLK_SQ_HALF]) (openNow q) := fun s => by
  dsimp only
  split
  · simp only [only_all_cons, only_all_nil, clocks_commitAtOpen, clocks_acquires (acquires_onSeg _), only_ite,
      clocks_acquires (acquires_finishWaiters _ _ _), clocks_acquires (acquires_set_top (r := R.TOP_STATE) (by decide) _),
      clocks_acquires (acquires_set_top (r := R.TOP_FRAME_REPEAT) (by decide) _), implies_true, and_self]
  · simp only [only_all_cons, only_all_nil, clocks_commitAtOpen, clocks_frameOpens, clocks_acquires (acquires_finishWaiters _ _ _), and_self]

/-- An open that waited for the clocks goes on. -/
theorem clocks_openPendingAt (q : Nat) : Prog.Only (Act.clocks [R.CLK_SQ_HALF]) (openPendingAt q) := fun s => by
  have hlate (v : Nat) := clocks_acquires (X := [R.CLK_SQ_HALF]) (acquires_set_top (r := R.TOP_LATE_OPEN) (by decide) v)
  have hstate (v : Nat) := clocks_acquires (X := [R.CLK_SQ_HALF]) (acquires_set_top (r := R.TOP_STATE) (by decide) v)
  have htry : Prog.Only (Act.clocks [R.CLK_SQ_HALF]) tryOpen := fun s => by
    simp only [only_ite, only_all_cons, only_all_nil, clocks_openNow, clocks_acquires (acquires_onSeg _), hlate, implies_true, and_self]
  have harm : Prog.Only (Act.clocks [R.CLK_SQ_HALF]) armOpen := fun s => by
    simp only [only_all_cons, only_all_nil, clocks_acquires (acquires_onSeg _), hlate, hstate, true_and, and_true]
    split
    · exact clocks_acquires (acquires_finishWaiters _ _ _)
    · simp only [only_ite, only_all_cons, only_all_nil, hlate, htry, clocks_acquires (acquires_finishWaiters _ _ _), implies_true, and_self]
    · exact htry
  simp only [only_when, only_ite, harm, clocks_openNow, implies_true, and_self]

end Sys2Proof.Machine

/-! SUPPORT. Proofs: the states of a lock, its timeouts and failures, and RUN (R281, R282, R285). -/

namespace Sys2Proof.Machine

/-! ### Search and pull-in (R281) -/

section
variable {X : List Row} {q : Prog} {r : Row}

/-- A field that is set and then kept. -/
theorem get_set_clocks (hq : Prog.Only (Act.clocks X) q) (hs : r.sound = true) (hr : r.clockApart X = true) {v : Nat}
    (hv : v < 2 ^ (r.hi + 1 - r.lo)) (s : State) : (run q (run (.set pgClk r v) s)).get pgClk r = v := by
  rw [get_of_clocks hq hr, get_set_same s pgClk r v hs, Nat.mod_eq_of_lt hv]

end

/-- What the end of a search shows: the band, the time it took and LOCKING. -/
theorem scsSearchDone_shows {s : State} (h : s.get pgClk R.CLK_STATE = 1) (x y : Nat) :
    Completes (.scsSearchDone x y) s fun t => t.get pgClk R.CLK_STATE = 2 ∧ t.get pgClk R.CLK_BAND = x % 64 ∧
      t.get pgClk R.CLK_SEARCH_T = min 0xFFFF y ∧ RegsOnly s t := by
  have hsearch : Prog.Only (Act.clocks [R.CLK_SEARCH_T]) (.all [.set pgClk R.CLK_SEARCH_T (min 0xFFFF y)]) :=
    (only_all_cons ..).2 ⟨clocks_set (by decide) (by decide) _, trivial⟩
  have hband : Prog.Only (Act.clocks [R.CLK_BAND, R.CLK_SEARCH_T])
      (.all [.set pgClk R.CLK_BAND x, .set pgClk R.CLK_SEARCH_T (min 0xFFFF y)]) := by
    simp only [only_all_cons, only_all_nil, and_true]
    exact ⟨clocks_set (by decide) (by decide) _, clocks_set (by decide) (by decide) _⟩
  refine completes_of_when rfl (decide_eq_true h) ?_
  rw [run_all_cons]
  refine ⟨get_set_clocks hband (by decide) (by decide) (by decide) s, ?_, ?_, rfl⟩
  · rw [run_all_cons, get_of_clocks hsearch (by decide), get_set_same _ _ _ _ (by decide)]
    rfl
  · rw [run_pair, get_set_same _ _ _ _ (by decide)]
    exact Nat.mod_eq_of_lt (by show min 0xFFFF y < 65536; omega)

theorem scsLockingDone_settles {s : State} (h : s.get pgClk R.CLK_STATE = 2) (x : Nat) (err : Int) :
    Completes (.scsLockingDone x err) s fun t => t.get pgClk R.CLK_STATE = 3 ∧ t.get pgClk R.CLK_LOCK_T = min 0xFFFF x ∧ t.time.coarse = 0 := by
  have htime : Prog.Only (Act.clocks [R.CLK_PHASE_ERR]) (.all [.set pgClk R.CLK_PHASE_ERR (unsgn 32 (clampS 32 err)),
      .time fun x => { x with coarse := 0 }]) := by
    simp only [only_all_cons, only_all_nil, and_true]
    exact ⟨clocks_set (by decide) (by decide) _, clocks_time fun _ => ⟨rfl, rfl⟩⟩
  have hrest : Prog.Only (Act.clocks [R.CLK_LOCK_T, R.CLK_PHASE_ERR]) (.all [.set pgClk R.CLK_LOCK_T (min 0xFFFF x),
      .set pgClk R.CLK_PHASE_ERR (unsgn 32 (clampS 32 err)), .time fun x => { x with coarse := 0 }]) := by
    simp only [only_all_cons, only_all_nil, and_true]
    exact ⟨clocks_set (by decide) (by decide) _, clocks_set (by decide) (by decide) _, clocks_time fun _ => ⟨rfl, rfl⟩⟩
  refine completes_of_when rfl (decide_eq_true h) ?_
  rw [run_all_cons]
  refine ⟨get_set_clocks hrest (by decide) (by decide) (by decide) s, ?_, rfl⟩
  rw [run_all_cons]
  exact get_set_clocks htime (by decide) (by decide) (by show min 0xFFFF x < 65536; omega) _

/-! ### Timeouts and failures (R281) -/

theorem lockingTimeout_scs {s : State} (h : s.get pgClk R.CLK_STATE = 2) :
    Completes (.lockingTimeout 0) s fun t => t.get pgClk R.CLK_STATE = 1 ∧ t.time.lockTry = s.time.lockTry + 1 := by
  refine completes_of_when rfl (decide_eq_true h) ?_
  rw [run_pair, get_onTime]
  exact ⟨get_set_same s pgClk R.CLK_STATE 1 (by decide), rfl⟩

section
variable {s : State} (h : s.get pgClk R.CLK_CPLL_STATE = 1 ∨ s.get pgClk R.CLK_CPLL_STATE = 2)
include h

theorem cpll_locks : (decide (s.get pgClk R.CLK_CPLL_STATE = 1) || decide (s.get pgClk R.CLK_CPLL_STATE = 2)) = true := by
  simpa using h

theorem lockingTimeout_cpll :
    Completes (.lockingTimeout 1) s fun t => t.get pgClk R.CLK_CPLL_STATE = 1 ∧ t.time.cpllTry = s.time.cpllTry + 1 := by
  refine completes_of_when rfl (cpll_locks h) ?_
  rw [run_pair, get_onTime, cpllSearch, run_ask, run_pair, get_onTime]
  exact ⟨get_set_same s pgClk R.CLK_CPLL_STATE 1 (by decide), rfl⟩

theorem cpllLocked_runs (x : Nat) :
    Completes (.cpllLocked x) s fun t => t.get pgClk R.CLK_CPLL_STATE = 4 ∧ t.get pgClk R.CLK_CPLL_BAND = x % 64 ∧ t.time.cpllTry = 0 := by
  refine completes_of_when rfl (cpll_locks h) ?_
  rw [run_all_cons, run_pair, get_onTime, get_onTime, get_set_other _ _ _ R.CLK_CPLL_BAND R.CLK_CPLL_STATE _ (by decide) (by decide)]
  refine ⟨get_set_same s pgClk R.CLK_CPLL_STATE 4 (by decide), ?_, rfl⟩
  rw [get_set_same _ _ _ _ (by decide)]
  rfl

end

/-- The act leaves the fault log. -/
def Act.keepsFaults (a : Act) : Prop := ∀ s, (applyAct a s).faults = s.faults

/-- A fault that is logged stands first in the log, with the present Q-time. -/
theorem faults_logFault (code ty detail : Nat) (s : State) : (run (logFault code ty detail) s).faults.head? = some ⟨s.now, code, ty, detail⟩ := by
  have hdeliver (a : Act) (h : a.delivers) : a.keepsFaults := fun s => by
    cases a with
    | fld | mem | emit | host | tx => rfl
    | _ => exact h.elim
  have hfld (b hi lo v : Nat) : (Act.fld b hi lo v).keepsFaults := fun _ => rfl
  have hshow : Prog.Only Act.keepsFaults (.all [.inc pgTop R.TOP_FLOG_COUNT, raise pgTop 10]) := by
    simp only [only_all_cons, only_all_nil, and_true]
    exact ⟨only_inc _ _ fun _ => hfld _ _ _ _, only_raise _ _ hdeliver (hfld _ _ _ _)⟩
  rw [logFault, run_ask, run_all_cons, hshow.keeps State.faults fun a t ha => ha t]
  rfl

section
variable {s : State} {f : TimeB → TimeB}

theorem errInfo_onTime (p : Pg) : (run (.time f) s).errInfo p = s.errInfo p := rfl

theorem faults_onTime : (run (.time f) s).faults = s.faults := rfl

end

theorem lockFail_scs {s : State} (h : 3 ≤ s.time.lockTry) :
    Completes (.lockFail 0) s fun t => t.time.lockTry = 0 ∧ Captured s t pgClk 0x20 (s.get pgClk R.CLK_BAND * 2 ^ 8) ∧
      t.faults.head? = some ⟨s.now, 0x08, 2, s.get pgClk R.CLK_BAND * 2 ^ 8⟩ := by
  refine completes_of_when rfl (decide_eq_true h) ?_
  rw [run_all_cons, run_pair]
  have hcaptured := captured_capture (p := pgClk) (s := s) rfl (by decide) 0x20 (s.get pgClk R.CLK_BAND * 2 ^ 8)
  have hnow : (run (capture pgClk 0x20 (s.get pgClk R.CLK_BAND * 2 ^ 8)) s).now = s.now := by
    obtain ⟨-, -, -, -, htime, -⟩ := only_light (light_capture pgClk 0x20 (s.get pgClk R.CLK_BAND * 2 ^ 8)) s
    rw [State.now, htime, State.now]
  generalize run (capture pgClk 0x20 (s.get pgClk R.CLK_BAND * 2 ^ 8)) s = u at hcaptured hnow
  refine ⟨rfl, hcaptured.of_errInfo_eq rfl ?_, ?_⟩
  · rw [errInfo_onTime]
    exact errInfo_of_spares (p := pgClk) (spares_logFault _ _ _ (by decide) (by decide)) u
  · rw [faults_onTime, ← hnow]
    exact faults_logFault _ _ _ u

/-! ### RUN (R281, R282, R285) -/

/-- Where the grid is restored on XCLK, the tie of a lock is the last one extrapolated. -/
theorem lockTie_restored {s : State} {z : Tie} (hz : s.tie = some z) (hm : s.time.moved = false) (hcfg : s.time.lockCfg = s.fsbSet)
    (hx : s.live pgClk R.CLK_SCS_REF = 0) (cc x y : Nat) :
    s.lockTie cc x y = { qref := z.qref + (cc - z.cref) * z.per, cref := cc, per := z.per } := by
  simp [State.lockTie, hz, hm, hcfg, hx]

/-- What shows RUN. -/
def runShown (v us : Nat) : Prog :=
  .all [showFsb v, raise pgClk 1, raise pgClk 9, .add pgClk R.CLK_CNT_GATED_US us]

/-- What follows once the tie of a lock stands: the channels and definitions go on, what a new rate calls for starts, and an open that waited is made. -/
def runEffects (s : State) (same : Bool) : Prog :=
  .all [
    syncStops,
    .when (s.time.moved || (!same && decide (s.time.lockCfg ≠ 0))) (.each (which 8 s.chanExists) emptyHist),
    .when (!same && decide (s.time.lockCfg ≠ 0)) (.all [
      .when (s.fstate = 2) (.seg fun g => { g with rateChg := List.range 8 }),
      .each (s.cal.runs.map (·.1)) abortRun, startCalAll]),
    .ask fun t => resumeDefs ((List.range 16).filter fun d =>
      !([0, 1].any fun die => Tab.get t.conv.dieRst false die && (t.defsOfDie die).contains d)),
    .ask fun t => openPendingAt (t.cclkQ t.time.cc)]

theorem clocks_runShown (v us : Nat) : Prog.Only (Act.clocks [R.CLK_CNT_GATED_US]) (runShown v us) := by
  simp only [runShown, only_all_cons, only_all_nil, clocks_showFsb, clocks_raise, Nat.reduceLT, true_and, and_true]
  exact only_add _ _ _ (clocks_row (by decide) (by decide))

theorem raised_runShown (v us : Nat) (s : State) : (run (runShown v us) s).raised pgClk 1 = true ∧ (run (runShown v us) s).raised pgClk 9 = true := by
  have hadd : Prog.Only (Act.clocks [R.CLK_CNT_GATED_US]) (.add pgClk R.CLK_CNT_GATED_US us) :=
    only_add _ _ _ (clocks_row (by decide) (by decide))
  simp only [runShown, run_all_cons, run_all_end]
  exact ⟨raised_of_clocks hadd (by decide) (raised_of_clocks (X := []) (clocks_raise (by decide)) rfl (raised_clk (by decide) _)),
    raised_of_clocks hadd (by decide) (raised_clk (by decide) _)⟩

theorem clocks_runEffects (s : State) (same : Bool) : Prog.Only (Act.clocks [R.CLK_SQ_HALF]) (runEffects s same) := by
  have hempty : Prog.Only Act.acquires (.each (which 8 s.chanExists) emptyHist) :=
    only_each _ _ fun c _ => acquires_banks (banks_emptyHist c)
  have habort : Prog.Only Act.acquires (.each (s.cal.runs.map (·.1)) abortRun) := only_each _ _ fun r _ => acquires_abortRun r
  simp only [runEffects, only_all_cons, only_all_nil, only_when, only_ask, clocks_acquires acquires_syncStops, clocks_acquires hempty,
    clocks_acquires habort, clocks_acquires acquires_startCalAll, clocks_acquires (acquires_onSeg _), clocks_acquires (acquires_resumeDefs _),
    clocks_openPendingAt, implies_true, and_self]

/-- The program of RUN in three parts: what it shows, the tie of the lock, and what follows. -/
theorem run_scsRuns (x y : Nat) (s : State) : ∃ us cc f, (∀ t : TimeB, (f t).cc = cc) ∧
    run (scsRuns x y) s = run (runEffects s (decide (s.time.lockCfg = s.fsbSet))) (run (setTie (s.lockTie cc x y)) (run (.time f)
      (run (runShown s.fsbSet us) (run (.all [.set pgClk R.CLK_STATE 4, .set pgClk R.CLK_GATED 0, .set pgClk R.CLK_RELOCK 0]) s)))) := by
  simp only [scsRuns, runShown, runEffects, run_ask, run_all_cons, run_all_end]
  exact ⟨_, _, _, fun _ => rfl, rfl⟩

/-- A tie writes no cell of the CLK page. -/
theorem cell_setTie (x : Tie) {a : Nat} (ha : a < 0x2000) (s : State) : (run (setTie x) s).cell a = s.cell a := by
  have hrow (r : Row) (hi lo v : Nat) : (Act.fld (r.addr pgTime 0) hi lo v).spares a := by
    show a ≠ 0x2000 + r.off + r.stride * 0
    omega
  refine only_cell ?_ s
  simp only [setTie, only_all_cons, only_all_nil, only_ask, only_set, hrow, implies_true, and_true]
  exact ⟨⟨trivial, trivial⟩, only_set64 _ _ _ _ (hrow _ _ _) (hrow _ _ _)⟩

theorem scsLocked_runs {s : State} (h : s.get pgClk R.CLK_STATE = 3) (x y : Nat) :
    Completes (.scsLocked x y) s fun t => t.get pgClk R.CLK_STATE = 4 ∧ t.get pgClk R.CLK_GATED = 0 ∧ t.raised pgClk 1 = true ∧
      t.raised pgClk 9 = true ∧ t.get pgClk R.CLK_RELOCK = 0 ∧ t.time.ties.head? = some (s.lockTie t.time.cc x y) := by
  refine completes_of_when rfl (decide_eq_true h) ?_
  obtain ⟨us, cc, f, hcc, hrun⟩ := run_scsRuns x y s
  rw [hrun]
  generalize hu : run (.all [.set pgClk R.CLK_STATE 4, .set pgClk R.CLK_GATED 0, .set pgClk R.CLK_RELOCK 0]) s = u
  have hset : u.get pgClk R.CLK_STATE = 4 ∧ u.get pgClk R.CLK_GATED = 0 ∧ u.get pgClk R.CLK_RELOCK = 0 := by
    rw [← hu, run_all_cons, run_pair]
    refine ⟨?_, ?_, get_set_same _ pgClk R.CLK_RELOCK 0 (by decide)⟩
    · rw [get_set_other _ _ _ R.CLK_RELOCK R.CLK_STATE _ (by decide) (by decide), get_set_other _ _ _ R.CLK_GATED R.CLK_STATE _ (by decide) (by decide)]
      exact get_set_same _ pgClk R.CLK_STATE 4 (by decide)
    · rw [get_set_other _ _ _ R.CLK_RELOCK R.CLK_GATED _ (by decide) (by decide)]
      exact get_set_same _ pgClk R.CLK_GATED 0 (by decide)
  obtain ⟨hraised1, hraised9⟩ := raised_runShown s.fsbSet us u
  have hshown {r : Row} (hr : r.clockApart [R.CLK_CNT_GATED_US] = true) := get_of_clocks (clocks_runShown s.fsbSet us) hr u
  generalize run (runShown s.fsbSet us) u = v at hraised1 hraised9 hshown
  generalize hw : run (setTie (s.lockTie cc x y)) (run (.time f) v) = w
  have hcells {a : Nat} (ha : a < 0x2000) : w.cell a = v.cell a := by
    rw [← hw, cell_setTie _ ha]
    rfl
  have hclk {r : Row} (hr : r.off < 0x1000) : w.get pgClk r = v.get pgClk r := by
    rw [State.get, State.geti, hcells, State.get, State.geti]
    show 0x1000 + r.off < 0x2000
    omega
  have hevents (k : Nat) : w.raised pgClk k = v.raised pgClk k := by
    rw [State.raised, State.evtRaw, hcells (by decide), State.raised, State.evtRaw]
  have htie : w.time.cc = cc ∧ w.time.ties.head? = some (s.lockTie cc x y) := by
    rw [← hw, time_setTie]
    exact ⟨hcc _, rfl⟩
  have hafter := clocks_runEffects s (decide (s.time.lockCfg = s.fsbSet))
  have hkept {r : Row} (hr : r.clockApart [R.CLK_SQ_HALF] = true) := get_of_clocks hafter hr w
  obtain ⟨hcc', hties⟩ := sameTie_of_clocks hafter w
  obtain ⟨hstate, hgated, hrelock⟩ := hset
  refine ⟨?_, ?_, ?_, ?_, ?_, ?_⟩
  · rw [hkept (by decide), hclk (by decide), hshown (by decide), hstate]
  · rw [hkept (by decide), hclk (by decide), hshown (by decide), hgated]
  · exact raised_of_clocks hafter (by decide) ((hevents 1).trans hraised1)
  · exact raised_of_clocks hafter (by decide) ((hevents 9).trans hraised9)
  · rw [hkept (by decide), hclk (by decide), hshown (by decide), hrelock]
  · rw [hcc', hties, htie.1, htie.2]

end Sys2Proof.Machine

/-! SUPPORT. Proofs: losses of reference and of lock, and the return of REF_IN (R284 to R286). -/

namespace Sys2Proof.Machine

/-! ### Losses (R284, R286) -/

section
variable {a : Nat} (hd : a ∉ deliveryCells) (ha : a < 0x2000 ∨ 0x3000 ≤ a)
include hd ha

/-- Disciplining writes no cell but of the TIME page, and of a delivery. -/
theorem spares_disciplines {X : List Row} {p : Prog} (hp : Prog.Only (Act.disciplines X) p) (hX : (X.all fun x => x.off < 0x1000) = true) :
    Prog.Only (Act.spares a) p := by
  simp only [List.all_eq_true, decide_eq_true_eq] at hX
  refine hp.mono (fun b hb => ?_) p
  cases b with
  | fld b hi lo v =>
    rcases hb with hb | ⟨rfl, -⟩ | ⟨x, hx, rfl, -⟩
    · exact spares_of_delivers a hd (.fld b hi lo v) hb
    · show a ≠ 0x2014
      omega
    · have := hX x hx
      show a ≠ 0x2000 + x.off + x.stride * 0
      omega
  | wr b v =>
    obtain ⟨-, rfl⟩ := hb
    show a ≠ 0x2028
    omega
  | time | mem | emit | host | tx | trig | net | useFree => trivial
  | _ => exact hb.elim

theorem spares_sourceGone (src : Nat) : Prog.Only (Act.spares a) (sourceGone src) := fun s => by
  have hshown (phase : Int) (b : Bool) := spares_disciplines hd ha (disciplines_lossShown src phase b) (by decide)
  have hsettle := spares_disciplines hd ha disciplines_settleSource (by decide)
  have hlost (phase : Int) : Prog.Only (Act.spares a) (sourceLost src phase) := fun s => by
    have := hshown phase (s.get pgTime R.TIME_SEL = src)
    simp only [lossShown, only_all_cons, only_all_nil, and_true] at this
    simp only [only_when, only_all_cons, only_all_nil, hsettle, this, and_true]
    exact fun _ => ⟨trivial, trivial⟩
  rw [only_when]
  exact fun _ _ => ⟨trivial, hlost _⟩

end

/-- The loss of its reference, by the SCS that follows REF_IN. -/
def scsLosesRef : Prog :=
  .all [.set pgClk R.CLK_STATE 5, .set pgClk R.CLK_RELOCK 0, incRaise pgClk R.CLK_CNT_LOSS_REF 3, logFault 0x0C Kind.clk.ty 0, scsGate]

theorem run_lostRef {s : State} (href : s.live pgClk R.CLK_SCS_REF = 1) (h0 : s.get pgClk R.CLK_STATE ≠ 0) (h5 : s.get pgClk R.CLK_STATE ≠ 5) :
    run lostRef s = run scsLosesRef (run (sourceGone 5) (run (.time fun t => { t with refSince := none }) (run (.set pgClk R.CLK_REF_OK 0) s))) := by
  simp only [lostRef, run_ask, run_all_cons, run_all_end, run_when, href, decide_eq_true h0, decide_eq_true h5, decide_true, Bool.and_self, if_true,
    scsLosesRef]

theorem clocks_scsLosesRef : Prog.Only (Act.clocks [R.CLK_STATE, R.CLK_RELOCK, R.CLK_CNT_LOSS_REF, R.CLK_GATED]) scsLosesRef := by
  simp only [scsLosesRef, only_all_cons, only_all_nil, clocks_logFault, true_and, and_true]
  exact ⟨clocks_set (by decide) (by decide) _, clocks_set (by decide) (by decide) _, clocks_incRaise (by decide) (by decide) (by decide),
    clocks_scsGate (by decide)⟩

theorem scsLosesRef_loses (s : State) : let t := run scsLosesRef s
    t.get pgClk R.CLK_STATE = 5 ∧ t.get pgClk R.CLK_GATED = 1 ∧ t.raised pgClk 3 = true ∧ Counted s t pgClk R.CLK_CNT_LOSS_REF 1 := by
  have hafter : Prog.Only (Act.clocks [R.CLK_GATED]) (.all [logFault 0x0C Kind.clk.ty 0, scsGate]) := by
    simp only [only_all_cons, only_all_nil, clocks_logFault, clocks_scsGate (X := [R.CLK_GATED]) (by decide), and_self]
  have hrest : Prog.Only (Act.clocks [R.CLK_RELOCK, R.CLK_CNT_LOSS_REF, R.CLK_GATED]) (.all [.set pgClk R.CLK_RELOCK 0,
      incRaise pgClk R.CLK_CNT_LOSS_REF 3, logFault 0x0C Kind.clk.ty 0, scsGate]) := by
    simp only [only_all_cons, only_all_nil, clocks_logFault, true_and, and_true]
    exact ⟨clocks_set (by decide) (by decide) _, clocks_incRaise (by decide) (by decide) (by decide), clocks_scsGate (by decide)⟩
  have hstate : (run scsLosesRef s).get pgClk R.CLK_STATE = 5 := by
    rw [scsLosesRef, run_all_cons]
    exact get_set_clocks hrest (by decide) (by decide) (by decide) s
  refine ⟨hstate, ?_, ?_⟩
  · simp only [scsLosesRef, run_all_cons, run_all_end, scsGate_gates]
  · rw [scsLosesRef, run_all_cons, run_all_cons, run_all_cons]
    obtain ⟨hcount, hraised⟩ := counted_clk (r := R.CLK_CNT_LOSS_REF) (k := 3) (by decide) (by decide) (by decide)
      (run (.set pgClk R.CLK_RELOCK 0) (run (.set pgClk R.CLK_STATE 5) s))
    have hbefore : (run (.set pgClk R.CLK_RELOCK 0) (run (.set pgClk R.CLK_STATE 5) s)).get pgClk R.CLK_CNT_LOSS_REF =
        s.get pgClk R.CLK_CNT_LOSS_REF := by
      rw [get_set_other _ _ _ _ _ _ (by decide) (by decide), get_set_other _ _ _ _ _ _ (by decide) (by decide)]
    exact ⟨raised_of_clocks hafter (by decide) hraised, (hcount.before hbefore).after (get_of_clocks hafter (by decide) _)⟩

theorem scsLostRef_loses {s : State} (href : s.live pgClk R.CLK_SCS_REF = 1) (h0 : s.get pgClk R.CLK_STATE ≠ 0) (h5 : s.get pgClk R.CLK_STATE ≠ 5) :
    Completes .scsLostRef s fun t => t.get pgClk R.CLK_STATE = 5 ∧ t.get pgClk R.CLK_GATED = 1 ∧ t.get pgClk R.CLK_REF_OK = 0 ∧
      t.raised pgClk 3 = true ∧ Counted s t pgClk R.CLK_CNT_LOSS_REF 1 := by
  refine ⟨run lostRef s, rfl, ?_⟩
  rw [run_lostRef href h0 h5]
  generalize hu : run (sourceGone 5) (run (.time fun t => { t with refSince := none }) (run (.set pgClk R.CLK_REF_OK 0) s)) = u
  have hgone {r : Row} (hd : r.addr pgClk 0 ∉ deliveryCells) (hr : r.addr pgClk 0 < 0x2000) :
      u.get pgClk r = (run (.set pgClk R.CLK_REF_OK 0) s).get pgClk r := by
    rw [← hu, only_get (spares_sourceGone hd (.inl hr) 5), get_onTime]
  have hrefOk : u.get pgClk R.CLK_REF_OK = 0 := by
    rw [hgone (by decide) (by decide)]
    exact get_set_same s pgClk R.CLK_REF_OK 0 (by decide)
  have hcnt : u.get pgClk R.CLK_CNT_LOSS_REF = s.get pgClk R.CLK_CNT_LOSS_REF := by
    rw [hgone (by decide) (by decide)]
    exact get_set_other s pgClk pgClk R.CLK_REF_OK R.CLK_CNT_LOSS_REF 0 (by decide) (by decide)
  obtain ⟨hstate, hgated, hraised, hcount⟩ := scsLosesRef_loses u
  exact ⟨hstate, hgated, (get_of_clocks clocks_scsLosesRef (by decide) u).trans hrefOk, hraised, hcount.before hcnt⟩

theorem scsLostLock_searches {s : State} (h : s.get pgClk R.CLK_STATE = 4) :
    Completes .scsLostLock s fun t => t.get pgClk R.CLK_STATE = 1 ∧ t.get pgClk R.CLK_GATED = 1 ∧ t.raised pgClk 2 = true ∧
      Counted s t pgClk R.CLK_CNT_LOSS_LOCK 1 := by
  have hafter : Prog.Only (Act.clocks lockRows) (.all [logFault 0x0C Kind.clk.ty 0, startLock]) := by
    simp only [only_all_cons, only_all_nil, clocks_logFault, clocks_startLock (X := lockRows) (by decide), and_self]
  refine completes_of_when rfl (decide_eq_true h) ?_
  rw [run_all_cons, run_all_cons]
  obtain ⟨hcount, hraised⟩ := counted_clk (r := R.CLK_CNT_LOSS_LOCK) (k := 2) (by decide) (by decide) (by decide) (run (.set pgClk R.CLK_STATE 6) s)
  generalize run (incRaise pgClk R.CLK_CNT_LOSS_LOCK 2) _ = u at hcount hraised
  have hkept := get_of_clocks (r := R.CLK_CNT_LOSS_LOCK) hafter (by decide) u
  have hraised' := raised_of_clocks hafter (by decide) hraised
  rw [run_pair] at hkept hraised' ⊢
  obtain ⟨hstate, hgated⟩ := startLock_starts (run (logFault 0x0C Kind.clk.ty 0) u)
  exact ⟨hstate, hgated, hraised', (hcount.before (get_set_other s _ _ _ _ _ (by decide) (by decide))).after hkept⟩

/-! ### REF_IN returns (R286) -/

/-- What shows that REF_IN has returned with an offset, in a state s. -/
def refShown (s : State) (err : Int) : Prog :=
  .all [.set pgClk R.CLK_REF_OFFSET (unsgn 32 (clampS 32 err)), raise pgClk 4, .time fun t => { t with refSince := some (s.now - msQ 10) }]

theorem clocks_refShown (s : State) (err : Int) : Prog.Only (Act.clocks [R.CLK_REF_OFFSET]) (refShown s err) := by
  simp only [refShown, only_all_cons, only_all_nil, clocks_raise, Nat.reduceLT, true_and, and_true]
  exact ⟨clocks_set (by decide) (by decide) _, clocks_time fun _ => ⟨rfl, rfl⟩⟩

theorem raised_refShown (s : State) (err : Int) (u : State) : (run (refShown s err) u).raised pgClk 4 = true := by
  rw [refShown, run_all_cons, run_pair]
  exact raised_clk (by decide) _

/-- REF_IN has returned: it shows, and a lost lock starts anew where AUTO_RELOCK asks for it. -/
theorem exec_refReturn {s : State} (hnom : s.live pgClk R.CLK_REF_NOM ≠ 0) (hok : s.get pgClk R.CLK_REF_OK = 0) (err : Int) :
    exec (.refReturn err) s = .next (run (.when (decide (s.get pgClk R.CLK_STATE = 5) && decide (s.live pgClk R.CLK_AUTO_RELOCK = 1)) startLock)
      (run (refShown s err) (run (.set pgClk R.CLK_REF_OK 1) s))) := by
  show Host.Outcome.next (run (.when (decide (s.live pgClk R.CLK_REF_NOM ≠ 0) && decide (s.get pgClk R.CLK_REF_OK = 0)) _) s) = _
  rw [decide_eq_true hnom, decide_eq_true hok, Bool.and_self, run_when, if_pos rfl]
  simp only [refShown, run_all_cons, run_all_end]

theorem refReturn_returns {s : State} (hnom : s.live pgClk R.CLK_REF_NOM ≠ 0) (hok : s.get pgClk R.CLK_REF_OK = 0) (err : Int) :
    Completes (.refReturn err) s fun t => t.get pgClk R.CLK_REF_OK = 1 ∧ t.raised pgClk 4 = true ∧
      t.get pgClk R.CLK_STATE = if s.get pgClk R.CLK_STATE = 5 ∧ s.live pgClk R.CLK_AUTO_RELOCK = 1 then 1 else s.get pgClk R.CLK_STATE := by
  refine ⟨_, exec_refReturn hnom hok err, ?_⟩
  have hrefOk := get_set_clocks (clocks_refShown s err) (r := R.CLK_REF_OK) (by decide) (by decide) (v := 1) (by decide) s
  have hstate := (get_of_clocks (clocks_refShown s err) (r := R.CLK_STATE) (by decide) _).trans
    (get_set_other s pgClk pgClk R.CLK_REF_OK R.CLK_STATE 1 (by decide) (by decide))
  have hraised := raised_refShown s err (run (.set pgClk R.CLK_REF_OK 1) s)
  generalize run (refShown s err) _ = u at hrefOk hstate hraised
  have hlock (c : Bool) : Prog.Only (Act.clocks lockRows) (.when c startLock) := (only_when ..).2 fun _ => clocks_startLock (List.Subset.refl _)
  refine ⟨(get_of_clocks (hlock _) (by decide) u).trans hrefOk, raised_of_clocks (hlock _) (by decide) hraised, ?_⟩
  rw [run_when, ← Bool.decide_and]
  simp only [decide_eq_true_eq]
  split
  · exact (startLock_starts u).1
  · exact hstate

end Sys2Proof.Machine

/-! SUPPORT. Proofs: an edge of SYNC_IN (R289). -/

namespace Sys2Proof.Machine

/-- The pulse that SYNC_OUT repeats an edge of SYNC_IN with. -/
def syncEcho (s : State) : Prog :=
  .when (s.live pgClk R.CLK_SYNC_OUT_MODE = 2) (.all [
    .out (.pin pinSyncOut (s.live pgClk R.CLK_SYNC_OUT_POL = 0)), .out (.pin pinSyncOut (s.live pgClk R.CLK_SYNC_OUT_POL = 1))])

/-- What an edge of SYNC_IN that acts shows. -/
def syncActs (s : State) : Prog :=
  .all [.set pgClk R.CLK_SYNC_ARM 0, .set pgClk R.CLK_SYNCED 1, incRaise pgClk R.CLK_CNT_SYNC_ACT 5, syncEcho s]

/-- What follows where it moves the dividers. -/
def syncMoves : Prog :=
  .all [incRaise pgClk R.CLK_CNT_SYNC_MOVED 6, scsGate, .set pgClk R.CLK_STATE 3, .time fun t => { t with moved := true, coarse := 0, meas := [] }]

section
variable {s : State} {b inPhase : Bool} (hb : b ≠ decide (s.live pgClk R.CLK_SYNC_POL = 1)) (href : s.live pgClk R.CLK_SCS_REF = 1)
  (hmode : s.live pgClk R.CLK_SYNC_MODE = 2 ∨ s.live pgClk R.CLK_SYNC_MODE = 1 ∧ s.get pgClk R.CLK_SYNC_ARM = 1)
include hb href hmode

/-- An active edge that SYNC_MODE lets through. -/
theorem run_syncEdge : run (syncEdge b inPhase) s = if s.get pgClk R.CLK_STATE = 4 ∧ s.fstate = 0 then
    run (.when (!inPhase) syncMoves) (run (syncActs s) s) else run (.inc pgClk R.CLK_CNT_SYNC_IGNORED) s := by
  have hactive : (b != decide (s.live pgClk R.CLK_SYNC_POL = 1)) = true := bne_iff_ne.2 hb
  have hmay : (decide (s.live pgClk R.CLK_SYNC_MODE = 2) ||
      (decide (s.live pgClk R.CLK_SYNC_MODE = 1) && decide (s.get pgClk R.CLK_SYNC_ARM = 1))) = true := by simpa using hmode
  have hrun : (s.scsRun && decide (s.fstate = 0)) = decide (s.get pgClk R.CLK_STATE = 4 ∧ s.fstate = 0) := by
    rw [State.scsRun, Bool.decide_and]
  simp only [syncEdge, run_ask, hactive, hmay, href, hrun, decide_true, Bool.and_self, run_when, if_true, run_ite, decide_eq_true_eq,
    run_all_cons, run_all_end, syncActs, syncEcho, syncMoves]

theorem syncInEdge_ignored (h : s.get pgClk R.CLK_STATE ≠ 4 ∨ s.fstate ≠ 0) :
    Completes (.syncInEdge b inPhase) s fun t => Counted s t pgClk R.CLK_CNT_SYNC_IGNORED 1 := by
  refine ⟨run (syncEdge b inPhase) s, rfl, ?_⟩
  rw [run_syncEdge hb href hmode, if_neg (by omega)]
  exact counted_inc _ _ s (by decide)

end

theorem clocks_syncEcho {X : List Row} (s : State) : Prog.Only (Act.clocks X) (syncEcho s) := by
  simp only [syncEcho, only_all_cons, only_all_nil, only_when, clocks_out, implies_true, and_self]

theorem clocks_syncActs (s : State) : Prog.Only (Act.clocks [R.CLK_SYNC_ARM, R.CLK_SYNCED, R.CLK_CNT_SYNC_ACT]) (syncActs s) := by
  simp only [syncActs, only_all_cons, only_all_nil, clocks_syncEcho, and_true]
  exact ⟨clocks_set (by decide) (by decide) _, clocks_set (by decide) (by decide) _, clocks_incRaise (by decide) (by decide) (by decide)⟩

theorem syncActs_acts (s : State) : let t := run (syncActs s) s
    t.get pgClk R.CLK_SYNCED = 1 ∧ t.get pgClk R.CLK_SYNC_ARM = 0 ∧ Counted s t pgClk R.CLK_CNT_SYNC_ACT 1 := by
  have hcounts : Prog.Only (Act.clocks [R.CLK_CNT_SYNC_ACT]) (.all [incRaise pgClk R.CLK_CNT_SYNC_ACT 5, syncEcho s]) := by
    simp only [only_all_cons, only_all_nil, clocks_syncEcho, and_true]
    exact clocks_incRaise (by decide) (by decide) (by decide)
  rw [syncActs, run_all_cons, run_all_cons]
  generalize hu : run (.set pgClk R.CLK_SYNC_ARM 0) s = u
  have harm : u.get pgClk R.CLK_SYNC_ARM = 0 := by
    rw [← hu]
    exact get_set_same s pgClk R.CLK_SYNC_ARM 0 (by decide)
  have hbefore : (run (.set pgClk R.CLK_SYNCED 1) u).get pgClk R.CLK_CNT_SYNC_ACT = s.get pgClk R.CLK_CNT_SYNC_ACT := by
    rw [get_set_other _ _ _ _ _ _ (by decide) (by decide), ← hu, get_set_other _ _ _ _ _ _ (by decide) (by decide)]
  refine ⟨get_set_clocks hcounts (by decide) (by decide) (by decide) u, ?_, ?_⟩
  · rw [get_of_clocks hcounts (by decide), get_set_other _ _ _ _ _ _ (by decide) (by decide), harm]
  · obtain ⟨hcount, -⟩ := counted_clk (r := R.CLK_CNT_SYNC_ACT) (k := 5) (by decide) (by decide) (by decide) (run (.set pgClk R.CLK_SYNCED 1) u)
    rw [run_pair]
    exact (hcount.before hbefore).after (get_of_clocks (X := []) (clocks_syncEcho s) (by decide) _)

theorem clocks_syncMoves : Prog.Only (Act.clocks [R.CLK_CNT_SYNC_MOVED, R.CLK_GATED, R.CLK_STATE]) syncMoves := by
  simp only [syncMoves, only_all_cons, only_all_nil, and_true]
  exact ⟨clocks_incRaise (by decide) (by decide) (by decide), clocks_scsGate (by decide), clocks_set (by decide) (by decide) _,
    clocks_time fun _ => ⟨rfl, rfl⟩⟩

theorem syncMoves_moves (s : State) : let t := run syncMoves s
    t.get pgClk R.CLK_STATE = 3 ∧ t.get pgClk R.CLK_GATED = 1 ∧ Counted s t pgClk R.CLK_CNT_SYNC_MOVED 1 := by
  obtain ⟨hcount, -⟩ := counted_clk (r := R.CLK_CNT_SYNC_MOVED) (k := 6) (by decide) (by decide) (by decide) s
  simp only [syncMoves, run_all_cons, run_all_end, get_onTime]
  generalize run (incRaise pgClk R.CLK_CNT_SYNC_MOVED 6) s = u at hcount
  refine ⟨get_set_same _ pgClk R.CLK_STATE 3 (by decide), ?_, hcount.after ?_⟩
  · rw [get_set_other _ _ _ _ _ _ (by decide) (by decide), scsGate_gates]
  · rw [get_onTime, get_set_other _ _ _ _ _ _ (by decide) (by decide),
      get_of_clocks (X := [R.CLK_GATED]) (clocks_scsGate (by decide)) (by decide)]

theorem syncInEdge_acts {s : State} {b inPhase : Bool} (hb : b ≠ decide (s.live pgClk R.CLK_SYNC_POL = 1)) (href : s.live pgClk R.CLK_SCS_REF = 1)
    (hmode : s.live pgClk R.CLK_SYNC_MODE = 2 ∨ s.live pgClk R.CLK_SYNC_MODE = 1 ∧ s.get pgClk R.CLK_SYNC_ARM = 1)
    (hrun : s.get pgClk R.CLK_STATE = 4) (hframe : s.fstate = 0) :
    Completes (.syncInEdge b inPhase) s fun t => t.get pgClk R.CLK_SYNCED = 1 ∧ t.get pgClk R.CLK_SYNC_ARM = 0 ∧
      Counted s t pgClk R.CLK_CNT_SYNC_ACT 1 ∧ t.get pgClk R.CLK_STATE = (if inPhase then 4 else 3) ∧
      (inPhase = false → t.get pgClk R.CLK_GATED = 1 ∧ Counted s t pgClk R.CLK_CNT_SYNC_MOVED 1) := by
  refine ⟨run (syncEdge b inPhase) s, rfl, ?_⟩
  rw [(run_syncEdge hb href hmode).trans (if_pos ⟨hrun, hframe⟩), run_when]
  obtain ⟨hsynced, harm, hcount⟩ := syncActs_acts s
  have hstate := (get_of_clocks (clocks_syncActs s) (r := R.CLK_STATE) (by decide) s).trans hrun
  have hmoved := get_of_clocks (clocks_syncActs s) (r := R.CLK_CNT_SYNC_MOVED) (by decide) s
  generalize run (syncActs s) s = u at hsynced harm hcount hstate hmoved
  cases inPhase with
  | true =>
    rw [if_neg (by decide : ¬ (!true) = true)]
    exact ⟨hsynced, harm, hcount, hstate, fun h => Bool.noConfusion h⟩
  | false =>
    rw [if_pos (by decide : (!false) = true)]
    have hkept {r : Row} (hr : r.clockApart [R.CLK_CNT_SYNC_MOVED, R.CLK_GATED, R.CLK_STATE] = true) := get_of_clocks clocks_syncMoves hr u
    obtain ⟨hphase, hgated, hmoves⟩ := syncMoves_moves u
    exact ⟨(hkept (by decide)).trans hsynced, (hkept (by decide)).trans harm, hcount.after (hkept (by decide)), hphase,
      fun _ => ⟨hgated, hmoves.before hmoved⟩⟩

end Sys2Proof.Machine

/-! SUPPORT. Proofs: the register of RELOCK and SYNC_ARM, and the events of the clock loops (R281 to R289). -/

namespace Sys2Proof.Machine

/-! ### RELOCK and SYNC_ARM (R288, R289) -/

/-- Self-clearing fields store nothing: a write of 1 starts what they stand for (R49). -/
theorem run_storeWord_selfClearing {p : Pg} {rel v : Nat} (h : ∀ r ∈ p.kind.fieldsAt rel, r.acc = .sc) (s : State) :
    run (storeWord p rel v) s = s := by
  have hnil (l : List Row) : run (.each l fun _ => .nil) s = s := by
    induction l with
    | nil => rfl
    | cons r l ih => rw [run_each_cons, run_nil, ih]
  refine (run_each_congr (fun r hr t => ?_) s).trans (hnil (p.kind.fieldsAt rel))
  rw [run_ask, h r hr]

theorem relock_selfClearing : ∀ r ∈ Kind.clk.fieldsAt 0x04C, r.acc = .sc := by decide +kernel

section
variable {s : State} {fn : Nat} (ha : s.answers fn 0x104C 4 = true)
include ha

/-- A write of the register of RELOCK and SYNC_ARM does what its two bits ask for. -/
theorem run_hostWrite_relock {v : Nat} (hv : v < 4) :
    run (hostWrite fn 0x104C 4 v) s = run (.all [.when (bit v 0) relock, .when (bit v 1) syncArm]) s := by
  have ht : s.target fn 0x104C = (pgClk, 0x04C) := target_at_block s fn (p := pgClk) 0x04C rfl (by decide) (by decide)
  have hmod : v % 2 ^ 32 = v := Nat.mod_eq_of_lt (by omega)
  have hres : reservedWrite pgClk 0x04C [v % 2 ^ 32] = false := by
    rw [hmod]
    interval_cases v <;> decide +kernel
  rw [run_hostWrite_stored ht ha (by decide) rfl rfl hres rfl rfl, run_storeWord_selfClearing relock_selfClearing, hmod]
  rfl

theorem exec_relock : exec (.relock fn) s = .next (run relock s) := by
  show Host.Outcome.next (run (hostWrite fn 0x104C 4 1) s) = _
  rw [run_hostWrite_relock ha (by decide), run_pair, run_when, run_when, if_neg (by decide), if_pos (by decide)]

theorem exec_syncArm : exec (.syncArm fn) s = .next (run syncArm s) := by
  show Host.Outcome.next (run (hostWrite fn 0x104C 4 2) s) = _
  rw [run_hostWrite_relock ha (by decide), run_pair, run_when, run_when, if_pos (by decide), if_neg (by decide)]

theorem relock_relocks (h : s.get pgClk R.CLK_STATE = 4 ∨ s.get pgClk R.CLK_STATE = 5) :
    Completes (.relock fn) s fun t => t.get pgClk R.CLK_STATE = 1 ∧ t.get pgClk R.CLK_GATED = 1 ∧ t.get pgClk R.CLK_RELOCK = 1 := by
  refine completes_of_when (exec_relock ha) (by simpa using h) ?_
  rw [run_pair]
  obtain ⟨hstate, hgated⟩ := startLock_starts (run (.set pgClk R.CLK_RELOCK 1) s)
  exact ⟨hstate, hgated, get_set_clocks (clocks_startLock (List.Subset.refl lockRows)) (by decide) (by decide) (by decide) s⟩

theorem relock_ignored (h4 : s.get pgClk R.CLK_STATE ≠ 4) (h5 : s.get pgClk R.CLK_STATE ≠ 5) :
    Completes (.relock fn) s fun t => t.get pgClk R.CLK_STATE = s.get pgClk R.CLK_STATE ∧ t.get pgClk R.CLK_RELOCK = s.get pgClk R.CLK_RELOCK := by
  have hrun : run relock s = s := by
    rw [relock, run_ask, run_when, if_neg (by simp [h4, h5])]
  exact ⟨s, (exec_relock ha).trans (by rw [hrun]), rfl, rfl⟩

theorem syncArm_arms : Completes (.syncArm fn) s fun t => t.get pgClk R.CLK_SYNC_ARM = 1 ∧ t.get pgClk R.CLK_STATE = s.get pgClk R.CLK_STATE :=
  ⟨_, exec_syncArm ha, get_set_same s pgClk R.CLK_SYNC_ARM 1 (by decide),
    get_set_other s pgClk pgClk R.CLK_SYNC_ARM R.CLK_STATE 1 (by decide) (by decide)⟩

end

/-- Settles O34, a lemma for each event of the clock loops: what a program writes on the CLK page is bounded by the fields of its rows
(`Act.clocks`), so a field that a step sets stands at its end. -/
theorem clockEventsAct : Obligations.ClockEventsAct := by
  unfold Obligations.ClockEventsAct
  intro s x y err b inPhase st cp
  refine ⟨fun h => scsSearchDone_shows h x y, fun h => ⟨scsLockingDone_settles h x err, lockingTimeout_scs h⟩,
    fun h => ⟨lockingTimeout_cpll h, cpllLocked_runs h x⟩, lockFail_scs, fun h => scsLocked_runs h x y, ?_, scsLostRef_loses, scsLostLock_searches,
    fun hnom hok => refReturn_returns hnom hok err, ?_, ?_⟩
  · exact fun z cc hz hm hcfg hx => lockTie_restored hz hm hcfg hx cc x y
  · exact fun hb href hmode => ⟨syncInEdge_acts hb href hmode, syncInEdge_ignored hb href hmode⟩
  · exact fun fn ha => ⟨relock_relocks ha, relock_ignored ha, syncArm_arms ha⟩

end Sys2Proof.Machine
